-- ==== Sys2Proof/Word.lean ====
section
/-!
DEFINITION. Sys2Proof/Word.lean: the words the spec treats as bits, and sparse tables.
00_scope.md R4: every multi-byte field is little-endian, byte 0 at the lowest address.
-/

namespace Sys2Proof

/-- One byte. -/
abbrev Byte := BitVec 8

/-- One register of the window (03 R75: each register is 8 bytes wide). -/
abbrev Word := BitVec 64

/-- One FP32 value, as its bit pattern (04 R124: IEEE 754 binary32). -/
abbrev F32 := BitVec 32

/-- One 64-byte descriptor (02 R57) read as a little-endian number: byte `i` is bits `8i+7..8i`. -/
abbrev Desc := BitVec 512

/-- A sparse table keyed by `Nat`: keys strictly rising, no entry equal to what an unlisted key reads as. -/
abbrev NMap (α : Type) := List (Nat × α)

/-- `n` little-endian bytes of `v` (R4). -/
def leBytes : Nat → Nat → List Byte
  | 0, _ => []
  | n + 1, v => BitVec.ofNat 8 v :: leBytes n (v / 256)

/-- The number that little-endian bytes spell (R4). -/
def ofLe : List Byte → Nat
  | [] => 0
  | b :: bs => b.toNat + 256 * ofLe bs

/-- Bits `lo` to `lo + w - 1` of a number. -/
def bitsOf (v lo w : Nat) : Nat := v / 2 ^ lo % 2 ^ w

/-- Bit `n` of a number. -/
def bitOf (v n : Nat) : Bool := v / 2 ^ n % 2 == 1

/-- One bit as a number. -/
def b2n (b : Bool) : Nat := if b then 1 else 0

/-- Rounded-up division. -/
def ceilDiv (a b : Nat) : Nat := (a + b - 1) / b

end Sys2Proof
end

