-- ==== Sys2Proof/Config.lean ====
section
/-!
DEFINITION. Sys2Proof/Config.lean: what an implementation or an external standard fixes, and the free values.
Every constant here is opaque: nothing in Lean can evaluate it, so a claim holds whatever it is (log entries 3 and 4).
-/

namespace Sys2Proof

/-- FREE VALUE: a number the spec leaves open, numbered by the `fresh` counter of the state (log entry 3). -/
opaque Config.free : Nat → Nat

/-- SHAKE256 (256-bit output) of a byte string: the external standard, uninterpreted (log entry 4). -/
opaque Config.shake256 : List Byte → BitVec 256

/-- KMAC256 with key, data and customisation label, 256-bit output (R426; log entry 4). -/
opaque Config.kmac256 : BitVec 256 → List Byte → Nat → BitVec 256

/-- XMSS^MT verification of a signed image under the key of number `k` (R90, R147, R431; log entry 4). -/
opaque Config.xmssVerify : Nat → List Byte → Bool

/-- An XMSS^MT signature of a message under a key, given by its seeds as one number, by its leaf index (R428, R429; log entry 4). -/
opaque Config.xmssSign : Nat → Nat → List Byte → List Byte

/-- The device root that the physically unclonable function reproduces (R426). -/
opaque Config.root : BitVec 256

/-- The next output of the device's CTR_DRBG, numbered (R427): never derived from the root. -/
opaque Config.drbg : Nat → BitVec 256

/-- The meter domain's own entropy source, numbered (R427, R457). -/
opaque Config.meterEntropy : Nat → BitVec 256

/-- AES-256-GCM sealing of a tile: key, IV, additional data and plaintext give ciphertext and 16-byte tag (R298). -/
opaque Config.gcmSeal : BitVec 256 → List Byte → List Byte → List Byte → List Byte

/-- AES-256-GCM opening; `none` where the tag fails (R298, R440, R441). -/
opaque Config.gcmOpen : BitVec 256 → List Byte → List Byte → List Byte → Option (List Byte)

/-- ML-KEM-1024 encapsulation to a public key with a numbered random seed: ciphertext of 1,568 bytes and shared secret
(R444, R445). -/
opaque Config.kemEncap : List Byte → Nat → List Byte × BitVec 256

/-- ML-KEM-1024 decapsulation under a key, given by its seeds as one number: the shared secret (R439). -/
opaque Config.kemDecap : Nat → List Byte → BitVec 256

/-- The public key that belongs to secret seeds, given as one number, as bytes (R426, R427). -/
opaque Config.publicKey : Nat → Nat → List Byte

/-- SHAKE256 measurement of the mask ROM (R436 block 1). -/
opaque Config.romMeasurement : BitVec 256

/-- SHAKE256 of the meter firmware (R457, start record). -/
opaque Config.meterFirmware : BitVec 256

/-- FREE VALUE: how a product tile's operands lie in the array store, and which elements of a block a column reads, which the
spec does not lay out (05 R141 gives only the base registers; log entry 21): what is asked, then three numbers. -/
opaque Config.macPlace : Nat → Nat → Nat → Nat → Nat

/-- FREE VALUE: a byte that a MOVE reads from a space whose contents the spec does not lay out, or that no object gives (05
R141; log entry 21): space, what the entry works on, offset. The same inputs give the same byte (R26). -/
opaque Config.streamByte : Nat → List Nat → Nat → Byte

/-- FREE VALUE: does a mask that comes with the KV stream hide an element (05 R141; log entry 21)? Mask, what the entry works on,
row and column. -/
opaque Config.masked : Nat → List Nat → Nat → Nat → Bool

/-- FREE VALUE: a parameter word that the spec does not give (05 R142, 09 R255; log entry 21): entry kind, word, and role or
pass. -/
opaque Config.paramWord : Nat → Nat → Nat → Nat

/-- FREE VALUE: what an accumulator holds when an EDGE `scale` reads it outside a product tile, where no accumulator holds a
live sum (05 R142, R155; log entry 21): what the entry works on, the place in the program, cell. -/
opaque Config.accumulator : List Nat → List Int → Nat → Int

/-- What the parameter pages of the NAND parts advertise (R311, R312, R315): block pairs per LUN and NAND pages per block
pair of a channel, and the factory bad-block marks of a block pair (by its bits of the location word). -/
opaque Config.flashPairs : Nat → Nat
opaque Config.flashPages : Nat → Nat
opaque Config.flashBad : Nat → Bool

/-- Spare bytes of a NAND page that the parameter page of a channel's parts advertises (R311: at least 1,952). -/
opaque Config.flashSpare : Nat → Nat

/-- The LDPC parity that the flash controller computes over the bytes of a tile, its tag and its IV (R315): 464 bytes of it are
stored. -/
opaque Config.ldpc : List Byte → List Byte

/-- FREE VALUE: a quotient that is no integer and whose rounding the spec does not state (log entry 12): dividend,
divisor. -/
opaque Config.rounded : Nat → Nat → Nat

/-- FREE VALUE: whether a saturated cell converts the negative bound, where the exact sum and the wrapping sum differ in
sign and R127's "the sum's sign" does not say which is meant (log entry 13): exact sum, wrapping sum. -/
opaque Config.satNegative : Int → Int → Bool

/-- FREE VALUE: half of an odd number of 1/64 subframes, whose rounding R362 does not state (log entry 12). -/
opaque Config.half : Int → Int

/-- FREE VALUE: the bytes of a page whose layout the spec calls internal or does not give (R195, R251; log entry 22): object
kind, page index, and the numbers the page stands for. -/
opaque Config.layout : Nat → Nat → List Nat → List Byte

end Sys2Proof
end

