-- ==== Sys2Proof/Syntax.lean ====
section
/-!
DEFINITION. Sys2Proof/Syntax.lean: the commands of the block, one constructor per row of spec/opcode_table.json.
The rows give no operand fields; an operand here is what the event brings with it (the value a register write
carries, the fields of a frame, the bytes the device reads from host memory, the outcome of a physical event).
-/

namespace Sys2Proof

/-- A hardware fault met inside a step (95_what_each_step_holds.md lists in which steps each may come about):
each is found by a check that failed once (transient) or twice (lasting), 18 R469. -/
inductive Incident where
  /-- A tile's checksums mismatched once on this array and matched on the retry (R130). -/
  | ckTransient (array : Nat)
  /-- A tile's checksums mismatched twice on this array (R130); cause as `retire_cause` (R133). -/
  | ckLasting (array cause : Nat)
  /-- An array store corrected a single-bit error (R107). -/
  | storeCorrected (array : Nat)
  /-- A pantry bank failed lastingly (R303). -/
  | bankFail (bank : Nat)
  /-- A near stack corrected an error (R301). -/
  | nearCorrected (stack : Nat)
  /-- A near read could not be corrected; the check of the tile that it belongs to is an incident of its own (R301). -/
  | nearUncorrected (stack : Nat)
  /-- A near stack failed lastingly (R302). -/
  | stackFail (stack : Nat)
  /-- A far channel corrected an error (R304). -/
  | farCorrected (channel : Nat)
  /-- A far read could not be corrected (R304). -/
  | farUncorrected (channel : Nat)
  /-- A far channel failed lastingly (R306). -/
  | farFail (channel : Nat)
  /-- A flash read passed on read retry (R317). -/
  | flashRetry (channel : Nat)
  /-- The erase or the program of a block pair failed, by its bits of the location word, and it was retired (R316). -/
  | pairRetired (pair : Nat)
  /-- A flash channel failed lastingly (R317). -/
  | flashFail (channel : Nat)
  /-- A tile or entry check passed on its second read (R176, R239, R295). -/
  | tileTransient
  /-- A tile or entry check failed twice; the window it belongs to (R176, R239, R295). -/
  | tileLasting (window : Nat)
  /-- A write to the destination of a move failed, and is repeated to another frame (R295). -/
  | writeTransient
  /-- A write to the destination of a move failed twice (R295). -/
  | writeLasting
  /-- A tile with flagged rows and no A8 copy (R128): layer and window that the report names. -/
  | precision (layer window : Nat)
  /-- A lasting fault in a part that has neither spares nor a partial reset (R470), by source unit (R472). -/
  | fatal (unit : Nat)
  deriving DecidableEq, Repr

/-- A layer-exchange frame as received (07 R209): the fields of its 64-byte header and its payload. -/
structure LxFrame where
  typ : Nat
  layer : Nat
  exchange : Nat
  stepSeq : Nat
  rows : Nat
  total : Nat
  offset : Nat
  length : Nat
  attempt : Nat
  crc : Nat
  payload : List Byte
  deriving DecidableEq, Repr

/-- The fields of a map or handoff message (13 R379) with its source device. -/
structure MapMsg where
  src : Nat
  reason : Nat
  handoff : Nat
  name : Nat
  epoch : Nat
  device : Nat
  client : Nat
  recipeId : Nat
  recipeVersion : Nat
  pages : Nat
  handle : Nat
  domainEpoch : Nat
  compat : Nat
  digest : Nat
  deriving DecidableEq, Repr

/-- An A8 head row: INT8 codes and one FP32 scale (R108). -/
structure HeadRow where
  codes : List Byte
  scale : F32
  deriving DecidableEq, Repr

/-- K and V of one position in one layer: one head row per KV head. -/
structure KVRow where
  k : List HeadRow
  v : List HeadRow
  deriving DecidableEq, Repr

/-- One layer of a window in block format (R159, R162): format, blocks in window block index order. -/
structure WinBlk where
  fmt : Nat
  blocks : List (List Byte)
  deriving DecidableEq, Repr

/-- FP32 masters of one virtual position of a tuning window (R184): per KV head, K and V. -/
structure Master where
  k : List (List F32)
  v : List (List F32)
  deriving DecidableEq, Repr

/-- The history of one layer (R119, R163): folded windows from window 0, the retained A8 copy of the last folded
window, the A8 rows of the fresh window, and the tuning masters with their A8 encoding. -/
structure LayerKV where
  folded : List WinBlk := []
  retained : List KVRow := []
  fresh : List KVRow := []
  masters : List Master := []
  tuning : List KVRow := []
  deriving DecidableEq, Repr

/-- Output settings (R267, R268). -/
structure OutCfg where
  stops : List (List Byte) := []
  inclusive : Bool := false
  colander : Bool := false
  table : Nat := 0
  temperature : F32 := 0x3F800000
  topK : Nat := 0
  topP : F32 := 0x3F800000
  deriving DecidableEq, Repr

/-- Output state of a session (R251, R266, R270 to R275). -/
structure OutSt where
  pending : Option Nat := none
  /-- Candidate tree (R254): byte and parent of each node, the root first; empty: no tree. -/
  tree : List (Nat × Nat) := []
  /-- Printed bytes the colander state stands for (R263), and the table version it was computed under. -/
  colStr : List Byte := []
  colVer : Nat × Nat := (0, 0)
  stopHeld : List Byte := []
  utf8Held : List Byte := []
  /-- Released bytes that wait to be written ahead of the next print (R272, R269). -/
  ready : List Byte := []
  cfg : OutCfg := {}
  /-- Settings staged by a `STOP_SET` for the next step boundary (R268). -/
  staged : Option OutCfg := none
  deriving DecidableEq, Repr

/-- A node record (R322): key, vector in its row layout, edges in stored order. -/
structure INode where
  key : Nat
  vec : List Byte
  edges : List Nat
  deriving DecidableEq, Repr

/-- The image of a session that a handoff transfers or a slate shard holds, as the receiver reads it (13 R380, 14 R396): its
record, its page table (pages by key, each with the tier it lay in) and what its pages hold. -/
structure SessImage where
  name : Nat
  epoch : Nat
  client : Nat
  recipeId : Nat
  version : Nat
  cls : Nat
  policy : Nat
  hold : Nat
  parkAfter : Nat
  parkTier : Nat
  ttl : Nat
  /-- Frames of the time to live that remain (R382). -/
  ttlLeft : Nat
  seed : BitVec 64
  raw : Bool
  key : BitVec 256
  len : Nat
  ptGen : BitVec 32
  /-- Area B holds the fresh window (R163). -/
  freshSel : Bool
  stepSeq : Nat
  strOff : Nat
  strEpoch : Nat
  rebuildTo : Option Nat
  hint : Option (Nat × Nat)
  carry : List Nat
  log : List Nat
  kv : List LayerKV
  out : OutSt
  pages : List (Nat × Nat)
  underflow : Nat
  precCount : Nat
  lastStep : Nat
  folded : Bool
  wasPaused : Bool
  deriving DecidableEq, Repr

/-- The image of an index that a slate shard holds (14 R387): header, base version and side list. -/
structure IdxImage where
  name : Nat
  epoch : Nat
  client : Nat
  dim : Nat
  metric : Nat
  row : Nat
  degree : Nat
  tier : Nat
  beam : Nat
  shards : Nat
  shard : Nat
  alpha : F32
  group : Nat
  list : List (Nat × Nat)
  seq : Nat
  next : Nat
  baseNum : Nat
  baseFold : Nat
  baseEntry : Option Nat
  baseNodes : NMap INode
  basePages : List Nat
  side : NMap INode
  ins : NMap Nat
  adds : List (Nat × Nat × Nat)
  tombs : NMap Nat
  dropped : Nat
  rejected : Nat
  deriving DecidableEq, Repr

/-- A manifest of a slate with its commit record, as a restorer reads it (14 R397, R399): slate number, whether a key block
entry is wrapped for this device, and the shard table: object name, epoch, kind. -/
structure ManifestInfo where
  slate : Nat
  wrapped : Bool
  shards : List (Nat × Nat × Nat)
  deriving DecidableEq, Repr

/-- What an item fetched from a buddy holds (14 R401, R404, R406). -/
inductive BuddyItem where
  /-- The commit records and manifests of the origin that verify, newest first. -/
  | manifests (list : List ManifestInfo)
  /-- A shard image of a session, with the page copies it refers to. -/
  | session (image : SessImage)
  /-- A shard image of an index, with the page copies it refers to. -/
  | index (image : IdxImage)
  /-- A page copy of this device's own slate. -/
  | page
  deriving DecidableEq, Repr

/-- What the training and initialisation of a commanded stage found (03 R87, R88, R94): a mask bit is set for a part
that failed; `*1` on the first try, `*2` again on the retry. `ports`: fitted ports of which no lane trained; `peers`: the device
number at the other end, by port; `refused`: the steward's refusal of a join. -/
structure StageOutcome where
  near1 : BitVec 8
  near2 : BitVec 8
  far1 : BitVec 32
  far2 : BitVec 32
  flash1 : BitVec 32
  flash2 : BitVec 32
  ports : BitVec 16
  peers : List Nat
  refused : Bool
  refused2 : Bool
  deriving DecidableEq, Repr

/-- How the parts of a unit came out of its reset (03 R87, R101): those that failed the first try, and the retry, as masks: bit 0 for
the self-test of the security unit, and channels of the flash and far memory controllers. -/
structure ResetOutcome where
  first : BitVec 32
  second : BitVec 32
  deriving DecidableEq, Repr

/-- The commands. -/
inductive Instr where
  -- reset, rails, heat, host link (03, 19, 02)
  | resetNRelease (selfTestOk : Bool)
  | resetNAssert
  | railUndervoltage (rail : Nat) (removed : Bool)
  | thermAlert (temp sensor : Nat)
  | thermClear (temp sensor : Nat)
  | thermTrip (temp sensor : Nat)
  | ucieTrainingDone (failFirst failRetry : BitVec 8)
  | ucieModuleFailure (module : Nat) (comesBack : Bool)
  | ideIntegrityFail
  | lockInterface
  | startInterface
  | stopInterface
  -- SPDM requests (16 R431 to R438)
  | setIdStatement (statement : List Byte)
  | getReport (nonce : BitVec 256)
  | getKeyCerts
  | getMeasurements (index : Nat)
  | getCertificate (slot : Nat)
  | challenge (nonce : BitVec 256)
  | keyExchange (clientKey : BitVec 256)
  | ideKmKeyProg (link : Nat)
  -- the register window (00 R5 to R11, 03 R74 to R83)
  | registerWrite (offset size : Nat) (value : Word)
  | invalidAccess (write : Bool) (offset size : Nat)
  | eventWriteBack (offset : Nat) (value : BitVec 16)
  | guardWindowExpire (offset : Nat)
  | apertureWrite (offset : Nat) (data : List Byte)
  -- loads and bring-up (03 R85 to R100)
  | loadFirmware (length : Nat)
  | loadRepairRecord (length : Nat)
  | loadMeterCal (length : Nat)
  | loadReservedType (length : Nat)
  | loadComplete (uncovered : Bool)
  | calDeliveryTimeout
  | meterCalAnswer (accept : Bool)
  | bootCmdMem
  | bootCmdTime
  | bootCmdLinks
  | bootCmdReady
  | stageComplete (outcome : StageOutcome)
  | fwActivate (key : BitVec 32)
  | fwActivateDone
  | unitReset (units : BitVec 32)
  | unitResetDrainTimeout (unit : Nat)
  | unitResetEnd (unit : Nat) (outcome : ResetOutcome)
  -- guarded writes (03 R82)
  | arrRetire (value : BitVec 32)
  | eraseT0Free
  | eraseT1Free
  | eraseT2Free
  | eraseFarChannel (channel : Nat)
  | eraseDone
  | lnkPortDisable (value : BitVec 32)
  | ckpDiscard (slate : Nat)
  | obsEnable
  | obsDisable
  | zeroiseSessionKeys
  | zeroiseWeightKeys
  | zeroiseStorageKeys
  | zeroiseLinkKeys
  | zeroiseDone
  -- register writes with rows of their own
  | synInit (value : BitVec 32)
  | clientSyncWrite (client : Nat) (value : Word)
  | seqEnable
  | ctxEnable
  | sqOpen (ring : Nat) (value : BitVec 32)
  | sqClose (ring : Nat)
  | sqDrainEnd (ring : Nat)
  | sqResume (ring : Nat)
  | cqOpen (ring : Nat) (value : BitVec 32)
  | cqClose (ring : Nat)
  | strOpen (ring : Nat) (value : BitVec 32)
  | strClose (ring : Nat)
  | faultRingOpen (operator : Bool) (value : BitVec 32)
  | memClientShareWrite (value : Word)
  | lcQuotaWrite (value : Word)
  | policerWrite (burst : Bool) (value : Word)
  | envEntryWrite (value : Word)
  | mtrTxCfgWrite (value : Word)
  | gateSwitchArm (frame : Nat)
  | lnkRecall (loan : BitVec 32)
  | flsIdxStateWrite (value : BitVec 32)
  | mapSliceApply
  | sliceApplyDone (slice : Nat)
  | mapHoGo
  | mapLeave
  | cvuInit
  | cvuFeedB (value : Word)
  | cvuFeedH (value : Word)
  | cvuFeedW (value : Word)
  | cvuRunWrite (value : Word)
  | cvuUnitCfgWrite (value : Word)
  | doorbell (ring : Nat) (value : BitVec 32)
  -- descriptors (02 R57 to R67, R507): the list operand is what the first group of checks reads (R63 item 3)
  | descriptorFetch (ring : Nat) (descriptor : Desc) (list : List Byte)
  | msixHoldoffExpire (ring : Nat)
  -- the opcodes (02 R60): the oldest undispatched descriptor of the ring reaches its second group of checks
  | sessionOpen (ring : Nat)
  | sessionClose (ring : Nat)
  | sessionPark (ring : Nat)
  | sessionResume (ring : Nat)
  | sessionCut (ring : Nat)
  | sessionTrim (ring : Nat)
  | sessionPause (ring : Nat)
  | sessionTtl (ring : Nat)
  | stepSubmit (ring : Nat) (incidents : List (Nat × Incident))
  | prefill (ring : Nat) (input : List Byte) (incidents : List Incident)
  | tuneStep (ring : Nat) (span : List Byte) (incidents : List Incident)
  | objMove (ring : Nat)
  | objPlaceHint (ring : Nat)
  | objFree (ring : Nat)
  | tableLoad (ring : Nat) (rows : List Byte)
  | tableSwap (ring : Nat)
  | gatherPool (ring : Nat) (indices : List Byte) (incidents : List Incident)
  | search (ring : Nat) (queries : List Byte)
  | searchComplete (query : Nat) (incidents : List Incident)
  | vecInsert (ring : Nat) (vectors params : List Byte) (incidents : List Incident)
  | vecDelete (ring : Nat) (nodes : List Byte)
  | indexFold (ring : Nat)
  | indexFoldPublish (index : Nat) (incidents : List Incident)
  | slateMark (ring : Nat)
  | restore (ring : Nat)
  | restoreDevice (ring : Nat)
  | restoreComplete (handle : BitVec 32) (incidents : List Incident)
  | syncSignal (ring : Nat)
  | syncWait (ring : Nat)
  | recipeLoad (ring : Nat) (container : List Byte)
  | recipeUnload (ring : Nat)
  | constraintLoad (ring : Nat) (list : List Byte)
  | stopSet (ring : Nat)
  | checkValue (ring : Nat) (input : List Byte)
  | nop (ring : Nat)
  -- timed events of descriptors and sessions
  | deadlineExpiry (ring entry : Nat)
  | syncWaitTimeout (ring : Nat)
  | ttlExpiry (record : Nat)
  | holdThreshold (record : Nat)
  | parkAfterThreshold (record : Nat)
  -- scheduling (15)
  | entryStart (slice : Nat)
  | preemption (slice : Nat)
  | preemptSaveDone (slot : Nat) (storeError : Bool)
  | savedRestore (slot : Nat)
  | entryHalt (slot cycles : Nat) (incidents : List Incident)
  -- layer exchange (07)
  | qkv (frame : LxFrame) (incidents : List Incident)
  | hid (frame : LxFrame)
  | gradO (frame : LxFrame) (incidents : List Incident)
  | gradH (frame : LxFrame) (incidents : List Incident)
  | lxRefuse (frame : LxFrame)
  | lxTimeout (slot : Nat)
  | stepCommit (slot : Nat)
  | spillWaitTimeout (ring : Nat)
  -- memory (10, 11)
  | pageMoveStart
  | pageMoveDone (mover : Nat) (incidents : List Incident)
  | nearScrub (stack : Nat) (incidents : List Incident)
  | flashRefresh (pair : Nat) (corrected : Bool) (incidents : List Incident)
  | flashReclaim (channel : Nat) (incidents : List Incident)
  -- links (12)
  | dataFlitReceived (port : Nat) (flit : List Byte)
  | nakReceived (port sequence : Nat)
  | ackTimer (port : Nat)
  | laneFailure (port lane : Nat)
  | portRetrainDone (port : Nat) (lanes : BitVec 4) (peer : Nat)
  | frameForward (port : Nat)
  | policerRetest (client cls : Nat)
  | gateEntryChange
  | gateListSwitch
  | loanRequest (src pages : Nat)
  | loanGrant (src loan tier pages deadline : Nat) (refused : Bool)
  | loanPut (src loan page : Nat) (mask : BitVec 8) (tiles : List Byte)
  | loanPutAck (src loan page : Nat)
  | loanGet (src loan page : Nat) (mask : BitVec 8)
  | loanData (src loan page : Nat) (gone : Bool) (tiles : List Byte)
  | loanFree (src loan page : Nat)
  | loanRecall (src loan deadline : Nat)
  | loanReturn (src loan : Nat)
  | loanRecallDeadline (src loan : Nat) (lent : Bool)
  -- checkpoint traffic (14)
  | buddyPut (src slate name copy : Nat) (tiles : List Byte)
  | buddyPutAck (src slate name copy : Nat) (refused : Bool)
  | buddyRelease (src origin slate : Nat)
  | buddyFetch (src origin slate name copy : Nat)
  | buddyData (src origin slate name copy : Nat) (gone verifies : Bool) (item : BuddyItem)
  -- shard search (11)
  | shardQuery (src query group index shard metric dim k beam budget : Nat) (test : Bool) (vector : List F32) (incidents : List Incident)
  | shardReply (src query shard status base sequence : Nat) (entries : List (Nat × Nat × F32))
  | shardTimeout (query shard : Nat)
  -- handoff and map (13)
  | offer (msg : MapMsg) (wrappedKey : List Byte)
  | objectTransfer (src handoff : Nat) (image : SessImage) (incidents : List Incident)
  | accept (msg : MapMsg)
  | handoffRefuse (msg : MapMsg)
  | commit (msg : MapMsg)
  | handoffRelease (msg : MapMsg)
  | abort (msg : MapMsg)
  | publish (msg : MapMsg)
  | confirm (msg : MapMsg)
  | publishRepeat (name : Nat)
  | register (msg : MapMsg)
  | registerWaitExpire (name : Nat)
  | handoffAcceptTimeout (entry : Nat)
  | handoffCommitTimeout (src handoff : Nat)
  | handoffReleaseTimeout (entry : Nat)
  | join (src device domain : Nat)
  | joinAck (msg : MapMsg) (members : List Nat)
  | leave (msg : MapMsg)
  | member (msg : MapMsg) (joined failed departed : Bool)
  | suspect (msg : MapMsg)
  | fence (msg : MapMsg)
  | evict (msg : MapMsg)
  | heartbeat (src compat domainEpoch domain digest hops : Nat) (isolated : Bool) (peers : List Nat)
  | heartbeatSend
  | heartbeatMiss (device : Nat)
  | isolation
  | stewardFailWait (device : Nat)
  | memberFailDeclare (device : Nat)
  | keyAnnouncement (src device : Nat) (statement attCert kemCert kemKey : List Byte)
  -- faults (18)
  | faultRecordForward (src : Nat) (record : BitVec 512)
  | faultWindowClose (unit cls : Nat)
  -- slates (14)
  | slateMarkFire (incidents : List Incident)
  | slateCommit
  | slateAbandon
  | buddyWaitExpire
  -- timecode (12, 17)
  | tcPpsEdge (deviationNs : Int) (minuteMarker : Bool)
  | tcExchange
  | tcReq (port t1 t2 t3 : Nat)
  | tcResp (port t1 t2 t3 t4 hops : Nat)
  | tcRespTimeout (port : Nat)
  | tcHoldoverEntry
  | tcUnlock
  -- power and accounts (17, 15)
  | envelopeMinuteBoundary
  | throttleStep (meanPower : Nat)
  | railSample (watts : Nat)
  | energyApportion (minute : Nat)
  | tenantRecordWrite
  -- the meter (17, 19)
  | meterPowerUp
  | minuteMarker
  | meterFreeRunClose
  | mainsCycleEnd (importMj exportMj : Nat) (rms : List Nat) (freqMhz : Nat)
  | halfCycleEnd (phaseMv : List Nat)
  | senseFault (channel : Nat)
  | meterNotice (cls : Nat) (start : Bool) (halfCycles : Nat)
  | supplyClear
  | meterRecordReceived (record : List Byte)
  | meterFeedSilent
  | mtrTxSend
  -- rows listed last by the table
  | idleFlitReceived (port : Nat) (flit : List Byte)
  | shadowRead (kind ring consumer : Nat)
  | meterRailLoss
  deriving DecidableEq, Repr

end Sys2Proof
end

