-- ==== Sys2Proof/Decode.lean ====
section
/-!
DEFINITION. Sys2Proof/Decode.lean: the table of commands gives no row any bits (spec/opcode_table.json: every row's
`fields` is empty), so no word spells a command.
-/

namespace Sys2Proof

/-- The command a word spells by the table's bits: none, since no row has bits (log entry 5). -/
def decodeTableWord (_nbits _w : Nat) : Option Instr := none

end Sys2Proof
end

