-- ==== Sys2Proof/Machine/RegTable.lean ====
section
/-!
DEFINITION. Sys2Proof/Machine/RegTable.lean: the register tables of the spec, block by block, as data:
every register with its window offset (03 R74), its copies (02 R54, 15 R425) and its fields with access code
(00 R7) and reset value. Reserved bits are the bits no field names (00 R5). RO fields that show the state of a
subsystem are computed in Regs.lean; counters are stored.
-/

namespace Sys2Proof.Machine

/-- Access codes of a register field (00 R7). -/
inductive Acc where
  | ro | rw | wo | wd | ws | wp | wg
  deriving DecidableEq, Repr

/-- One field: least significant bit, width, access code, reset value. -/
structure FldDef where
  lo : Nat
  width : Nat
  acc : Acc
  reset : Nat
  deriving DecidableEq, Repr

/-- One register: offset of its first copy, stride and number of copies, fields. -/
structure RegDef where
  off : Nat
  stride : Nat
  count : Nat
  flds : List FldDef
  deriving DecidableEq, Repr

/-- A named field: register offset (copy 0), least significant bit, width, reset value. -/
structure Fd where
  off : Nat
  lo : Nat
  width : Nat
  reset : Nat
  deriving DecidableEq, Repr


/-- The `HST` registers (R45). -/
def regsHST : List RegDef :=
  [
    ⟨0x100000, 0x8, 1, [⟨0, 1, .rw, 0⟩]⟩, -- HST_CTL
    ⟨0x100008, 0x8, 1, [⟨0, 8, .ro, 0⟩, ⟨8, 2, .ro, 0⟩, ⟨10, 1, .ro, 0⟩, ⟨11, 2, .ro, 0⟩, ⟨16, 8, .ro, 0⟩]⟩, -- HST_STAT
    ⟨0x100010, 0x8, 1, [⟨0, 16, .ws, 0⟩, ⟨16, 1, .ws, 0⟩, ⟨17, 1, .ws, 0⟩, ⟨18, 1, .ws, 0⟩, ⟨19, 1, .ws, 0⟩]⟩ -- HST_EVT
  ]

/-- The `SEQ` registers (R54, R425). -/
def regsSEQ : List RegDef :=
  [
    ⟨0x200000, 0x8, 1, [⟨0, 1, .rw, 0⟩]⟩, -- SEQ_CTL
    ⟨0x200008, 0x8, 1, [⟨0, 1, .ro, 0⟩, ⟨1, 1, .ro, 1⟩, ⟨12, 10, .ro, 0⟩]⟩, -- SEQ_STAT
    ⟨0x200010, 0x8, 1, [⟨0, 16, .ws, 0⟩, ⟨16, 1, .ws, 0⟩, ⟨17, 1, .ws, 0⟩, ⟨18, 1, .ws, 0⟩]⟩, -- SEQ_EVT
    ⟨0x201000, 0x20, 256, [⟨0, 17, .wd, 0⟩, ⟨17, 18, .wd, 0⟩]⟩, -- SEQ_CLIENT_SYNC
    ⟨0x201008, 0x20, 256, [⟨0, 1, .wd, 0⟩, ⟨4, 60, .wd, 0⟩]⟩, -- SEQ_CLIENT_MIRROR
    ⟨0x210000, 0x40, 512, [⟨12, 52, .wd, 0⟩]⟩, -- SEQ_SQ_BASE
    ⟨0x210008, 0x40, 512, [⟨0, 1, .rw, 0⟩, ⟨1, 5, .wd, 0⟩, ⟨6, 9, .wd, 0⟩, ⟨15, 1, .wd, 0⟩, ⟨16, 8, .wd, 0⟩]⟩, -- SEQ_SQ_CFG
    ⟨0x210010, 0x40, 512, [⟨0, 16, .ro, 0⟩, ⟨16, 1, .ro, 0⟩, ⟨17, 1, .ro, 0⟩, ⟨32, 16, .ro, 0⟩, ⟨48, 8, .ro, 0⟩]⟩, -- SEQ_SQ_STAT
    ⟨0x210018, 0x40, 512, [⟨0, 1, .wo, 0⟩]⟩, -- SEQ_SQ_CMD
    ⟨0x220000, 0x40, 512, [⟨12, 52, .wd, 0⟩]⟩, -- SEQ_CQ_BASE
    ⟨0x220008, 0x40, 512, [⟨0, 1, .rw, 0⟩, ⟨1, 5, .wd, 0⟩, ⟨6, 1, .wd, 0⟩, ⟨7, 11, .wd, 0⟩]⟩, -- SEQ_CQ_CFG
    ⟨0x220010, 0x40, 512, [⟨3, 61, .wd, 0⟩]⟩, -- SEQ_CQ_SHADOW
    ⟨0x220018, 0x40, 512, [⟨0, 20, .ro, 0⟩, ⟨20, 1, .ro, 1⟩, ⟨21, 1, .ro, 0⟩]⟩, -- SEQ_CQ_STAT
    ⟨0x220020, 0x40, 512, [⟨0, 16, .rw, 1⟩, ⟨16, 16, .rw, 0⟩]⟩, -- SEQ_CQ_MOD
    ⟨0x240000, 0x40, 4096, [⟨12, 52, .wd, 0⟩]⟩, -- SEQ_STR_BASE
    ⟨0x240008, 0x40, 4096, [⟨0, 1, .rw, 0⟩, ⟨1, 5, .wd, 0⟩, ⟨6, 8, .wd, 0⟩]⟩, -- SEQ_STR_CFG
    ⟨0x240010, 0x40, 4096, [⟨3, 61, .wd, 0⟩]⟩, -- SEQ_STR_SHADOW
    ⟨0x240018, 0x40, 4096, [⟨0, 16, .ro, 0⟩, ⟨16, 1, .ro, 1⟩, ⟨17, 1, .ro, 0⟩]⟩, -- SEQ_STR_STAT
    ⟨0x201010, 0x20, 256, [⟨0, 1, .wd, 0⟩, ⟨6, 58, .wd, 0⟩]⟩, -- SEQ_CLIENT_ACCT
    ⟨0x201018, 0x20, 256, [⟨0, 8, .rw, 1⟩]⟩, -- SEQ_CLIENT_SCHED
    ⟨0x200020, 0x8, 1, [⟨0, 6, .wd, 1⟩]⟩, -- SEQ_SCHED_CFG
    ⟨0x200028, 0x8, 1, [⟨0, 16, .wd, 0⟩, ⟨16, 40, .wd, 0⟩]⟩, -- SEQ_ENERGY_COEF
    ⟨0x200030, 0x8, 1, [⟨0, 32, .wd, 0⟩]⟩, -- SEQ_ENERGY_BASE
    ⟨0x200038, 0x8, 1, [⟨0, 4, .rw, 0⟩, ⟨8, 8, .rw, 0⟩]⟩ -- SEQ_LC_SEL
  ]
  ++ [
    ⟨0x200040, 0x8, 1, [⟨0, 8, .rw, 0⟩, ⟨8, 8, .ro, 0⟩]⟩, -- SEQ_LC_QUOTA
    ⟨0x200048, 0x8, 1, [⟨0, 8, .rw, 0⟩, ⟨8, 1, .rw, 0⟩]⟩, -- SEQ_ACCT_SEL
    ⟨0x200050, 0x8, 1, [⟨0, 64, .ro, 0⟩]⟩, -- SEQ_ACCT_ARR
    ⟨0x200058, 0x8, 5, [⟨0, 64, .ro, 0⟩]⟩, -- SEQ_ACCT_T0
    ⟨0x200080, 0x8, 1, [⟨0, 64, .ro, 0⟩]⟩, -- SEQ_ACCT_ENERGY
    ⟨0x200088, 0x8, 1, [⟨0, 32, .ro, 0⟩, ⟨32, 32, .ro, 0⟩]⟩, -- SEQ_PREEMPT_CNT
    ⟨0x200090, 0x8, 1, [⟨0, 32, .ro, 0⟩, ⟨32, 32, .ro, 0⟩]⟩ -- SEQ_SCHED_STAT
  ]

/-- The `SYN` registers (R73). -/
def regsSYN : List RegDef :=
  [
    ⟨0x1d00000, 0x8, 1, [⟨0, 1, .rw, 0⟩]⟩, -- SYN_CTL
    ⟨0x1d00008, 0x8, 1, [⟨0, 1, .ro, 0⟩]⟩, -- SYN_STAT
    ⟨0x1d00010, 0x8, 1, [⟨0, 17, .wp, 0⟩, ⟨17, 1, .wp, 0⟩, ⟨18, 1, .wp, 0⟩]⟩, -- SYN_INIT
    ⟨0x1d00018, 0x8, 1, [⟨0, 64, .rw, 0⟩]⟩ -- SYN_INIT_VALUE
  ]

/-- The `GLB` registers (R84). -/
def regsGLB : List RegDef :=
  [
    ⟨0x0, 0x8, 1, [⟨0, 1, .rw, 0⟩]⟩, -- GLB_CTL
    ⟨0x8, 0x8, 1, [⟨0, 4, .ro, 1⟩, ⟨4, 1, .ro, 0⟩, ⟨5, 1, .ro, 0⟩, ⟨6, 1, .ro, 0⟩, ⟨8, 8, .ro, 0⟩, ⟨16, 8, .ro, 0⟩, ⟨24, 8, .ro, 0⟩]⟩, -- GLB_STAT
    ⟨0x10, 0x8, 1, [⟨0, 16, .ws, 0⟩, ⟨16, 1, .ws, 0⟩, ⟨17, 1, .ws, 0⟩, ⟨18, 1, .ws, 0⟩, ⟨19, 1, .ws, 0⟩, ⟨20, 1, .ws, 0⟩, ⟨21, 1, .ws, 0⟩, ⟨22, 1, .ws, 0⟩, ⟨23, 1, .ws, 0⟩, ⟨24, 1, .ws, 0⟩]⟩, -- GLB_EVT
    ⟨0x18, 0x8, 1, [⟨0, 16, .ro, 0x4480⟩, ⟨16, 8, .ro, 1⟩, ⟨24, 4, .ro, 0⟩, ⟨28, 4, .ro, 0⟩]⟩, -- GLB_ID
    ⟨0x20, 0x8, 1, [⟨0, 64, .ro, 0⟩]⟩, -- GLB_UID
    ⟨0x28, 0x8, 1, [⟨0, 26, .ro, 0⟩, ⟨32, 16, .ro, 0⟩]⟩, -- GLB_CFG_IGN
    ⟨0x30, 0x8, 1, [⟨0, 64, .ro, 0⟩]⟩, -- GLB_POST_OVR
    ⟨0x38, 0x8, 1, [⟨0, 64, .ro, 0⟩]⟩, -- GLB_GUARD_FAIL
    ⟨0x40, 0x8, 1, [⟨0, 64, .ro, 0⟩]⟩, -- GLB_ACCESS_INV
    ⟨0x48, 0x8, 1, [⟨0, 4, .wp, 0⟩]⟩, -- GLB_BOOT_CMD
    ⟨0x50, 0x8, 1, [⟨0, 2, .wp, 0⟩, ⟨32, 23, .wp, 0⟩]⟩, -- GLB_LOAD
    ⟨0x58, 0x8, 1, [⟨0, 1, .ro, 0⟩, ⟨8, 8, .ro, 0⟩]⟩, -- GLB_LOAD_STAT
    ⟨0x60, 0x8, 1, [⟨0, 32, .wg, 0⟩]⟩, -- GLB_UNIT_RESET_A
    ⟨0x68, 0x8, 1, [⟨0, 32, .wg, 0⟩]⟩, -- GLB_UNIT_RESET_B
    ⟨0x70, 0x8, 1, [⟨0, 16, .ro, 0⟩, ⟨16, 16, .ro, 0⟩]⟩, -- GLB_UNIT_STAT
    ⟨0x78, 0x8, 1, [⟨0, 32, .wg, 0⟩]⟩, -- GLB_FW_ACTIVATE_A
    ⟨0x80, 0x8, 1, [⟨0, 32, .wg, 0⟩]⟩, -- GLB_FW_ACTIVATE_B
    ⟨0x88, 0x8, 1, [⟨0, 32, .ro, 0⟩, ⟨32, 32, .ro, 0⟩]⟩, -- GLB_FW_VER
    ⟨0x90, 0x8, 1, [⟨0, 11, .wd, 0⟩]⟩ -- GLB_IRQ
  ]

/-- The `ARR` registers (R133, R158). -/
def regsARR : List RegDef :=
  [
    ⟨0x400000, 0x8, 1, [⟨0, 1, .rw, 0⟩]⟩, -- ARR_CTL
    ⟨0x400008, 0x8, 1, [⟨0, 8, .ro, 0⟩, ⟨8, 8, .ro, 0⟩]⟩, -- ARR_STAT
    ⟨0x400010, 0x8, 1, [⟨0, 16, .ws, 0⟩, ⟨16, 1, .ws, 0⟩, ⟨17, 1, .ws, 0⟩, ⟨18, 1, .ws, 0⟩, ⟨19, 1, .ws, 0⟩]⟩, -- ARR_EVT
    ⟨0x400020, 0x8, 1, [⟨0, 8, .wg, 0⟩, ⟨8, 24, .wg, 0⟩]⟩, -- ARR_RETIRE_A
    ⟨0x400028, 0x8, 1, [⟨0, 32, .wg, 0⟩]⟩, -- ARR_RETIRE_B
    ⟨0x400030, 0x8, 1, [⟨0, 64, .ro, 0⟩]⟩, -- ARR_INSERVICE0
    ⟨0x400038, 0x8, 1, [⟨0, 64, .ro, 0⟩]⟩, -- ARR_INSERVICE1
    ⟨0x400040, 0x8, 1, [⟨0, 16, .ro, 0⟩]⟩, -- ARR_INSERVICE2
    ⟨0x400048, 0x8, 1, [⟨0, 8, .rw, 0⟩]⟩, -- ARR_SEL
    ⟨0x400050, 0x8, 1, [⟨0, 16, .ro, 0⟩, ⟨16, 16, .ro, 0⟩, ⟨32, 1, .ro, 0⟩, ⟨40, 8, .ro, 0⟩]⟩, -- ARR_SEL_STAT
    ⟨0x400058, 0x8, 1, [⟨0, 32, .ro, 0⟩, ⟨32, 32, .ro, 0⟩]⟩, -- ARR_PREC_CNT
    ⟨0x400060, 0x8, 1, [⟨0, 32, .ro, 0⟩, ⟨32, 32, .ro, 0⟩]⟩, -- ARR_ENC_CNT
    ⟨0x400068, 0x8, 1, [⟨0, 6, .rw, 0⟩]⟩, -- ARR_RCP_SEL
    ⟨0x400070, 0x8, 1, [⟨0, 3, .ro, 0⟩, ⟨4, 4, .ro, 0⟩, ⟨8, 8, .ro, 0⟩, ⟨16, 6, .ro, 0⟩, ⟨24, 8, .ro, 0⟩, ⟨32, 32, .ro, 0⟩]⟩, -- ARR_RCP_STAT
    ⟨0x400078, 0x8, 1, [⟨0, 64, .ro, 0⟩]⟩, -- ARR_RCP_ID
    ⟨0x400080, 0x8, 1, [⟨0, 32, .ro, 0⟩]⟩, -- ARR_RCP_VER
    ⟨0x400088, 0x8, 1, [⟨0, 64, .ro, 0⟩]⟩, -- ARR_RCP_DIG
    ⟨0x400090, 0x8, 1, [⟨0, 64, .ro, 0⟩]⟩ -- ARR_RCP_MAP
  ]

/-- The `ATN` registers (R194). -/
def regsATN : List RegDef :=
  [
    ⟨0x500000, 0x8, 1, [⟨0, 1, .rw, 0⟩, ⟨1, 2, .wd, 0⟩, ⟨3, 1, .wd, 0⟩]⟩, -- ATN_CTL
    ⟨0x500008, 0x8, 1, [⟨0, 13, .ro, 0⟩, ⟨32, 32, .ro, 0⟩]⟩, -- ATN_STAT
    ⟨0x500010, 0x8, 1, [⟨0, 16, .ws, 0⟩, ⟨16, 1, .ws, 0⟩, ⟨17, 1, .ws, 0⟩, ⟨18, 1, .ws, 0⟩, ⟨19, 1, .ws, 0⟩, ⟨20, 1, .ws, 0⟩]⟩, -- ATN_EVT
    ⟨0x500018, 0x8, 1, [⟨0, 32, .ro, 0⟩, ⟨32, 32, .ro, 0⟩]⟩, -- ATN_CRC_CNT
    ⟨0x500020, 0x8, 1, [⟨0, 64, .ro, 0⟩]⟩, -- ATN_UFL_CNT
    ⟨0x500028, 0x8, 1, [⟨0, 32, .ro, 0⟩, ⟨32, 32, .ro, 0⟩]⟩, -- ATN_VICTIM_CNT
    ⟨0x500030, 0x8, 1, [⟨0, 16, .wd, 0x14⟩]⟩, -- ATN_SPILL_WAIT
    ⟨0x500038, 0x8, 1, [⟨0, 12, .rw, 0⟩]⟩, -- ATN_CTX_SEL
    ⟨0x500040, 0x8, 1, [⟨0, 32, .ro, 0⟩, ⟨32, 26, .ro, 0⟩, ⟨58, 1, .ro, 0⟩, ⟨59, 1, .ro, 0⟩, ⟨60, 1, .ro, 0⟩]⟩ -- ATN_CTX_STAT
  ]

/-- The `CTX` registers (R229). -/
def regsCTX : List RegDef :=
  [
    ⟨0x600000, 0x8, 1, [⟨0, 1, .rw, 0⟩]⟩, -- CTX_CTL
    ⟨0x600008, 0x8, 1, [⟨0, 13, .ro, 0⟩, ⟨16, 25, .ro, 0⟩]⟩, -- CTX_STAT
    ⟨0x600010, 0x8, 1, [⟨0, 16, .ws, 0⟩, ⟨16, 1, .ws, 0⟩, ⟨17, 1, .ws, 0⟩, ⟨18, 1, .ws, 0⟩, ⟨19, 1, .ws, 0⟩, ⟨20, 1, .ws, 0⟩, ⟨21, 1, .ws, 0⟩]⟩, -- CTX_EVT
    ⟨0x600018, 0x8, 1, [⟨0, 5, .wd, 0x14⟩]⟩, -- CTX_REC_CFG
    ⟨0x600020, 0x8, 1, [⟨0, 8, .wd, 2⟩]⟩, -- CTX_LX_TIMEOUT
    ⟨0x600028, 0x8, 1, [⟨0, 8, .rw, 0⟩]⟩, -- CTX_CLIENT_SEL
    ⟨0x600030, 0x8, 1, [⟨0, 25, .rw, 0⟩]⟩, -- CTX_CLIENT_LIM
    ⟨0x600038, 0x8, 1, [⟨0, 25, .ro, 0⟩, ⟨32, 13, .ro, 0⟩]⟩, -- CTX_CLIENT_USE
    ⟨0x600040, 0x8, 1, [⟨0, 12, .rw, 0⟩]⟩, -- CTX_SLOT_SEL
    ⟨0x600048, 0x8, 1, [⟨0, 3, .ro, 0⟩, ⟨8, 8, .ro, 0⟩, ⟨16, 4, .ro, 0⟩, ⟨32, 32, .ro, 0⟩]⟩, -- CTX_SLOT_STAT
    ⟨0x600050, 0x8, 1, [⟨0, 64, .ro, 0⟩]⟩, -- CTX_SLOT_SEQ
    ⟨0x600058, 0x8, 1, [⟨0, 24, .rw, 0⟩]⟩, -- CTX_REC_SEL
    ⟨0x600060, 0x8, 1, [⟨0, 3, .ro, 0⟩, ⟨3, 1, .ro, 0⟩, ⟨4, 1, .ro, 0⟩, ⟨5, 1, .ro, 0⟩, ⟨6, 1, .ro, 0⟩, ⟨8, 8, .ro, 0⟩, ⟨16, 8, .ro, 0⟩, ⟨32, 26, .ro, 0⟩]⟩, -- CTX_REC_STAT
    ⟨0x600068, 0x8, 1, [⟨0, 32, .ro, 0⟩, ⟨32, 16, .ro, 0⟩, ⟨48, 16, .ro, 0⟩]⟩ -- CTX_CNT
  ]

/-- The `TXT` registers (R250, R281). -/
def regsTXT : List RegDef :=
  [
    ⟨0xe00000, 0x8, 1, [⟨0, 1, .rw, 0⟩]⟩, -- TXT_CTL
    ⟨0xe00008, 0x8, 1, [⟨0, 7, .ro, 0⟩, ⟨8, 9, .ro, 0⟩, ⟨32, 32, .ro, 0⟩]⟩, -- TXT_STAT
    ⟨0xe00010, 0x8, 1, [⟨0, 16, .ws, 0⟩, ⟨16, 1, .ws, 0⟩, ⟨17, 1, .ws, 0⟩, ⟨18, 1, .ws, 0⟩, ⟨19, 1, .ws, 0⟩, ⟨20, 1, .ws, 0⟩, ⟨21, 1, .ws, 0⟩]⟩, -- TXT_EVT
    ⟨0xe00018, 0x8, 1, [⟨0, 6, .rw, 0⟩]⟩, -- TXT_TBL_SEL
    ⟨0xe00020, 0x8, 1, [⟨0, 2, .ro, 0⟩, ⟨2, 2, .ro, 0⟩, ⟨4, 4, .ro, 0⟩, ⟨8, 1, .ro, 0⟩, ⟨9, 1, .ro, 0⟩, ⟨10, 2, .ro, 0⟩, ⟨16, 8, .ro, 0⟩, ⟨32, 16, .ro, 0⟩, ⟨48, 8, .ro, 0⟩]⟩, -- TXT_TBL_STAT
    ⟨0xe00028, 0x8, 1, [⟨0, 32, .ro, 0⟩, ⟨32, 32, .ro, 0⟩]⟩, -- TXT_TBL_VER
    ⟨0xe00030, 0x8, 1, [⟨0, 32, .ro, 0⟩, ⟨32, 32, .ro, 0⟩]⟩, -- TXT_TBL_ROWS
    ⟨0xe00038, 0x8, 1, [⟨0, 32, .ro, 0⟩, ⟨32, 32, .ro, 0⟩]⟩, -- TXT_TBL_CNT
    ⟨0xe00040, 0x8, 1, [⟨0, 32, .ro, 0⟩, ⟨32, 32, .ro, 0⟩]⟩, -- TXT_LADLE_CNT
    ⟨0xe00048, 0x8, 1, [⟨0, 32, .ro, 0⟩, ⟨32, 32, .ro, 0⟩]⟩, -- TXT_CRC_CNT
    ⟨0xe00080, 0x8, 1, [⟨0, 16, .ws, 0⟩, ⟨16, 1, .ws, 0⟩, ⟨17, 1, .ws, 0⟩, ⟨18, 1, .ws, 0⟩, ⟨19, 1, .ws, 0⟩, ⟨20, 1, .ws, 0⟩]⟩, -- TXT_OUT_EVT
    ⟨0xe00088, 0x8, 1, [⟨0, 32, .ro, 0⟩, ⟨32, 32, .ro, 0⟩]⟩, -- TXT_OUT_CNT0
    ⟨0xe00090, 0x8, 1, [⟨0, 32, .ro, 0⟩, ⟨32, 32, .ro, 0⟩]⟩, -- TXT_OUT_CNT1
    ⟨0xe00098, 0x8, 1, [⟨0, 32, .ro, 0⟩, ⟨32, 32, .ro, 0⟩]⟩, -- TXT_OUT_CNT2
    ⟨0xe000a0, 0x8, 1, [⟨0, 8, .rw, 0⟩]⟩, -- TXT_COL_SEL
    ⟨0xe000a8, 0x8, 1, [⟨0, 17, .ro, 0⟩, ⟨24, 8, .ro, 0⟩, ⟨32, 32, .ro, 0⟩]⟩, -- TXT_COL_STAT
    ⟨0xe000b0, 0x8, 1, [⟨0, 12, .rw, 0⟩]⟩, -- TXT_OUT_SEL
    ⟨0xe000b8, 0x8, 1, [⟨0, 6, .ro, 0⟩, ⟨6, 2, .ro, 0⟩, ⟨8, 1, .ro, 0⟩, ⟨9, 9, .ro, 0⟩, ⟨18, 1, .ro, 0⟩, ⟨19, 7, .ro, 0⟩, ⟨26, 1, .ro, 0⟩, ⟨27, 1, .ro, 0⟩, ⟨28, 1, .ro, 0⟩, ⟨29, 8, .ro, 0⟩, ⟨37, 16, .ro, 0⟩]⟩, -- TXT_OUT_CTX
    ⟨0xe000c0, 0x8, 1, [⟨0, 64, .ro, 0⟩]⟩, -- TXT_STR_POS
    ⟨0xe000c8, 0x8, 1, [⟨0, 32, .ro, 0⟩]⟩ -- TXT_STR_EPOCH
  ]

/-- The `MEM` registers (R308). -/
def regsMEM : List RegDef :=
  [
    ⟨0x800000, 0x8, 1, [⟨0, 1, .rw, 0⟩]⟩, -- MEM_CTL
    ⟨0x800008, 0x8, 1, [⟨0, 8, .ro, 0⟩, ⟨8, 8, .ro, 0⟩, ⟨16, 1, .ro, 0⟩, ⟨17, 1, .ro, 0⟩, ⟨32, 32, .ro, 0⟩]⟩, -- MEM_STAT
    ⟨0x800010, 0x8, 1, [⟨0, 16, .ws, 0⟩, ⟨16, 1, .ws, 0⟩, ⟨17, 1, .ws, 0⟩, ⟨18, 1, .ws, 0⟩, ⟨19, 1, .ws, 0⟩, ⟨20, 1, .ws, 0⟩, ⟨21, 1, .ws, 0⟩, ⟨22, 1, .ws, 0⟩, ⟨23, 1, .ws, 0⟩]⟩, -- MEM_EVT
    ⟨0x800018, 0x8, 1, [⟨0, 32, .wd, 0⟩]⟩, -- MEM_FAR_POP
    ⟨0x800020, 0x8, 1, [⟨0, 2, .wd, 0⟩, ⟨2, 2, .wd, 0⟩]⟩, -- MEM_FAR_CFG
    ⟨0x800028, 0x8, 1, [⟨0, 32, .ro, 0⟩, ⟨32, 32, .ro, 0⟩]⟩, -- MEM_FAR_STAT
    ⟨0x800030, 0x8, 1, [⟨0, 48, .ro, 0⟩]⟩, -- MEM_T0_STAT
    ⟨0x800038, 0x8, 1, [⟨0, 48, .ro, 0⟩]⟩, -- MEM_T0_RET
    ⟨0x800040, 0x8, 1, [⟨0, 13, .ro, 0⟩, ⟨32, 32, .ro, 0⟩]⟩, -- MEM_FREE
    ⟨0x800048, 0x8, 1, [⟨0, 32, .ro, 0⟩, ⟨32, 32, .ro, 0⟩]⟩, -- MEM_FREE2
    ⟨0x800050, 0x8, 1, [⟨0, 8, .rw, 0⟩]⟩, -- MEM_CLIENT_SEL
    ⟨0x800058, 0x8, 1, [⟨0, 8, .rw, 0⟩, ⟨8, 12, .rw, 0⟩, ⟨20, 13, .rw, 0⟩, ⟨33, 13, .rw, 0⟩]⟩, -- MEM_CLIENT_SHARE
    ⟨0x800060, 0x8, 1, [⟨0, 64, .ro, 0⟩]⟩, -- MEM_CLIENT_USE
    ⟨0x800068, 0x8, 1, [⟨0, 32, .ro, 0⟩, ⟨32, 32, .ro, 0⟩]⟩, -- MEM_ECC_CNT
    ⟨0x800070, 0x8, 1, [⟨0, 32, .wg, 0⟩]⟩, -- MEM_ERASE_A
    ⟨0x800078, 0x8, 1, [⟨0, 32, .wg, 0⟩]⟩ -- MEM_ERASE_B
  ]

/-- The `DLY` registers (R310). -/
def regsDLY : List RegDef :=
  [
    ⟨0xa00000, 0x8, 1, [⟨0, 1, .rw, 0⟩]⟩, -- DLY_CTL
    ⟨0xa00008, 0x8, 1, [⟨0, 7, .ro, 0⟩, ⟨32, 32, .ro, 0⟩]⟩, -- DLY_STAT
    ⟨0xa00010, 0x8, 1, [⟨0, 16, .ws, 0⟩, ⟨16, 1, .ws, 0⟩, ⟨17, 1, .ws, 0⟩, ⟨18, 1, .ws, 0⟩, ⟨19, 1, .ws, 0⟩]⟩, -- DLY_EVT
    ⟨0xa00018, 0x8, 1, [⟨0, 64, .ro, 0⟩]⟩, -- DLY_MOVED
    ⟨0xa00020, 0x8, 1, [⟨0, 32, .ro, 0⟩, ⟨32, 32, .ro, 0⟩]⟩, -- DLY_CHECK_CNT
    ⟨0xa00028, 0x8, 1, [⟨0, 3, .rw, 0⟩]⟩, -- DLY_Q_SEL
    ⟨0xa00030, 0x8, 1, [⟨0, 32, .ro, 0⟩, ⟨32, 32, .ro, 0⟩]⟩, -- DLY_Q_STAT
    ⟨0xa00038, 0x8, 1, [⟨0, 64, .ro, 1⟩]⟩ -- DLY_SEAL_CTR
  ]

/-- The `FLS` registers (R340). -/
def regsFLS : List RegDef :=
  [
    ⟨0xc00000, 0x8, 1, [⟨0, 1, .rw, 0⟩]⟩, -- FLS_CTL
    ⟨0xc00008, 0x8, 1, [⟨0, 32, .ro, 0⟩, ⟨32, 9, .ro, 0⟩, ⟨41, 12, .ro, 0⟩]⟩, -- FLS_STAT
    ⟨0xc00010, 0x8, 1, [⟨0, 16, .ws, 0⟩, ⟨16, 1, .ws, 0⟩, ⟨17, 1, .ws, 0⟩, ⟨18, 1, .ws, 0⟩, ⟨19, 1, .ws, 0⟩, ⟨20, 1, .ws, 0⟩, ⟨21, 1, .ws, 0⟩, ⟨22, 1, .ws, 0⟩, ⟨23, 1, .ws, 0⟩, ⟨24, 1, .ws, 0⟩]⟩, -- FLS_EVT
    ⟨0xc00018, 0x8, 1, [⟨0, 32, .wd, 0⟩]⟩, -- FLS_POP
    ⟨0xc00020, 0x8, 1, [⟨0, 2, .wd, 0⟩, ⟨2, 3, .wd, 0⟩, ⟨5, 2, .wd, 0⟩]⟩, -- FLS_CFG
    ⟨0xc00028, 0x8, 1, [⟨0, 32, .ro, 0⟩, ⟨32, 32, .ro, 0⟩]⟩, -- FLS_CH_STAT
    ⟨0xc00030, 0x8, 1, [⟨0, 5, .rw, 0⟩]⟩, -- FLS_CH_SEL
    ⟨0xc00038, 0x8, 1, [⟨0, 32, .ro, 0⟩, ⟨32, 16, .ro, 0⟩, ⟨48, 16, .ro, 0⟩]⟩, -- FLS_CH_INFO
    ⟨0xc00040, 0x8, 1, [⟨0, 7, .rw, 0x19⟩]⟩, -- FLS_RECLAIM
    ⟨0xc00048, 0x8, 1, [⟨0, 32, .rw, 0x186a0⟩]⟩, -- FLS_REFRESH
    ⟨0xc00050, 0x8, 1, [⟨0, 4, .rw, 4⟩]⟩, -- FLS_PREFETCH
    ⟨0xc00058, 0x8, 1, [⟨0, 8, .wd, 0x14⟩, ⟨8, 8, .wd, 0xa⟩]⟩, -- FLS_SHARD_TIMEOUT
    ⟨0xc00060, 0x8, 1, [⟨0, 8, .rw, 0⟩]⟩, -- FLS_IDX_SEL
    ⟨0xc00068, 0x8, 1, [⟨0, 3, .ro, 0⟩, ⟨3, 1, .ro, 0⟩, ⟨4, 1, .ro, 0⟩, ⟨8, 8, .ro, 0⟩, ⟨16, 7, .ro, 0⟩, ⟨32, 32, .ro, 0⟩]⟩, -- FLS_IDX_STAT
    ⟨0xc00070, 0x8, 1, [⟨0, 3, .rw, 0⟩]⟩, -- FLS_IDX_STATE
    ⟨0xc00078, 0x8, 1, [⟨0, 64, .ro, 0⟩]⟩, -- FLS_IDX_SEQ
    ⟨0xc00080, 0x8, 1, [⟨0, 36, .ro, 0⟩]⟩, -- FLS_IDX_NODES
    ⟨0xc00088, 0x8, 1, [⟨0, 32, .ro, 0⟩, ⟨32, 32, .ro, 0⟩]⟩, -- FLS_IDX_CNT
    ⟨0xc00090, 0x8, 1, [⟨0, 32, .ro, 0⟩, ⟨32, 32, .ro, 0⟩]⟩, -- FLS_SEARCH_CNT
    ⟨0xc00098, 0x8, 1, [⟨0, 32, .ro, 0⟩, ⟨32, 32, .ro, 0⟩]⟩ -- FLS_CHECK_CNT
  ]

/-- The `LNK` registers (R364). -/
def regsLNK : List RegDef :=
  [
    ⟨0x1000000, 0x8, 1, [⟨0, 1, .rw, 0⟩]⟩, -- LNK_CTL
    ⟨0x1000008, 0x8, 1, [⟨0, 16, .ro, 0⟩, ⟨16, 16, .ro, 0⟩, ⟨32, 4, .ro, 0xf⟩, ⟨36, 1, .ro, 0⟩]⟩, -- LNK_STAT
    ⟨0x1000010, 0x8, 1, [⟨0, 16, .ws, 0⟩, ⟨16, 1, .ws, 0⟩, ⟨17, 1, .ws, 0⟩, ⟨18, 1, .ws, 0⟩, ⟨19, 1, .ws, 0⟩, ⟨20, 1, .ws, 0⟩, ⟨21, 1, .ws, 0⟩, ⟨22, 1, .ws, 0⟩, ⟨23, 1, .ws, 0⟩, ⟨24, 1, .ws, 0⟩]⟩, -- LNK_EVT
    ⟨0x1000018, 0x8, 1, [⟨0, 16, .wd, 0⟩]⟩, -- LNK_PORT_POP
    ⟨0x1000020, 0x8, 1, [⟨0, 16, .wg, 0⟩, ⟨16, 16, .wg, 0⟩]⟩, -- LNK_PORT_DISABLE_A
    ⟨0x1000028, 0x8, 1, [⟨0, 32, .wg, 0⟩]⟩, -- LNK_PORT_DISABLE_B
    ⟨0x1000030, 0x8, 1, [⟨0, 4, .rw, 0⟩]⟩, -- LNK_PORT_SEL
    ⟨0x1000038, 0x8, 1, [⟨0, 3, .ro, 0⟩, ⟨3, 1, .ro, 0⟩, ⟨16, 16, .ro, 0⟩, ⟨32, 32, .ro, 0⟩]⟩, -- LNK_PORT_STAT
    ⟨0x1000040, 0x8, 1, [⟨0, 32, .ro, 0⟩, ⟨32, 16, .ro, 0⟩]⟩, -- LNK_PORT_CNT
    ⟨0x1000048, 0x8, 1, [⟨0, 16, .rw, 0⟩]⟩, -- LNK_TC_ASYM
    ⟨0x1000050, 0x8, 1, [⟨0, 16, .rw, 0⟩]⟩, -- LNK_ROUTE_SEL
    ⟨0x1000058, 0x8, 1, [⟨0, 16, .rw, 0⟩]⟩, -- LNK_ROUTE
    ⟨0x1000060, 0x8, 1, [⟨0, 56, .rw, 0x8104020402040⟩]⟩, -- LNK_TC_WEIGHT
    ⟨0x1000068, 0x8, 1, [⟨0, 1, .rw, 0⟩, ⟨1, 6, .rw, 0⟩]⟩, -- LNK_GATE_SEL
    ⟨0x1000070, 0x8, 1, [⟨0, 8, .rw, 0xff⟩, ⟨8, 24, .rw, 0x10000⟩]⟩, -- LNK_GATE_ENT
    ⟨0x1000078, 0x8, 1, [⟨0, 6, .rw, 0⟩, ⟨6, 6, .rw, 0⟩, ⟨12, 1, .ro, 0⟩, ⟨16, 16, .wd, 0x10⟩]⟩, -- LNK_GATE_CFG
    ⟨0x1000080, 0x8, 1, [⟨0, 48, .rw, 0⟩, ⟨48, 1, .rw, 0⟩]⟩, -- LNK_GATE_SWITCH
    ⟨0x1000088, 0x8, 1, [⟨0, 8, .rw, 0⟩, ⟨8, 3, .rw, 3⟩]⟩, -- LNK_POL_SEL
    ⟨0x1000090, 0x8, 1, [⟨0, 32, .rw, 0⟩, ⟨32, 32, .rw, 0⟩]⟩, -- LNK_POL_RATE
    ⟨0x1000098, 0x8, 1, [⟨0, 32, .rw, 0⟩, ⟨32, 32, .rw, 0⟩]⟩, -- LNK_POL_BURST
    ⟨0x10000a0, 0x8, 1, [⟨0, 3, .rw, 0⟩, ⟨3, 6, .rw, 0⟩]⟩, -- LNK_LE_SEL
    ⟨0x10000a8, 0x8, 1, [⟨0, 64, .rw, 0⟩]⟩, -- LNK_LE_POOL
    ⟨0x10000b0, 0x8, 1, [⟨0, 16, .rw, 0⟩, ⟨16, 1, .rw, 0⟩]⟩, -- LNK_LE_ENT
    ⟨0x10000b8, 0x8, 1, [⟨0, 32, .rw, 0⟩, ⟨32, 32, .rw, 0⟩]⟩ -- LNK_LEND
  ]
  ++ [
    ⟨0x10000c0, 0x8, 1, [⟨0, 3, .rw, 0⟩]⟩, -- LNK_LENDER_SEL
    ⟨0x10000c8, 0x8, 1, [⟨0, 16, .rw, 0⟩, ⟨16, 1, .rw, 0⟩]⟩, -- LNK_LENDER
    ⟨0x10000d0, 0x8, 1, [⟨0, 32, .wo, 0⟩]⟩, -- LNK_RECALL
    ⟨0x10000d8, 0x8, 1, [⟨0, 16, .wd, 0x7d0⟩]⟩, -- LNK_RECALL_DEADLINE
    ⟨0x10000e0, 0x8, 1, [⟨0, 32, .ro, 0⟩, ⟨32, 32, .ro, 0⟩]⟩ -- LNK_LOAN_STAT
  ]

/-- The `MAP` registers (R386). -/
def regsMAP : List RegDef :=
  [
    ⟨0x1400000, 0x8, 1, [⟨0, 1, .rw, 0⟩, ⟨1, 1, .rw, 0⟩]⟩, -- MAP_CTL
    ⟨0x1400008, 0x8, 1, [⟨0, 1, .ro, 0⟩, ⟨1, 1, .ro, 0⟩, ⟨2, 1, .ro, 0⟩, ⟨3, 1, .ro, 0⟩, ⟨4, 1, .ro, 0⟩, ⟨16, 16, .ro, 0⟩, ⟨32, 32, .ro, 0⟩]⟩, -- MAP_STAT
    ⟨0x1400010, 0x8, 1, [⟨0, 16, .ws, 0⟩, ⟨16, 1, .ws, 0⟩, ⟨17, 1, .ws, 0⟩, ⟨18, 1, .ws, 0⟩, ⟨19, 1, .ws, 0⟩, ⟨20, 1, .ws, 0⟩, ⟨21, 1, .ws, 0⟩, ⟨22, 1, .ws, 0⟩, ⟨23, 1, .ws, 0⟩]⟩, -- MAP_EVT
    ⟨0x1400018, 0x8, 1, [⟨0, 16, .wd, 0⟩, ⟨16, 16, .wd, 0⟩, ⟨32, 1, .wd, 0⟩]⟩, -- MAP_CFG
    ⟨0x1400020, 0x8, 1, [⟨0, 64, .wd, 0⟩]⟩, -- MAP_DOM
    ⟨0x1400028, 0x8, 1, [⟨0, 8, .wd, 1⟩, ⟨8, 8, .wd, 5⟩, ⟨16, 16, .wd, 0x14⟩]⟩, -- MAP_HB
    ⟨0x1400030, 0x8, 1, [⟨0, 16, .wd, 0x64⟩, ⟨16, 16, .wd, 0x64⟩, ⟨32, 16, .wd, 0x64⟩]⟩, -- MAP_HO_TIMEOUT
    ⟨0x1400038, 0x8, 4, [⟨0, 64, .ro, 0⟩]⟩, -- MAP_DIGEST0
    ⟨0x1400058, 0x8, 1, [⟨0, 16, .ro, 0⟩, ⟨16, 16, .ro, 0⟩, ⟨32, 32, .ro, 0⟩]⟩, -- MAP_DIV
    ⟨0x1400060, 0x8, 1, [⟨0, 4, .rw, 0⟩]⟩, -- MAP_HO_SEL
    ⟨0x1400068, 0x8, 1, [⟨0, 32, .rw, 0⟩, ⟨32, 16, .rw, 0⟩, ⟨48, 8, .rw, 0⟩]⟩, -- MAP_HO_REQ
    ⟨0x1400070, 0x8, 1, [⟨0, 1, .wo, 0⟩]⟩, -- MAP_HO_GO
    ⟨0x1400078, 0x8, 1, [⟨0, 3, .ro, 0⟩, ⟨8, 8, .ro, 0⟩, ⟨32, 32, .ro, 0⟩]⟩, -- MAP_HO_STAT
    ⟨0x1400080, 0x8, 1, [⟨0, 32, .ro, 0⟩, ⟨32, 32, .ro, 0⟩]⟩, -- MAP_HO_CNT
    ⟨0x1400088, 0x8, 1, [⟨0, 32, .ro, 0⟩, ⟨32, 32, .ro, 0⟩]⟩, -- MAP_HO_FAIL
    ⟨0x1400090, 0x8, 1, [⟨0, 4, .rw, 0⟩]⟩, -- MAP_SLICE_SEL
    ⟨0x1400098, 0x8, 1, [⟨0, 64, .rw, 0⟩]⟩, -- MAP_SLICE_ARR0
    ⟨0x14000a0, 0x8, 1, [⟨0, 64, .rw, 0⟩]⟩, -- MAP_SLICE_ARR1
    ⟨0x14000a8, 0x8, 1, [⟨0, 16, .rw, 0⟩]⟩, -- MAP_SLICE_ARR2
    ⟨0x14000b0, 0x8, 1, [⟨0, 48, .rw, 0⟩]⟩, -- MAP_SLICE_BANKS
    ⟨0x14000b8, 0x8, 1, [⟨0, 1, .wo, 0⟩]⟩, -- MAP_SLICE_APPLY
    ⟨0x14000c0, 0x8, 1, [⟨0, 1, .ro, 0⟩, ⟨1, 1, .ro, 0⟩, ⟨8, 8, .ro, 0⟩, ⟨16, 6, .ro, 0⟩, ⟨24, 8, .ro, 0⟩, ⟨32, 7, .ro, 0⟩]⟩, -- MAP_SLICE_STAT
    ⟨0x14000c8, 0x8, 1, [⟨0, 32, .ro, 0⟩, ⟨32, 32, .ro, 0⟩]⟩ -- MAP_ENTRIES
  ]

/-- The `CKP` registers (R410). -/
def regsCKP : List RegDef :=
  [
    ⟨0x1600000, 0x8, 1, [⟨0, 1, .rw, 0⟩]⟩, -- CKP_CTL
    ⟨0x1600008, 0x8, 1, [⟨0, 3, .ro, 0⟩, ⟨32, 32, .ro, 0⟩]⟩, -- CKP_STAT
    ⟨0x1600010, 0x8, 1, [⟨0, 16, .ws, 0⟩, ⟨16, 1, .ws, 0⟩, ⟨17, 1, .ws, 0⟩, ⟨18, 1, .ws, 0⟩, ⟨19, 1, .ws, 0⟩, ⟨20, 1, .ws, 0⟩, ⟨21, 1, .ws, 0⟩, ⟨22, 1, .ws, 0⟩]⟩, -- CKP_EVT
    ⟨0x1600018, 0x8, 1, [⟨0, 8, .wd, 0⟩, ⟨8, 2, .wd, 2⟩, ⟨10, 1, .wd, 0⟩, ⟨11, 1, .wd, 0⟩, ⟨16, 16, .wd, 0⟩, ⟨32, 8, .wd, 0x32⟩, ⟨40, 16, .wd, 0xc8⟩]⟩, -- CKP_CFG
    ⟨0x1600020, 0x8, 1, [⟨0, 16, .wd, 0x400⟩]⟩, -- CKP_BUF
    ⟨0x1600028, 0x8, 1, [⟨0, 32, .wd, 0⟩, ⟨32, 32, .ro, 0⟩]⟩, -- CKP_BUDDY_LIM
    ⟨0x1600030, 0x8, 1, [⟨0, 32, .ro, 0⟩, ⟨32, 32, .ro, 0⟩]⟩, -- CKP_OLDER
    ⟨0x1600038, 0x8, 1, [⟨0, 32, .ro, 0⟩, ⟨32, 16, .ro, 0⟩, ⟨48, 16, .ro, 0⟩]⟩, -- CKP_SLATE_CNT
    ⟨0x1600040, 0x8, 1, [⟨0, 32, .ro, 0⟩, ⟨32, 32, .ro, 0⟩]⟩, -- CKP_SHARD_CNT
    ⟨0x1600048, 0x8, 1, [⟨0, 32, .ro, 0⟩, ⟨32, 32, .ro, 0⟩]⟩, -- CKP_LAST
    ⟨0x1600050, 0x8, 1, [⟨0, 32, .wg, 0⟩]⟩, -- CKP_DISCARD_A
    ⟨0x1600058, 0x8, 1, [⟨0, 32, .wg, 0⟩]⟩ -- CKP_DISCARD_B
  ]

/-- The `SEC` registers (R448). -/
def regsSEC : List RegDef :=
  [
    ⟨0x1800000, 0x8, 1, [⟨0, 1, .rw, 0⟩]⟩, -- SEC_CTL
    ⟨0x1800008, 0x8, 1, [⟨0, 1, .ro, 0⟩, ⟨1, 1, .ro, 0⟩, ⟨8, 5, .ro, 0⟩, ⟨32, 16, .ro, 0⟩]⟩, -- SEC_STAT
    ⟨0x1800010, 0x8, 1, [⟨0, 16, .ws, 0⟩, ⟨16, 1, .ws, 0⟩, ⟨17, 1, .ws, 0⟩, ⟨18, 1, .ws, 0⟩, ⟨19, 1, .ws, 0⟩, ⟨20, 1, .ws, 0⟩, ⟨21, 1, .ws, 0⟩, ⟨22, 1, .ws, 0⟩]⟩, -- SEC_EVT
    ⟨0x1800018, 0x8, 1, [⟨0, 4, .rw, 0⟩]⟩, -- SEC_PUB_SEL
    ⟨0x1800020, 0x8, 8, [⟨0, 64, .wd, 0⟩]⟩, -- SEC_PUB_KEY0
    ⟨0x1800060, 0x8, 1, [⟨0, 1, .wd, 0⟩]⟩, -- SEC_PUB_CFG
    ⟨0x1800068, 0x8, 1, [⟨0, 2, .rw, 0⟩]⟩, -- SEC_RCPT_SEL
    ⟨0x1800070, 0x8, 1, [⟨0, 16, .wd, 0⟩, ⟨16, 1, .wd, 0⟩]⟩, -- SEC_RCPT
    ⟨0x1800078, 0x8, 4, [⟨0, 64, .ro, 0⟩]⟩, -- SEC_ID_DIG0
    ⟨0x1800098, 0x8, 1, [⟨0, 32, .wg, 0⟩]⟩, -- SEC_ZEROISE_A
    ⟨0x18000a0, 0x8, 1, [⟨0, 32, .wg, 0⟩]⟩, -- SEC_ZEROISE_B
    ⟨0x18000a8, 0x8, 1, [⟨0, 4, .ro, 0⟩, ⟨16, 16, .ro, 0⟩]⟩, -- SEC_ZERO_STAT
    ⟨0x18000b0, 0x8, 1, [⟨0, 32, .ro, 0⟩, ⟨32, 8, .ro, 0⟩]⟩ -- SEC_ATT_STAT
  ]

/-- The `MTR` registers (R468). -/
def regsMTR : List RegDef :=
  [
    ⟨0x1a00000, 0x8, 1, [⟨0, 1, .rw, 0⟩]⟩, -- MTR_CTL
    ⟨0x1a00008, 0x8, 1, [⟨0, 1, .ro, 0⟩, ⟨1, 1, .ro, 0⟩, ⟨2, 3, .ro, 0⟩, ⟨5, 1, .ro, 0⟩, ⟨6, 1, .ro, 0⟩, ⟨8, 4, .ro, 0⟩, ⟨16, 16, .ro, 0x226⟩]⟩, -- MTR_STAT
    ⟨0x1a00010, 0x8, 1, [⟨0, 16, .ws, 0⟩, ⟨16, 1, .ws, 0⟩, ⟨17, 1, .ws, 0⟩, ⟨18, 1, .ws, 0⟩, ⟨19, 1, .ws, 0⟩, ⟨20, 1, .ws, 0⟩, ⟨21, 1, .ws, 0⟩, ⟨22, 1, .ws, 0⟩, ⟨23, 1, .ws, 0⟩, ⟨24, 1, .ws, 0⟩, ⟨25, 1, .ws, 0⟩, ⟨26, 1, .ws, 0⟩]⟩, -- MTR_EVT
    ⟨0x1a00018, 0x8, 1, [⟨0, 1, .wd, 0⟩, ⟨8, 24, .wd, 0xea60⟩]⟩, -- MTR_TC_CFG
    ⟨0x1a00020, 0x8, 1, [⟨0, 48, .wd, 0⟩]⟩, -- MTR_TC_INIT
    ⟨0x1a00028, 0x8, 1, [⟨0, 64, .ro, 0⟩]⟩, -- MTR_TC_NOW
    ⟨0x1a00030, 0x8, 1, [⟨0, 32, .ro, 0⟩]⟩, -- MTR_TC_OFS
    ⟨0x1a00038, 0x8, 1, [⟨0, 6, .rw, 0⟩]⟩, -- MTR_ENV_SEL
    ⟨0x1a00040, 0x8, 1, [⟨0, 32, .rw, 0⟩, ⟨32, 16, .rw, 0⟩, ⟨48, 1, .rw, 0⟩]⟩, -- MTR_ENV_ENT
    ⟨0x1a00048, 0x8, 1, [⟨0, 16, .rw, 0x226⟩]⟩, -- MTR_ENV_DEFAULT
    ⟨0x1a00050, 0x8, 1, [⟨0, 8, .rw, 6⟩, ⟨8, 1, .rw, 0⟩, ⟨32, 24, .rw, 0x2710⟩]⟩, -- MTR_SUPPLY_CFG
    ⟨0x1a00058, 0x8, 1, [⟨0, 16, .ro, 0⟩, ⟨16, 16, .ro, 0⟩]⟩, -- MTR_POWER
    ⟨0x1a00060, 0x8, 1, [⟨0, 32, .ro, 0⟩, ⟨32, 32, .ro, 0⟩]⟩, -- MTR_REC_MIN
    ⟨0x1a00068, 0x8, 1, [⟨0, 64, .ro, 0⟩]⟩, -- MTR_REC_E
    ⟨0x1a00070, 0x8, 1, [⟨0, 1, .wd, 0⟩, ⟨12, 52, .wd, 0⟩]⟩, -- MTR_LOG_BASE
    ⟨0x1a00078, 0x8, 1, [⟨0, 4, .wd, 4⟩]⟩, -- MTR_LOG_CFG
    ⟨0x1a00080, 0x8, 1, [⟨0, 32, .ro, 0⟩, ⟨32, 32, .ro, 0⟩]⟩, -- MTR_LOG_STAT
    ⟨0x1a00088, 0x8, 1, [⟨3, 61, .wd, 0⟩]⟩, -- MTR_LOG_SHADOW
    ⟨0x1a00090, 0x8, 1, [⟨0, 2, .wp, 0⟩]⟩, -- MTR_TX_CFG
    ⟨0x1a00098, 0x8, 1, [⟨0, 16, .ro, 0⟩, ⟨16, 16, .ro, 0⟩, ⟨32, 16, .ro, 0⟩, ⟨48, 16, .ro, 0⟩]⟩ -- MTR_CNT
  ]

/-- The `FLT` registers (R485). -/
def regsFLT : List RegDef :=
  [
    ⟨0x1e00000, 0x8, 1, [⟨0, 1, .rw, 0⟩]⟩, -- FLT_CTL
    ⟨0x1e00008, 0x8, 1, [⟨0, 1, .ro, 0⟩, ⟨16, 16, .ro, 0⟩]⟩, -- FLT_STAT
    ⟨0x1e00010, 0x8, 1, [⟨0, 16, .ws, 0⟩, ⟨16, 1, .ws, 0⟩, ⟨17, 1, .ws, 0⟩, ⟨18, 1, .ws, 0⟩]⟩, -- FLT_EVT
    ⟨0x1e00018, 0x8, 1, [⟨12, 52, .wd, 0⟩]⟩, -- FLT_LOG_BASE
    ⟨0x1e00020, 0x8, 1, [⟨0, 1, .rw, 0⟩, ⟨1, 5, .wd, 0xa⟩]⟩, -- FLT_LOG_CFG
    ⟨0x1e00028, 0x8, 1, [⟨3, 61, .wd, 0⟩]⟩, -- FLT_LOG_SHADOW
    ⟨0x1e00030, 0x8, 1, [⟨0, 32, .ro, 0⟩, ⟨32, 32, .ro, 0⟩]⟩, -- FLT_LOG_STAT
    ⟨0x1e00038, 0x8, 1, [⟨0, 8, .rw, 0⟩]⟩, -- FLT_CLIENT_SEL
    ⟨0x1e00040, 0x8, 1, [⟨12, 52, .wd, 0⟩]⟩, -- FLT_CLIENT_BASE
    ⟨0x1e00048, 0x8, 1, [⟨0, 1, .rw, 0⟩, ⟨1, 5, .wd, 6⟩]⟩, -- FLT_CLIENT_CFG
    ⟨0x1e00050, 0x8, 1, [⟨3, 61, .wd, 0⟩]⟩, -- FLT_CLIENT_SHADOW
    ⟨0x1e00058, 0x8, 1, [⟨0, 32, .ro, 0⟩, ⟨32, 32, .ro, 0⟩]⟩, -- FLT_CLIENT_STAT
    ⟨0x1e00060, 0x8, 1, [⟨0, 16, .rw, 0⟩, ⟨16, 1, .rw, 0⟩]⟩, -- FLT_FWD
    ⟨0x1e00068, 0x8, 1, [⟨0, 32, .ro, 0⟩, ⟨32, 32, .ro, 0⟩]⟩ -- FLT_CNT
  ]

/-- The `CVU` registers (R486). -/
def regsCVU : List RegDef :=
  [
    ⟨0x1c00000, 0x8, 1, [⟨0, 1, .rw, 0⟩]⟩, -- CVU_CTL
    ⟨0x1c00008, 0x8, 1, [⟨0, 16, .ro, 0⟩, ⟨16, 16, .ro, 0⟩]⟩, -- CVU_STAT
    ⟨0x1c00010, 0x8, 1, [⟨0, 16, .ws, 0⟩, ⟨16, 1, .ws, 0⟩]⟩, -- CVU_EVT
    ⟨0x1c00018, 0x8, 1, [⟨0, 4, .rw, 0⟩]⟩, -- CVU_SEL
    ⟨0x1c00020, 0x8, 1, [⟨0, 1, .rw, 0⟩, ⟨8, 8, .rw, 1⟩]⟩, -- CVU_UNIT_CFG
    ⟨0x1c00028, 0x8, 1, [⟨0, 1, .wo, 0⟩]⟩, -- CVU_INIT
    ⟨0x1c00030, 0x8, 1, [⟨0, 64, .rw, 0⟩]⟩, -- CVU_RUN
    ⟨0x1c00038, 0x8, 1, [⟨0, 64, .ro, 0⟩]⟩, -- CVU_RESULT
    ⟨0x1c00040, 0x8, 1, [⟨0, 8, .wo, 0⟩]⟩, -- CVU_FEED_B
    ⟨0x1c00048, 0x8, 1, [⟨0, 16, .wo, 0⟩]⟩, -- CVU_FEED_H
    ⟨0x1c00050, 0x8, 1, [⟨0, 32, .wo, 0⟩]⟩, -- CVU_FEED_W
    ⟨0x1c00058, 0x8, 1, [⟨0, 64, .ro, 0⟩]⟩ -- CVU_CNT
  ]

/-- The `DBG` registers (R499). -/
def regsDBG : List RegDef :=
  [
    ⟨0x1f00000, 0x8, 1, [⟨0, 1, .rw, 0⟩]⟩, -- DBG_CTL
    ⟨0x1f00008, 0x8, 1, [⟨0, 1, .ro, 0⟩, ⟨1, 1, .ro, 0⟩]⟩, -- DBG_STAT
    ⟨0x1f00010, 0x8, 1, [⟨0, 16, .ws, 0⟩, ⟨16, 1, .ws, 0⟩, ⟨17, 1, .ws, 0⟩]⟩, -- DBG_EVT
    ⟨0x1f00018, 0x8, 1, [⟨0, 32, .wg, 0⟩]⟩, -- DBG_OBS_EN_A
    ⟨0x1f00020, 0x8, 1, [⟨0, 32, .wg, 0⟩]⟩, -- DBG_OBS_EN_B
    ⟨0x1f00028, 0x8, 1, [⟨0, 8, .rw, 0⟩]⟩, -- DBG_OBS_SEL
    ⟨0x1f00030, 0x8, 1, [⟨0, 8, .ro, 0⟩, ⟨8, 8, .ro, 0⟩, ⟨16, 8, .ro, 0⟩]⟩ -- DBG_TEMP
  ]

/-- Every register of the window. -/
def regTable : List RegDef :=
  regsHST ++ regsSEQ ++ regsSYN ++ regsGLB ++ regsARR ++ regsATN ++ regsCTX ++ regsTXT ++ regsMEM ++ regsDLY ++ regsFLS ++ regsLNK ++ regsMAP ++ regsCKP ++ regsSEC ++ regsMTR ++ regsFLT ++ regsCVU ++ regsDBG

-- Offsets of the registers (copy 0).
def Rg.HST_CTL : Nat := 0x100000
def Rg.HST_STAT : Nat := 0x100008
def Rg.HST_EVT : Nat := 0x100010
def Rg.SEQ_CTL : Nat := 0x200000
def Rg.SEQ_STAT : Nat := 0x200008
def Rg.SEQ_EVT : Nat := 0x200010
def Rg.SEQ_CLIENT_SYNC : Nat := 0x201000
def Rg.SEQ_CLIENT_MIRROR : Nat := 0x201008
def Rg.SEQ_SQ_BASE : Nat := 0x210000
def Rg.SEQ_SQ_CFG : Nat := 0x210008
def Rg.SEQ_SQ_STAT : Nat := 0x210010
def Rg.SEQ_SQ_CMD : Nat := 0x210018
def Rg.SEQ_CQ_BASE : Nat := 0x220000
def Rg.SEQ_CQ_CFG : Nat := 0x220008
def Rg.SEQ_CQ_SHADOW : Nat := 0x220010
def Rg.SEQ_CQ_STAT : Nat := 0x220018
def Rg.SEQ_CQ_MOD : Nat := 0x220020
def Rg.SEQ_STR_BASE : Nat := 0x240000
def Rg.SEQ_STR_CFG : Nat := 0x240008
def Rg.SEQ_STR_SHADOW : Nat := 0x240010
def Rg.SEQ_STR_STAT : Nat := 0x240018
def Rg.SYN_CTL : Nat := 0x1d00000
def Rg.SYN_STAT : Nat := 0x1d00008
def Rg.SYN_INIT : Nat := 0x1d00010
def Rg.SYN_INIT_VALUE : Nat := 0x1d00018
def Rg.GLB_CTL : Nat := 0x0
def Rg.GLB_STAT : Nat := 0x8
def Rg.GLB_EVT : Nat := 0x10
def Rg.GLB_ID : Nat := 0x18
def Rg.GLB_UID : Nat := 0x20
def Rg.GLB_CFG_IGN : Nat := 0x28
def Rg.GLB_POST_OVR : Nat := 0x30
def Rg.GLB_GUARD_FAIL : Nat := 0x38
def Rg.GLB_ACCESS_INV : Nat := 0x40
def Rg.GLB_BOOT_CMD : Nat := 0x48
def Rg.GLB_LOAD : Nat := 0x50
def Rg.GLB_LOAD_STAT : Nat := 0x58
def Rg.GLB_UNIT_RESET_A : Nat := 0x60
def Rg.GLB_UNIT_RESET_B : Nat := 0x68
def Rg.GLB_UNIT_STAT : Nat := 0x70
def Rg.GLB_FW_ACTIVATE_A : Nat := 0x78
def Rg.GLB_FW_ACTIVATE_B : Nat := 0x80
def Rg.GLB_FW_VER : Nat := 0x88
def Rg.GLB_IRQ : Nat := 0x90
def Rg.ARR_CTL : Nat := 0x400000
def Rg.ARR_STAT : Nat := 0x400008
def Rg.ARR_EVT : Nat := 0x400010
def Rg.ARR_RETIRE_A : Nat := 0x400020
def Rg.ARR_RETIRE_B : Nat := 0x400028
def Rg.ARR_INSERVICE0 : Nat := 0x400030
def Rg.ARR_INSERVICE1 : Nat := 0x400038
def Rg.ARR_INSERVICE2 : Nat := 0x400040
def Rg.ARR_SEL : Nat := 0x400048
def Rg.ARR_SEL_STAT : Nat := 0x400050
def Rg.ARR_PREC_CNT : Nat := 0x400058
def Rg.ARR_ENC_CNT : Nat := 0x400060
def Rg.ARR_RCP_SEL : Nat := 0x400068
def Rg.ARR_RCP_STAT : Nat := 0x400070
def Rg.ARR_RCP_ID : Nat := 0x400078
def Rg.ARR_RCP_VER : Nat := 0x400080
def Rg.ARR_RCP_DIG : Nat := 0x400088
def Rg.ARR_RCP_MAP : Nat := 0x400090
def Rg.ATN_CTL : Nat := 0x500000
def Rg.ATN_STAT : Nat := 0x500008
def Rg.ATN_EVT : Nat := 0x500010
def Rg.ATN_CRC_CNT : Nat := 0x500018
def Rg.ATN_UFL_CNT : Nat := 0x500020
def Rg.ATN_VICTIM_CNT : Nat := 0x500028
def Rg.ATN_SPILL_WAIT : Nat := 0x500030
def Rg.ATN_CTX_SEL : Nat := 0x500038
def Rg.ATN_CTX_STAT : Nat := 0x500040
def Rg.CTX_CTL : Nat := 0x600000
def Rg.CTX_STAT : Nat := 0x600008
def Rg.CTX_EVT : Nat := 0x600010
def Rg.CTX_REC_CFG : Nat := 0x600018
def Rg.CTX_LX_TIMEOUT : Nat := 0x600020
def Rg.CTX_CLIENT_SEL : Nat := 0x600028
def Rg.CTX_CLIENT_LIM : Nat := 0x600030
def Rg.CTX_CLIENT_USE : Nat := 0x600038
def Rg.CTX_SLOT_SEL : Nat := 0x600040
def Rg.CTX_SLOT_STAT : Nat := 0x600048
def Rg.CTX_SLOT_SEQ : Nat := 0x600050
def Rg.CTX_REC_SEL : Nat := 0x600058
def Rg.CTX_REC_STAT : Nat := 0x600060
def Rg.CTX_CNT : Nat := 0x600068
def Rg.TXT_CTL : Nat := 0xe00000
def Rg.TXT_STAT : Nat := 0xe00008
def Rg.TXT_EVT : Nat := 0xe00010
def Rg.TXT_TBL_SEL : Nat := 0xe00018
def Rg.TXT_TBL_STAT : Nat := 0xe00020
def Rg.TXT_TBL_VER : Nat := 0xe00028
def Rg.TXT_TBL_ROWS : Nat := 0xe00030
def Rg.TXT_TBL_CNT : Nat := 0xe00038
def Rg.TXT_LADLE_CNT : Nat := 0xe00040
def Rg.TXT_CRC_CNT : Nat := 0xe00048
def Rg.TXT_OUT_EVT : Nat := 0xe00080
def Rg.TXT_OUT_CNT0 : Nat := 0xe00088
def Rg.TXT_OUT_CNT1 : Nat := 0xe00090
def Rg.TXT_OUT_CNT2 : Nat := 0xe00098
def Rg.TXT_COL_SEL : Nat := 0xe000a0
def Rg.TXT_COL_STAT : Nat := 0xe000a8
def Rg.TXT_OUT_SEL : Nat := 0xe000b0
def Rg.TXT_OUT_CTX : Nat := 0xe000b8
def Rg.TXT_STR_POS : Nat := 0xe000c0
def Rg.TXT_STR_EPOCH : Nat := 0xe000c8
def Rg.MEM_CTL : Nat := 0x800000
def Rg.MEM_STAT : Nat := 0x800008
def Rg.MEM_EVT : Nat := 0x800010
def Rg.MEM_FAR_POP : Nat := 0x800018
def Rg.MEM_FAR_CFG : Nat := 0x800020
def Rg.MEM_FAR_STAT : Nat := 0x800028
def Rg.MEM_T0_STAT : Nat := 0x800030
def Rg.MEM_T0_RET : Nat := 0x800038
def Rg.MEM_FREE : Nat := 0x800040
def Rg.MEM_FREE2 : Nat := 0x800048
def Rg.MEM_CLIENT_SEL : Nat := 0x800050
def Rg.MEM_CLIENT_SHARE : Nat := 0x800058
def Rg.MEM_CLIENT_USE : Nat := 0x800060
def Rg.MEM_ECC_CNT : Nat := 0x800068
def Rg.MEM_ERASE_A : Nat := 0x800070
def Rg.MEM_ERASE_B : Nat := 0x800078
def Rg.DLY_CTL : Nat := 0xa00000
def Rg.DLY_STAT : Nat := 0xa00008
def Rg.DLY_EVT : Nat := 0xa00010
def Rg.DLY_MOVED : Nat := 0xa00018
def Rg.DLY_CHECK_CNT : Nat := 0xa00020
def Rg.DLY_Q_SEL : Nat := 0xa00028
def Rg.DLY_Q_STAT : Nat := 0xa00030
def Rg.DLY_SEAL_CTR : Nat := 0xa00038
def Rg.FLS_CTL : Nat := 0xc00000
def Rg.FLS_STAT : Nat := 0xc00008
def Rg.FLS_EVT : Nat := 0xc00010
def Rg.FLS_POP : Nat := 0xc00018
def Rg.FLS_CFG : Nat := 0xc00020
def Rg.FLS_CH_STAT : Nat := 0xc00028
def Rg.FLS_CH_SEL : Nat := 0xc00030
def Rg.FLS_CH_INFO : Nat := 0xc00038
def Rg.FLS_RECLAIM : Nat := 0xc00040
def Rg.FLS_REFRESH : Nat := 0xc00048
def Rg.FLS_PREFETCH : Nat := 0xc00050
def Rg.FLS_SHARD_TIMEOUT : Nat := 0xc00058
def Rg.FLS_IDX_SEL : Nat := 0xc00060
def Rg.FLS_IDX_STAT : Nat := 0xc00068
def Rg.FLS_IDX_STATE : Nat := 0xc00070
def Rg.FLS_IDX_SEQ : Nat := 0xc00078
def Rg.FLS_IDX_NODES : Nat := 0xc00080
def Rg.FLS_IDX_CNT : Nat := 0xc00088
def Rg.FLS_SEARCH_CNT : Nat := 0xc00090
def Rg.FLS_CHECK_CNT : Nat := 0xc00098
def Rg.LNK_CTL : Nat := 0x1000000
def Rg.LNK_STAT : Nat := 0x1000008
def Rg.LNK_EVT : Nat := 0x1000010
def Rg.LNK_PORT_POP : Nat := 0x1000018
def Rg.LNK_PORT_DISABLE_A : Nat := 0x1000020
def Rg.LNK_PORT_DISABLE_B : Nat := 0x1000028
def Rg.LNK_PORT_SEL : Nat := 0x1000030
def Rg.LNK_PORT_STAT : Nat := 0x1000038
def Rg.LNK_PORT_CNT : Nat := 0x1000040
def Rg.LNK_TC_ASYM : Nat := 0x1000048
def Rg.LNK_ROUTE_SEL : Nat := 0x1000050
def Rg.LNK_ROUTE : Nat := 0x1000058
def Rg.LNK_TC_WEIGHT : Nat := 0x1000060
def Rg.LNK_GATE_SEL : Nat := 0x1000068
def Rg.LNK_GATE_ENT : Nat := 0x1000070
def Rg.LNK_GATE_CFG : Nat := 0x1000078
def Rg.LNK_GATE_SWITCH : Nat := 0x1000080
def Rg.LNK_POL_SEL : Nat := 0x1000088
def Rg.LNK_POL_RATE : Nat := 0x1000090
def Rg.LNK_POL_BURST : Nat := 0x1000098
def Rg.LNK_LE_SEL : Nat := 0x10000a0
def Rg.LNK_LE_POOL : Nat := 0x10000a8
def Rg.LNK_LE_ENT : Nat := 0x10000b0
def Rg.LNK_LEND : Nat := 0x10000b8
def Rg.LNK_LENDER_SEL : Nat := 0x10000c0
def Rg.LNK_LENDER : Nat := 0x10000c8
def Rg.LNK_RECALL : Nat := 0x10000d0
def Rg.LNK_RECALL_DEADLINE : Nat := 0x10000d8
def Rg.LNK_LOAN_STAT : Nat := 0x10000e0
def Rg.MAP_CTL : Nat := 0x1400000
def Rg.MAP_STAT : Nat := 0x1400008
def Rg.MAP_EVT : Nat := 0x1400010
def Rg.MAP_CFG : Nat := 0x1400018
def Rg.MAP_DOM : Nat := 0x1400020
def Rg.MAP_HB : Nat := 0x1400028
def Rg.MAP_HO_TIMEOUT : Nat := 0x1400030
def Rg.MAP_DIGEST0 : Nat := 0x1400038
def Rg.MAP_DIV : Nat := 0x1400058
def Rg.MAP_HO_SEL : Nat := 0x1400060
def Rg.MAP_HO_REQ : Nat := 0x1400068
def Rg.MAP_HO_GO : Nat := 0x1400070
def Rg.MAP_HO_STAT : Nat := 0x1400078
def Rg.MAP_HO_CNT : Nat := 0x1400080
def Rg.MAP_HO_FAIL : Nat := 0x1400088
def Rg.MAP_SLICE_SEL : Nat := 0x1400090
def Rg.MAP_SLICE_ARR0 : Nat := 0x1400098
def Rg.MAP_SLICE_ARR1 : Nat := 0x14000a0
def Rg.MAP_SLICE_ARR2 : Nat := 0x14000a8
def Rg.MAP_SLICE_BANKS : Nat := 0x14000b0
def Rg.MAP_SLICE_APPLY : Nat := 0x14000b8
def Rg.MAP_SLICE_STAT : Nat := 0x14000c0
def Rg.MAP_ENTRIES : Nat := 0x14000c8
def Rg.CKP_CTL : Nat := 0x1600000
def Rg.CKP_STAT : Nat := 0x1600008
def Rg.CKP_EVT : Nat := 0x1600010
def Rg.CKP_CFG : Nat := 0x1600018
def Rg.CKP_BUF : Nat := 0x1600020
def Rg.CKP_BUDDY_LIM : Nat := 0x1600028
def Rg.CKP_OLDER : Nat := 0x1600030
def Rg.CKP_SLATE_CNT : Nat := 0x1600038
def Rg.CKP_SHARD_CNT : Nat := 0x1600040
def Rg.CKP_LAST : Nat := 0x1600048
def Rg.CKP_DISCARD_A : Nat := 0x1600050
def Rg.CKP_DISCARD_B : Nat := 0x1600058
def Rg.SEQ_CLIENT_ACCT : Nat := 0x201010
def Rg.SEQ_CLIENT_SCHED : Nat := 0x201018
def Rg.SEQ_SCHED_CFG : Nat := 0x200020
def Rg.SEQ_ENERGY_COEF : Nat := 0x200028
def Rg.SEQ_ENERGY_BASE : Nat := 0x200030
def Rg.SEQ_LC_SEL : Nat := 0x200038
def Rg.SEQ_LC_QUOTA : Nat := 0x200040
def Rg.SEQ_ACCT_SEL : Nat := 0x200048
def Rg.SEQ_ACCT_ARR : Nat := 0x200050
def Rg.SEQ_ACCT_T0 : Nat := 0x200058
def Rg.SEQ_ACCT_ENERGY : Nat := 0x200080
def Rg.SEQ_PREEMPT_CNT : Nat := 0x200088
def Rg.SEQ_SCHED_STAT : Nat := 0x200090
def Rg.SEC_CTL : Nat := 0x1800000
def Rg.SEC_STAT : Nat := 0x1800008
def Rg.SEC_EVT : Nat := 0x1800010
def Rg.SEC_PUB_SEL : Nat := 0x1800018
def Rg.SEC_PUB_KEY0 : Nat := 0x1800020
def Rg.SEC_PUB_CFG : Nat := 0x1800060
def Rg.SEC_RCPT_SEL : Nat := 0x1800068
def Rg.SEC_RCPT : Nat := 0x1800070
def Rg.SEC_ID_DIG0 : Nat := 0x1800078
def Rg.SEC_ZEROISE_A : Nat := 0x1800098
def Rg.SEC_ZEROISE_B : Nat := 0x18000a0
def Rg.SEC_ZERO_STAT : Nat := 0x18000a8
def Rg.SEC_ATT_STAT : Nat := 0x18000b0
def Rg.MTR_CTL : Nat := 0x1a00000
def Rg.MTR_STAT : Nat := 0x1a00008
def Rg.MTR_EVT : Nat := 0x1a00010
def Rg.MTR_TC_CFG : Nat := 0x1a00018
def Rg.MTR_TC_INIT : Nat := 0x1a00020
def Rg.MTR_TC_NOW : Nat := 0x1a00028
def Rg.MTR_TC_OFS : Nat := 0x1a00030
def Rg.MTR_ENV_SEL : Nat := 0x1a00038
def Rg.MTR_ENV_ENT : Nat := 0x1a00040
def Rg.MTR_ENV_DEFAULT : Nat := 0x1a00048
def Rg.MTR_SUPPLY_CFG : Nat := 0x1a00050
def Rg.MTR_POWER : Nat := 0x1a00058
def Rg.MTR_REC_MIN : Nat := 0x1a00060
def Rg.MTR_REC_E : Nat := 0x1a00068
def Rg.MTR_LOG_BASE : Nat := 0x1a00070
def Rg.MTR_LOG_CFG : Nat := 0x1a00078
def Rg.MTR_LOG_STAT : Nat := 0x1a00080
def Rg.MTR_LOG_SHADOW : Nat := 0x1a00088
def Rg.MTR_TX_CFG : Nat := 0x1a00090
def Rg.MTR_CNT : Nat := 0x1a00098
def Rg.FLT_CTL : Nat := 0x1e00000
def Rg.FLT_STAT : Nat := 0x1e00008
def Rg.FLT_EVT : Nat := 0x1e00010
def Rg.FLT_LOG_BASE : Nat := 0x1e00018
def Rg.FLT_LOG_CFG : Nat := 0x1e00020
def Rg.FLT_LOG_SHADOW : Nat := 0x1e00028
def Rg.FLT_LOG_STAT : Nat := 0x1e00030
def Rg.FLT_CLIENT_SEL : Nat := 0x1e00038
def Rg.FLT_CLIENT_BASE : Nat := 0x1e00040
def Rg.FLT_CLIENT_CFG : Nat := 0x1e00048
def Rg.FLT_CLIENT_SHADOW : Nat := 0x1e00050
def Rg.FLT_CLIENT_STAT : Nat := 0x1e00058
def Rg.FLT_FWD : Nat := 0x1e00060
def Rg.FLT_CNT : Nat := 0x1e00068
def Rg.CVU_CTL : Nat := 0x1c00000
def Rg.CVU_STAT : Nat := 0x1c00008
def Rg.CVU_EVT : Nat := 0x1c00010
def Rg.CVU_SEL : Nat := 0x1c00018
def Rg.CVU_UNIT_CFG : Nat := 0x1c00020
def Rg.CVU_INIT : Nat := 0x1c00028
def Rg.CVU_RUN : Nat := 0x1c00030
def Rg.CVU_RESULT : Nat := 0x1c00038
def Rg.CVU_FEED_B : Nat := 0x1c00040
def Rg.CVU_FEED_H : Nat := 0x1c00048
def Rg.CVU_FEED_W : Nat := 0x1c00050
def Rg.CVU_CNT : Nat := 0x1c00058
def Rg.DBG_CTL : Nat := 0x1f00000
def Rg.DBG_STAT : Nat := 0x1f00008
def Rg.DBG_EVT : Nat := 0x1f00010
def Rg.DBG_OBS_EN_A : Nat := 0x1f00018
def Rg.DBG_OBS_EN_B : Nat := 0x1f00020
def Rg.DBG_OBS_SEL : Nat := 0x1f00028
def Rg.DBG_TEMP : Nat := 0x1f00030

-- Named fields.
def Fd.HST_CTL_enable : Fd := ⟨0x100000, 0, 1, 0x0⟩
def Fd.HST_STAT_module_up : Fd := ⟨0x100008, 0, 8, 0x0⟩
def Fd.HST_STAT_link_up : Fd := ⟨0x100008, 8, 2, 0x0⟩
def Fd.HST_STAT_ide_active : Fd := ⟨0x100008, 10, 1, 0x0⟩
def Fd.HST_STAT_tdisp_state : Fd := ⟨0x100008, 11, 2, 0x0⟩
def Fd.HST_STAT_module_retired : Fd := ⟨0x100008, 16, 8, 0x0⟩
def Fd.HST_EVT_seq : Fd := ⟨0x100010, 0, 16, 0x0⟩
def Fd.HST_EVT_module_retrain : Fd := ⟨0x100010, 16, 1, 0x0⟩
def Fd.HST_EVT_module_retired : Fd := ⟨0x100010, 17, 1, 0x0⟩
def Fd.HST_EVT_ide_fail : Fd := ⟨0x100010, 18, 1, 0x0⟩
def Fd.HST_EVT_tdisp_error : Fd := ⟨0x100010, 19, 1, 0x0⟩
def Fd.SEQ_CTL_enable : Fd := ⟨0x200000, 0, 1, 0x0⟩
def Fd.SEQ_STAT_ready : Fd := ⟨0x200008, 0, 1, 0x0⟩
def Fd.SEQ_STAT_ide_gate : Fd := ⟨0x200008, 1, 1, 0x1⟩
def Fd.SEQ_STAT_sq_open : Fd := ⟨0x200008, 12, 10, 0x0⟩
def Fd.SEQ_EVT_seq : Fd := ⟨0x200010, 0, 16, 0x0⟩
def Fd.SEQ_EVT_doorbell_invalid : Fd := ⟨0x200010, 16, 1, 0x0⟩
def Fd.SEQ_EVT_doorbell_closed : Fd := ⟨0x200010, 17, 1, 0x0⟩
def Fd.SEQ_EVT_ring_stalled : Fd := ⟨0x200010, 18, 1, 0x0⟩
def Fd.SEQ_CLIENT_SYNC_sync_base : Fd := ⟨0x201000, 0, 17, 0x0⟩
def Fd.SEQ_CLIENT_SYNC_sync_count : Fd := ⟨0x201000, 17, 18, 0x0⟩
def Fd.SEQ_CLIENT_MIRROR_mirror_en : Fd := ⟨0x201008, 0, 1, 0x0⟩
def Fd.SEQ_CLIENT_MIRROR_mirror_base : Fd := ⟨0x201008, 4, 60, 0x0⟩
def Fd.SEQ_SQ_BASE_base : Fd := ⟨0x210000, 12, 52, 0x0⟩
def Fd.SEQ_SQ_CFG_open : Fd := ⟨0x210008, 0, 1, 0x0⟩
def Fd.SEQ_SQ_CFG_size_log2 : Fd := ⟨0x210008, 1, 5, 0x0⟩
def Fd.SEQ_SQ_CFG_cq : Fd := ⟨0x210008, 6, 9, 0x0⟩
def Fd.SEQ_SQ_CFG_stop_on_error : Fd := ⟨0x210008, 15, 1, 0x0⟩
def Fd.SEQ_SQ_CFG_client : Fd := ⟨0x210008, 16, 8, 0x0⟩
def Fd.SEQ_SQ_STAT_head : Fd := ⟨0x210010, 0, 16, 0x0⟩
def Fd.SEQ_SQ_STAT_stalled : Fd := ⟨0x210010, 16, 1, 0x0⟩
def Fd.SEQ_SQ_STAT_draining : Fd := ⟨0x210010, 17, 1, 0x0⟩
def Fd.SEQ_SQ_STAT_stall_tag : Fd := ⟨0x210010, 32, 16, 0x0⟩
def Fd.SEQ_SQ_STAT_stall_status : Fd := ⟨0x210010, 48, 8, 0x0⟩
def Fd.SEQ_SQ_CMD_resume : Fd := ⟨0x210018, 0, 1, 0x0⟩
def Fd.SEQ_CQ_BASE_base : Fd := ⟨0x220000, 12, 52, 0x0⟩
def Fd.SEQ_CQ_CFG_open : Fd := ⟨0x220008, 0, 1, 0x0⟩
def Fd.SEQ_CQ_CFG_size_log2 : Fd := ⟨0x220008, 1, 5, 0x0⟩
def Fd.SEQ_CQ_CFG_irq_en : Fd := ⟨0x220008, 6, 1, 0x0⟩
def Fd.SEQ_CQ_CFG_vector : Fd := ⟨0x220008, 7, 11, 0x0⟩
def Fd.SEQ_CQ_SHADOW_shadow : Fd := ⟨0x220010, 3, 61, 0x0⟩
def Fd.SEQ_CQ_STAT_tail : Fd := ⟨0x220018, 0, 20, 0x0⟩
def Fd.SEQ_CQ_STAT_phase : Fd := ⟨0x220018, 20, 1, 0x1⟩
def Fd.SEQ_CQ_STAT_full : Fd := ⟨0x220018, 21, 1, 0x0⟩
def Fd.SEQ_CQ_MOD_count : Fd := ⟨0x220020, 0, 16, 0x1⟩
def Fd.SEQ_CQ_MOD_holdoff : Fd := ⟨0x220020, 16, 16, 0x0⟩
def Fd.SEQ_STR_BASE_base : Fd := ⟨0x240000, 12, 52, 0x0⟩
def Fd.SEQ_STR_CFG_open : Fd := ⟨0x240008, 0, 1, 0x0⟩
def Fd.SEQ_STR_CFG_size_log2 : Fd := ⟨0x240008, 1, 5, 0x0⟩
def Fd.SEQ_STR_CFG_client : Fd := ⟨0x240008, 6, 8, 0x0⟩
def Fd.SEQ_STR_SHADOW_shadow : Fd := ⟨0x240010, 3, 61, 0x0⟩
def Fd.SEQ_STR_STAT_tail : Fd := ⟨0x240018, 0, 16, 0x0⟩
def Fd.SEQ_STR_STAT_phase : Fd := ⟨0x240018, 16, 1, 0x1⟩
def Fd.SEQ_STR_STAT_full : Fd := ⟨0x240018, 17, 1, 0x0⟩
def Fd.SYN_CTL_enable : Fd := ⟨0x1d00000, 0, 1, 0x0⟩
def Fd.SYN_STAT_busy : Fd := ⟨0x1d00008, 0, 1, 0x0⟩
def Fd.SYN_INIT_object : Fd := ⟨0x1d00010, 0, 17, 0x0⟩
def Fd.SYN_INIT_clear_mark : Fd := ⟨0x1d00010, 17, 1, 0x0⟩
def Fd.SYN_INIT_load : Fd := ⟨0x1d00010, 18, 1, 0x0⟩
def Fd.SYN_INIT_VALUE_value : Fd := ⟨0x1d00018, 0, 64, 0x0⟩
def Fd.GLB_CTL_enable : Fd := ⟨0x0, 0, 1, 0x0⟩
def Fd.GLB_STAT_stage : Fd := ⟨0x8, 0, 4, 0x1⟩
def Fd.GLB_STAT_busy : Fd := ⟨0x8, 4, 1, 0x0⟩
def Fd.GLB_STAT_update_staged : Fd := ⟨0x8, 5, 1, 0x0⟩
def Fd.GLB_STAT_debug_exposed : Fd := ⟨0x8, 6, 1, 0x0⟩
def Fd.GLB_STAT_fail_reason : Fd := ⟨0x8, 8, 8, 0x0⟩
def Fd.GLB_STAT_arrays_enabled : Fd := ⟨0x8, 16, 8, 0x0⟩
def Fd.GLB_STAT_near_up : Fd := ⟨0x8, 24, 8, 0x0⟩
def Fd.GLB_EVT_seq : Fd := ⟨0x10, 0, 16, 0x0⟩
def Fd.GLB_EVT_cfg_ignored : Fd := ⟨0x10, 16, 1, 0x0⟩
def Fd.GLB_EVT_posted_overrun : Fd := ⟨0x10, 17, 1, 0x0⟩
def Fd.GLB_EVT_guard_fail : Fd := ⟨0x10, 18, 1, 0x0⟩
def Fd.GLB_EVT_access_invalid : Fd := ⟨0x10, 19, 1, 0x0⟩
def Fd.GLB_EVT_stage_done : Fd := ⟨0x10, 20, 1, 0x0⟩
def Fd.GLB_EVT_stage_failed : Fd := ⟨0x10, 21, 1, 0x0⟩
def Fd.GLB_EVT_load_done : Fd := ⟨0x10, 22, 1, 0x0⟩
def Fd.GLB_EVT_unit_reset_done : Fd := ⟨0x10, 23, 1, 0x0⟩
def Fd.GLB_EVT_fw_activated : Fd := ⟨0x10, 24, 1, 0x0⟩
def Fd.GLB_ID_part : Fd := ⟨0x18, 0, 16, 0x4480⟩
def Fd.GLB_ID_family : Fd := ⟨0x18, 16, 8, 0x1⟩
def Fd.GLB_ID_step_digit : Fd := ⟨0x18, 24, 4, 0x0⟩
def Fd.GLB_ID_step_letter : Fd := ⟨0x18, 28, 4, 0x0⟩
def Fd.GLB_UID_uid : Fd := ⟨0x20, 0, 64, 0x0⟩
def Fd.GLB_CFG_IGN_addr : Fd := ⟨0x28, 0, 26, 0x0⟩
def Fd.GLB_CFG_IGN_count : Fd := ⟨0x28, 32, 16, 0x0⟩
def Fd.GLB_POST_OVR_all : Fd := ⟨0x30, 0, 64, 0x0⟩
def Fd.GLB_GUARD_FAIL_all : Fd := ⟨0x38, 0, 64, 0x0⟩
def Fd.GLB_ACCESS_INV_all : Fd := ⟨0x40, 0, 64, 0x0⟩
def Fd.GLB_BOOT_CMD_target : Fd := ⟨0x48, 0, 4, 0x0⟩
def Fd.GLB_LOAD_type : Fd := ⟨0x50, 0, 2, 0x0⟩
def Fd.GLB_LOAD_length : Fd := ⟨0x50, 32, 23, 0x0⟩
def Fd.GLB_LOAD_STAT_busy : Fd := ⟨0x58, 0, 1, 0x0⟩
def Fd.GLB_LOAD_STAT_result : Fd := ⟨0x58, 8, 8, 0x0⟩
def Fd.GLB_UNIT_RESET_A_units : Fd := ⟨0x60, 0, 32, 0x0⟩
def Fd.GLB_UNIT_RESET_B_units_n : Fd := ⟨0x68, 0, 32, 0x0⟩
def Fd.GLB_UNIT_STAT_in_reset : Fd := ⟨0x70, 0, 16, 0x0⟩
def Fd.GLB_UNIT_STAT_drain_failed : Fd := ⟨0x70, 16, 16, 0x0⟩
def Fd.GLB_FW_ACTIVATE_A_key : Fd := ⟨0x78, 0, 32, 0x0⟩
def Fd.GLB_FW_ACTIVATE_B_key_n : Fd := ⟨0x80, 0, 32, 0x0⟩
def Fd.GLB_FW_VER_running : Fd := ⟨0x88, 0, 32, 0x0⟩
def Fd.GLB_FW_VER_staged : Fd := ⟨0x88, 32, 32, 0x0⟩
def Fd.GLB_IRQ_vector : Fd := ⟨0x90, 0, 11, 0x0⟩
def Fd.ARR_CTL_enable : Fd := ⟨0x400000, 0, 1, 0x0⟩
def Fd.ARR_STAT_in_service : Fd := ⟨0x400008, 0, 8, 0x0⟩
def Fd.ARR_STAT_retired : Fd := ⟨0x400008, 8, 8, 0x0⟩
def Fd.ARR_EVT_seq : Fd := ⟨0x400010, 0, 16, 0x0⟩
def Fd.ARR_EVT_ck_transient : Fd := ⟨0x400010, 16, 1, 0x0⟩
def Fd.ARR_EVT_array_retired : Fd := ⟨0x400010, 17, 1, 0x0⟩
def Fd.ARR_EVT_prec_event : Fd := ⟨0x400010, 18, 1, 0x0⟩
def Fd.ARR_EVT_store_corrected : Fd := ⟨0x400010, 19, 1, 0x0⟩
def Fd.ARR_RETIRE_A_array : Fd := ⟨0x400020, 0, 8, 0x0⟩
def Fd.ARR_RETIRE_A_all : Fd := ⟨0x400020, 8, 24, 0x0⟩
def Fd.ARR_RETIRE_B_array_n : Fd := ⟨0x400028, 0, 32, 0x0⟩
def Fd.ARR_INSERVICE0_map : Fd := ⟨0x400030, 0, 64, 0x0⟩
def Fd.ARR_INSERVICE1_map : Fd := ⟨0x400038, 0, 64, 0x0⟩
def Fd.ARR_INSERVICE2_map : Fd := ⟨0x400040, 0, 16, 0x0⟩
def Fd.ARR_SEL_array : Fd := ⟨0x400048, 0, 8, 0x0⟩
def Fd.ARR_SEL_STAT_ck_transient : Fd := ⟨0x400050, 0, 16, 0x0⟩
def Fd.ARR_SEL_STAT_store_corrected : Fd := ⟨0x400050, 16, 16, 0x0⟩
def Fd.ARR_SEL_STAT_retired : Fd := ⟨0x400050, 32, 1, 0x0⟩
def Fd.ARR_SEL_STAT_retire_cause : Fd := ⟨0x400050, 40, 8, 0x0⟩
def Fd.ARR_PREC_CNT_recompute : Fd := ⟨0x400058, 0, 32, 0x0⟩
def Fd.ARR_PREC_CNT_prec_event : Fd := ⟨0x400058, 32, 32, 0x0⟩
def Fd.ARR_ENC_CNT_outlier_overflow : Fd := ⟨0x400060, 0, 32, 0x0⟩
def Fd.ARR_ENC_CNT_fold_clip : Fd := ⟨0x400060, 32, 32, 0x0⟩
def Fd.ARR_RCP_SEL_slot : Fd := ⟨0x400068, 0, 6, 0x0⟩
def Fd.ARR_RCP_STAT_state : Fd := ⟨0x400070, 0, 3, 0x0⟩
def Fd.ARR_RCP_STAT_slice : Fd := ⟨0x400070, 4, 4, 0x0⟩
def Fd.ARR_RCP_STAT_generation : Fd := ⟨0x400070, 8, 8, 0x0⟩
def Fd.ARR_RCP_STAT_banks : Fd := ⟨0x400070, 16, 6, 0x0⟩
def Fd.ARR_RCP_STAT_team_max : Fd := ⟨0x400070, 24, 8, 0x0⟩
def Fd.ARR_RCP_STAT_bound_sessions : Fd := ⟨0x400070, 32, 32, 0x0⟩
def Fd.ARR_RCP_ID_recipe_id : Fd := ⟨0x400078, 0, 64, 0x0⟩
def Fd.ARR_RCP_VER_version : Fd := ⟨0x400080, 0, 32, 0x0⟩
def Fd.ARR_RCP_DIG_digest : Fd := ⟨0x400088, 0, 64, 0x0⟩
def Fd.ARR_RCP_MAP_occupied : Fd := ⟨0x400090, 0, 64, 0x0⟩
def Fd.ATN_CTL_enable : Fd := ⟨0x500000, 0, 1, 0x0⟩
def Fd.ATN_CTL_default_policy : Fd := ⟨0x500000, 1, 2, 0x0⟩
def Fd.ATN_CTL_spill_tier : Fd := ⟨0x500000, 3, 1, 0x0⟩
def Fd.ATN_STAT_walks : Fd := ⟨0x500008, 0, 13, 0x0⟩
def Fd.ATN_STAT_stage_mib : Fd := ⟨0x500008, 32, 32, 0x0⟩
def Fd.ATN_EVT_seq : Fd := ⟨0x500010, 0, 16, 0x0⟩
def Fd.ATN_EVT_crc_transient : Fd := ⟨0x500010, 16, 1, 0x0⟩
def Fd.ATN_EVT_crc_lasting : Fd := ⟨0x500010, 17, 1, 0x0⟩
def Fd.ATN_EVT_victim_spill : Fd := ⟨0x500010, 18, 1, 0x0⟩
def Fd.ATN_EVT_victim_drop : Fd := ⟨0x500010, 19, 1, 0x0⟩
def Fd.ATN_EVT_no_fit : Fd := ⟨0x500010, 20, 1, 0x0⟩
def Fd.ATN_CRC_CNT_transient : Fd := ⟨0x500018, 0, 32, 0x0⟩
def Fd.ATN_CRC_CNT_lasting : Fd := ⟨0x500018, 32, 32, 0x0⟩
def Fd.ATN_UFL_CNT_row_underflow : Fd := ⟨0x500020, 0, 64, 0x0⟩
def Fd.ATN_VICTIM_CNT_pages_spilled : Fd := ⟨0x500028, 0, 32, 0x0⟩
def Fd.ATN_VICTIM_CNT_windows_dropped : Fd := ⟨0x500028, 32, 32, 0x0⟩
def Fd.ATN_SPILL_WAIT_frames : Fd := ⟨0x500030, 0, 16, 0x14⟩
def Fd.ATN_CTX_SEL_slot : Fd := ⟨0x500038, 0, 12, 0x0⟩
def Fd.ATN_CTX_STAT_gen : Fd := ⟨0x500040, 0, 32, 0x0⟩
def Fd.ATN_CTX_STAT_length : Fd := ⟨0x500040, 32, 26, 0x0⟩
def Fd.ATN_CTX_STAT_tuning : Fd := ⟨0x500040, 58, 1, 0x0⟩
def Fd.ATN_CTX_STAT_damaged : Fd := ⟨0x500040, 59, 1, 0x0⟩
def Fd.ATN_CTX_STAT_pending : Fd := ⟨0x500040, 60, 1, 0x0⟩
def Fd.CTX_CTL_enable : Fd := ⟨0x600000, 0, 1, 0x0⟩
def Fd.CTX_STAT_slots_used : Fd := ⟨0x600008, 0, 13, 0x0⟩
def Fd.CTX_STAT_records_used : Fd := ⟨0x600008, 16, 25, 0x0⟩
def Fd.CTX_EVT_seq : Fd := ⟨0x600010, 0, 16, 0x0⟩
def Fd.CTX_EVT_ttl_expired : Fd := ⟨0x600010, 16, 1, 0x0⟩
def Fd.CTX_EVT_auto_park : Fd := ⟨0x600010, 17, 1, 0x0⟩
def Fd.CTX_EVT_slot_released : Fd := ⟨0x600010, 18, 1, 0x0⟩
def Fd.CTX_EVT_lx_retry : Fd := ⟨0x600010, 19, 1, 0x0⟩
def Fd.CTX_EVT_lx_failed : Fd := ⟨0x600010, 20, 1, 0x0⟩
def Fd.CTX_EVT_rewound : Fd := ⟨0x600010, 21, 1, 0x0⟩
def Fd.CTX_REC_CFG_records_log2 : Fd := ⟨0x600018, 0, 5, 0x14⟩
def Fd.CTX_LX_TIMEOUT_frames : Fd := ⟨0x600020, 0, 8, 0x2⟩
def Fd.CTX_CLIENT_SEL_client : Fd := ⟨0x600028, 0, 8, 0x0⟩
def Fd.CTX_CLIENT_LIM_max_records : Fd := ⟨0x600030, 0, 25, 0x0⟩
def Fd.CTX_CLIENT_USE_records : Fd := ⟨0x600038, 0, 25, 0x0⟩
def Fd.CTX_CLIENT_USE_slots : Fd := ⟨0x600038, 32, 13, 0x0⟩
def Fd.CTX_SLOT_SEL_slot : Fd := ⟨0x600040, 0, 12, 0x0⟩
def Fd.CTX_SLOT_STAT_state : Fd := ⟨0x600048, 0, 3, 0x0⟩
def Fd.CTX_SLOT_STAT_client : Fd := ⟨0x600048, 8, 8, 0x0⟩
def Fd.CTX_SLOT_STAT_slice : Fd := ⟨0x600048, 16, 4, 0x0⟩
def Fd.CTX_SLOT_STAT_handle : Fd := ⟨0x600048, 32, 32, 0x0⟩
def Fd.CTX_SLOT_SEQ_step_seq : Fd := ⟨0x600050, 0, 64, 0x0⟩
def Fd.CTX_REC_SEL_record : Fd := ⟨0x600058, 0, 24, 0x0⟩
def Fd.CTX_REC_STAT_state : Fd := ⟨0x600060, 0, 3, 0x0⟩
def Fd.CTX_REC_STAT_rewound : Fd := ⟨0x600060, 3, 1, 0x0⟩
def Fd.CTX_REC_STAT_folded : Fd := ⟨0x600060, 4, 1, 0x0⟩
def Fd.CTX_REC_STAT_has_slot : Fd := ⟨0x600060, 5, 1, 0x0⟩
def Fd.CTX_REC_STAT_lost : Fd := ⟨0x600060, 6, 1, 0x0⟩
def Fd.CTX_REC_STAT_client : Fd := ⟨0x600060, 8, 8, 0x0⟩
def Fd.CTX_REC_STAT_generation : Fd := ⟨0x600060, 16, 8, 0x0⟩
def Fd.CTX_REC_STAT_length : Fd := ⟨0x600060, 32, 26, 0x0⟩
def Fd.CTX_CNT_expired : Fd := ⟨0x600068, 0, 32, 0x0⟩
def Fd.CTX_CNT_lx_dropped : Fd := ⟨0x600068, 32, 16, 0x0⟩
def Fd.CTX_CNT_rewound : Fd := ⟨0x600068, 48, 16, 0x0⟩
def Fd.TXT_CTL_enable : Fd := ⟨0xe00000, 0, 1, 0x0⟩
def Fd.TXT_STAT_tables : Fd := ⟨0xe00008, 0, 7, 0x0⟩
def Fd.TXT_STAT_versions_live : Fd := ⟨0xe00008, 8, 9, 0x0⟩
def Fd.TXT_STAT_table_mib : Fd := ⟨0xe00008, 32, 32, 0x0⟩
def Fd.TXT_EVT_seq : Fd := ⟨0xe00010, 0, 16, 0x0⟩
def Fd.TXT_EVT_row_invalid : Fd := ⟨0xe00010, 16, 1, 0x0⟩
def Fd.TXT_EVT_row_missing : Fd := ⟨0xe00010, 17, 1, 0x0⟩
def Fd.TXT_EVT_count_split : Fd := ⟨0xe00010, 18, 1, 0x0⟩
def Fd.TXT_EVT_crc_transient : Fd := ⟨0xe00010, 19, 1, 0x0⟩
def Fd.TXT_EVT_crc_lasting : Fd := ⟨0xe00010, 20, 1, 0x0⟩
def Fd.TXT_EVT_version_freed : Fd := ⟨0xe00010, 21, 1, 0x0⟩
def Fd.TXT_TBL_SEL_table : Fd := ⟨0xe00018, 0, 6, 0x0⟩
def Fd.TXT_TBL_STAT_kind : Fd := ⟨0xe00020, 0, 2, 0x0⟩
def Fd.TXT_TBL_STAT_format : Fd := ⟨0xe00020, 2, 2, 0x0⟩
def Fd.TXT_TBL_STAT_order : Fd := ⟨0xe00020, 4, 4, 0x0⟩
def Fd.TXT_TBL_STAT_damaged : Fd := ⟨0xe00020, 8, 1, 0x0⟩
def Fd.TXT_TBL_STAT_staged_full : Fd := ⟨0xe00020, 9, 1, 0x0⟩
def Fd.TXT_TBL_STAT_old : Fd := ⟨0xe00020, 10, 2, 0x0⟩
def Fd.TXT_TBL_STAT_client : Fd := ⟨0xe00020, 16, 8, 0x0⟩
def Fd.TXT_TBL_STAT_recipe : Fd := ⟨0xe00020, 32, 16, 0x0⟩
def Fd.TXT_TBL_STAT_dim64 : Fd := ⟨0xe00020, 48, 8, 0x0⟩
def Fd.TXT_TBL_VER_current : Fd := ⟨0xe00028, 0, 32, 0x0⟩
def Fd.TXT_TBL_VER_staged : Fd := ⟨0xe00028, 32, 32, 0x0⟩
def Fd.TXT_TBL_ROWS_rows_m1 : Fd := ⟨0xe00030, 0, 32, 0x0⟩
def Fd.TXT_TBL_ROWS_r : Fd := ⟨0xe00030, 32, 32, 0x0⟩
def Fd.TXT_TBL_CNT_invalid : Fd := ⟨0xe00038, 0, 32, 0x0⟩
def Fd.TXT_TBL_CNT_missing : Fd := ⟨0xe00038, 32, 32, 0x0⟩
def Fd.TXT_LADLE_CNT_fetched : Fd := ⟨0xe00040, 0, 32, 0x0⟩
def Fd.TXT_LADLE_CNT_coalesced : Fd := ⟨0xe00040, 32, 32, 0x0⟩
def Fd.TXT_CRC_CNT_transient : Fd := ⟨0xe00048, 0, 32, 0x0⟩
def Fd.TXT_CRC_CNT_lasting : Fd := ⟨0xe00048, 32, 32, 0x0⟩
def Fd.TXT_OUT_EVT_seq : Fd := ⟨0xe00080, 0, 16, 0x0⟩
def Fd.TXT_OUT_EVT_stop_match : Fd := ⟨0xe00080, 16, 1, 0x0⟩
def Fd.TXT_OUT_EVT_utf8_replaced : Fd := ⟨0xe00080, 17, 1, 0x0⟩
def Fd.TXT_OUT_EVT_tree_invalid : Fd := ⟨0xe00080, 18, 1, 0x0⟩
def Fd.TXT_OUT_EVT_force_over_ban : Fd := ⟨0xe00080, 19, 1, 0x0⟩
def Fd.TXT_OUT_EVT_colander_freed : Fd := ⟨0xe00080, 20, 1, 0x0⟩
def Fd.TXT_OUT_CNT0_takes_run : Fd := ⟨0xe00088, 0, 32, 0x0⟩
def Fd.TXT_OUT_CNT0_takes_accepted : Fd := ⟨0xe00088, 32, 32, 0x0⟩
def Fd.TXT_OUT_CNT1_utf8_replaced : Fd := ⟨0xe00090, 0, 32, 0x0⟩
def Fd.TXT_OUT_CNT1_stops : Fd := ⟨0xe00090, 32, 32, 0x0⟩
def Fd.TXT_OUT_CNT2_force_over_ban : Fd := ⟨0xe00098, 0, 32, 0x0⟩
def Fd.TXT_OUT_CNT2_tree_invalid : Fd := ⟨0xe00098, 32, 32, 0x0⟩
def Fd.TXT_COL_SEL_table : Fd := ⟨0xe000a0, 0, 8, 0x0⟩
def Fd.TXT_COL_STAT_states : Fd := ⟨0xe000a8, 0, 17, 0x0⟩
def Fd.TXT_COL_STAT_client : Fd := ⟨0xe000a8, 24, 8, 0x0⟩
def Fd.TXT_COL_STAT_version : Fd := ⟨0xe000a8, 32, 32, 0x0⟩
def Fd.TXT_OUT_SEL_slot : Fd := ⟨0xe000b0, 0, 12, 0x0⟩
def Fd.TXT_OUT_CTX_stop_held : Fd := ⟨0xe000b8, 0, 6, 0x0⟩
def Fd.TXT_OUT_CTX_utf8_held : Fd := ⟨0xe000b8, 6, 2, 0x0⟩
def Fd.TXT_OUT_CTX_pending : Fd := ⟨0xe000b8, 8, 1, 0x0⟩
def Fd.TXT_OUT_CTX_symbol : Fd := ⟨0xe000b8, 9, 9, 0x0⟩
def Fd.TXT_OUT_CTX_tree : Fd := ⟨0xe000b8, 18, 1, 0x0⟩
def Fd.TXT_OUT_CTX_nodes : Fd := ⟨0xe000b8, 19, 7, 0x0⟩
def Fd.TXT_OUT_CTX_stop_inclusive : Fd := ⟨0xe000b8, 26, 1, 0x0⟩
def Fd.TXT_OUT_CTX_raw : Fd := ⟨0xe000b8, 27, 1, 0x0⟩
def Fd.TXT_OUT_CTX_colander : Fd := ⟨0xe000b8, 28, 1, 0x0⟩
def Fd.TXT_OUT_CTX_table : Fd := ⟨0xe000b8, 29, 8, 0x0⟩
def Fd.TXT_OUT_CTX_col_state : Fd := ⟨0xe000b8, 37, 16, 0x0⟩
def Fd.TXT_STR_POS_offset : Fd := ⟨0xe000c0, 0, 64, 0x0⟩
def Fd.TXT_STR_EPOCH_epoch : Fd := ⟨0xe000c8, 0, 32, 0x0⟩
def Fd.MEM_CTL_enable : Fd := ⟨0x800000, 0, 1, 0x0⟩
def Fd.MEM_STAT_near_up : Fd := ⟨0x800008, 0, 8, 0x0⟩
def Fd.MEM_STAT_near_retired : Fd := ⟨0x800008, 8, 8, 0x0⟩
def Fd.MEM_STAT_dup_degraded : Fd := ⟨0x800008, 16, 1, 0x0⟩
def Fd.MEM_STAT_erase_busy : Fd := ⟨0x800008, 17, 1, 0x0⟩
def Fd.MEM_STAT_far_up : Fd := ⟨0x800008, 32, 32, 0x0⟩
def Fd.MEM_EVT_seq : Fd := ⟨0x800010, 0, 16, 0x0⟩
def Fd.MEM_EVT_near_corrected : Fd := ⟨0x800010, 16, 1, 0x0⟩
def Fd.MEM_EVT_near_uncorrected : Fd := ⟨0x800010, 17, 1, 0x0⟩
def Fd.MEM_EVT_far_corrected : Fd := ⟨0x800010, 18, 1, 0x0⟩
def Fd.MEM_EVT_far_uncorrected : Fd := ⟨0x800010, 19, 1, 0x0⟩
def Fd.MEM_EVT_channel_retired : Fd := ⟨0x800010, 20, 1, 0x0⟩
def Fd.MEM_EVT_stack_retired : Fd := ⟨0x800010, 21, 1, 0x0⟩
def Fd.MEM_EVT_bank_retired : Fd := ⟨0x800010, 22, 1, 0x0⟩
def Fd.MEM_EVT_erase_done : Fd := ⟨0x800010, 23, 1, 0x0⟩
def Fd.MEM_FAR_POP_fitted : Fd := ⟨0x800018, 0, 32, 0x0⟩
def Fd.MEM_FAR_CFG_rate : Fd := ⟨0x800020, 0, 2, 0x0⟩
def Fd.MEM_FAR_CFG_density : Fd := ⟨0x800020, 2, 2, 0x0⟩
def Fd.MEM_FAR_STAT_retired : Fd := ⟨0x800028, 0, 32, 0x0⟩
def Fd.MEM_FAR_STAT_retried : Fd := ⟨0x800028, 32, 32, 0x0⟩
def Fd.MEM_T0_STAT_recipe_banks : Fd := ⟨0x800030, 0, 48, 0x0⟩
def Fd.MEM_T0_RET_retired : Fd := ⟨0x800038, 0, 48, 0x0⟩
def Fd.MEM_FREE_t0_pages : Fd := ⟨0x800040, 0, 13, 0x0⟩
def Fd.MEM_FREE_t1_mib : Fd := ⟨0x800040, 32, 32, 0x0⟩
def Fd.MEM_FREE2_t2_mib : Fd := ⟨0x800048, 0, 32, 0x0⟩
def Fd.MEM_FREE2_t3_mib : Fd := ⟨0x800048, 32, 32, 0x0⟩
def Fd.MEM_CLIENT_SEL_client : Fd := ⟨0x800050, 0, 8, 0x0⟩
def Fd.MEM_CLIENT_SHARE_t0 : Fd := ⟨0x800058, 0, 8, 0x0⟩
def Fd.MEM_CLIENT_SHARE_t1 : Fd := ⟨0x800058, 8, 12, 0x0⟩
def Fd.MEM_CLIENT_SHARE_t2 : Fd := ⟨0x800058, 20, 13, 0x0⟩
def Fd.MEM_CLIENT_SHARE_t3 : Fd := ⟨0x800058, 33, 13, 0x0⟩
def Fd.MEM_CLIENT_USE_all : Fd := ⟨0x800060, 0, 64, 0x0⟩
def Fd.MEM_ECC_CNT_near_corrected : Fd := ⟨0x800068, 0, 32, 0x0⟩
def Fd.MEM_ECC_CNT_far_corrected : Fd := ⟨0x800068, 32, 32, 0x0⟩
def Fd.MEM_ERASE_A_target : Fd := ⟨0x800070, 0, 32, 0x0⟩
def Fd.MEM_ERASE_B_target_n : Fd := ⟨0x800078, 0, 32, 0x0⟩
def Fd.DLY_CTL_enable : Fd := ⟨0xa00000, 0, 1, 0x0⟩
def Fd.DLY_STAT_movers_busy : Fd := ⟨0xa00008, 0, 7, 0x0⟩
def Fd.DLY_STAT_queued : Fd := ⟨0xa00008, 32, 32, 0x0⟩
def Fd.DLY_EVT_seq : Fd := ⟨0xa00010, 0, 16, 0x0⟩
def Fd.DLY_EVT_check_transient : Fd := ⟨0xa00010, 16, 1, 0x0⟩
def Fd.DLY_EVT_check_lasting : Fd := ⟨0xa00010, 17, 1, 0x0⟩
def Fd.DLY_EVT_move_failed : Fd := ⟨0xa00010, 18, 1, 0x0⟩
def Fd.DLY_EVT_recall_missed : Fd := ⟨0xa00010, 19, 1, 0x0⟩
def Fd.DLY_MOVED_pages : Fd := ⟨0xa00018, 0, 64, 0x0⟩
def Fd.DLY_CHECK_CNT_transient : Fd := ⟨0xa00020, 0, 32, 0x0⟩
def Fd.DLY_CHECK_CNT_lasting : Fd := ⟨0xa00020, 32, 32, 0x0⟩
def Fd.DLY_Q_SEL_queue : Fd := ⟨0xa00028, 0, 3, 0x0⟩
def Fd.DLY_Q_STAT_pages : Fd := ⟨0xa00030, 0, 32, 0x0⟩
def Fd.DLY_Q_STAT_oldest : Fd := ⟨0xa00030, 32, 32, 0x0⟩
def Fd.DLY_SEAL_CTR_next : Fd := ⟨0xa00038, 0, 64, 0x1⟩
def Fd.FLS_CTL_enable : Fd := ⟨0xc00000, 0, 1, 0x0⟩
def Fd.FLS_STAT_ch_up : Fd := ⟨0xc00008, 0, 32, 0x0⟩
def Fd.FLS_STAT_indexes : Fd := ⟨0xc00008, 32, 9, 0x0⟩
def Fd.FLS_STAT_queries : Fd := ⟨0xc00008, 41, 12, 0x0⟩
def Fd.FLS_EVT_seq : Fd := ⟨0xc00010, 0, 16, 0x0⟩
def Fd.FLS_EVT_read_retry : Fd := ⟨0xc00010, 16, 1, 0x0⟩
def Fd.FLS_EVT_check_transient : Fd := ⟨0xc00010, 17, 1, 0x0⟩
def Fd.FLS_EVT_check_lasting : Fd := ⟨0xc00010, 18, 1, 0x0⟩
def Fd.FLS_EVT_pair_retired : Fd := ⟨0xc00010, 19, 1, 0x0⟩
def Fd.FLS_EVT_channel_retired : Fd := ⟨0xc00010, 20, 1, 0x0⟩
def Fd.FLS_EVT_fold_done : Fd := ⟨0xc00010, 21, 1, 0x0⟩
def Fd.FLS_EVT_shard_missing : Fd := ⟨0xc00010, 22, 1, 0x0⟩
def Fd.FLS_EVT_backlink_dropped : Fd := ⟨0xc00010, 23, 1, 0x0⟩
def Fd.FLS_EVT_version_freed : Fd := ⟨0xc00010, 24, 1, 0x0⟩
def Fd.FLS_POP_fitted : Fd := ⟨0xc00018, 0, 32, 0x0⟩
def Fd.FLS_CFG_rate : Fd := ⟨0xc00020, 0, 2, 0x0⟩
def Fd.FLS_CFG_targets_m1 : Fd := ⟨0xc00020, 2, 3, 0x0⟩
def Fd.FLS_CFG_luns_m1 : Fd := ⟨0xc00020, 5, 2, 0x0⟩
def Fd.FLS_CH_STAT_retired : Fd := ⟨0xc00028, 0, 32, 0x0⟩
def Fd.FLS_CH_STAT_retried : Fd := ⟨0xc00028, 32, 32, 0x0⟩
def Fd.FLS_CH_SEL_channel : Fd := ⟨0xc00030, 0, 5, 0x0⟩
def Fd.FLS_CH_INFO_free_gib : Fd := ⟨0xc00038, 0, 32, 0x0⟩
def Fd.FLS_CH_INFO_pairs_retired : Fd := ⟨0xc00038, 32, 16, 0x0⟩
def Fd.FLS_CH_INFO_wear : Fd := ⟨0xc00038, 48, 16, 0x0⟩
def Fd.FLS_RECLAIM_live_pct : Fd := ⟨0xc00040, 0, 7, 0x19⟩
def Fd.FLS_REFRESH_reads : Fd := ⟨0xc00048, 0, 32, 0x186a0⟩
def Fd.FLS_PREFETCH_depth : Fd := ⟨0xc00050, 0, 4, 0x4⟩
def Fd.FLS_SHARD_TIMEOUT_frames : Fd := ⟨0xc00058, 0, 8, 0x14⟩
def Fd.FLS_SHARD_TIMEOUT_retry_after : Fd := ⟨0xc00058, 8, 8, 0xa⟩
def Fd.FLS_IDX_SEL_index : Fd := ⟨0xc00060, 0, 8, 0x0⟩
def Fd.FLS_IDX_STAT_state : Fd := ⟨0xc00068, 0, 3, 0x0⟩
def Fd.FLS_IDX_STAT_fold : Fd := ⟨0xc00068, 3, 1, 0x0⟩
def Fd.FLS_IDX_STAT_damaged : Fd := ⟨0xc00068, 4, 1, 0x0⟩
def Fd.FLS_IDX_STAT_client : Fd := ⟨0xc00068, 8, 8, 0x0⟩
def Fd.FLS_IDX_STAT_shards : Fd := ⟨0xc00068, 16, 7, 0x0⟩
def Fd.FLS_IDX_STAT_version : Fd := ⟨0xc00068, 32, 32, 0x0⟩
def Fd.FLS_IDX_STATE_state : Fd := ⟨0xc00070, 0, 3, 0x0⟩
def Fd.FLS_IDX_SEQ_sequence : Fd := ⟨0xc00078, 0, 64, 0x0⟩
def Fd.FLS_IDX_NODES_next : Fd := ⟨0xc00080, 0, 36, 0x0⟩
def Fd.FLS_IDX_CNT_backlink_dropped : Fd := ⟨0xc00088, 0, 32, 0x0⟩
def Fd.FLS_IDX_CNT_rejected : Fd := ⟨0xc00088, 32, 32, 0x0⟩
def Fd.FLS_SEARCH_CNT_queries : Fd := ⟨0xc00090, 0, 32, 0x0⟩
def Fd.FLS_SEARCH_CNT_shard_missing : Fd := ⟨0xc00090, 32, 32, 0x0⟩
def Fd.FLS_CHECK_CNT_transient : Fd := ⟨0xc00098, 0, 32, 0x0⟩
def Fd.FLS_CHECK_CNT_lasting : Fd := ⟨0xc00098, 32, 32, 0x0⟩
def Fd.LNK_CTL_enable : Fd := ⟨0x1000000, 0, 1, 0x0⟩
def Fd.LNK_STAT_port_up : Fd := ⟨0x1000008, 0, 16, 0x0⟩
def Fd.LNK_STAT_port_retired : Fd := ⟨0x1000008, 16, 16, 0x0⟩
def Fd.LNK_STAT_tc_hops : Fd := ⟨0x1000008, 32, 4, 0xf⟩
def Fd.LNK_STAT_tc_locked : Fd := ⟨0x1000008, 36, 1, 0x0⟩
def Fd.LNK_EVT_seq : Fd := ⟨0x1000010, 0, 16, 0x0⟩
def Fd.LNK_EVT_replay : Fd := ⟨0x1000010, 16, 1, 0x0⟩
def Fd.LNK_EVT_retrain : Fd := ⟨0x1000010, 17, 1, 0x0⟩
def Fd.LNK_EVT_port_retired : Fd := ⟨0x1000010, 18, 1, 0x0⟩
def Fd.LNK_EVT_frame_dropped : Fd := ⟨0x1000010, 19, 1, 0x0⟩
def Fd.LNK_EVT_frame_gap : Fd := ⟨0x1000010, 20, 1, 0x0⟩
def Fd.LNK_EVT_hop_expired : Fd := ⟨0x1000010, 21, 1, 0x0⟩
def Fd.LNK_EVT_gate_switched : Fd := ⟨0x1000010, 22, 1, 0x0⟩
def Fd.LNK_EVT_gate_overrun : Fd := ⟨0x1000010, 23, 1, 0x0⟩
def Fd.LNK_EVT_recall_received : Fd := ⟨0x1000010, 24, 1, 0x0⟩
def Fd.LNK_PORT_POP_fitted : Fd := ⟨0x1000018, 0, 16, 0x0⟩
def Fd.LNK_PORT_DISABLE_A_ports : Fd := ⟨0x1000020, 0, 16, 0x0⟩
def Fd.LNK_PORT_DISABLE_A_all : Fd := ⟨0x1000020, 16, 16, 0x0⟩
def Fd.LNK_PORT_DISABLE_B_ports_n : Fd := ⟨0x1000028, 0, 32, 0x0⟩
def Fd.LNK_PORT_SEL_port : Fd := ⟨0x1000030, 0, 4, 0x0⟩
def Fd.LNK_PORT_STAT_lanes : Fd := ⟨0x1000038, 0, 3, 0x0⟩
def Fd.LNK_PORT_STAT_spare_used : Fd := ⟨0x1000038, 3, 1, 0x0⟩
def Fd.LNK_PORT_STAT_peer : Fd := ⟨0x1000038, 16, 16, 0x0⟩
def Fd.LNK_PORT_STAT_corrected : Fd := ⟨0x1000038, 32, 32, 0x0⟩
def Fd.LNK_PORT_CNT_replays : Fd := ⟨0x1000040, 0, 32, 0x0⟩
def Fd.LNK_PORT_CNT_retrains : Fd := ⟨0x1000040, 32, 16, 0x0⟩
def Fd.LNK_TC_ASYM_asym : Fd := ⟨0x1000048, 0, 16, 0x0⟩
def Fd.LNK_ROUTE_SEL_device : Fd := ⟨0x1000050, 0, 16, 0x0⟩
def Fd.LNK_ROUTE_ports : Fd := ⟨0x1000058, 0, 16, 0x0⟩
def Fd.LNK_TC_WEIGHT_w : Fd := ⟨0x1000060, 0, 56, 0x8104020402040⟩
def Fd.LNK_GATE_SEL_list : Fd := ⟨0x1000068, 0, 1, 0x0⟩
def Fd.LNK_GATE_SEL_entry : Fd := ⟨0x1000068, 1, 6, 0x0⟩
def Fd.LNK_GATE_ENT_open : Fd := ⟨0x1000070, 0, 8, 0xff⟩
def Fd.LNK_GATE_ENT_duration : Fd := ⟨0x1000070, 8, 24, 0x10000⟩
def Fd.LNK_GATE_CFG_len_a_m1 : Fd := ⟨0x1000078, 0, 6, 0x0⟩
def Fd.LNK_GATE_CFG_len_b_m1 : Fd := ⟨0x1000078, 6, 6, 0x0⟩
def Fd.LNK_GATE_CFG_active : Fd := ⟨0x1000078, 12, 1, 0x0⟩
def Fd.LNK_GATE_CFG_guard_flits : Fd := ⟨0x1000078, 16, 16, 0x10⟩
def Fd.LNK_GATE_SWITCH_frame : Fd := ⟨0x1000080, 0, 48, 0x0⟩
def Fd.LNK_GATE_SWITCH_arm : Fd := ⟨0x1000080, 48, 1, 0x0⟩
def Fd.LNK_POL_SEL_client : Fd := ⟨0x1000088, 0, 8, 0x0⟩
def Fd.LNK_POL_SEL_class : Fd := ⟨0x1000088, 8, 3, 0x3⟩
def Fd.LNK_POL_RATE_cir : Fd := ⟨0x1000090, 0, 32, 0x0⟩
def Fd.LNK_POL_RATE_pir : Fd := ⟨0x1000090, 32, 32, 0x0⟩
def Fd.LNK_POL_BURST_cbs : Fd := ⟨0x1000098, 0, 32, 0x0⟩
def Fd.LNK_POL_BURST_pbs : Fd := ⟨0x1000098, 32, 32, 0x0⟩
def Fd.LNK_LE_SEL_pool : Fd := ⟨0x10000a0, 0, 3, 0x0⟩
def Fd.LNK_LE_SEL_entry : Fd := ⟨0x10000a0, 3, 6, 0x0⟩
def Fd.LNK_LE_POOL_recipe_id : Fd := ⟨0x10000a8, 0, 64, 0x0⟩
def Fd.LNK_LE_ENT_device : Fd := ⟨0x10000b0, 0, 16, 0x0⟩
def Fd.LNK_LE_ENT_valid : Fd := ⟨0x10000b0, 16, 1, 0x0⟩
def Fd.LNK_LEND_t1_mib : Fd := ⟨0x10000b8, 0, 32, 0x0⟩
def Fd.LNK_LEND_t2_mib : Fd := ⟨0x10000b8, 32, 32, 0x0⟩
def Fd.LNK_LENDER_SEL_entry : Fd := ⟨0x10000c0, 0, 3, 0x0⟩
def Fd.LNK_LENDER_device : Fd := ⟨0x10000c8, 0, 16, 0x0⟩
def Fd.LNK_LENDER_valid : Fd := ⟨0x10000c8, 16, 1, 0x0⟩
def Fd.LNK_RECALL_loan : Fd := ⟨0x10000d0, 0, 32, 0x0⟩
def Fd.LNK_RECALL_DEADLINE_frames : Fd := ⟨0x10000d8, 0, 16, 0x7d0⟩
def Fd.LNK_LOAN_STAT_lent : Fd := ⟨0x10000e0, 0, 32, 0x0⟩
def Fd.LNK_LOAN_STAT_borrowed : Fd := ⟨0x10000e0, 32, 32, 0x0⟩
def Fd.MAP_CTL_enable : Fd := ⟨0x1400000, 0, 1, 0x0⟩
def Fd.MAP_CTL_leave : Fd := ⟨0x1400000, 1, 1, 0x0⟩
def Fd.MAP_STAT_member : Fd := ⟨0x1400008, 0, 1, 0x0⟩
def Fd.MAP_STAT_steward : Fd := ⟨0x1400008, 1, 1, 0x0⟩
def Fd.MAP_STAT_isolated : Fd := ⟨0x1400008, 2, 1, 0x0⟩
def Fd.MAP_STAT_evicted : Fd := ⟨0x1400008, 3, 1, 0x0⟩
def Fd.MAP_STAT_leaving : Fd := ⟨0x1400008, 4, 1, 0x0⟩
def Fd.MAP_STAT_steward_dev : Fd := ⟨0x1400008, 16, 16, 0x0⟩
def Fd.MAP_STAT_domain_epoch : Fd := ⟨0x1400008, 32, 32, 0x0⟩
def Fd.MAP_EVT_seq : Fd := ⟨0x1400010, 0, 16, 0x0⟩
def Fd.MAP_EVT_config_diverged : Fd := ⟨0x1400010, 16, 1, 0x0⟩
def Fd.MAP_EVT_config_agreed : Fd := ⟨0x1400010, 17, 1, 0x0⟩
def Fd.MAP_EVT_member_change : Fd := ⟨0x1400010, 18, 1, 0x0⟩
def Fd.MAP_EVT_peer_failed : Fd := ⟨0x1400010, 19, 1, 0x0⟩
def Fd.MAP_EVT_handoff_done : Fd := ⟨0x1400010, 20, 1, 0x0⟩
def Fd.MAP_EVT_handoff_in : Fd := ⟨0x1400010, 21, 1, 0x0⟩
def Fd.MAP_EVT_reclaimed : Fd := ⟨0x1400010, 22, 1, 0x0⟩
def Fd.MAP_EVT_isolated : Fd := ⟨0x1400010, 23, 1, 0x0⟩
def Fd.MAP_CFG_device : Fd := ⟨0x1400018, 0, 16, 0x0⟩
def Fd.MAP_CFG_compat : Fd := ⟨0x1400018, 16, 16, 0x0⟩
def Fd.MAP_CFG_found : Fd := ⟨0x1400018, 32, 1, 0x0⟩
def Fd.MAP_DOM_domain : Fd := ⟨0x1400020, 0, 64, 0x0⟩
def Fd.MAP_HB_period : Fd := ⟨0x1400028, 0, 8, 0x1⟩
def Fd.MAP_HB_miss : Fd := ⟨0x1400028, 8, 8, 0x5⟩
def Fd.MAP_HB_fail_wait : Fd := ⟨0x1400028, 16, 16, 0x14⟩
def Fd.MAP_HO_TIMEOUT_accept : Fd := ⟨0x1400030, 0, 16, 0x64⟩
def Fd.MAP_HO_TIMEOUT_commit : Fd := ⟨0x1400030, 16, 16, 0x64⟩
def Fd.MAP_HO_TIMEOUT_release : Fd := ⟨0x1400030, 32, 16, 0x64⟩
def Fd.MAP_DIGEST0_digest : Fd := ⟨0x1400038, 0, 64, 0x0⟩
def Fd.MAP_DIV_last_peer : Fd := ⟨0x1400058, 0, 16, 0x0⟩
def Fd.MAP_DIV_marked : Fd := ⟨0x1400058, 16, 16, 0x0⟩
def Fd.MAP_DIV_count : Fd := ⟨0x1400058, 32, 32, 0x0⟩
def Fd.MAP_HO_SEL_entry : Fd := ⟨0x1400060, 0, 4, 0x0⟩
def Fd.MAP_HO_REQ_handle : Fd := ⟨0x1400068, 0, 32, 0x0⟩
def Fd.MAP_HO_REQ_dest : Fd := ⟨0x1400068, 32, 16, 0x0⟩
def Fd.MAP_HO_REQ_client : Fd := ⟨0x1400068, 48, 8, 0x0⟩
def Fd.MAP_HO_GO_go : Fd := ⟨0x1400070, 0, 1, 0x0⟩
def Fd.MAP_HO_STAT_state : Fd := ⟨0x1400078, 0, 3, 0x0⟩
def Fd.MAP_HO_STAT_reason : Fd := ⟨0x1400078, 8, 8, 0x0⟩
def Fd.MAP_HO_STAT_new_handle : Fd := ⟨0x1400078, 32, 32, 0x0⟩
def Fd.MAP_HO_CNT_out : Fd := ⟨0x1400080, 0, 32, 0x0⟩
def Fd.MAP_HO_CNT_in : Fd := ⟨0x1400080, 32, 32, 0x0⟩
def Fd.MAP_HO_FAIL_reclaimed : Fd := ⟨0x1400088, 0, 32, 0x0⟩
def Fd.MAP_HO_FAIL_refused : Fd := ⟨0x1400088, 32, 32, 0x0⟩
def Fd.MAP_SLICE_SEL_slice : Fd := ⟨0x1400090, 0, 4, 0x0⟩
def Fd.MAP_SLICE_ARR0_arrays : Fd := ⟨0x1400098, 0, 64, 0x0⟩
def Fd.MAP_SLICE_ARR1_arrays : Fd := ⟨0x14000a0, 0, 64, 0x0⟩
def Fd.MAP_SLICE_ARR2_arrays : Fd := ⟨0x14000a8, 0, 16, 0x0⟩
def Fd.MAP_SLICE_BANKS_banks : Fd := ⟨0x14000b0, 0, 48, 0x0⟩
def Fd.MAP_SLICE_APPLY_apply : Fd := ⟨0x14000b8, 0, 1, 0x0⟩
def Fd.MAP_SLICE_STAT_composed : Fd := ⟨0x14000c0, 0, 1, 0x0⟩
def Fd.MAP_SLICE_STAT_applying : Fd := ⟨0x14000c0, 1, 1, 0x0⟩
def Fd.MAP_SLICE_STAT_arrays : Fd := ⟨0x14000c0, 8, 8, 0x0⟩
def Fd.MAP_SLICE_STAT_banks : Fd := ⟨0x14000c0, 16, 6, 0x0⟩
def Fd.MAP_SLICE_STAT_result : Fd := ⟨0x14000c0, 24, 8, 0x0⟩
def Fd.MAP_SLICE_STAT_recipes : Fd := ⟨0x14000c0, 32, 7, 0x0⟩
def Fd.MAP_ENTRIES_homed : Fd := ⟨0x14000c8, 0, 32, 0x0⟩
def Fd.MAP_ENTRIES_registered : Fd := ⟨0x14000c8, 32, 32, 0x0⟩
def Fd.CKP_CTL_enable : Fd := ⟨0x1600000, 0, 1, 0x0⟩
def Fd.CKP_STAT_state : Fd := ⟨0x1600008, 0, 3, 0x0⟩
def Fd.CKP_STAT_newest : Fd := ⟨0x1600008, 32, 32, 0x0⟩
def Fd.CKP_EVT_seq : Fd := ⟨0x1600010, 0, 16, 0x0⟩
def Fd.CKP_EVT_slate_committed : Fd := ⟨0x1600010, 16, 1, 0x0⟩
def Fd.CKP_EVT_slate_abandoned : Fd := ⟨0x1600010, 17, 1, 0x0⟩
def Fd.CKP_EVT_slate_skipped : Fd := ⟨0x1600010, 18, 1, 0x0⟩
def Fd.CKP_EVT_buddy_missing : Fd := ⟨0x1600010, 19, 1, 0x0⟩
def Fd.CKP_EVT_shard_failed : Fd := ⟨0x1600010, 20, 1, 0x0⟩
def Fd.CKP_EVT_restore_done : Fd := ⟨0x1600010, 21, 1, 0x0⟩
def Fd.CKP_EVT_emergency : Fd := ⟨0x1600010, 22, 1, 0x0⟩
def Fd.CKP_CFG_client : Fd := ⟨0x1600018, 0, 8, 0x0⟩
def Fd.CKP_CFG_tier : Fd := ⟨0x1600018, 8, 2, 0x2⟩
def Fd.CKP_CFG_ckpt_fold : Fd := ⟨0x1600018, 10, 1, 0x0⟩
def Fd.CKP_CFG_buddy_valid : Fd := ⟨0x1600018, 11, 1, 0x0⟩
def Fd.CKP_CFG_buddy : Fd := ⟨0x1600018, 16, 16, 0x0⟩
def Fd.CKP_CFG_buddy_wait : Fd := ⟨0x1600018, 32, 8, 0x32⟩
def Fd.CKP_CFG_max_frames : Fd := ⟨0x1600018, 40, 16, 0xc8⟩
def Fd.CKP_BUF_buffer_mib : Fd := ⟨0x1600020, 0, 16, 0x400⟩
def Fd.CKP_BUDDY_LIM_mib : Fd := ⟨0x1600028, 0, 32, 0x0⟩
def Fd.CKP_BUDDY_LIM_used_mib : Fd := ⟨0x1600028, 32, 32, 0x0⟩
def Fd.CKP_OLDER_older : Fd := ⟨0x1600030, 0, 32, 0x0⟩
def Fd.CKP_OLDER_open : Fd := ⟨0x1600030, 32, 32, 0x0⟩
def Fd.CKP_SLATE_CNT_committed : Fd := ⟨0x1600038, 0, 32, 0x0⟩
def Fd.CKP_SLATE_CNT_abandoned : Fd := ⟨0x1600038, 32, 16, 0x0⟩
def Fd.CKP_SLATE_CNT_skipped : Fd := ⟨0x1600038, 48, 16, 0x0⟩
def Fd.CKP_SHARD_CNT_shard_failed : Fd := ⟨0x1600040, 0, 32, 0x0⟩
def Fd.CKP_SHARD_CNT_restored : Fd := ⟨0x1600040, 32, 32, 0x0⟩
def Fd.CKP_LAST_shards : Fd := ⟨0x1600048, 0, 32, 0x0⟩
def Fd.CKP_LAST_copied_mib : Fd := ⟨0x1600048, 32, 32, 0x0⟩
def Fd.CKP_DISCARD_A_slate : Fd := ⟨0x1600050, 0, 32, 0x0⟩
def Fd.CKP_DISCARD_B_slate_n : Fd := ⟨0x1600058, 0, 32, 0x0⟩
def Fd.SEQ_CLIENT_ACCT_acct_en : Fd := ⟨0x201010, 0, 1, 0x0⟩
def Fd.SEQ_CLIENT_ACCT_acct_addr : Fd := ⟨0x201010, 6, 58, 0x0⟩
def Fd.SEQ_CLIENT_SCHED_weight : Fd := ⟨0x201018, 0, 8, 0x1⟩
def Fd.SEQ_SCHED_CFG_acct_minutes : Fd := ⟨0x200020, 0, 6, 0x1⟩
def Fd.SEQ_ENERGY_COEF_k_arr : Fd := ⟨0x200028, 0, 16, 0x0⟩
def Fd.SEQ_ENERGY_COEF_k_t : Fd := ⟨0x200028, 16, 40, 0x0⟩
def Fd.SEQ_ENERGY_BASE_base : Fd := ⟨0x200030, 0, 32, 0x0⟩
def Fd.SEQ_LC_SEL_slice : Fd := ⟨0x200038, 0, 4, 0x0⟩
def Fd.SEQ_LC_SEL_client : Fd := ⟨0x200038, 8, 8, 0x0⟩
def Fd.SEQ_LC_QUOTA_lc_arrays : Fd := ⟨0x200040, 0, 8, 0x0⟩
def Fd.SEQ_LC_QUOTA_lc_held : Fd := ⟨0x200040, 8, 8, 0x0⟩
def Fd.SEQ_ACCT_SEL_client : Fd := ⟨0x200048, 0, 8, 0x0⟩
def Fd.SEQ_ACCT_SEL_unattributed : Fd := ⟨0x200048, 8, 1, 0x0⟩
def Fd.SEQ_ACCT_ARR_cycles : Fd := ⟨0x200050, 0, 64, 0x0⟩
def Fd.SEQ_ACCT_T0_bytes : Fd := ⟨0x200058, 0, 64, 0x0⟩
def Fd.SEQ_ACCT_ENERGY_mj : Fd := ⟨0x200080, 0, 64, 0x0⟩
def Fd.SEQ_PREEMPT_CNT_preemptions : Fd := ⟨0x200088, 0, 32, 0x0⟩
def Fd.SEQ_PREEMPT_CNT_declined : Fd := ⟨0x200088, 32, 32, 0x0⟩
def Fd.SEQ_SCHED_STAT_period : Fd := ⟨0x200090, 0, 32, 0x0⟩
def Fd.SEQ_SCHED_STAT_lc_short : Fd := ⟨0x200090, 32, 32, 0x0⟩
def Fd.SEC_CTL_enable : Fd := ⟨0x1800000, 0, 1, 0x0⟩
def Fd.SEC_STAT_ready : Fd := ⟨0x1800008, 0, 1, 0x0⟩
def Fd.SEC_STAT_stmt_loaded : Fd := ⟨0x1800008, 1, 1, 0x0⟩
def Fd.SEC_STAT_publishers : Fd := ⟨0x1800008, 8, 5, 0x0⟩
def Fd.SEC_STAT_peer_keys : Fd := ⟨0x1800008, 32, 16, 0x0⟩
def Fd.SEC_EVT_seq : Fd := ⟨0x1800010, 0, 16, 0x0⟩
def Fd.SEC_EVT_zeroised : Fd := ⟨0x1800010, 16, 1, 0x0⟩
def Fd.SEC_EVT_stmt_rejected : Fd := ⟨0x1800010, 17, 1, 0x0⟩
def Fd.SEC_EVT_peer_rejected : Fd := ⟨0x1800010, 18, 1, 0x0⟩
def Fd.SEC_EVT_unwrap_failed : Fd := ⟨0x1800010, 19, 1, 0x0⟩
def Fd.SEC_EVT_sig_failed : Fd := ⟨0x1800010, 20, 1, 0x0⟩
def Fd.SEC_EVT_att_key_rolled : Fd := ⟨0x1800010, 21, 1, 0x0⟩
def Fd.SEC_EVT_debug_enabled : Fd := ⟨0x1800010, 22, 1, 0x0⟩
def Fd.SEC_PUB_SEL_entry : Fd := ⟨0x1800018, 0, 4, 0x0⟩
def Fd.SEC_PUB_KEY0_key : Fd := ⟨0x1800020, 0, 64, 0x0⟩
def Fd.SEC_PUB_CFG_valid : Fd := ⟨0x1800060, 0, 1, 0x0⟩
def Fd.SEC_RCPT_SEL_entry : Fd := ⟨0x1800068, 0, 2, 0x0⟩
def Fd.SEC_RCPT_device : Fd := ⟨0x1800070, 0, 16, 0x0⟩
def Fd.SEC_RCPT_valid : Fd := ⟨0x1800070, 16, 1, 0x0⟩
def Fd.SEC_ID_DIG0_digest : Fd := ⟨0x1800078, 0, 64, 0x0⟩
def Fd.SEC_ZEROISE_A_groups : Fd := ⟨0x1800098, 0, 32, 0x0⟩
def Fd.SEC_ZEROISE_B_groups_n : Fd := ⟨0x18000a0, 0, 32, 0x0⟩
def Fd.SEC_ZERO_STAT_last : Fd := ⟨0x18000a8, 0, 4, 0x0⟩
def Fd.SEC_ZERO_STAT_count : Fd := ⟨0x18000a8, 16, 16, 0x0⟩
def Fd.SEC_ATT_STAT_used : Fd := ⟨0x18000b0, 0, 32, 0x0⟩
def Fd.SEC_ATT_STAT_successor : Fd := ⟨0x18000b0, 32, 8, 0x0⟩
def Fd.MTR_CTL_enable : Fd := ⟨0x1a00000, 0, 1, 0x0⟩
def Fd.MTR_STAT_busy : Fd := ⟨0x1a00008, 0, 1, 0x0⟩
def Fd.MTR_STAT_meter_ready : Fd := ⟨0x1a00008, 1, 1, 0x0⟩
def Fd.MTR_STAT_tc_state : Fd := ⟨0x1a00008, 2, 3, 0x0⟩
def Fd.MTR_STAT_supply_warning : Fd := ⟨0x1a00008, 5, 1, 0x0⟩
def Fd.MTR_STAT_env_unmet : Fd := ⟨0x1a00008, 6, 1, 0x0⟩
def Fd.MTR_STAT_throttle : Fd := ⟨0x1a00008, 8, 4, 0x0⟩
def Fd.MTR_STAT_cap : Fd := ⟨0x1a00008, 16, 16, 0x226⟩
def Fd.MTR_EVT_seq : Fd := ⟨0x1a00010, 0, 16, 0x0⟩
def Fd.MTR_EVT_supply_warning : Fd := ⟨0x1a00010, 16, 1, 0x0⟩
def Fd.MTR_EVT_supply_clear : Fd := ⟨0x1a00010, 17, 1, 0x0⟩
def Fd.MTR_EVT_sag : Fd := ⟨0x1a00010, 18, 1, 0x0⟩
def Fd.MTR_EVT_swell : Fd := ⟨0x1a00010, 19, 1, 0x0⟩
def Fd.MTR_EVT_interruption : Fd := ⟨0x1a00010, 20, 1, 0x0⟩
def Fd.MTR_EVT_meter_lost : Fd := ⟨0x1a00010, 21, 1, 0x0⟩
def Fd.MTR_EVT_minute_mismatch : Fd := ⟨0x1a00010, 22, 1, 0x0⟩
def Fd.MTR_EVT_tc_holdover : Fd := ⟨0x1a00010, 23, 1, 0x0⟩
def Fd.MTR_EVT_tc_unlocked : Fd := ⟨0x1a00010, 24, 1, 0x0⟩
def Fd.MTR_EVT_env_unmet : Fd := ⟨0x1a00010, 25, 1, 0x0⟩
def Fd.MTR_EVT_fast_limit : Fd := ⟨0x1a00010, 26, 1, 0x0⟩
def Fd.MTR_TC_CFG_role : Fd := ⟨0x1a00018, 0, 1, 0x0⟩
def Fd.MTR_TC_CFG_holdover : Fd := ⟨0x1a00018, 8, 24, 0xea60⟩
def Fd.MTR_TC_INIT_frame : Fd := ⟨0x1a00020, 0, 48, 0x0⟩
def Fd.MTR_TC_NOW_timecode : Fd := ⟨0x1a00028, 0, 64, 0x0⟩
def Fd.MTR_TC_OFS_offset : Fd := ⟨0x1a00030, 0, 32, 0x0⟩
def Fd.MTR_ENV_SEL_entry : Fd := ⟨0x1a00038, 0, 6, 0x0⟩
def Fd.MTR_ENV_ENT_minute : Fd := ⟨0x1a00040, 0, 32, 0x0⟩
def Fd.MTR_ENV_ENT_cap : Fd := ⟨0x1a00040, 32, 16, 0x0⟩
def Fd.MTR_ENV_ENT_valid : Fd := ⟨0x1a00040, 48, 1, 0x0⟩
def Fd.MTR_ENV_DEFAULT_cap : Fd := ⟨0x1a00048, 0, 16, 0x226⟩
def Fd.MTR_SUPPLY_CFG_sag_cycles : Fd := ⟨0x1a00050, 0, 8, 0x6⟩
def Fd.MTR_SUPPLY_CFG_warn_on_swell : Fd := ⟨0x1a00050, 8, 1, 0x0⟩
def Fd.MTR_SUPPLY_CFG_clear_frames : Fd := ⟨0x1a00050, 32, 24, 0x2710⟩
def Fd.MTR_POWER_frame_mean : Fd := ⟨0x1a00058, 0, 16, 0x0⟩
def Fd.MTR_POWER_peak : Fd := ⟨0x1a00058, 16, 16, 0x0⟩
def Fd.MTR_REC_MIN_minute : Fd := ⟨0x1a00060, 0, 32, 0x0⟩
def Fd.MTR_REC_MIN_sequence : Fd := ⟨0x1a00060, 32, 32, 0x0⟩
def Fd.MTR_REC_E_import_mj : Fd := ⟨0x1a00068, 0, 64, 0x0⟩
def Fd.MTR_LOG_BASE_log_en : Fd := ⟨0x1a00070, 0, 1, 0x0⟩
def Fd.MTR_LOG_BASE_base : Fd := ⟨0x1a00070, 12, 52, 0x0⟩
def Fd.MTR_LOG_CFG_size_log2 : Fd := ⟨0x1a00078, 0, 4, 0x4⟩
def Fd.MTR_LOG_STAT_written : Fd := ⟨0x1a00080, 0, 32, 0x0⟩
def Fd.MTR_LOG_STAT_lapped : Fd := ⟨0x1a00080, 32, 32, 0x0⟩
def Fd.MTR_LOG_SHADOW_shadow : Fd := ⟨0x1a00088, 3, 61, 0x0⟩
def Fd.MTR_TX_CFG_rate : Fd := ⟨0x1a00090, 0, 2, 0x0⟩
def Fd.MTR_CNT_sags : Fd := ⟨0x1a00098, 0, 16, 0x0⟩
def Fd.MTR_CNT_swells : Fd := ⟨0x1a00098, 16, 16, 0x0⟩
def Fd.MTR_CNT_interruptions : Fd := ⟨0x1a00098, 32, 16, 0x0⟩
def Fd.MTR_CNT_warnings : Fd := ⟨0x1a00098, 48, 16, 0x0⟩
def Fd.FLT_CTL_enable : Fd := ⟨0x1e00000, 0, 1, 0x0⟩
def Fd.FLT_STAT_fatal : Fd := ⟨0x1e00008, 0, 1, 0x0⟩
def Fd.FLT_STAT_windows : Fd := ⟨0x1e00008, 16, 16, 0x0⟩
def Fd.FLT_EVT_seq : Fd := ⟨0x1e00010, 0, 16, 0x0⟩
def Fd.FLT_EVT_record : Fd := ⟨0x1e00010, 16, 1, 0x0⟩
def Fd.FLT_EVT_overflow : Fd := ⟨0x1e00010, 17, 1, 0x0⟩
def Fd.FLT_EVT_fatal : Fd := ⟨0x1e00010, 18, 1, 0x0⟩
def Fd.FLT_LOG_BASE_base : Fd := ⟨0x1e00018, 12, 52, 0x0⟩
def Fd.FLT_LOG_CFG_open : Fd := ⟨0x1e00020, 0, 1, 0x0⟩
def Fd.FLT_LOG_CFG_size_log2 : Fd := ⟨0x1e00020, 1, 5, 0xa⟩
def Fd.FLT_LOG_SHADOW_shadow : Fd := ⟨0x1e00028, 3, 61, 0x0⟩
def Fd.FLT_LOG_STAT_sequence : Fd := ⟨0x1e00030, 0, 32, 0x0⟩
def Fd.FLT_LOG_STAT_overflow : Fd := ⟨0x1e00030, 32, 32, 0x0⟩
def Fd.FLT_CLIENT_SEL_client : Fd := ⟨0x1e00038, 0, 8, 0x0⟩
def Fd.FLT_CLIENT_BASE_base : Fd := ⟨0x1e00040, 12, 52, 0x0⟩
def Fd.FLT_CLIENT_CFG_open : Fd := ⟨0x1e00048, 0, 1, 0x0⟩
def Fd.FLT_CLIENT_CFG_size_log2 : Fd := ⟨0x1e00048, 1, 5, 0x6⟩
def Fd.FLT_CLIENT_SHADOW_shadow : Fd := ⟨0x1e00050, 3, 61, 0x0⟩
def Fd.FLT_CLIENT_STAT_sequence : Fd := ⟨0x1e00058, 0, 32, 0x0⟩
def Fd.FLT_CLIENT_STAT_overflow : Fd := ⟨0x1e00058, 32, 32, 0x0⟩
def Fd.FLT_FWD_device : Fd := ⟨0x1e00060, 0, 16, 0x0⟩
def Fd.FLT_FWD_valid : Fd := ⟨0x1e00060, 16, 1, 0x0⟩
def Fd.FLT_CNT_reports : Fd := ⟨0x1e00068, 0, 32, 0x0⟩
def Fd.FLT_CNT_forwarded : Fd := ⟨0x1e00068, 32, 32, 0x0⟩
def Fd.CVU_CTL_enable : Fd := ⟨0x1c00000, 0, 1, 0x0⟩
def Fd.CVU_STAT_busy : Fd := ⟨0x1c00008, 0, 16, 0x0⟩
def Fd.CVU_STAT_reg_units : Fd := ⟨0x1c00008, 16, 16, 0x0⟩
def Fd.CVU_EVT_seq : Fd := ⟨0x1c00010, 0, 16, 0x0⟩
def Fd.CVU_EVT_strip_mismatch : Fd := ⟨0x1c00010, 16, 1, 0x0⟩
def Fd.CVU_SEL_unit : Fd := ⟨0x1c00018, 0, 4, 0x0⟩
def Fd.CVU_UNIT_CFG_reg_mode : Fd := ⟨0x1c00020, 0, 1, 0x0⟩
def Fd.CVU_UNIT_CFG_algorithm : Fd := ⟨0x1c00020, 8, 8, 0x1⟩
def Fd.CVU_INIT_init : Fd := ⟨0x1c00028, 0, 1, 0x0⟩
def Fd.CVU_RUN_running : Fd := ⟨0x1c00030, 0, 64, 0x0⟩
def Fd.CVU_RESULT_check : Fd := ⟨0x1c00038, 0, 64, 0x0⟩
def Fd.CVU_FEED_B_byte : Fd := ⟨0x1c00040, 0, 8, 0x0⟩
def Fd.CVU_FEED_H_half : Fd := ⟨0x1c00048, 0, 16, 0x0⟩
def Fd.CVU_FEED_W_word : Fd := ⟨0x1c00050, 0, 32, 0x0⟩
def Fd.CVU_CNT_bytes : Fd := ⟨0x1c00058, 0, 64, 0x0⟩
def Fd.DBG_CTL_enable : Fd := ⟨0x1f00000, 0, 1, 0x0⟩
def Fd.DBG_STAT_obs_live : Fd := ⟨0x1f00008, 0, 1, 0x0⟩
def Fd.DBG_STAT_alert : Fd := ⟨0x1f00008, 1, 1, 0x0⟩
def Fd.DBG_EVT_seq : Fd := ⟨0x1f00010, 0, 16, 0x0⟩
def Fd.DBG_EVT_therm_alert : Fd := ⟨0x1f00010, 16, 1, 0x0⟩
def Fd.DBG_EVT_therm_clear : Fd := ⟨0x1f00010, 17, 1, 0x0⟩
def Fd.DBG_OBS_EN_A_value : Fd := ⟨0x1f00018, 0, 32, 0x0⟩
def Fd.DBG_OBS_EN_B_value_n : Fd := ⟨0x1f00020, 0, 32, 0x0⟩
def Fd.DBG_OBS_SEL_group : Fd := ⟨0x1f00028, 0, 8, 0x0⟩
def Fd.DBG_TEMP_hottest : Fd := ⟨0x1f00030, 0, 8, 0x0⟩
def Fd.DBG_TEMP_sensor : Fd := ⟨0x1f00030, 8, 8, 0x0⟩
def Fd.DBG_TEMP_peak : Fd := ⟨0x1f00030, 16, 8, 0x0⟩

end Sys2Proof.Machine
end

