-- ==== Sys2Proof/Machine/State.lean ====
section
/-!
DEFINITION. Sys2Proof/Machine/State.lean: the state of the device, as plain data, and its reset value.
`Dev` holds everything the spec gives the device; `State` adds the queue of waiting commands.
The default value of every field is its value after reset (INVENTORY.md '## State' names the rule of each).
-/

namespace Sys2Proof.Machine

/-- Reasons for which a command could stop the machine: there is none. Every row of the table has an effect the spec
describes (log entry 1), so no command raises a fault; a safe choice. -/
inductive Fault where
  deriving DecidableEq, Repr

/-- Refusals. -/
inductive Refusal where
  /-- The command has no meaning yet; raised by exec's own arm for that command, never by a meaning. Safe. -/
  | notModelled (mnemonic : String)
  deriving DecidableEq, Repr

/-! ### Global state: reset, bring-up, loads, heat (03, 19) -/

/-- A load being verified or applied (R89, R454): type, length, what the checks find, how often it went to the meter and when. -/
structure LoadJob where
  typ : Nat
  length : Nat
  result : Nat
  tries : Nat
  sentAt : Nat
  deriving DecidableEq, Repr

/-- What a defect and repair record leaves behind (R92). -/
structure Repair where
  serial : Nat
  digest : BitVec 256
  harvest : Nat
  entries : List Nat
  deriving DecidableEq, Repr

/-- A partial unit reset under way (R103): its first frame, whether work still drains, when it ends at the latest. -/
structure UnitRst where
  start : Nat
  draining : Bool
  deriving DecidableEq, Repr

/-- Reset, bring-up, loads, temperatures and the guarded pairs (03 R82 to R104, 19 R491 to R500). -/
structure Sys where
  /-- RESET_N is low (R97, R493). -/
  resetLow : Bool := true
  /-- A rail fault or thermal trip holds the device in reset until the board asserts and releases RESET_N (R491). -/
  railHold : Bool := false
  /-- Stage ROM runs or has run (R85). -/
  rom : Bool := false
  /-- UCIe training has completed: register access works (R85). -/
  portUp : Bool := false
  /-- The newest stage completed (R84 gives the register's reset value, R86). -/
  stage : Nat := 1
  /-- The commanded stage that is running (R86, R94). -/
  stageCmd : Option Nat := none
  failReason : Nat := 0
  /-- `GLB_UID` (R84): derived in stage ROM; before that 0 (log entry 9). -/
  uid : Nat := 0
  fwRunning : Nat := 0
  fwRunningMeas : BitVec 256 := 0
  /-- The staged image: version and measurement (R98). -/
  fwStaged : Option (Nat × BitVec 256) := none
  fwActivating : Bool := false
  debugExposed : Bool := false
  obsLive : Bool := false
  /-- The load buffer behind the aperture (R79, R89): bytes by offset; an unwritten byte reads 0 (log entry 7). -/
  aperture : NMap Byte := []
  load : Option LoadJob := none
  loadResult : Nat := 0
  repair : Option Repair := none
  /-- Digest of the calibration record the meter accepted (R454, R436). -/
  calDigest : Option (BitVec 256) := none
  /-- Units in reset (R101), by bit number. -/
  unitRst : NMap UnitRst := []
  drainFailed : BitVec 16 := 0
  /-- Stage LINKS has sent its second JOIN (R87). -/
  joinRetried : Bool := false
  /-- Guarded pairs with a window open (R11), by the offset of `*_A`: the pending value, and the local time of its write. -/
  guards : NMap (Nat × Nat) := []
  hottest : Nat := 0
  sensor : Nat := 0
  peak : Nat := 0
  alert : Bool := false
  trip : Bool := false
  fatal : Bool := false
  deriving DecidableEq, Repr

/-! ### Host port (02 R39 to R45) -/

/-- TDISP interface states (R42). -/
inductive Tdisp where
  | configUnlocked | configLocked | run | error
  deriving DecidableEq, Repr

/-- The host port. -/
structure Hst where
  moduleUp : BitVec 8 := 0
  moduleRetired : BitVec 8 := 0
  /-- Modules that have failed once (R41). -/
  failedOnce : BitVec 8 := 0
  ideActive : Bool := false
  tdisp : Tdisp := .configUnlocked
  deriving DecidableEq, Repr

/-! ### Events (00 R9, 03 R80) -/

/-- One `*_EVT` register: the newest sequence number, and for each set bit the number of its newest occurrence. -/
structure Evt where
  seq : BitVec 16 := 0
  bits : NMap (BitVec 16) := []
  deriving DecidableEq, Repr

/-- One capture register (R80). -/
structure Capture where
  addr : Nat := 0
  count : Nat := 0
  deriving DecidableEq, Repr

/-! ### Rings (02 R46 to R59) -/

/-- Where a fetched descriptor stands (01 control path, R16, R17). -/
inductive FPhase where
  | waiting | dispatched | done
  deriving DecidableEq, Repr

/-- One entry of a `STEP_SUBMIT` batch (R204, R205): its result record as it comes about. -/
structure EntryRes where
  handle : Nat
  single : Bool
  status : Nat := 0
  flags : Nat := 0
  bytes : Nat := 0
  len : Nat := 0
  seq : Nat := 0
  /-- Result the status gives (R62), for the descriptor's own completion (R205). -/
  result : Nat := 0
  /-- Second-group checks passed and the step dispatched. -/
  started : Bool := false
  finished : Bool := false
  deriving DecidableEq, Repr

/-- A fetched descriptor whose completion is not written (R507). -/
structure Flight where
  /-- Position in the submission order of its ring. -/
  id : Nat
  desc : Desc
  list : List Byte
  /-- Timecode at which it passed its first group of checks (R208). -/
  fetchTc : Nat
  phase : FPhase := .waiting
  /-- It was dispatched (R59: dispatched operations complete also while the ring is stalled). -/
  ran : Bool := false
  status : Nat := 0
  result : Nat := 0
  entries : List EntryRes := []
  /-- Timecode at which the own wait of a `SYNC_WAIT` was first tested (R71), or at which a set-up wait began. -/
  testedAt : Option Nat := none
  /-- The own operation of this `SYNC_SIGNAL` changed its object, and the mirror write waits for the completion (R71, R72). -/
  changed : Bool := false
  /-- Its wait or signal field failed R58 when it was checked, so that it applies no signal (R68). -/
  noSignal : Bool := false
  /-- Its descriptor wait has been met (R69): a wait that is met stays met. -/
  waited : Bool := false
  /-- It is dispatched and holds its ring as a sync wait does (R52, R218). -/
  holds : Bool := false
  /-- Status and result it ends with once its stream record is written (R52). -/
  ending : Option (Nat × Nat) := none
  /-- Handles of PAUSED sessions that it waits for (R203). -/
  seen : List Nat := []
  /-- A `SESSION_RESUME` that has passed its checks and waits (R220). -/
  passed : Bool := false
  /-- Records whose victim move failed while it waited (R191). -/
  spared : List Nat := []
  deriving DecidableEq, Repr

/-- A submission ring (R48, R54, R59). -/
structure Sq where
  /-- The control sequencer an open ring is bound to (R18). -/
  sequencer : Option Nat := none
  head : Nat := 0
  tail : Nat := 0
  stalled : Bool := false
  draining : Bool := false
  stallTag : Nat := 0
  stallStatus : Nat := 0
  flights : List Flight := []
  nextId : Nat := 0
  deriving DecidableEq, Repr

/-- A completion ring (R49 to R51): device write index, phase, consumer index as last read from the shadow (R509),
entries reserved, completions since the last interrupt and when the first of them was written. -/
structure Cq where
  tail : Nat := 0
  phase : Bool := true
  cons : Nat := 0
  reserved : Nat := 0
  since : Nat := 0
  firstAt : Nat := 0
  deriving DecidableEq, Repr

/-- A stream record that waits for a free entry (R52), with the command that completes after it. -/
structure StrWait where
  bytes : List Byte
  ring : Nat
  id : Nat
  status : Nat
  result : Nat
  /-- Its command goes on beside it and only may not complete before it. -/
  gate : Bool := false
  deriving DecidableEq, Repr

/-- A stream ring (R50, R52). -/
structure StrRing where
  tail : Nat := 0
  phase : Bool := true
  cons : Nat := 0
  /-- Records held for the step in flight. -/
  held : Nat := 0
  waiting : List StrWait := []
  deriving DecidableEq, Repr

/-- One account (R419 to R424): totals since power-up; the tenant counters of R424. -/
structure Acct where
  cycles : Nat := 0
  bytes : List Nat := [0, 0, 0, 0, 0]
  energy : Nat := 0
  precEvents : Nat := 0
  underflow : Nat := 0
  dropped : Nat := 0
  replaced : Nat := 0
  takesRun : Nat := 0
  takesAcc : Nat := 0
  stops : Nat := 0
  shards : Nat := 0
  backlinks : Nat := 0
  faults : Nat := 0
  deriving DecidableEq, Repr

/-- Activity of one account in one minute (R421). -/
structure MinUse where
  cycles : Nat := 0
  bytes : List Nat := [0, 0, 0, 0, 0]
  deriving DecidableEq, Repr

structure SeqSt where
  sq : NMap Sq := []
  cq : NMap Cq := []
  str : NMap StrRing := []
  /-- Accounts by client; 256 is the unattributed account. -/
  acct : NMap Acct := []
  /-- Activity by minute * 512 + account, until apportioned. -/
  minutes : NMap MinUse := []
  /-- Energy of a minute, as the meter's record gave it (R421). -/
  minuteE : NMap Nat := []
  /-- The minute in which timecode was acquired, and the minutes of the last ones that have been apportioned or given up (R421). -/
  energyFrom : Option Nat := none
  settled : List Nat := []
  /-- Minutes whose energy could not be apportioned in the present period (R421, R424). -/
  energyGap : Bool := false
  /-- First minute of the tenant period that runs (R424). -/
  periodFrom : Option Nat := none
  /-- Virtual times by class * 256 + client (R415). -/
  vt : NMap Nat := []
  deriving DecidableEq, Repr

/-! ### Sync objects (02 R68 to R73) -/

structure SynObj where
  ctr : BitVec 64 := 0
  mark : Option (BitVec 64) := none
  deriving DecidableEq, Repr

structure Syn where
  objs : NMap SynObj := []
  /-- A posted set-up write is in progress until this local time (R81). -/
  busyUntil : Nat := 0
  deriving DecidableEq, Repr

/-! ### Arrays, slices, recipes (04, 05, 13) -/

/-- One array (R133). -/
structure Arr where
  retired : Bool := false
  cause : Nat := 0
  ckTransient : Nat := 0
  storeCorrected : Nat := 0
  deriving DecidableEq, Repr

/-- One slice (13 R366 to R368): composition in force, composition being applied, last result. -/
structure Slice where
  arrays : List Nat := []
  banks : List Nat := []
  next : Option (List Nat × List Nat) := none
  result : Nat := 0
  deriving DecidableEq, Repr

/-- Recipe slot states (05, slot-state table). -/
inductive RcpState where
  | empty | loading | loaded | stranded | unloading
  deriving DecidableEq, Repr

/-- An entry of a recipe (R145). -/
structure REntry where
  kind : Nat
  team : Nat
  first : Nat
  words : Nat
  work : Nat
  deriving DecidableEq, Repr

/-- A static object of a recipe (R146) with its plain contents. -/
structure RObj where
  number : Nat
  kind : Nat
  offset : Nat
  size : Nat
  data : List Byte
  deriving DecidableEq, Repr

/-- The model parameter block (R144). -/
structure Model where
  layers : Nat := 1
  qHeads : Nat := 1
  kvHeads : Nat := 1
  /-- The head dimension itself: 64, 128 or 256. -/
  d : Nat := 64
  kvFormat : Nat := 1
  takes : Nat := 0
  treeNodes : Nat := 1
  age3 : Nat := 0
  age2 : Nat := 0
  hidden : Nat := 1
  deriving DecidableEq, Repr

/-- A recipe slot (R148 to R158). -/
structure RSlot where
  state : RcpState := .empty
  gen : Nat := 0
  slice : Nat := 0
  banks : List Nat := []
  recipeId : Nat := 0
  version : Nat := 0
  digest : BitVec 256 := 0
  stateClass : Nat := 0
  staticSize : Nat := 0
  model : Model := {}
  entries : List REntry := []
  objects : List RObj := []
  code : List Word := []
  /-- Some bank of its footprint has been retired (R303). -/
  bankLost : Bool := false
  /-- The command that waits for it to be unloaded: ring and flight (R152). -/
  unloader : Option (Nat × Nat) := none
  deriving DecidableEq, Repr

/-- The architectural state of one array running an entry (05 R140), and the frame saved from it (R156). -/
structure ArrCore where
  pc : Nat := 0
  x : List (BitVec 32) := List.replicate 16 0
  p : List Bool := [true, false, false, false]
  /-- Loop stack, the innermost first: start word, end word, iterations left. -/
  loops : List (Nat × Nat × Nat) := []
  sat : BitVec 64 := 0
  scale : BitVec 64 := 0
  ovf : BitVec 64 := 0
  underflow : List Nat := List.replicate 64 0
  working : NMap Byte := []
  halted : Bool := false
  /-- The word at `pc` is partly done: bytes or blocks of it done, and the shadow of the output rows of a MAC (R142, R155). -/
  partly : Bool := false
  progress : Nat := 0
  shadow : List F32 := []
  /-- Tile groups of the KV stream that `wait_stream` has taken (R142). -/
  group : Nat := 0
  deriving DecidableEq, Repr

/-- One entry of a recipe that waits for a team, runs on one, or is saved (05 R139, R155; 15 R411 to R417). -/
structure Team where
  /-- The context slot it works for. -/
  slot : Nat
  kind : Nat
  slice : Nat
  client : Nat
  lc : Bool
  /-- Arrays of the team in role order; empty while it waits or is saved. -/
  arrays : List Nat := []
  size : Nat
  /-- Place in the order of dispatch, of start and of preemption. -/
  order : Nat
  running : Bool := false
  saving : Bool := false
  saved : Bool := false
  /-- Its wait is counted in `lc_short` (R413). -/
  short : Bool := false
  /-- Its members by role while it runs on its arrays (R137). -/
  cores : List ArrCore := []
  /-- The frames of its members in the save area while it is saved, and the stream positions they bound (R156). -/
  frames : List (List Byte) := []
  streams : List Nat := []
  /-- Bytes that `st` has moved to the output path and, from 2^40 on, to the exchange output, and those that `done` has handed
  over (R139, R141). -/
  out : NMap Byte := []
  handed : NMap Byte := []
  /-- Product tiles with flagged rows that have not been reported yet (R128). -/
  flagged : Nat := 0
  deriving DecidableEq, Repr

structure Fab where
  arr : NMap Arr := []
  slice : NMap Slice := []
  rcp : NMap RSlot := []
  teams : List Team := []
  orders : Nat := 0
  deriving DecidableEq, Repr

/-! ### Sessions (06, 07, 08, 09, 10) -/

/-- Session-record states (R197). -/
inductive RecState where
  | closed | active | paused | parked | moving | expired
  deriving DecidableEq, Repr

/-- Context-slot states (R197). -/
inductive CtxState where
  | free | opened | running | paused | saved | cutPending
  deriving DecidableEq, Repr

/-- Location of a page (R287): tier, frame within the tier, and the seal counter of a page outside the package
(R298, R299; 0 inside). -/
structure Loc where
  tier : Nat
  frame : Nat
  ctr : Nat := 0
  deriving DecidableEq, Repr

/-- An entry of a page-table slot (R164): the location word's fields, the generation in which it was written, what the page holds,
and the CRC-32C of each tile in use. -/
structure PEnt where
  loc : Loc
  gen : BitVec 32
  fmt : Nat
  layer : Nat
  first : Nat
  start : Nat
  tiles : Nat
  /-- 0 folded, 1 fresh, 2 retained, 3 tuning. -/
  kind : Nat
  crc : List (BitVec 32)
  /-- The present bit of its location (R287). -/
  present : Bool := true
  deriving DecidableEq, Repr

/-- A slot of a page table (R163): its two entries; none for one never written. -/
structure PSlot where
  a : Option PEnt := none
  b : Option PEnt := none
  deriving DecidableEq, Repr

/-- A pending edit of a page table (R166, R167), with the command that waits for its publication. -/
inductive Edit where
  /-- A fold made at a commit point (R172): the layers as it leaves them, and the pages it has written. -/
  | fold (layers : List LayerKV) (pages : NMap Loc)
  /-- A trim of this many positions (R226). -/
  | trim (positions ring flight : Nat)
  /-- A tuning-window update: the new layers (R187). -/
  | tune (layers : List LayerKV)
  /-- New locations of pages that a move group has moved. -/
  | move (group : Nat)
  /-- New locations of pages that the device has moved for itself (R318, R368). -/
  | relocate (pages : NMap Loc)
  deriving DecidableEq, Repr

/-- A session record (R195) with the objects of its session. -/
structure Rec where
  state : RecState := .closed
  gen : Nat := 0
  client : Nat := 0
  recipe : Nat := 0
  /-- 0 latency-critical, 1 best-effort. -/
  cls : Nat := 0
  policy : Nat := 0
  hold : Nat := 0
  parkAfter : Nat := 0
  parkTier : Nat := 0
  ttl : Nat := 0
  seed : BitVec 64 := 0
  raw : Bool := false
  slot : Option Nat := none
  stepSeq : Nat := 0
  strOff : Nat := 0
  strEpoch : Nat := 0
  rebuildTo : Option Nat := none
  rewound : Bool := false
  folded : Bool := false
  lost : Bool := false
  damaged : Bool := false
  /-- Lowest window whose tile failed lastingly (R176); none if something beyond the windows did. -/
  damagedWin : Option Nat := none
  /-- A pause to take when the dispatched work completes: ring and flight (R215). -/
  pausing : Option (Nat × Nat) := none
  /-- A park that waits for the dispatched work: ring and flight (R218). -/
  parking : Option (Nat × Nat) := none
  /-- Frame in which the pause completed (R216). -/
  pausedAt : Option Nat := none
  /-- Frame in which the slot was released, or the last automatic try was made (R217). -/
  releasedAt : Option Nat := none
  /-- Frame from which the time to live counts (R219). -/
  ttlFrom : Option Nat := none
  /-- Placement hint (R292): tier and newest folded windows kept. -/
  hint : Option (Nat × Nat) := none
  /-- A hint or a prefetch asks for moves that wait for earlier ones (R296). -/
  hintDue : Bool := false
  prefetchDue : Bool := false
  /-- Map epoch (R375); it is the receiver's record of a handoff that is open. -/
  epoch : Nat := 0
  inbound : Bool := false
  /-- Session storage key (R444). -/
  key : BitVec 256 := 0
  /-- Session name (R444, R284): the name of its first object. -/
  name : Nat := 0
  /-- Committed length (R172). -/
  len : Nat := 0
  /-- Current generation of the page table (R163, R167). -/
  ptGen : BitVec 32 := 0
  /-- Area B holds the fresh window (R163). -/
  freshSel : Bool := false
  /-- Slots of the page table, by the key of their page (R163, R164). -/
  table : NMap PSlot := []
  edits : List Edit := []
  kv : List LayerKV := []
  /-- Pages by kind * 2^48 + index (R285, R163). -/
  pages : NMap Loc := []
  /-- Symbol log, oldest first (R231). -/
  log : List Nat := []
  /-- n-gram carry: the last 7 symbols, oldest first (R232). -/
  carry : List Nat := List.replicate 7 511
  out : OutSt := {}
  /-- Completion timecode and class of its last step (R190). -/
  lastStep : Nat := 0
  /-- State before a move that is under way, to return to if it fails (R201). -/
  before : RecState := .closed
  /-- The move group that keeps it MOVING, if a dolly move does. -/
  group : Option Nat := none
  /-- A restore keeps it MOVING (R227, R405). -/
  restoring : Bool := false
  /-- Precision count (R128). -/
  precCount : Nat := 0
  underflow : Nat := 0
  /-- The slate it was restored from and the stream offset to resume from (R227, R228). -/
  rewindSlate : Nat := 0
  rewindOff : Nat := 0
  deriving DecidableEq, Repr

/-- Kinds of dispatched work of a context (R202). -/
inductive WKind where
  | step | prefill | tune
  deriving DecidableEq, Repr

/-- What the work in a context waits for (07 R208 to R213). -/
inductive WPhase where
  | qkv | hid | dO | dH | heads | heads2 | ready
  deriving DecidableEq, Repr

/-- One row of a step or prefill: symbol, position, parent row, node number in the candidate tree. -/
structure WRow where
  sym : Nat
  pos : Nat
  parent : Nat := 0
  node : Nat := 0
  deriving DecidableEq, Repr

/-- What the output path has decided for a step (R257, R271): prints, rows committed, stream bytes, END record. -/
structure Verdict where
  prints : List Nat := []
  /-- Rows committed, by row number, in position order. -/
  rows : List Nat := []
  /-- Row from which verification drew its last print (R255). -/
  last : Nat := 0
  pending : Option Nat := none
  bytes : List Byte := []
  /-- END record: reason, index, inclusive and kept flags, matched length. -/
  ending : Option (Nat × Nat × Nat × Nat) := none
  tree : List (Nat × Nat) := []
  out : OutSt := {}
  replaced : Nat := 0
  /-- Takes that the walk accepted (R257). -/
  accepted : Nat := 0
  deriving DecidableEq, Repr

/-- What a tuning replay saves of one layer (R186, R210). -/
structure TuneSave where
  resid : List (List F32) := []
  q : List (List HeadRow) := []
  o : List (List F32) := []
  /-- Row maxima and sums, row by row and query head by query head. -/
  m : List F32 := []
  l : List F32 := []
  deriving DecidableEq, Repr

/-- The work dispatched in a context slot (R207 to R213, R165, R170). -/
structure Work where
  kind : WKind
  ring : Nat
  flight : Nat
  entry : Nat
  /-- Generation of the page table bound at dispatch (R165). -/
  bound : BitVec 32
  rows : List WRow
  sample : Bool := false
  layer : Nat := 0
  attempt : Nat := 0
  /-- Frame in which the device's last frame for the layer was sent (R212). -/
  sentAt : Nat := 0
  engine : Nat := 0
  phase : WPhase := .qkv
  /-- Received byte ranges of the data block awaited: offset and bytes (R211). -/
  rx : List (Nat × List Byte) := []
  /-- The block sent last, to send again on a retry (R212): type, head rows, data after the position table. -/
  sent : Nat × Nat × List Byte := (0, 0, [])
  /-- Stage: per layer, the K and V rows of the work (R170). -/
  stage : List (List KVRow) := []
  /-- Final hidden states, one per head row. -/
  hid : List (List F32) := []
  verdict : Verdict := {}
  /-- Bound byte-path tables: order, table number, version (R237). -/
  tables : List (Nat × Nat × Nat) := []
  /-- Bound colander version (R266): table and version. -/
  colander : Option (Nat × Nat) := none
  underflow : Nat := 0
  prec : Bool := false
  /-- Bytes of near memory reserved: stage, fold pages, statistics (R170, R189). -/
  reserved : Nat := 0
  takesRun : Nat := 0
  /-- Per layer, what a tuning replay saves: residual rows, query rows, attention output, row maxima and sums. -/
  save : List TuneSave := []
  /-- Per layer, gradient of the tuning masters (R186). -/
  tuneGrad : List (List Master) := []
  rate : F32 := 0
  /-- First position of the span of a replay (R185). -/
  spanFirst : Nat := 0
  /-- Place of its operation in the order of dispatch (R414). -/
  disp : Nat := 0
  /-- Per layer, the tuning window as a `TUNE_STEP` reads it (R184). -/
  tuning : List LayerKV := []
  /-- Result of a `TUNE_STEP` (R187). -/
  loss : F32 := 0
  deriving DecidableEq, Repr

/-- A context slot (R202, R207, R209). -/
structure Slot where
  state : CtxState := .free
  /-- Record index of the session placed. -/
  rcd : Nat := 0
  /-- Placements into the slot, modulo 2^20 (R209). -/
  placed : Nat := 0
  work : Option Work := none
  deriving DecidableEq, Repr

structure Ctx where
  /-- The record table was allocated with this log2 of records (R195). -/
  tableLog2 : Option Nat := none
  recs : NMap Rec := []
  slots : NMap Slot := []
  deriving DecidableEq, Repr

/-! ### Tables and colander (08, 09) -/

/-- One table version (R238 to R241): the rows loaded, by part * 2^40 + chunk, 64 rows to a chunk. -/
structure TVer where
  num : Nat
  /-- Object name (R284, R285). -/
  name : Nat := 0
  recipe : Nat
  kind : Nat
  fmt : Nat
  dim : Nat
  rowsM1 : Nat
  r : Nat
  combine : Nat
  order : Nat
  tier : Nat
  /-- Some rows were loaded with `wrapped` set (R446). -/
  wrapped : Bool := false
  chunks : NMap (List (List Byte)) := []
  pages : NMap Loc := []
  damaged : Bool := false
  deriving DecidableEq, Repr

structure Tbl where
  client : Nat := 0
  cur : Option TVer := none
  staged : Option TVer := none
  old : List TVer := []
  last : Nat := 0
  hint : Option Nat := none
  deriving DecidableEq, Repr

/-- A listed sequence of a colander table (R262). -/
structure ColSeq where
  force : Bool
  trigger : Nat
  bytes : List Byte
  deriving DecidableEq, Repr

structure ColVer where
  num : Nat
  seqs : List ColSeq
  states : Nat
  deriving DecidableEq, Repr

structure Col where
  client : Nat := 0
  cur : Option ColVer := none
  old : List ColVer := []
  last : Nat := 0
  deriving DecidableEq, Repr

structure Txt where
  tbl : NMap Tbl := []
  col : NMap Col := []
  /-- Rows the ladle fetched, and repeated rows it did not fetch again (R250). -/
  fetched : Nat := 0
  coalesced : Nat := 0
  deriving DecidableEq, Repr

/-! ### Memory and dolly (10) -/

structure Mem where
  nearUp : BitVec 8 := 0
  nearRetired : BitVec 8 := 0
  farUp : BitVec 32 := 0
  farRetired : BitVec 32 := 0
  farRetried : BitVec 32 := 0
  bankRetired : NMap Bool := []
  dupDegraded : Bool := false
  /-- An erase under way (R309): target and channel. -/
  erase : Option (Nat × Nat) := none
  /-- Serial of the next object (R284). -/
  nextSerial : Nat := 1
  /-- Next seal counter (R298). -/
  sealCtr : BitVec 64 := 1
  /-- Pages of the seal object in T2, by their number, and the page of it that keeps the counter of each T4 frame (R299). -/
  sealObj : NMap Loc := []
  sealAt : NMap Nat := []
  /-- The far channel from which the next frame of T2 is handed out (R306). -/
  turn : Nat := 0
  deriving DecidableEq, Repr

/-- What a group of page moves is for (R297). -/
inductive MoveWhy where
  | park | autoPark | resume | objMove | hint | spill | prefetch | recall | urgent | handoff
  deriving DecidableEq, Repr

/-- What a move group moves: a session's pages, a table version, an index, a session's restored pages. -/
inductive MoveOf where
  | session (record : Nat)
  | table (number version : Nat)
  | index (number : Nat)
  /-- The pages of a session that is being restored after a pool loss (R297). -/
  | restore (record : Nat)
  deriving DecidableEq, Repr

/-- A group of page moves that publish together (R291, R294): pages still to finish, pages finished with their new
locations, and the command that completes after publication. -/
structure MoveGrp where
  id : Nat
  why : MoveWhy
  obj : MoveOf
  ring : Nat := 0
  flight : Nat := 0
  /-- A command waits for this group. -/
  answers : Bool := false
  left : List Nat := []
  done : List (Nat × Loc) := []
  deriving DecidableEq, Repr

/-- One page waiting in a queue of the dolly (R297). -/
structure QPage where
  group : Nat
  page : Nat
  dest : Loc
  /-- Frame in which it was queued. -/
  queued : Nat
  /-- Frame since which its queue has waited with no mover (R297). -/
  since : Nat
  /-- What the mover waits for: 0 nothing, 1 tiles from a lender, 2 a lender's acknowledgement (R359). -/
  await : Nat := 0
  deriving DecidableEq, Repr

structure Dly where
  queues : NMap (List QPage) := []
  /-- Movers at work (R294): queue page by mover number. -/
  movers : NMap QPage := []
  groups : List MoveGrp := []
  nextGroup : Nat := 0
  deriving DecidableEq, Repr

/-! ### Faults and check values (18) -/

/-- A report to the fault unit (R473). -/
structure Report where
  cls : Nat
  unit : Nat
  action : Nat
  inst : Nat := 0
  count : Nat := 1
  tc : Nat := 0
  object : Nat := 0
  handle : Nat := 0
  detailA : Nat := 0
  detailB : Nat := 0
  client : Option Nat := none
  status : Nat := 0
  origin : Nat := 0
  stepSeq : Nat := 0
  forwarded : Bool := false
  deriving DecidableEq, Repr

/-- An open coalescing window (R475, R476): the first report, the reports counted, the local time at which it falls
due (it moves with the step of R503), and the sequence of the record that opened it. -/
structure FWin where
  first : Report
  count : Nat
  due : Nat
  seq : Nat
  deriving DecidableEq, Repr

/-- The operator log or a client fault ring (R477). -/
structure FRing where
  seq : Nat := 0
  overflow : Nat := 0
  gap : Bool := false
  tail : Nat := 0
  phase : Bool := true
  cons : Nat := 0
  deriving DecidableEq, Repr

structure Flt where
  /-- Operator windows by unit * 256 + class. -/
  wins : NMap FWin := []
  /-- Client windows. -/
  cwins : List (Nat × FWin) := []
  /-- Rings by client; 256 is the operator log. -/
  rings : NMap FRing := []
  deriving DecidableEq, Repr

/-- One check-value unit (R480 to R486). -/
structure CvuUnit where
  regMode : Bool := false
  alg : Nat := 1
  run : BitVec 64 := 0
  bytes : Nat := 0
  deriving DecidableEq, Repr

/-! ### Timecode (01, 12 R362, R363, 17 R466, R467, 17 R503) -/

/-- The local counter in subframes, whether timecode is acquired, and the state of the lock. -/
structure Tc where
  /-- Subframes counted at the nominal rate since RESET_N was released (R503). -/
  up : Nat := 0
  /-- What stage TIME and slewing have added to the count, in 1/64 subframe (R362, R363, R466). -/
  adj : Int := 0
  /-- Whole subframes by which stage TIME stepped the counter (R503): spans that began before it keep the time they had left. -/
  step : Int := 0
  /-- Correction still to be slewed, in 1/64 subframe, and subframes since the last part of it (R363). -/
  slew : Int := 0
  slewAge : Nat := 0
  /-- Stage TIME has set the counter (R503). -/
  loaded : Bool := false
  /-- Timecode has been acquired: LOCKED was entered once (R467). -/
  acquired : Bool := false
  /-- `tc_state` (R467). -/
  state : Nat := 0
  /-- Edges in a row within 20 ns, and edges in a row more than 1 µs off (R466, R467). -/
  good : Nat := 0
  bad : Nat := 0
  /-- Local time of the last `TC_PPS` edge. -/
  lastEdge : Nat := 0
  /-- Local time at which HOLDOVER was entered, or a reference last seen in it (R467). -/
  heldFrom : Nat := 0
  /-- Local time at which the last exchange was started (R362). -/
  exchAt : Nat := 0
  /-- Own hop count (R362), 15 for none. -/
  hops : Nat := 15
  /-- Last measured offset, in 1/64 subframe (`MTR_TC_OFS`). -/
  ofs : Int := 0
  deriving DecidableEq, Repr

/-! ### Links (12) -/

/-- A data flit in a replay buffer (R344, R345). -/
structure Flit where
  seq : Nat
  cls : Nat
  first : Bool
  last : Bool
  bytes : List Byte
  deriving DecidableEq, Repr

/-- A frame in a queue: class, destination, its bytes with the Gaham header (R347). -/
structure GFrame where
  cls : Nat
  dst : Nat
  bytes : List Byte
  deriving DecidableEq, Repr

/-- One port (R341 to R346, R351, R352, R362). -/
structure Port where
  /-- Its physical layer is trained (R343). -/
  trained : Bool := false
  /-- In traffic service (R343). -/
  up : Bool := false
  retired : Bool := false
  /-- It leaves service once its started frames are through (R365). -/
  disabling : Bool := false
  retraining : Bool := false
  /-- Working lanes as a mask of four. -/
  lanes : Nat := 15
  /-- Lanes that have failed once and await the retrain. -/
  failed : Nat := 0
  spare : Bool := false
  peer : Nat := 0
  txSeq : Nat := 0
  /-- Flits sent and not acknowledged, oldest first, at most 2,048 (R345). -/
  replay : List Flit := []
  /-- Frames sent of which some flit is not acknowledged, with the sequence of their last flit (R350). -/
  inflight : List (Nat × GFrame) := []
  lastNak : Option Nat := none
  /-- Flits of a replay that have not gone yet, because the gate of the first one's class is closed (R345, R357). -/
  resend : List Flit := []
  /-- Next sequence expected, data flits since the last acknowledgement, and the local time of the first of them (R345). -/
  rxSeq : Nat := 0
  rxSince : Nat := 0
  rxAt : Nat := 0
  /-- Credits spent by class and not returned (R351). -/
  spent : NMap Nat := []
  /-- Credits to return by class. -/
  owed : NMap Nat := []
  /-- Class queues (R352), and the tags: of the head frame, the class's finish tag, the virtual time. -/
  queues : NMap (List GFrame) := []
  headTag : NMap Nat := []
  ftag : NMap Nat := []
  vtime : Nat := 0
  /-- Reassembly by class (R346). -/
  reasm : NMap (List Byte) := []
  /-- Received frames for other devices that wait to be forwarded (R349). -/
  forward : List (List Byte) := []
  /-- Timecode exchange: hops the peer last answered, offset and delay measured, when TC_REQ left (R362, R363). -/
  hops : Nat := 15
  ofs : Int := 0
  delay : Int := 0
  reqAt : Option Nat := none
  deriving DecidableEq, Repr

/-- A policer's buckets in 2^-16 byte, and the timecode of its last update (R353). -/
structure Policer where
  tp : Nat
  tc : Nat
  stamp : Nat
  deriving DecidableEq, Repr

/-- A loan given (R360, R361): borrower, tier, frames of its pages, tiles stored by page * 8 + tile, pages freed,
and the local time at which RECALL was sent with its deadline in frames. -/
structure Loan where
  borrower : Nat
  tier : Nat
  frames : List Nat
  tiles : NMap (List Byte) := []
  freed : List Nat := []
  recalled : Option (Nat × Nat) := none
  deriving DecidableEq, Repr

/-- A loan taken (R359 to R361): tier, pages granted, and when and with what deadline it was recalled. -/
structure Borrow where
  tier : Nat
  pages : Nat
  /-- Pages given back to the lender (R359, FREE). -/
  freed : List Nat := []
  recalled : Option (Nat × Nat) := none
  deriving DecidableEq, Repr

structure Lnk where
  ports : NMap Port := []
  /-- Next fseq sent, by destination * 8 + class; last fseq delivered, by source * 8 + class (R347, R350). -/
  txF : NMap Nat := []
  rxF : NMap Nat := []
  /-- Policers and client queues, by client * 8 + class (R353). -/
  pol : NMap Policer := []
  clientQ : NMap (List GFrame) := []
  /-- Active gate list (0 A, 1 B) and its current entry (R355). -/
  gateList : Nat := 0
  gateIdx : Nat := 0
  /-- The first frame at which an armed switch may come (R356). -/
  gateFrom : Nat := 0
  /-- Yellow frames forwarded (R354). -/
  yellow : Nat := 0
  loans : NMap Loan := []
  nextLoan : Nat := 1
  /-- Loans taken, by lender * 2^32 + loan. -/
  borrows : NMap Borrow := []
  /-- Lenders asked and not yet answered, and those that have refused the request under way (R360). -/
  asked : List Nat := []
  refused : List Nat := []
  /-- Devices this one sends nothing to and forwards nothing for (R372). -/
  fenced : List Nat := []
  deriving DecidableEq, Repr

/-! ### Keys (16) -/

/-- A peer's announced link KEM key (R433). -/
structure PeerKey where
  kem : List Byte
  deriving DecidableEq, Repr

structure Sec where
  ready : Bool := false
  stmtLoaded : Bool := false
  /-- The identity statement as accepted. -/
  statement : List Byte := []
  /-- Attestation key: secret seed, leaves used, successor number, and its certificate (R427 to R430). -/
  attKey : BitVec 256 := 0
  attUsed : Nat := 0
  attSucc : Nat := 0
  attCert : List Byte := []
  /-- Successor attestation key, formed with 1,024 leaves left, and its certificate (R429). -/
  attNext : Option (BitVec 256 × List Byte) := none
  /-- Link KEM secret seed and certificate; none after zeroisation (R446). -/
  linkKem : Option (BitVec 256) := none
  kemCert : List Byte := []
  kemSucc : Nat := 0
  meterCert : List Byte := []
  storageKey : BitVec 256 := 0
  ckptKey : BitVec 256 := 0
  bootId : Nat := 0
  /-- Weight keys by recipe slot (R442). -/
  weight : NMap (BitVec 256) := []
  peers : NMap PeerKey := []
  /-- SPDM secured session (R434) and links keyed by IDE_KM. -/
  session : Bool := false
  ideLinks : NMap Bool := []
  /-- Groups of the zeroisation whose effects are not complete (R446). -/
  zeroing : Option Nat := none
  /-- Local time at which the last zeroisation began (R446). -/
  zeroAt : Nat := 0
  /-- The observation pins come live once the zeroisation and the erase are complete (R447). -/
  obsPending : Bool := false
  deriving DecidableEq, Repr

/-! ### The meter domain and the MTR block (17, 19 R498) -/

/-- A supply event in progress in the meter (R460): start in MTR_XTAL cycles, phases, half-cycles, extreme voltage; a sense fault fell
into it (R452). -/
structure SupplyEvt where
  start : Nat
  mask : Nat
  dur : Nat
  extreme : Nat
  fault : Bool := false
  deriving DecidableEq, Repr

/-- What a minute accumulates (R453, R457). -/
structure MeterMin where
  cycles : Nat := 0
  importMj : Nat := 0
  exportMj : Nat := 0
  /-- Sums of the RMS of VS1 to VS3 and IS1 to IS4. -/
  rms : List Nat := [0, 0, 0, 0, 0, 0, 0]
  freq : Nat := 0
  sags : Nat := 0
  swells : Nat := 0
  ints : Nat := 0
  fault : Bool := false
  deriving DecidableEq, Repr

/-- The meter domain: it keeps running through a reset of the S-die (R97, R450). -/
structure Meter where
  rail : Bool := false
  bootId : Nat := 0
  key : BitVec 256 := 0
  keyUsed : Nat := 0
  keySucc : Nat := 0
  keyNext : Option (BitVec 256) := none
  seq : Nat := 0
  minute : Nat := 0
  /-- MTR_XTAL cycles since the start record, to the last minute boundary. -/
  clock : Nat := 0
  /-- Calibration record in force, and one verified that waits for the minute boundary (R455). -/
  cal : Option (List Byte) := none
  calNext : Option (List Byte) := none
  prev : BitVec 256 := 0
  importCum : Nat := 0
  exportCum : Nat := 0
  cur : MeterMin := {}
  /-- Channels whose bitstream holds one level (R452). -/
  stuck : List Nat := []
  sag : Option SupplyEvt := none
  swell : Option SupplyEvt := none
  intr : Option SupplyEvt := none
  rate : Nat := 0
  rateNext : Nat := 0
  /-- Records queued for MTR_TX (R498). -/
  txq : List (List Byte) := []
  /-- Records on their way to the S-die in the same order (R451), a minute's with the timecode minute that ended at its marker (R458). -/
  feed : List (List Byte × Option Nat) := []
  deriving DecidableEq, Repr

/-- The MTR block of the S-die. -/
structure Mtr where
  /-- A posted write to the meter is in progress until this local time. -/
  busyUntil : Nat := 0
  /-- The timecode minute whose boundary was taken last (R462). -/
  envMinute : Nat := 0
  /-- `cap` in force at the last boundary, for the comparison of R464. -/
  capBefore : Nat := 550
  warning : Bool := false
  throttle : Nat := 0
  /-- Frame of the last step of the throttle rule (R464). -/
  stepAt : Option Nat := none
  /-- Steps in a row with m > c at level 14 (R464). -/
  overSteps : Nat := 0
  unmet : Bool := false
  /-- Rail samples above 650 W in a row; samples of the present frame: frame, count, sum, peak. -/
  over650 : Nat := 0
  smpFrame : Nat := 0
  smpCount : Nat := 0
  smpSum : Nat := 0
  smpPeak : Nat := 0
  frameMean : Nat := 0
  framePeak : Nat := 0
  /-- Supply events in progress by class (R461), and local time since which there is none. -/
  active : List Nat := []
  quietFrom : Nat := 0
  /-- Counts shown in `MTR_CNT` are stored registers. Local time of the last record or notice on the feed; `meter_lost` raised since (R459). -/
  feedAt : Nat := 0
  lost : Bool := false
  recMin : Nat := 0
  recSeq : Nat := 0
  recE : Nat := 0
  /-- Host log ring (R459): consumer index as last read (R509), records written, entries the host has not consumed, entries overwritten
  unconsumed. -/
  cons : Nat := 0
  written : Nat := 0
  unread : Nat := 0
  lapped : Nat := 0
  deriving DecidableEq, Repr

/-! ### Flash and vector search (11) -/

/-- A block pair taken into use (R315, R316): pages programmed since its erase, erases, reads since its last program,
out of use for good. -/
structure FPair where
  next : Nat := 0
  erases : Nat := 0
  reads : Nat := 0
  bad : Bool := false
  deriving DecidableEq, Repr

/-- A base version of an index (R324, R335): number, fold sequence, entry node, nodes, pages of its chunks. -/
structure IBase where
  num : Nat := 0
  fold : Nat := 0
  entry : Option Nat := none
  nodes : NMap INode := []
  pages : NMap Loc := []
  deriving DecidableEq, Repr

/-- An index (R320 to R337). -/
structure Idx where
  state : Nat := 0
  client : Nat := 0
  name : Nat := 0
  dim : Nat := 64
  metric : Nat := 0
  row : Nat := 1
  degree : Nat := 8
  tier : Nat := 2
  beam : Nat := 8
  shards : Nat := 1
  shard : Nat := 0
  alpha : F32 := 0x3F800000
  group : Nat := 0
  /-- Shard list: device and index number (R321). -/
  list : List (Nat × Nat) := []
  seq : Nat := 0
  next : Nat := 0
  base : IBase := {}
  /-- Side list (R324): records by node, insert sequences by node, edge additions (sequence, from, to), tombstones. -/
  side : NMap INode := []
  ins : NMap Nat := []
  adds : List (Nat × Nat × Nat) := []
  tombs : NMap Nat := []
  damaged : Bool := false
  old : List IBase := []
  dropped : Nat := 0
  rejected : Nat := 0
  /-- A fold under way (R335): ring, flight, and the base version it builds. -/
  folding : Option (Nat × Nat × IBase) := none
  epoch : Nat := 0
  deriving DecidableEq, Repr

/-- A reply of a shard to one query (R338): status, base version, snapshot sequence, entries (key, node, distance). -/
structure ShardRep where
  status : Nat
  base : Nat
  seq : Nat
  entries : List (Nat × Nat × F32)
  deriving DecidableEq, Repr

/-- A search in flight (R326 to R330, R337 to R339): the command it answers, what it has bound, its
own results (expansions, entries), the shards asked and their replies by shard * 64 + query. -/
structure Search where
  ring : Nat
  flight : Nat
  index : Nat
  base : Nat
  seq : Nat
  k : Nat
  flags : Nat := 0
  vecs : List (List F32) := []
  own : List (Nat × List (Nat × Nat × F32)) := []
  asked : List Nat := []
  replies : NMap ShardRep := []
  sentAt : Nat := 0
  deriving DecidableEq, Repr

structure Fls where
  /-- Channels in service and retired (R312, R317). -/
  up : BitVec 32 := 0
  retired : BitVec 32 := 0
  /-- Block pairs taken into use, by their bits of the location word (R314). -/
  pairs : NMap FPair := []
  /-- Channels initialised on the second try (R312). -/
  retried : BitVec 32 := 0
  idx : NMap Idx := []
  search : NMap Search := []
  nextSearch : Nat := 0
  /-- Queries completed. -/
  queries : Nat := 0
  deriving DecidableEq, Repr

/-! ### Map (13) -/

/-- What a member knows of another device (R371 to R373, R385): local time of the last heartbeat, and its fields. -/
structure MapPeer where
  heard : Option Nat := none
  epoch : Nat := 0
  compat : Nat := 0
  /-- Digest prefix received last, in a heartbeat or a handoff message. -/
  digest : Option Nat := none
  hops : Nat := 15
  isolated : Bool := false
  peers : List Nat := []
  diverged : Bool := false
  /-- SUSPECT was sent for it since its last heartbeat. -/
  suspected : Bool := false
  deriving DecidableEq, Repr

/-- An entry of `MAP_HO_REQ` (R378 to R383): state as `MAP_HO_STAT` shows it (0 IDLE, 1 OFFERED, 2 ACCEPTED,
3 COMMITTED, 4 DONE, 5 REFUSED, 6 ABORTED, 7 RECLAIMED). -/
structure HoOut where
  state : Nat := 0
  reason : Nat := 0
  id : Nat := 0
  rcd : Nat := 0
  name : Nat := 0
  dest : Nat := 0
  epoch : Nat := 0
  newHandle : Nat := 0
  /-- Local time from which the running timeout counts. -/
  since : Nat := 0
  /-- State of the record before, and frames its time to live had run. -/
  before : RecState := .closed
  ran : Nat := 0
  /-- The reclaim PUBLISH has been sent. -/
  reclaiming : Bool := false
  deriving DecidableEq, Repr

/-- An inbound handoff (R380 to R383). -/
structure HoIn where
  src : Nat
  id : Nat
  name : Nat
  epoch : Nat
  client : Nat
  recipeId : Nat
  version : Nat
  pages : Nat
  /-- Session storage key and sealing key of the sender, as the OFFER carried them (R444). -/
  key : BitVec 256
  /-- The record, once every page has arrived (R381). -/
  rcd : Option Nat := none
  /-- Local time of ACCEPT; the state the record takes; time to live left in frames. -/
  since : Nat := 0
  target : RecState := .parked
  ttlLeft : Nat := 0
  published : Bool := false
  deriving DecidableEq, Repr

/-- Why a PUBLISH was sent (R382, R383, R406). -/
inductive ClaimWhy where
  /-- An inbound handoff: source and identifier. -/
  | inbound (src id : Nat)
  /-- A reclaim by the sender: entry. -/
  | reclaim (entry : Nat)
  /-- A device-mode restore. -/
  | restore
  deriving DecidableEq, Repr

/-- A PUBLISH not confirmed (R376). -/
structure Claim where
  epoch : Nat
  sentAt : Nat
  why : ClaimWhy
  deriving DecidableEq, Repr

/-- An entry of the registrar (R375): home and epoch. -/
structure RegEnt where
  home : Nat
  epoch : Nat
  deriving DecidableEq, Repr

structure MapSt where
  member : Bool := false
  isolated : Bool := false
  evicted : Bool := false
  leaving : Bool := false
  domEpoch : Nat := 0
  /-- Members in rising order. -/
  members : List Nat := []
  /-- The configuration digest (R384). -/
  digest : BitVec 256 := 0
  peers : NMap MapPeer := []
  /-- Local time of the last heartbeat of the own domain on any port, and of the last one sent. -/
  anyAt : Nat := 0
  sentAt : Nat := 0
  /-- Steward: local time of the first SUSPECT, and its senders, by device; and local time of FENCE. -/
  suspects : NMap (Nat × List Nat) := []
  fencedAt : NMap Nat := []
  out : NMap HoOut := []
  inb : List HoIn := []
  nextId : Nat := 0
  /-- Registrar entries by name; local time of the last failure or departure, from which REGISTERs are awaited (R377). -/
  reg : NMap RegEnt := []
  regWait : Option Nat := none
  /-- PUBLISH messages held for a REGISTER: source, name, home, epoch. -/
  regHeld : List (Nat × Nat × Nat × Nat) := []
  claims : NMap Claim := []
  /-- Handoff entries whose GO, and OFFER messages with their wrapped keys that, wait for the security unit to come out of its reset
  (R435). -/
  goHeld : List Nat := []
  offersHeld : List (MapMsg × List Byte) := []
  lastDiverged : Nat := 0
  deriving DecidableEq, Repr

/-! ### Checkpoint (14) -/

/-- A page entry of a shard image (R396): kind of its object, page index, format, tiles in use, and its copy. -/
structure SPage where
  kind : Nat
  index : Nat
  fmt : Nat
  tiles : Nat
  slate : Nat
  copy : Nat
  /-- SHAKE256 of its tiles in use. -/
  digest : BitVec 256
  deriving DecidableEq, Repr

/-- A shard (R396) with what it captured. -/
structure Shard where
  name : Nat
  kind : Nat
  epoch : Nat
  client : Nat
  folded : Bool
  carried : Bool
  rewound : Bool
  recipeId : Nat
  version : Nat
  sess : Option Rec
  index : Option Idx
  pages : List SPage
  /-- Slate and copy index of the pages that hold its image, and the image's digest. -/
  image : List (Nat × Nat)
  digest : BitVec 256
  deriving DecidableEq, Repr

/-- A slate (R397, R399). -/
structure Slate where
  num : Nat
  prev : Nat
  mark : Nat
  emergency : Bool
  fold : Bool
  domEpoch : Nat
  digest : BitVec 256
  shards : List Shard
  /-- Copy indices of the pages that hold its manifest. -/
  own : List Nat
  /-- The buddy holds it (bit 0 of the commit record). -/
  buddy : Bool
  deriving DecidableEq, Repr

/-- An item sent to the buddy and not acknowledged (R400, R401): object name and copy index. -/
structure BItem where
  name : Nat
  copy : Nat
  deriving DecidableEq, Repr

/-- The slate that is open (R390 to R400). -/
structure Slating where
  slate : Slate
  /-- Local time of the mark, and of the last item sent to the buddy. -/
  startedAt : Nat
  sentAt : Nat
  waiting : List BItem
  /-- The buddy still counts. -/
  buddy : Bool
  /-- The manifest, once it has been written and sent. -/
  manifest : Option (List Byte) := none
  /-- The sync object that its commit advances (R388), relative to the client's range. -/
  notify : Option Nat := none
  /-- Pages copied. -/
  copied : Nat := 0
  /-- The snapshot tier had no room for a copy: the slate cannot commit. -/
  full : Bool := false
  deriving DecidableEq, Repr

/-- A restore of a session under way (R404, R405, R407): slate, object name, and the command that it answers. -/
structure Restore where
  slate : Nat
  name : Nat
  /-- `slate` of the command: 0, or the only slate that may serve. -/
  only : Nat := 0
  ring : Nat
  flight : Nat
  answers : Bool
  /-- It waits for page copies of the buddy: slate and copy index of each. -/
  fetching : Bool
  await : List (Nat × Nat) := []
  /-- Room for the session's objects is reserved: their pages. -/
  reserved : Bool := false
  pages : NMap Loc := []
  before : RecState
  /-- Source unit of the loss, for the notice (R508). -/
  unit : Nat := 13
  /-- Commands that end with `REWOUND` once the slate is known (R227): ring, flight, and the entry of a batch. -/
  ends : List (Nat × Nat × Option Nat) := []
  /-- The dolly has brought its pages to the places reserved (R297). -/
  copied : Bool := false
  deriving DecidableEq, Repr

/-- An entry of a device-mode restore list (R406), with what it still has to try. -/
structure REnt where
  name : Nat
  kind : Nat
  handle : Nat := 0
  status : Nat := 0
  slate : Nat := 0
  /-- Epoch claimed. -/
  epoch : Nat := 0
  /-- Slates that may serve, newest first, with the shard's epoch in each. -/
  tries : List (Nat × Nat) := []
  /-- 0 to do, 1 image asked for, 2 claim sent, 3 decided. -/
  phase : Nat := 0
  sess : Option SessImage := none
  index : Option IdxImage := none
  /-- Its claim is confirmed, and it waits for an erase to end (R309). -/
  roomless : Bool := false
  deriving DecidableEq, Repr

/-- A device-mode restore (R406). -/
structure DevRestore where
  ring : Nat
  flight : Nat
  failed : Nat
  buddy : Nat
  want : Nat
  /-- The manifests have arrived. -/
  listed : Bool := false
  entries : List REnt := []
  deriving DecidableEq, Repr

/-- An item held for another device (R402): its data, and the pages it occupies. -/
structure Held where
  origin : Nat
  slate : Nat
  name : Nat
  copy : Nat
  data : List Byte
  locs : List Loc
  deriving DecidableEq, Repr

structure Ckp where
  /-- Schedule (R388): frame of the next mark, period, notify object and enable, ring client. -/
  schedule : Option (Nat × Nat × Nat × Bool) := none
  nextNum : Nat := 1
  openSlate : Option Slating := none
  /-- Committed slates retained, newest first. -/
  kept : List Slate := []
  /-- Local page copies, by slate * 2^32 + copy index; next copy index of the open slate. -/
  copies : NMap Loc := []
  nextCopy : Nat := 0
  /-- Snapshot objects (R394): serial of the name by object slated. -/
  snaps : NMap Nat := []
  held : List Held := []
  /-- Origins and slates with a commit record here. -/
  heldDone : List (Nat × Nat) := []
  restores : NMap Restore := []
  devRestore : Option DevRestore := none
  /-- An emergency slate is wanted at the next frame boundary, or open (R408). -/
  emergency : Bool := false
  /-- The frame at whose start the emergency slate is marked. -/
  emergencyAt : Nat := 0
  lastShards : Nat := 0
  lastCopied : Nat := 0
  deriving DecidableEq, Repr

/-! ### Messages that leave the device -/

/-- The operations of ONFI 5.1 that the flash controller uses (R311), on a channel. -/
inductive OnfiCmd where
  | reset
  /-- Over the SDR interface after a reset, or at speed. -/
  | readParameterPage (atSpeed : Bool)
  /-- NV-LPDDR4 at a rate of `FLS_CFG`. -/
  | setInterface (rate : Nat)
  | zqCalibration
  | dutyCycleTraining
  | dqTraining
  /-- Multi-plane operations on a block pair: erase, read, and program with the bytes of the even and of the odd plane (R315). -/
  | blockErase (pair : Nat)
  | pageRead (pair page : Nat)
  | pageProgram (pair page : Nat) (even odd : List Byte)
  deriving DecidableEq, Repr

/-- The steps in which a far channel is brought up (R305). -/
inductive FarStep where
  | powerUp | zqCalibration | caTraining | writeClock | dataTraining | enableEcc | testRows
  deriving DecidableEq, Repr

/-- What the device sends: MSI-X interrupts (R51), link frames (12 R347: class, protocol, destination, payload), SPDM
answers (16), and MTR_TX frames (R498). -/
inductive Msg where
  | msix (vector : Nat)
  | frame (cls proto dst : Nat) (payload : List Byte)
  | spdm (answer : List Byte)
  | mtrTx (bytes : List Byte)
  /-- An unsigned supply notice on the meter's feed (R460): class, start or end. -/
  | notice (cls : Nat) (start : Bool)
  /-- Control flits of the timecode exchange (R362), with stamps in 1/64 subframe, and of training (R343). -/
  | tcReq (port t1 : Nat)
  | tcResp (port t1 t2 t3 hops : Nat)
  | linkId (port device : Nat)
  /-- Frames of the link layer itself (12 R344, R345): a flit on a port. -/
  | flit (port : Nat) (bytes : List Byte)
  /-- Commands on the buses of flash and far channels (R305, R311, R312). -/
  | onfi (channel : Nat) (cmd : OnfiCmd)
  | far (channel : Nat) (step : FarStep)
  deriving DecidableEq, Repr

/-- A posted write to host memory (R39): the link it leaves on (R40), none while both are down; address and bytes. -/
structure Posted where
  link : Option Nat
  addr : Nat
  bytes : List Byte
  deriving DecidableEq, Repr

/-- The device. -/
structure Dev where
  sys : Sys := {}
  hst : Hst := {}
  /-- Written registers and counters: value XOR reset value, by offset * 2^24 + bank (RegTable.lean). -/
  regs : NMap Word := []
  /-- Event registers by offset. -/
  evts : NMap Evt := []
  /-- The four capture registers by offset (R80). -/
  caps : NMap Capture := []
  seq : SeqSt := {}
  syn : Syn := {}
  fab : Fab := {}
  ctx : Ctx := {}
  txt : Txt := {}
  mem : Mem := {}
  dly : Dly := {}
  flt : Flt := {}
  cvu : NMap CvuUnit := []
  tc : Tc := {}
  lnk : Lnk := {}
  sec : Sec := {}
  meter : Meter := {}
  mtr : Mtr := {}
  fls : Fls := {}
  map : MapSt := {}
  ckp : Ckp := {}
  /-- Posted writes to host memory (R39), oldest first: they land in `hostMem` as the command ends, or wait while the data path of
  the host port is closed (log entry 76). -/
  posted : List Posted := []
  /-- Messages sent, oldest first. -/
  out : List Msg := []
  /-- The MODEL's counter that numbers free values (log entry 3). -/
  fresh : Nat := 0
  deriving DecidableEq, Repr

/-- The block: the queue of waiting commands, the device, and host memory as far as the device has written it
(canonical; an unlisted address was not written by the device). -/
structure State where
  pending : List Instr := []
  dev : Dev := {}
  hostMem : List Host.Cell := []
  deriving DecidableEq, Repr

/-- The device right after RESET_N is asserted (R97). -/
def State.reset : State := {}

end Sys2Proof.Machine
end

