-- ==== Sys2Proof/Machine/Ops.lean ====
section
/-!
DEFINITION. Sys2Proof/Machine/Ops.lean: the named operations over sparse tables, host memory, register fields,
time, free values and outgoing messages. Every meaning is built from these.
-/

namespace Sys2Proof.Machine

/-! ### Sparse tables -/

/-- The entry of a key. -/
def look {α : Type} : NMap α → Nat → Option α
  | [], _ => none
  | (a, v) :: t, k => if a = k then some v else look t k

/-- Enter a value, keeping keys strictly rising. -/
def put {α : Type} : NMap α → Nat → α → NMap α
  | [], k, v => [(k, v)]
  | (a, w) :: t, k, v =>
    if k < a then (k, v) :: (a, w) :: t else if k = a then (k, v) :: t else (a, w) :: put t k v

/-- Remove a key. -/
def del {α : Type} (m : NMap α) (k : Nat) : NMap α := m.filter (fun e => e.1 != k)

/-- Read with a default for unlisted keys. -/
def mget {α : Type} (m : NMap α) (dflt : α) (k : Nat) : α := (look m k).getD dflt

/-- Write with a default for unlisted keys: the default itself is never listed. -/
def mset {α : Type} [DecidableEq α] (m : NMap α) (dflt : α) (k : Nat) (v : α) : NMap α :=
  if v = dflt then del m k else put m k v

/-- Keys strictly rising, all above `lo`. -/
def risingFrom {α : Type} : Option Nat → NMap α → Bool
  | _, [] => true
  | lo, (a, _) :: t => (match lo with | none => true | some l => l < a) && risingFrom (some a) t

/-- The canonical form of a sparse table without a default. -/
def rising {α : Type} (m : NMap α) : Bool := risingFrom none m

/-- The keys of a table. -/
def keys {α : Type} (m : NMap α) : List Nat := m.map Prod.fst

/-- The values of a table. -/
def vals {α : Type} (m : NMap α) : List α := m.map Prod.snd

/-- The canonical form of a byte memory whose unlisted bytes read as `dflt` (none: they cannot be read):
addresses strictly rising, and no entry equal to what an unlisted address reads as. -/
def Memory.wf (dflt : Option Byte) (m : List Host.Cell) : Bool :=
  rising m && m.all (fun c => decide (some c.2 ≠ dflt))

/-- Write bytes at ascending addresses. -/
def putBytes : List Host.Cell → Nat → List Byte → List Host.Cell
  | m, _, [] => m
  | m, a, b :: bs => putBytes (put m a b) (a + 1) bs

/-- Write bytes into a memory whose unlisted bytes read 0 (the load buffer, log entry 7). -/
def setBytes : NMap Byte → Nat → List Byte → NMap Byte
  | m, _, [] => m
  | m, a, b :: bs => setBytes (mset m 0 a b) (a + 1) bs

/-- Read `n` bytes of a memory whose unlisted bytes read 0. -/
def getBytes (m : NMap Byte) (a n : Nat) : List Byte := (List.range n).map (fun i => mget m 0 (a + i))

/-! ### Register fields -/

/-- The key of a register's stored word: offset of copy 0, and bank (copy index or selector value). -/
def regKey (off bank : Nat) : Nat := off * 2 ^ 24 + bank

/-- Replace bits `lo` to `lo + w - 1` of a number. -/
def withBits (v lo w x : Nat) : Nat := v - bitsOf v lo w * 2 ^ lo + x % 2 ^ w * 2 ^ lo

/-- A named field of a stored register. -/
def fget (d : Dev) (f : Fd) (bank : Nat := 0) : Nat :=
  bitsOf (mget d.regs 0 (regKey f.off bank)).toNat f.lo f.width ^^^ f.reset

/-- A named one-bit field. -/
def fbit (d : Dev) (f : Fd) (bank : Nat := 0) : Bool := fget d f bank == 1

/-- Set a named field of a stored register. -/
def fset (d : Dev) (f : Fd) (v : Nat) (bank : Nat := 0) : Dev :=
  let k := regKey f.off bank
  let w := (mget d.regs 0 k).toNat
  { d with regs := mset d.regs 0 k (BitVec.ofNat 64 (withBits w f.lo f.width ((v % 2 ^ f.width) ^^^ f.reset))) }

/-- Count in a field, saturating at all-ones (R133, R194 and the like). -/
def fbump (d : Dev) (f : Fd) (n : Nat := 1) (bank : Nat := 0) : Dev :=
  fset d f (min (fget d f bank + n) (2 ^ f.width - 1)) bank

/-! ### The host port's links (02 R39 to R41, R45) -/

/-- Is a host link up: does one of its modules run (R41)? -/
def linkUp (d : Dev) (link : Nat) : Bool := (List.range 4).any (fun i => bitOf d.hst.moduleUp.toNat (4 * link + i))

/-- The link that serves a ring (R40): H0 for an even number and H1 for an odd one, or the other where that one is down. -/
def ringLink (d : Dev) (ring : Nat) : Option Nat :=
  if linkUp d (ring % 2) then some (ring % 2) else if linkUp d (1 - ring % 2) then some (1 - ring % 2) else none

/-- Is the data path to the host open: enabled (R45), with a link up (log entry 76)? -/
def hostPath (d : Dev) : Bool := fbit d Fd.HST_CTL_enable && (linkUp d 0 || linkUp d 1)

/-- Write to host memory (R39) for a ring, on its link (R40); writes that belong to no ring go as those of ring 0. In state
ERROR the device writes nothing to the host (R44). -/
def hostWrite (d : Dev) (ring addr : Nat) (bs : List Byte) : Dev :=
  if d.hst.tdisp = .error then d else { d with posted := d.posted ++ [⟨ringLink d ring, addr, bs⟩] }

/-! ### Results -/

/-- Saturating conversion of a result to the 32-bit field (R62). -/
def sat32 (n : Nat) : Nat := min n (2 ^ 32 - 1)

/-- A quotient: exact where it is an integer, otherwise a free value (log entry 12). -/
def quot (a b : Nat) : Nat := if a % b = 0 then a / b else Config.rounded a b

/-! ### Time (01 R22 to R25, 17 R503) -/

/-- House timecode as the local counter holds it, in 1/64 subframe (R362). -/
def stamp (d : Dev) : Nat := (64 * (d.tc.up : Int) + d.tc.adj).toNat

/-- The timecode, in subframes (R3, R503). -/
def now (d : Dev) : Nat := stamp d / 64

/-- Local time: the timecode without the step that stage TIME made. Every span of frames is counted on it, so that a span runs on
the disciplined counter and keeps the time it had left when that counter is set (R23, R503). -/
def up (d : Dev) : Nat := ((now d : Int) - d.tc.step).toNat

/-- The frame of the timecode. -/
def frame (d : Dev) : Nat := now d / 65536

/-- The timecode minute (R462). -/
def minuteOf (d : Dev) : Nat := frame d / 60000

/-- Local time at which frame `n` starts. -/
def frameAt (d : Dev) (n : Nat) : Nat := ((n * 65536 : Int) - d.tc.step).toNat

/-! ### Free values and messages -/

/-- A free value below `n` and the state that has used it up (log entry 3). -/
def freshBelow (d : Dev) (n : Nat) : Nat × Dev :=
  (Config.free d.fresh % n, { d with fresh := d.fresh + 1 })

/-- The `k`-th number, counting from 0, that is not in a strictly rising list. -/
def nthFree (used : List Nat) (k : Nat) : Nat := used.foldl (fun k u => if u ≤ k then k + 1 else k) k

/-- Send a message. -/
def send (d : Dev) (m : Msg) : Dev := { d with out := d.out ++ [m] }

/-! ### Little-endian structures -/

/-- The number in bytes `lo` to `lo + n - 1` of a byte list; bytes beyond the list read 0. -/
def leAt (bs : List Byte) (lo n : Nat) : Nat := ofLe ((bs.drop lo).take n)

/-- Pad a byte list with zeros up to `n` bytes. -/
def padTo (n : Nat) (bs : List Byte) : List Byte := bs ++ List.replicate (n - bs.length) 0

/-- Split a list into pieces of `n` (`n > 0`), by fuel. -/
def piecesOf {α : Type} (n : Nat) : Nat → List α → List (List α)
  | 0, _ => []
  | fuel + 1, l => if l.isEmpty then [] else l.take n :: piecesOf n fuel (l.drop n)

/-- Split a list into pieces of `n`. -/
def pieces {α : Type} (n : Nat) (l : List α) : List (List α) := piecesOf n l.length l

/-- The bytes of a 64-bit count of little-endian words given by (value, width in bytes). -/
def fields (fs : List (Nat × Nat)) : List Byte := fs.flatMap (fun f => leBytes f.2 f.1)

/-- Sum of a list of numbers. -/
def sumN (l : List Nat) : Nat := l.foldl (· + ·) 0

/-- Is bit `i` of a mask set? -/
def maskBit (m i : Nat) : Bool := bitOf m i

/-- The numbers below `n` whose bit is set in a mask. -/
def maskBits (m n : Nat) : List Nat := (List.range n).filter (bitOf m)

/-- The mask of a list of numbers below `n`. -/
def maskOf (n : Nat) (l : List Nat) : Nat := sumN ((List.range n).map (fun i => if l.contains i then 2 ^ i else 0))

/-- Update the element at an index. -/
def setAt {α : Type} (l : List α) (i : Nat) (f : α → α) : List α :=
  match l[i]? with
  | none => l
  | some a => l.set i (f a)

/-- The posted writes land in host memory in the order they were made (R39). -/
def land (m : List Host.Cell) (posted : List Posted) : List Host.Cell :=
  posted.foldl (fun m w => putBytes m w.addr w.bytes) m

/-- Posted writes that wait for the data path to open (log entry 76); in ERROR those that wait are dropped (R44). -/
def heldBack (d : Dev) : List Posted := if hostPath d ∨ d.hst.tdisp = .error then [] else d.posted

/-- Host memory after the posted writes that have a way to it. -/
def landed (m : List Host.Cell) (d : Dev) : List Host.Cell := if hostPath d then land m d.posted else m

/-- The block after a command has left the device as `d`: its posted writes have landed, or wait for the data path. -/
def State.settled (s : State) (d : Dev) : State :=
  { s with dev := { d with posted := heldBack d }, hostMem := landed s.hostMem d }

/-- Every command's effect on the device, lifted to the block: the queue is untouched and the command answers a next
state (log entry 1). -/
def lift (f : Dev → Dev) (s : State) : Host.Outcome State Fault Refusal := .next (s.settled (f s.dev))

end Sys2Proof.Machine
end

