-- ==== Sys2Proof/Machine/Crc.lean ====
section
/-!
DEFINITION. Sys2Proof/Machine/Crc.lean: the check-value algorithms (18 R480), which the link flits and frames (12 R344,
R347), table entries and log frames also use.
-/

namespace Sys2Proof.Machine

/-- One algorithm of R480: polynomial (bit-reversed if reflected), reflected, init, xorout, width in bytes. -/
structure CrcAlg where
  poly : Nat
  reflected : Bool
  init : Nat
  xorout : Nat
  width : Nat
  deriving DecidableEq, Repr

/-- The lowest `n` bits of a number in reverse order. -/
def revBits : Nat → Nat → Nat
  | 0, _ => 0
  | n + 1, v => v % 2 * 2 ^ n + revBits n (v / 2)

/-- The algorithms by value; reserved values have none. -/
def crcAlg : Nat → Option CrcAlg
  | 1 => some ⟨revBits 32 0x1EDC6F41, true, 0xFFFFFFFF, 0xFFFFFFFF, 4⟩
  | 2 => some ⟨revBits 32 0x04C11DB7, true, 0xFFFFFFFF, 0xFFFFFFFF, 4⟩
  | 3 => some ⟨revBits 64 0x42F0E1EBA9EA3693, true, 2 ^ 64 - 1, 2 ^ 64 - 1, 8⟩
  | 4 => some ⟨0x1021, false, 0xFFFF, 0, 2⟩
  | _ => none

/-- One bit of a reflected division. -/
def crcBitR (poly r : Nat) : Nat := if r % 2 = 1 then (r / 2) ^^^ poly else r / 2

/-- One bit of an unreflected division in `8 * w` bits. -/
def crcBitF (poly w r : Nat) : Nat :=
  if bitOf r (8 * w - 1) then (r * 2 % 2 ^ (8 * w)) ^^^ poly else r * 2

/-- Apply a function `n` times. -/
def iter {α : Type} (f : α → α) : Nat → α → α
  | 0, a => a
  | n + 1, a => iter f n (f a)

/-- Feed one byte to a running value. -/
def crcByte (c : CrcAlg) (r : Nat) (b : Byte) : Nat :=
  if c.reflected then iter (crcBitR c.poly) 8 (r ^^^ b.toNat)
  else iter (crcBitF c.poly c.width) 8 (r ^^^ (b.toNat * 2 ^ (8 * c.width - 8)))

/-- Feed bytes in order. -/
def crcRun (c : CrcAlg) (r : Nat) (bs : List Byte) : Nat := bs.foldl (crcByte c) r

/-- The check value of bytes under an algorithm; a reserved algorithm gives 0. -/
def crcOf (alg : Nat) (bs : List Byte) : Nat :=
  match crcAlg alg with
  | some c => crcRun c c.init bs ^^^ c.xorout
  | none => 0

/-- CRC-32C (R344, R347, R498). -/
def crc32c (bs : List Byte) : Nat := crcOf 1 bs

end Sys2Proof.Machine
end

