-- ==== Sys2Proof/Machine/Flags.lean ====
section
/-!
DEFINITION. Sys2Proof/Machine/Flags.lean: event registers (00 R9) and the four capture registers (03 R80).
-/

namespace Sys2Proof.Machine

/-- Is an event bit set? -/
def evSet (d : Dev) (f : Fd) : Bool := (look (mget d.evts {} f.off).bits f.lo).isSome

/-- Record an event (R9): the next sequence number, whether or not the bit is set already; the newest occurrence replaces what
stood at its bit. -/
def evRecord (d : Dev) (f : Fd) : Dev :=
  let e := mget d.evts {} f.off
  let n := e.seq + 1
  { d with evts := mset d.evts {} f.off { seq := n, bits := put (del e.bits f.lo) f.lo n } }

/-- Record an event; an event of `GLB_EVT` raises its MSI-X vector while `GLB_CTL.enable` is set (R84). -/
def raise (d : Dev) (f : Fd) : Dev :=
  let d := evRecord d f
  if f.off = Rg.GLB_EVT ∧ fbit d Fd.GLB_CTL_enable then send d (.msix (fget d Fd.GLB_IRQ_vector)) else d

/-- `n` occurrences of an event of a block: each takes the next number (R9). -/
def raiseMany (d : Dev) (f : Fd) (n : Nat) : Dev :=
  if n = 0 then d
  else
    let e := mget d.evts {} f.off
    raise { d with evts := mset d.evts {} f.off { e with seq := e.seq + BitVec.ofNat 16 (n - 1) } } f

/-- A capture event (R80): only the first access since the event was cleared records an event and its address;
every access is counted, saturating. -/
def capture (d : Dev) (f : Fd) (cap addr : Nat) : Dev :=
  if evSet d f then
    let c := mget d.caps {} cap
    { d with caps := mset d.caps {} cap { c with count := min (c.count + 1) 0xFFFF } }
  else raise { d with caps := mset d.caps {} cap { addr := addr % 2 ^ 26, count := 1 } } f

/-- `cfg_ignored` (R8, R83). -/
def cfgIgnored (d : Dev) (addr : Nat) : Dev := capture d Fd.GLB_EVT_cfg_ignored Rg.GLB_CFG_IGN addr

/-- `posted_overrun` (R10). -/
def postedOverrun (d : Dev) (addr : Nat) : Dev := capture d Fd.GLB_EVT_posted_overrun Rg.GLB_POST_OVR addr

/-- `guard_fail` (R11). -/
def guardFail (d : Dev) (addr : Nat) : Dev := capture d Fd.GLB_EVT_guard_fail Rg.GLB_GUARD_FAIL addr

/-- `access_invalid` (R76). -/
def accessInvalid (d : Dev) (addr : Nat) : Dev := capture d Fd.GLB_EVT_access_invalid Rg.GLB_ACCESS_INV addr

/-- Does writing back `v` clear an event whose newest occurrence has number `n` (R9)? -/
def clearedBy (v n : BitVec 16) : Bool := (v - n).toNat < 32768

/-- WS write-back (R9): clears every event bit whose newest occurrence lies in the window that ends at `v`. Clearing a capture event
re-arms its capture (R80), whose address reads 0 until the next access, which is the MODEL's choice (log entry 77). -/
def evWriteBack (d : Dev) (off : Nat) (v : BitVec 16) : Dev :=
  let e := mget d.evts {} off
  let d := { d with evts := mset d.evts {} off { e with bits := e.bits.filter (fun b => !clearedBy v b.2) } }
  -- R80: clearing a capture event re-arms its capture
  if off = Rg.GLB_EVT then
    let arm := fun (d : Dev) (p : Fd × Nat) =>
      if evSet d p.1 then d else { d with caps := del d.caps p.2 }
    [(Fd.GLB_EVT_cfg_ignored, Rg.GLB_CFG_IGN), (Fd.GLB_EVT_posted_overrun, Rg.GLB_POST_OVR),
     (Fd.GLB_EVT_guard_fail, Rg.GLB_GUARD_FAIL), (Fd.GLB_EVT_access_invalid, Rg.GLB_ACCESS_INV)].foldl arm d
  else d

/-- What a read of an event register returns: `seq` in [15:0] and the set bits above. -/
def evRead (d : Dev) (off : Nat) : Nat :=
  let e := mget d.evts {} off
  e.seq.toNat + sumN ((keys e.bits).map (fun b => 2 ^ b))

/-- What a read of a capture register returns (R84): address in [25:0], count in [47:32]. -/
def capRead (d : Dev) (off : Nat) : Nat :=
  let c := mget d.caps {} off
  c.addr + c.count * 2 ^ 32

end Sys2Proof.Machine
end

