-- ==== Sys2Proof/Machine/Link.lean ====
section
/-!
DEFINITION. Sys2Proof/Machine/Link.lean: the Gaham links (12 R341 to R358, R365): flits and replay, frames and routing,
credits, fair queuing, policing, time gates, layer-engine pools. A frame that may start is sent whole at once (log
entry 8).
-/

namespace Sys2Proof.Machine

def portOf (d : Dev) (p : Nat) : Port := mget d.lnk.ports {} p
def setPort (d : Dev) (p : Nat) (q : Port) : Dev := { d with lnk := { d.lnk with ports := mset d.lnk.ports {} p q } }

/-- In traffic service: stage LINKS has brought it up and `LNK_CTL.enable` is set (R343, R364). -/
def portServes (d : Dev) (p : Nat) : Bool := (portOf d p).up && fbit d Fd.LNK_CTL_enable

/-- Ports in service, ascending. -/
def servingPorts (d : Dev) : List Nat := (List.range 16).filter (portServes d)

/-- Lanes a port runs on: the largest working set of 4, 2 or 1 (R342). -/
def laneWidth (lanes : Nat) : Nat :=
  let n := (maskBits lanes 4).length
  if 4 ≤ n then 4 else if 2 ≤ n then 2 else n

/-! ### Flits (R344) -/

/-- One 256-byte flit. -/
def flitBytes (seq kind cls : Nat) (first last : Bool) (ack credit : Nat) (payload : List Byte) : List Byte :=
  let head := seq % 4096 + kind % 16 * 4096 + cls % 8 * 2 ^ 16 + b2n first * 2 ^ 19 + b2n last * 2 ^ 20
    + (payload.length - 1) % 256 * 2 ^ 21
  let body := fields [(head, 4), (ack, 2), (credit, 2), (0, 4)] ++ padTo 240 payload
  body ++ leBytes 4 (crc32c body)

/-- The bytes of a data flit. -/
def Flit.toBytes (f : Flit) : List Byte := flitBytes f.seq 1 f.cls f.first f.last 0 0 f.bytes

/-- The data flits of a frame, from a sequence on. -/
def flitsOf (seq : Nat) (f : GFrame) : List Flit :=
  let ps := pieces 240 f.bytes
  ps.zipIdx.map (fun (b, i) =>
    { seq := (seq + i) % 4096, cls := f.cls, first := i == 0, last := i + 1 == ps.length, bytes := b })

/-- Send a NAK naming the first sequence a port lacks (R345). -/
def sendNak (d : Dev) (p : Nat) : Dev :=
  send d (.flit p (flitBytes 0 0 0 false false ((portOf d p).rxSeq % 4096 + 2 ^ 13) 0 []))

/-- Send the cumulative acknowledgement, and the credits owed, one class to a flit (R344, R345, R351). -/
def sendAck (d : Dev) (p : Nat) : Dev :=
  let q := portOf d p
  let ack := (q.rxSeq + 4095) % 4096 + 2 ^ 12
  let credits := match q.owed with
    | [] => [0]
    | l => l.map (fun (c : Nat × Nat) => c.1 + c.2 * 8)
  let d := credits.foldl (fun d c => send d (.flit p (flitBytes 0 0 0 false false ack c []))) d
  setPort d p { q with owed := [], rxSince := 0 }

/-! ### Time gates (R355 to R357) -/

/-- Bank of a gate entry, and its fields: only list A entry 0 has the reset value the register shows. -/
def gateBank (list entry : Nat) : Nat := list * 64 + entry
def gateFd (f : Fd) (bank : Nat) : Fd := if bank = 0 then f else { f with reset := 0 }
def gateLen (d : Dev) (list : Nat) : Nat :=
  1 + (if list = 0 then fget d Fd.LNK_GATE_CFG_len_a_m1 else fget d Fd.LNK_GATE_CFG_len_b_m1)

/-- The entries of a list: open mask (bit 0 always set) and duration. -/
def gateEntries (d : Dev) (list : Nat) : List (Nat × Nat) :=
  (List.range (gateLen d list)).map (fun e =>
    let b := gateBank list e
    (fget d (gateFd Fd.LNK_GATE_ENT_open b) b ||| 1, fget d (gateFd Fd.LNK_GATE_ENT_duration b) b))

/-- The cycle of a list in subframes. -/
def gateCycle (es : List (Nat × Nat)) : Nat := sumN (es.map Prod.snd)

/-- May a list be active: durations from 1, cycle a whole number of frames from 1 to 1,000 (R355)? -/
def gateValid (es : List (Nat × Nat)) : Bool :=
  es.all (fun e => 1 ≤ e.2) && gateCycle es % 65536 == 0 && 1 ≤ gateCycle es / 65536 && gateCycle es / 65536 ≤ 1000

/-- The entry a position in the cycle falls into, and what is left of it. -/
def gateAt : List (Nat × Nat) → Nat → Nat → Nat × Nat
  | [], i, _ => (i - 1, 0)
  | e :: es, i, pos => if pos < e.2 then (i, e.2 - pos) else gateAt es (i + 1) (pos - e.2)

/-- Where the active list stands now. -/
def gatePos (d : Dev) : Nat × Nat :=
  let es := gateEntries d d.lnk.gateList
  gateAt es 0 (now d % max 1 (gateCycle es))

/-- The open mask in force. -/
def gateMask (d : Dev) : Nat := ((gateEntries d d.lnk.gateList)[d.lnk.gateIdx]?.getD (0xFF, 0)).1

/-- The first cycle start of a list at or after frame `f` (R356). -/
def cycleStart (es : List (Nat × Nat)) (f : Nat) : Nat :=
  let c := max 1 (gateCycle es / 65536)
  ceilDiv f c * c

/-- The frame at which the inactive list becomes active: the first of its cycle starts at or after frame F, and not before the switch
was armed (R356). -/
def switchFrame (d : Dev) : Nat :=
  cycleStart (gateEntries d (1 - d.lnk.gateList)) (max (fget d Fd.LNK_GATE_SWITCH_frame) d.lnk.gateFrom)

/-- Time until a class closes, over the entries that follow; none if it never closes. -/
def untilClose (cls : Nat) : List (Nat × Nat) → Nat → Option Nat
  | [], _ => none
  | e :: es, acc => if bitOf e.1 cls then untilClose cls es (acc + e.2) else some acc

/-- Subframes until the next closing of a class (R357), in the active list or in the one that an armed switch makes active. -/
def classCloses (d : Dev) (cls : Nat) : Option Nat :=
  let es := gateEntries d d.lnk.gateList
  let (i, rem) := gatePos d
  let here := untilClose cls (es.drop (i + 1) ++ es.take i) rem
  if fbit d Fd.LNK_GATE_SWITCH_arm then
    let t := switchFrame d * 65536 - now d
    if here.any (fun x => decide (x ≤ t)) then here else untilClose cls (gateEntries d (1 - d.lnk.gateList)) t
  else here

/-! ### Fair queuing and credits (R351, R352) -/

/-- Receive buffer of each class, in flits (R351). -/
def classBuffer (cls : Nat) : Nat := [256, 2048, 512, 1536, 1024, 1024, 1280, 512].getD cls 0

/-- Weight of a class, 0 read as 1 (R352). -/
def classWeight (d : Dev) (cls : Nat) : Nat := max 1 (bitsOf (fget d Fd.LNK_TC_WEIGHT_w) (8 * (cls - 1)) 8)

/-- Flits of a frame. -/
def flitCount (f : GFrame) : Nat := ceilDiv f.bytes.length 240

/-- A frame reaches the head of its class queue and gets its tags (R352). -/
def tagHead (d : Dev) (q : Port) (cls : Nat) : Port :=
  if cls = 0 then q else
  match mget q.queues [] cls with
  | [] => { q with headTag := del q.headTag cls }
  | f :: _ =>
    let s := max q.vtime (mget q.ftag 0 cls)
    { q with
      headTag := put q.headTag cls s
      ftag := mset q.ftag 0 cls (s + ceilDiv (flitCount f * 65536) (classWeight d cls)) }

/-- May the head frame of a class start on a port (R345, R351, R355, R357)? -/
def mayStart (d : Dev) (p : Nat) (cls : Nat) : Bool :=
  let q := portOf d p
  match mget q.queues [] cls with
  | [] => false
  | f :: _ =>
    let n := flitCount f
    decide (mget q.spent 0 cls + n ≤ classBuffer cls) && decide (q.replay.length + n ≤ 2048)
      && (cls == 0 || (bitOf (gateMask d) cls
        && (match classCloses d cls with
            | none => true
            | some rem => decide ((n + fget d Fd.LNK_GATE_CFG_guard_flits) * 128 * (4 / max 1 (laneWidth q.lanes)) * 1024
                ≤ rem * 1562500))))

/-- The class whose frame a port sends next: TC0 first, then the smallest start tag, ties to the lower class. -/
def nextClass (d : Dev) (p : Nat) : Option Nat :=
  let q := portOf d p
  if mayStart d p 0 then some 0 else
  (((List.range 8).drop 1).filter (mayStart d p)).foldl (fun best c =>
    match best with
    | none => some c
    | some b => if mget q.headTag 0 c < mget q.headTag 0 b then some c else best) none

/-- Send the head frame of a class: its flits go out and into the replay buffer, credits are spent, and virtual time
moves to its start tag. -/
def startFrame (d : Dev) (p cls : Nat) : Dev :=
  let q := portOf d p
  match mget q.queues [] cls with
  | [] => d
  | f :: rest =>
    let fl := flitsOf q.txSeq f
    let q := { q with
      queues := mset q.queues [] cls rest
      txSeq := (q.txSeq + fl.length) % 4096
      replay := q.replay ++ fl
      inflight := q.inflight ++ [((q.txSeq + fl.length + 4095) % 4096, f)]
      spent := mset q.spent 0 cls (mget q.spent 0 cls + fl.length)
      vtime := if cls = 0 then q.vtime else mget q.headTag 0 cls }
    let d := setPort d p (tagHead d q cls)
    fl.foldl (fun d x => send d (.flit p x.toBytes)) d

/-- Serve a port while a frame may start, by fuel. -/
def egressBy : Nat → Dev → Nat → Dev
  | 0, d, _ => d
  | n + 1, d, p =>
    let q := portOf d p
    if !portServes d p || q.retraining || q.disabling || !q.resend.isEmpty then d else
    match nextClass d p with
    | none => d
    | some c => egressBy n (startFrame d p c) p

/-- Serve a port. -/
def egress (d : Dev) (p : Nat) : Dev :=
  egressBy (sumN ((vals (portOf d p).queues).map List.length)) d p

/-! ### Routing and origination (R347 to R350, R353, R354) -/

/-- The port a frame leaves on (R349). -/
def route (d : Dev) (dst cls : Nat) : Option Nat :=
  let ps := (servingPorts d).filter (fun p => bitOf (fget d Fd.LNK_ROUTE_ports dst) p && !(portOf d p).disabling)
  ps[(dst + cls) % max 1 ps.length]?

/-- Is a device reachable? -/
def reachable (d : Dev) (dst : Nat) : Bool := (route d dst 0).isSome

/-- A frame joins the queue of its class on a port. -/
def linkQueueOn (d : Dev) (f : GFrame) (p : Nat) : Dev :=
  let q := portOf d p
  let old := mget q.queues [] f.cls
  let q := { q with queues := mset q.queues [] f.cls (old ++ [f]) }
  let q := if old.isEmpty then tagHead d q f.cls else q
  egress (setPort d p q) p

/-- A frame joins the queue of its class on its port (R349). -/
def linkQueue (d : Dev) (f : GFrame) : Dev :=
  match route d f.dst f.cls with
  | none => raise d Fd.LNK_EVT_frame_dropped
  | some p => linkQueueOn d f p

/-- A frame that is resent stands before the frames of its class on its port (R350). -/
def linkFront (d : Dev) (f : GFrame) : Dev :=
  match route d f.dst f.cls with
  | none => raise d Fd.LNK_EVT_frame_dropped
  | some p =>
    let q := portOf d p
    setPort d p { q with queues := mset q.queues [] f.cls (f :: mget q.queues [] f.cls) }

/-- Frames are resent in their order, ahead of later ones (R350), and the ports they join are served. -/
def resendAll (d : Dev) (frames : List GFrame) : Dev :=
  let hit := (frames.filterMap (fun f => (route d f.dst f.cls).map (fun p => (p, f.cls)))).dedup
  let d := frames.reverse.foldl linkFront d
  let d := hit.foldl (fun d (x : Nat × Nat) => setPort d x.1 (tagHead d (portOf d x.1) x.2)) d
  (hit.map Prod.fst).dedup.foldl egress d

/-- Replace bytes `lo` on of a byte list. -/
def patch (bs : List Byte) (lo : Nat) (new : List Byte) : List Byte := bs.take lo ++ new ++ bs.drop (lo + new.length)

/-- A frame of this device takes the next fseq of its destination and class, and its yellow bit (R347, R354). -/
def stampFrame (d : Dev) (f : GFrame) (yellow : Bool) : GFrame × Dev :=
  let k := f.dst * 8 + f.cls
  let seq := mget d.lnk.txF 0 k
  ({ f with bytes := patch (patch f.bytes 8 (leBytes 4 seq)) 4 (leBytes 1 (f.cls + b2n yellow * 8)) },
    { d with lnk := { d.lnk with txF := mset d.lnk.txF 0 k ((seq + 1) % 2 ^ 32) } })

/-- A frame of this device joins its class queue. -/
def joinClass (d : Dev) (f : GFrame) (yellow : Bool) : Dev :=
  linkQueue (stampFrame d f yellow).2 (stampFrame d f yellow).1

/-- The colour a policer gives a frame of `len` bytes now: none red, else yellow or not, with the buckets after
(R353). -/
def police (d : Dev) (client cls len : Nat) : Option (Bool × Dev) :=
  let b := client * 8 + cls
  let cir := fget d Fd.LNK_POL_RATE_cir b
  let pir := fget d Fd.LNK_POL_RATE_pir b
  let cbs := fget d Fd.LNK_POL_BURST_cbs b * 65536
  let pbs := fget d Fd.LNK_POL_BURST_pbs b * 65536
  if pir = 0 then some (false, d) else
  let q := (look d.lnk.pol b).getD ⟨pbs, cbs, now d⟩
  let dt := now d - q.stamp
  let tp := min pbs (q.tp + pir * 125 * dt)
  let tc := min cbs (q.tc + cir * 125 * dt)
  let l := len * 65536
  let keep := fun (q : Policer) => { d with lnk := { d.lnk with pol := put d.lnk.pol b q } }
  if tp < l then none
  else if tc < l then some (true, keep ⟨tp - l, tc, now d⟩)
  else some (false, keep ⟨tp - l, tc - l, now d⟩)

/-- A red frame's test still updates the buckets (R353). -/
def policeRefill (d : Dev) (client cls : Nat) : Dev :=
  let b := client * 8 + cls
  let pbs := fget d Fd.LNK_POL_BURST_pbs b * 65536
  let cbs := fget d Fd.LNK_POL_BURST_cbs b * 65536
  let q := (look d.lnk.pol b).getD ⟨pbs, cbs, now d⟩
  let dt := now d - q.stamp
  let q : Policer := ⟨min pbs (q.tp + fget d Fd.LNK_POL_RATE_pir b * 125 * dt),
    min cbs (q.tc + fget d Fd.LNK_POL_RATE_cir b * 125 * dt), now d⟩
  { d with lnk := { d.lnk with pol := put d.lnk.pol b q } }

/-- The colour that the frame at the head of a client queue gets now (R353): none while it is red or there is none. -/
def headColour (d : Dev) (client cls : Nat) : Option Bool :=
  match mget d.lnk.clientQ [] (client * 8 + cls) with
  | [] => none
  | f :: _ => (police d client cls f.bytes.length).map Prod.fst

/-- The frame at the head of a client queue is tested: it joins its class queue unless it is red, which still updates its buckets. -/
def passHead (d : Dev) (client cls : Nat) : Dev :=
  let k := client * 8 + cls
  match mget d.lnk.clientQ [] k with
  | [] => d
  | f :: rest =>
    match police d client cls f.bytes.length with
    | none => policeRefill d client cls
    | some (yellow, d) => joinClass { d with lnk := { d.lnk with clientQ := mset d.lnk.clientQ [] k rest } } f yellow

/-- Clients with frames of a class before its policers. -/
def policedClients (d : Dev) (cls : Nat) : List Nat :=
  ((keys d.lnk.clientQ).filter (fun k => k % 8 == cls)).map (fun k => k / 8)

/-- The client queues of a class are tested (R353): green frames of any client go before yellow ones (R354), until every head is red,
by fuel. -/
def policePassBy : Nat → Dev → Nat → Dev
  | 0, d, _ => d
  | n + 1, d, cls =>
    let cs := policedClients d cls
    match cs.find? (fun c => headColour d c cls == some false) with
    | some c => policePassBy n (passHead d c cls) cls
    | none =>
      match cs.find? (fun c => headColour d c cls == some true) with
      | some c => policePassBy n (passHead d c cls) cls
      | none => cs.foldl (fun d c => passHead d c cls) d

/-- The client queues of a class are tested. -/
def policePass (d : Dev) (cls : Nat) : Dev :=
  policePassBy (1 + sumN ((policedClients d cls).map (fun c => (mget d.lnk.clientQ [] (c * 8 + cls)).length))) d cls

/-- Frames of TC3 to TC6 of a client are policed (R353). -/
def policed (cls : Nat) : Bool := 3 ≤ cls && cls ≤ 6

/-- The Gaham header of a frame of this device before it has its fseq (R347). -/
def gahamHeader (d : Dev) (cls proto dst : Nat) (payload : List Byte) : List Byte :=
  fields [(dst, 2), (fget d Fd.MAP_CFG_device, 2), (cls, 1), (proto, 1), (16, 1), (0, 1), (0, 4), (payload.length, 4),
    (now d, 6), (0, 2), (crc32c payload, 4), (0, 4)]

/-- The device originates a frame (R347): nothing goes to a fenced device (R372); TC3 to TC6 of a client are policed. -/
def sendFrame (d : Dev) (cls proto dst : Nat) (client : Option Nat) (payload : List Byte) : Dev :=
  if d.lnk.fenced.contains dst then d else
  let f : GFrame := ⟨cls, dst, gahamHeader d cls proto dst payload ++ payload⟩
  let d := send d (.frame cls proto dst payload)
  match client with
  | some c =>
    if policed cls then
      let k := c * 8 + cls
      let q := mget d.lnk.clientQ [] k
      let d := { d with lnk := { d.lnk with clientQ := mset d.lnk.clientQ [] k (q ++ [f]) } }
      if q.isEmpty then passHead d c cls else d
    else joinClass d f false
  | none => joinClass d f false

/-- The device originates a frame of TC0 for the peer of a port, on that port (R370, R371). -/
def sendOnPort (d : Dev) (p proto : Nat) (payload : List Byte) : Dev :=
  let dst := (portOf d p).peer
  if d.lnk.fenced.contains dst then d else
  let x := stampFrame (send d (.frame 0 proto dst payload)) ⟨0, dst, gahamHeader d 0 proto dst payload ++ payload⟩ false
  linkQueueOn x.2 x.1 p

/-- Frames that wait for a device, or that another one sent for it to forward, go no further (R372). -/
def purge (d : Dev) (dev : Nat) : Dev :=
  let stays := fun (f : GFrame) => f.dst != dev && leAt f.bytes 2 2 != dev
  let keep := fun (l : List GFrame) => l.filter stays
  let d := { d with lnk := { d.lnk with clientQ := (d.lnk.clientQ.map (fun (e : Nat × List GFrame) => (e.1, keep e.2))).filter (fun e => !e.2.isEmpty) } }
  (keys d.lnk.ports).foldl (fun d p =>
    let q := portOf d p
    let beheaded := (q.queues.filter (fun (e : Nat × List GFrame) => (e.2.take 1).any (fun f => !stays f))).map Prod.fst
    let q := { q with queues := (q.queues.map (fun (e : Nat × List GFrame) => (e.1, keep e.2))).filter (fun e => !e.2.isEmpty) }
    setPort d p (beheaded.foldl (tagHead d) q)) d

/-! ### Reception (R345 to R348, R350) -/

/-- Class of each protocol (R347). -/
def protoClass (proto : Nat) : Option Nat :=
  match proto with
  | 0x01 | 0x02 => some 0
  | 0x10 => some 1
  | 0x30 => some 3
  | 0x40 => some 4
  | 0x50 => some 5
  | 0x60 => some 6
  | 0x70 => some 7
  | _ => none

/-- A whole frame has arrived on a port: for another device it waits to be forwarded; for this one it is checked
(R348) and its fseq is tested (R350). What it says is the command of its own row. -/
def frameArrives (d : Dev) (p cls : Nat) (bs : List Byte) : Dev :=
  if leAt bs 0 2 ≠ fget d Fd.MAP_CFG_device then
    let q := portOf d p
    setPort d p { q with forward := q.forward ++ [bs] }
  else if protoClass (leAt bs 5 1) ≠ some cls ∨ leAt bs 4 1 % 8 ≠ cls ∨ leAt bs 12 4 + 32 ≠ bs.length
      ∨ crc32c (bs.drop 32) ≠ leAt bs 24 4 then raise d Fd.LNK_EVT_frame_dropped
  else
    let k := leAt bs 2 2 * 8 + cls
    let seq := leAt bs 8 4
    let keep := fun (d : Dev) => { d with lnk := { d.lnk with rxF := put d.lnk.rxF k seq } }
    match look d.lnk.rxF k with
    | none => keep d
    | some last =>
      let ahead := (seq + 2 ^ 32 - last) % 2 ^ 32
      if ahead = 0 ∨ 2 ^ 31 ≤ ahead then d
      else keep (if ahead = 1 then d else raise d Fd.LNK_EVT_frame_gap)

/-- A port leaves service for good (R342, R365): its unacknowledged and queued frames go to the newly chosen ports,
ahead of later frames (R350). -/
def retirePort (d : Dev) (p : Nat) : Dev :=
  let q := portOf d p
  let frames := q.inflight.map Prod.snd ++ (vals q.queues).flatten
  let d := setPort d p { q with
    up := false, retired := true, retraining := false, disabling := false, replay := [], resend := [], inflight := [], queues := [],
    headTag := [], reasm := [], hops := 15 }
  resendAll (raise d Fd.LNK_EVT_port_retired) frames

/-- Flits up to and including an acknowledged sequence leave the replay buffer (R345). -/
def applyAck (d : Dev) (p seq : Nat) : Dev :=
  let q := portOf d p
  match q.replay.findIdx? (fun f => f.seq == seq) with
  | none => d
  | some i =>
    let gone := (q.replay.take (i + 1)).map (fun f => f.seq)
    let q := { q with
      replay := q.replay.drop (i + 1), resend := q.resend.filter (fun f => !gone.contains f.seq)
      inflight := q.inflight.filter (fun f => !gone.contains f.1) }
    let d := setPort d p q
    if q.disabling ∧ q.inflight = [] then retirePort d p else d

/-- Is a flit's check value right (R344)? -/
def flitGood (f : List Byte) : Bool := f.length == 256 && leAt f 252 4 == crc32c (f.take 252)

/-- A port retrains: it stops sending and keeps its replay buffer (R342, R345). -/
def startRetrain (d : Dev) (p : Nat) : Dev := setPort d p { portOf d p with retraining := true, resend := [] }

/-- Flits of a replay go out in order until one meets a closed gate (R345, R357): a frame that is stopped so, by this or by the replay
going on, is recorded. -/
def sendReplay (d : Dev) (p : Nat) (fresh : Bool) : Dev :=
  let q := portOf d p
  let n := (q.resend.takeWhile (fun f => f.cls == 0 || bitOf (gateMask d) f.cls)).length
  let d := (q.resend.take n).foldl (fun d f => send d (.flit p f.toBytes)) d
  let d := setPort d p { q with resend := q.resend.drop n }
  if n < q.resend.length ∧ (fresh ∨ 0 < n) then raise d Fd.LNK_EVT_gate_overrun else d

/-- The whole replay buffer is to go again (R345). -/
def replayAll (d : Dev) (p : Nat) : Dev := sendReplay (setPort d p { portOf d p with resend := (portOf d p).replay }) p true

/-- A NAK (R345): flits before the named sequence are acknowledged; the rest is replayed, unless the NAK before named
the same sequence: then the port retrains. -/
def applyNak (d : Dev) (p seq : Nat) : Dev :=
  let q := portOf d p
  if q.lastNak = some seq then startRetrain (setPort d p { q with lastNak := none }) p else
  let d := setPort d p { q with lastNak := some seq }
  let d := applyAck d p ((seq + 4095) % 4096)
  fbump (raise (replayAll d p) Fd.LNK_EVT_replay) Fd.LNK_PORT_CNT_replays 1 p

/-- The ack and credit fields of a flit (R344): an acknowledgement, a NAK, and credits returned. -/
def applyFields (d : Dev) (p ack credit : Nat) : Dev :=
  let d := if bitOf ack 12 then applyAck d p (ack % 4096) else d
  let q := portOf d p
  let c := credit % 8
  let d := setPort d p { q with spent := mset q.spent 0 c (mget q.spent 0 c - credit / 8) }
  egress (if bitOf ack 13 then applyNak d p (ack % 4096) else d) p

/-- `DATA_FLIT_RECEIVED` (R345, R346, R351); the 64th flit since the last acknowledgement is answered with one. -/
def dataFlit (d : Dev) (p : Nat) (f : List Byte) : Dev :=
  let q := portOf d p
  if !q.up || q.retraining then d else
  let head := leAt f 0 4
  if !flitGood f || bitsOf head 12 4 != 1 || head % 4096 != q.rxSeq then sendNak d p else
  let cls := bitsOf head 16 3
  let n := bitsOf head 21 8 + 1
  let payload := (f.drop 12).take n
  let got := (if bitOf head 19 then [] else mget q.reasm [] cls) ++ payload
  let last := bitOf head 20
  let d := setPort d p { q with
    rxSeq := (q.rxSeq + 1) % 4096, rxSince := q.rxSince + 1, rxAt := if q.rxSince = 0 then up d else q.rxAt, owed := mset q.owed 0 cls (mget q.owed 0 cls + 1),
    reasm := mset q.reasm [] cls (if last then [] else got) }
  let d := applyFields d p (leAt f 4 2) (leAt f 6 2)
  let d := if 64 ≤ (portOf d p).rxSince then sendAck d p else d
  if last then frameArrives d p cls got else d

/-- `IDLE_FLIT_RECEIVED` (R344): an idle or control flit; one that fails its check is discarded. -/
def idleFlit (d : Dev) (p : Nat) (f : List Byte) : Dev :=
  let q := portOf d p
  if !q.up || q.retraining then d
  else if !flitGood f then sendNak d p
  else if bitsOf (leAt f 0 4) 12 4 = 0 ∨ bitsOf (leAt f 0 4) 12 4 = 2 then
    applyFields d p (leAt f 4 2) (leAt f 6 2)
  else d

def execDataFlitReceived (port : Nat) (flit : List Byte) (s : State) : Host.Outcome State Fault Refusal :=
  lift (fun d => dataFlit d port flit) s

def execIdleFlitReceived (port : Nat) (flit : List Byte) (s : State) : Host.Outcome State Fault Refusal :=
  lift (fun d => idleFlit d port flit) s

/-- `NAK_RECEIVED` (R345). -/
def execNakReceived (port sequence : Nat) (s : State) : Host.Outcome State Fault Refusal :=
  lift (fun d => if (portOf d port).up ∧ !(portOf d port).retraining then egress (applyNak d port (sequence % 4096)) port else d) s

/-- 128 cycles, 6.99 subframes, have nearly passed since the first data flit that is not acknowledged (R345). -/
def ackOver (d : Dev) (p : Nat) : Dev :=
  if (portOf d p).up ∧ 0 < (portOf d p).rxSince ∧ (portOf d p).rxAt + 6 ≤ up d then sendAck d p else d

/-- `ACK_TIMER` (R345): data flits have arrived that are not acknowledged. -/
def execAckTimer (port : Nat) (s : State) : Host.Outcome State Fault Refusal :=
  lift (fun d => if (portOf d port).up ∧ 0 < (portOf d port).rxSince then sendAck d port else d) s

/-- `LANE_FAILURE` (R342). -/
def execLaneFailure (port lane : Nat) (s : State) : Host.Outcome State Fault Refusal :=
  lift (fun d =>
    let q := portOf d port
    if q.up ∧ bitOf q.lanes lane then startRetrain (setPort d port { q with failed := q.failed ||| 2 ^ lane }) port
    else d) s

/-- `FRAME_FORWARD` (R348, R349, R372): the oldest frame waiting on the port. -/
def execFrameForward (port : Nat) (s : State) : Host.Outcome State Fault Refusal :=
  lift (fun d =>
    let q := portOf d port
    match q.forward with
    | [] => d
    | bs :: rest =>
      let d := setPort d port { q with forward := rest }
      let hops := leAt bs 6 1
      if d.lnk.fenced.contains (leAt bs 0 2) ∨ d.lnk.fenced.contains (leAt bs 2 2) then d
      else if hops = 0 then raise d Fd.LNK_EVT_hop_expired
      else linkQueue (if bitOf (leAt bs 4 1) 3 then { d with lnk := { d.lnk with yellow := d.lnk.yellow + 1 } } else d) ⟨leAt bs 4 1 % 8, leAt bs 0 2, patch bs 6 (leBytes 1 (hops - 1))⟩) s

/-- A policed queue is tested again (R353), with the other queues of its class (R354). -/
def policerRetest (d : Dev) (client cls : Nat) : Dev :=
  if (mget d.lnk.clientQ [] (client * 8 + cls)).isEmpty then d else policePass d cls

/-- `POLICER_RETEST` (R353). -/
def execPolicerRetest (client cls : Nat) (s : State) : Host.Outcome State Fault Refusal := lift (fun d => policerRetest d client cls) s

/-! ### Gate events (R352, R355, R356) -/

/-- The active list stands at an entry: classes whose gate was closed start again at the virtual time, and the ports
are served. -/
def gateEnter (d : Dev) (idx : Nat) : Dev :=
  let was := gateMask d
  let d := { d with lnk := { d.lnk with gateIdx := idx } }
  let newly := (List.range 8).filter (fun c => bitOf (gateMask d) c && !bitOf was c)
  (List.range 16).foldl (fun d p =>
    let q := portOf d p
    let q := newly.foldl (fun (q : Port) c =>
      match look q.headTag c with
      | none => q
      | some s => { q with
        headTag := put q.headTag c (max q.vtime s)
        ftag := mset q.ftag 0 c (mget q.ftag 0 c + (max q.vtime s - s)) }) q
    egress (sendReplay (setPort d p q) p false) p) d

/-- The active list moves on to the entry of the present time (R355). -/
def gateChange (d : Dev) : Dev := if fbit d Fd.LNK_CTL_enable then gateEnter d (gatePos d).1 else d

/-- `GATE_SWITCH_ARM` (R355, R356): a list whose cycle breaks R355 is refused. -/
def gateArm (d : Dev) (f : Nat) (addr : Nat := Rg.LNK_GATE_SWITCH) : Dev :=
  if !gateValid (gateEntries d (1 - d.lnk.gateList)) then cfgIgnored d addr
  else fset (fset { d with lnk := { d.lnk with gateFrom := ceilDiv (now d) 65536 } } Fd.LNK_GATE_SWITCH_frame f)
    Fd.LNK_GATE_SWITCH_arm 1

def execGateSwitchArm (frame : Nat) (s : State) : Host.Outcome State Fault Refusal :=
  lift (fun d => if d.sys.portUp then gateArm d frame else d) s

/-- Is the inactive list to become active (R356)? -/
def switchDue (d : Dev) : Bool := fbit d Fd.LNK_GATE_SWITCH_arm && decide (switchFrame d ≤ frame d)

/-- The inactive list becomes active (R356). -/
def gateSwitch (d : Dev) : Dev :=
  if switchDue d then
    let other := 1 - d.lnk.gateList
    let d := fset d Fd.LNK_GATE_SWITCH_arm 0
    let d := raise { d with lnk := { d.lnk with gateList := other } } Fd.LNK_EVT_gate_switched
    gateEnter d (gatePos d).1
  else d

/-! ### Policer and port registers -/

/-- A write to a policer's rates or bursts: its buckets are full again; a class outside 3 to 6 ignores it (R365). -/
def policerWrite (d : Dev) (burst : Bool) (word : Nat) : Dev :=
  let cls := fget d Fd.LNK_POL_SEL_class
  let client := fget d Fd.LNK_POL_SEL_client
  if !policed cls then d else
  let b := client * 8 + cls
  let d := if burst then fset (fset d Fd.LNK_POL_BURST_cbs word b) Fd.LNK_POL_BURST_pbs (word / 2 ^ 32) b
    else fset (fset d Fd.LNK_POL_RATE_cir word b) Fd.LNK_POL_RATE_pir (word / 2 ^ 32) b
  let full : Policer := ⟨fget d Fd.LNK_POL_BURST_pbs b * 65536, fget d Fd.LNK_POL_BURST_cbs b * 65536, now d⟩
  { d with lnk := { d.lnk with pol := put d.lnk.pol b full } }

/-- `POLICER_WRITE` (R365). -/
def execPolicerWrite (burst : Bool) (value : Word) (s : State) : Host.Outcome State Fault Refusal :=
  lift (fun d => if d.sys.portUp then policerWrite d burst value.toNat else d) s

/-! ### Layer engines (R358) -/

/-- The pool whose recipe_id a recipe has, with its valid entries in ascending order. -/
def enginePool (d : Dev) (recipeId : Nat) : List Nat :=
  match (List.range 8).find? (fun p => fget d Fd.LNK_LE_POOL_recipe_id p == recipeId
      && (List.range 64).any (fun e => fbit d Fd.LNK_LE_ENT_valid (p * 64 + e))) with
  | none => []
  | some p => ((List.range 64).filter (fun e => fbit d Fd.LNK_LE_ENT_valid (p * 64 + e))).map
      (fun e => fget d Fd.LNK_LE_ENT_device (p * 64 + e))

/-- The engine of slot `s`, layer `l`, attempt `a`: the next entry upwards that can be reached. -/
def engineFor (d : Dev) (recipeId s l a : Nat) : Option Nat :=
  let es := enginePool d recipeId
  let n := es.length
  let i := (s + l + a * ceilDiv n 2) % max 1 n
  (es.drop i ++ es.take i).find? (reachable d)

end Sys2Proof.Machine
end

