-- ==== Sys2Proof/Machine/Faults.lean ====
section
/-!
DEFINITION. Sys2Proof/Machine/Faults.lean: the fault unit (18 R471 to R479): records, coalescing, fault rings.
-/

namespace Sys2Proof.Machine

/-- The device's own number (13, `MAP_CFG.device`). -/
def ownDevice (d : Dev) : Nat := fget d Fd.MAP_CFG_device

/-- Change an account (R419 to R424). -/
def updAcct (d : Dev) (c : Nat) (f : Acct → Acct) : Dev :=
  { d with seq := { d.seq with acct := mset d.seq.acct {} c (f (mget d.seq.acct {} c)) } }

/-- Fault classes (R471). -/
def clsIntegrity : Nat := 0x01
def clsUnit : Nat := 0x02
def clsPrecision : Nat := 0x03
def clsCapacity : Nat := 0x04
def clsExpiry : Nat := 0x05
def clsPoolLoss : Nat := 0x06
def clsMember : Nat := 0x07
def clsSync : Nat := 0x08
def clsRecipe : Nat := 0x09
def clsKeys : Nat := 0x0A
def clsFatal : Nat := 0x0F

/-- Entries of a ring of `2^k` that are free within the limit of R509: at most `2^k - 1` are written and unconsumed. -/
def ringFree (k tail cons : Nat) : Nat := 2 ^ k - 1 - (tail + 2 ^ k - cons % 2 ^ k) % 2 ^ k

/-- Advance a write index and its phase (R50). -/
def ringStep (k tail : Nat) (phase : Bool) : Nat × Bool :=
  if tail + 1 = 2 ^ k then (0, !phase) else (tail + 1, phase)

/-- The 64 bytes of a fault record (R473). -/
def recordBytes (r : Report) (seq : Nat) (summary clientView gap phase : Bool) : List Byte :=
  let flags := b2n summary + 2 * b2n clientView + 4 * b2n gap + 8 * b2n r.forwarded
    + 16 * b2n r.client.isNone + 128 * b2n phase
  fields [(1, 2), (r.cls, 1), (r.unit, 1), (flags, 1), (r.action, 1), (if clientView then 0 else r.inst, 2),
    (seq, 4), (r.count, 4), (r.tc % 2 ^ 48, 8), (r.object, 8), (r.handle, 4), (r.detailA, 4), (r.detailB, 4),
    (r.client.getD 0xFF, 1), (r.status, 1), (if clientView then 0 else r.origin, 2), (r.stepSeq, 8), (0, 8)]

/-- The registers of a fault ring: open, size and base; ring 256 is the operator log, others are clients' (R485). -/
def fltRingCfg (d : Dev) (ring : Nat) : Bool × Nat × Nat :=
  if ring = 256 then (fbit d Fd.FLT_LOG_CFG_open, fget d Fd.FLT_LOG_CFG_size_log2, fget d Fd.FLT_LOG_BASE_base * 4096)
  else (fbit d Fd.FLT_CLIENT_CFG_open ring, fget d Fd.FLT_CLIENT_CFG_size_log2 ring,
    fget d Fd.FLT_CLIENT_BASE_base ring * 4096)

/-- Assign a record to a fault ring (R477): it takes the ring's next sequence; it is written if the unit is enabled, the
ring open and an entry free, and otherwise counted in `overflow`, with a gap shown by the next record written.
Answers the sequence taken. -/
def fltWrite (d : Dev) (ring : Nat) (r : Report) (summary : Bool) : Dev × Nat :=
  let q := mget d.flt.rings {} ring
  let seq := (q.seq + 1) % 2 ^ 32
  let (opened, k, base) := fltRingCfg d ring
  let client := ring ≠ 256
  let put' := fun (d : Dev) (q : FRing) => { d with flt := { d.flt with rings := mset d.flt.rings {} ring q } }
  if fbit d Fd.FLT_CTL_enable ∧ opened then
    if ringFree k q.tail q.cons = 0 then
      (raise (put' d { q with seq := seq, overflow := sat32 (q.overflow + 1), gap := true }) Fd.FLT_EVT_overflow, seq)
    else
      let d := hostWrite d 0 (base + 64 * q.tail) (recordBytes r seq summary client q.gap q.phase)
      let (t, p) := ringStep k q.tail q.phase
      let d := put' d { q with seq := seq, gap := false, tail := t, phase := p }
      (if client then d else raise d Fd.FLT_EVT_record, seq)
  else (put' d { q with seq := seq, overflow := sat32 (q.overflow + 1), gap := true }, seq)

/-- Write an operator record, and forward it while `FLT_FWD.valid` is set (R478). -/
def fltOperator (d : Dev) (r : Report) (summary : Bool) : Dev :=
  let q := mget d.flt.rings {} 256
  let (d, seq) := fltWrite d 256 r summary
  if fbit d Fd.FLT_FWD_valid then
    sendFrame d 7 0x70 (fget d Fd.FLT_FWD_device) none (padTo 8 [0x10] ++ recordBytes r seq summary false q.gap q.phase)
  else d

/-- Key of an operator window (R475). -/
def fltKey (r : Report) : Nat := r.unit * 256 + r.cls

/-- Close one operator window (R475): a summary record if it counted more than one report. -/
def fltCloseOp (d : Dev) (key : Nat) : Dev :=
  match look d.flt.wins key with
  | none => d
  | some w =>
    let d := { d with flt := { d.flt with wins := del d.flt.wins key } }
    if w.count > 1 then fltOperator d { w.first with count := w.count } true else d

/-- Does a client window belong to this key (R476)? -/
def cwinFor (c : Nat) (r : Report) (p : Nat × FWin) : Bool :=
  p.1 == c && p.2.first.unit == r.unit && p.2.first.cls == r.cls && p.2.first.object == r.object

/-- Close one client window (R476). -/
def fltCloseClient (d : Dev) (p : Nat × FWin) : Dev :=
  let d := { d with flt := { d.flt with cwins := d.flt.cwins.filter (fun q => !cwinFor p.1 p.2.first q) } }
  if p.2.count > 1 then (fltWrite d p.1 { p.2.first with count := p.2.count } true).1 else d

/-- Is a window due (R475): the start of frame `t + 8` has come? -/
def winDue (d : Dev) (w : FWin) : Bool := w.due ≤ up d

/-- An operator window that is due closes before the next report of its key (R475). -/
def fltDueOp (d : Dev) (k : Nat) : Dev :=
  match look d.flt.wins k with
  | some w => if winDue d w then fltCloseOp d k else d
  | none => d

/-- Operator view of a report (R475). -/
def fltOpView (d : Dev) (r : Report) : Dev :=
  let k := fltKey r
  let d := fltDueOp d k
  match look d.flt.wins k with
  | some w => { d with flt := { d.flt with wins := put d.flt.wins k { w with count := w.count + r.count } } }
  | none =>
    let d := fltOperator d { r with count := 1 } false
    { d with flt := { d.flt with wins := put d.flt.wins k { first := r, count := r.count, due := frameAt d (frame d + 8), seq := 0 } } }

/-- A client window that is due closes before the next report of its key (R476). -/
def fltDueClient (d : Dev) (c : Nat) (r : Report) : Dev :=
  match d.flt.cwins.find? (cwinFor c r) with
  | some p => if winDue d p.2 then fltCloseClient d p else d
  | none => d

/-- Client view of a report (R474, R476): answers the sequence of the record that opened its window. -/
def fltClientView (d : Dev) (c : Nat) (r : Report) : Dev × Nat :=
  let d := fltDueClient d c r
  match d.flt.cwins.find? (cwinFor c r) with
  | some p =>
    ({ d with flt := { d.flt with cwins := d.flt.cwins.map (fun q =>
        if cwinFor c r q then (q.1, { q.2 with count := q.2.count + 1 }) else q) } }, p.2.seq)
  | none =>
    let (d, seq) := fltWrite d c { r with count := 1 } false
    let d := { d with flt := { d.flt with cwins := d.flt.cwins ++
        [(c, FWin.mk { r with count := 1 } 1 (frameAt d (frame d + 8)) seq)] } }
    (updAcct d c (fun a => { a with faults := a.faults + 1 }), seq)

/-- A report reaches the fault unit (R473 to R476): it is counted, coalesced in the operator view and, if it names an
object of a client, in that client's view. `clientA` is `detail_a` in the client view (R70). Answers the client-view
sequence (R476), or 0. -/
def reportWith (d : Dev) (r : Report) (clientA : Nat) : Dev × Nat :=
  let r := { r with tc := now d, origin := ownDevice d }
  let d := fltOpView (fbump d Fd.FLT_CNT_reports) r
  match r.client with
  | none => (d, 0)
  | some c => fltClientView d c { r with detailA := clientA }

/-- A report whose views carry the same details. -/
def report (d : Dev) (r : Report) : Dev × Nat := reportWith d r r.detailA

/-- A forwarded operator record is coalesced into the own operator log (R478), adding its count. -/
def fltForwarded (d : Dev) (record : BitVec 512) : Dev :=
  let v := record.toNat
  let r : Report := {
    cls := bitsOf v 16 8, unit := bitsOf v 24 8, action := bitsOf v 40 8, inst := bitsOf v 48 16,
    count := bitsOf v 96 32, tc := bitsOf v 128 48, object := bitsOf v 192 64, handle := bitsOf v 256 32,
    detailA := bitsOf v 288 32, detailB := bitsOf v 320 32,
    client := if bitOf v 36 then none else some (bitsOf v 352 8), status := bitsOf v 360 8,
    origin := bitsOf v 368 16, stepSeq := bitsOf v 384 64, forwarded := true }
  fltOpView (fbump d Fd.FLT_CNT_forwarded) r

/-- `FAULT_RECORD_FORWARD`: a frame of protocol 0x70, type 0x10 arrives (R478). -/
def execFaultRecordForward (src : Nat) (record : BitVec 512) (s : State) : Host.Outcome State Fault Refusal :=
  lift (fun d => if d.sys.resetLow ∨ d.lnk.fenced.contains src then d else fltForwarded d record) s

/-- The effect of a window closing (R475, R476): the due windows of the key close, the operator view's first. -/
def fltWindowClose (d : Dev) (unit cls : Nat) : Dev :=
  let d := fltDueOp d (unit * 256 + cls)
  (d.flt.cwins.filter (fun p => p.2.first.unit == unit && p.2.first.cls == cls && winDue d p.2)).foldl fltCloseClient d

/-- The keys of the windows that are due, operator and client (R475). -/
def dueWindows (d : Dev) : List (Nat × Nat) :=
  ((d.flt.wins.filter (fun (e : Nat × FWin) => winDue d e.2)).map (fun (e : Nat × FWin) => (e.1 / 256, e.1 % 256))
    ++ (d.flt.cwins.filter (fun p => winDue d p.2)).map (fun (p : Nat × FWin) => (p.2.first.unit, p.2.first.cls))).dedup

end Sys2Proof.Machine
end

