-- ==== Sys2Proof/Machine/Operands.lean ====
section
/-!
DEFINITION. Sys2Proof/Machine/Operands.lean: the fields of descriptors (02 R57, R71 and the layouts of the chapters)
and the first group of checks, which is made on them at fetch (R58, R63, R65, R66, R502, R505, R506).
-/

namespace Sys2Proof.Machine

/-! ### Status codes (R62) -/

def stOK : Nat := 0x00
def stTruncated : Nat := 0x01
def stInvalidOpcode : Nat := 0x10
def stInvalidField : Nat := 0x11
def stInvalidLength : Nat := 0x12
def stBoundExceeded : Nat := 0x13
def stStateConflict : Nat := 0x20
def stDependencyFailed : Nat := 0x21
def stNotOwner : Nat := 0x22
def stStaleVersion : Nat := 0x23
def stNoFit : Nat := 0x30
def stQuota : Nat := 0x31
def stCut : Nat := 0x40
def stExpired : Nat := 0x41
def stIntegrity : Nat := 0x50
def stUnitFailed : Nat := 0x51
def stRewound : Nat := 0x52
def stRestoreIncomplete : Nat := 0x53
def stBusyRetry : Nat := 0x60
def stSecurity : Nat := 0x70

/-- The status codes of the table (R62, R12). -/
def statusCodes : List Nat :=
  [0x00, 0x01, 0x10, 0x11, 0x12, 0x13, 0x20, 0x21, 0x22, 0x23, 0x30, 0x31, 0x40, 0x41, 0x50, 0x51, 0x52, 0x53, 0x60, 0x70]

/-! ### Descriptor fields (R57) -/

/-- Bytes `lo` to `lo + n - 1` of a descriptor as a number. -/
def db (x : Desc) (lo n : Nat) : Nat := bitsOf x.toNat (8 * lo) (8 * n)

/-- Bits `b` to `b + w - 1` of the field at byte `lo`. -/
def dbits (x : Desc) (lo b w : Nat) : Nat := bitsOf x.toNat (8 * lo + b) w

def dOp (x : Desc) : Nat := db x 0 1
def dQuiet (x : Desc) : Bool := bitOf (db x 1 1) 0
def dFence (x : Desc) : Bool := bitOf (db x 1 1) 1
def dIrq (x : Desc) : Bool := bitOf (db x 1 1) 2
def dTag (x : Desc) : Nat := db x 2 2
def dSel (x : Desc) : Nat := db x 4 4
/-- Wait: object, mode, value. -/
def dWait (x : Desc) : Nat × Nat × Nat := (dbits x 8 0 17, dbits x 8 17 2, dbits x 8 19 45)
/-- Signal: object, op, value. -/
def dSignal (x : Desc) : Nat × Nat × Nat := (dbits x 16 0 17, dbits x 16 17 2, dbits x 16 19 45)

/-- Does the descriptor name a session by handle in bytes 4–7 (R60)? -/
def namesHandle (x : Desc) : Bool :=
  let op := dOp x
  (0x02 ≤ op && op ≤ 0x08) || op == 0x11 || op == 0x12 || op == 0x79
    || (op == 0x51 && bitOf (db x 28 1) 0 == false)
    || ((op == 0x20 || op == 0x21 || op == 0x22) && db x 24 1 ≤ 0x06)

/-- The session handles a descriptor names (R63): its handle, or those of its batch list. -/
def namedSessions (x : Desc) (list : List Byte) : List Nat :=
  if dOp x = 0x10 then (List.range (dbits x 4 0 13)).map (fun i => leAt list (8 * i) 4)
  else if namesHandle x then [dSel x] else []

/-! ### Item 2: reserved fields, encodings, limits, sync object range -/

/-- A possible item-2 fault: the offset of the field, and whether it is faulty. -/
abbrev Item2 := Nat × Bool

/-- An item-2 check of the field at an offset. -/
def it (off : Nat) (faulty : Bool) : Item2 := (off, faulty)

/-- The lowest offset among the faults. -/
def lowest (l : List Item2) : Option Nat :=
  (l.filter (fun p => p.2)).foldl (fun m p => match m with | none => some p.1 | some o => some (min o p.1)) none

/-- A reserved field of bytes `lo` to `hi`, reported at `lo` (R6, R506). -/
def rsv (x : Desc) (lo hi : Nat) : List Item2 := [(lo, db x lo (hi + 1 - lo) ≠ 0)]

/-- Bytes no table of the opcode lists are reserved, each a field of its own (R199; log entry 30). -/
def rsvBytes (x : Desc) (lo hi : Nat) : List Item2 :=
  (List.range (hi + 1 - lo)).map (fun i => (lo + i, db x (lo + i) 1 ≠ 0))

/-- Common fields (R57, R58): flags, wait and signal, with the client's `sync_count`. -/
def commonFaults (x : Desc) (count : Nat) : List Item2 :=
  let (wo, wm, _) := dWait x
  let (so, sm, _) := dSignal x
  [(1, db x 1 1 / 8 ≠ 0),
   (8, 2 ≤ wm || (wm == 0 && db x 8 8 != 0) || (wm == 1 && count ≤ wo)),
   (16, sm == 3 || (sm == 0 && db x 16 8 != 0) || ((sm == 1 || sm == 2) && count ≤ so))]

/-- Is a 32-bit pattern a finite FP32 value? -/
def f32Finite (v : Nat) : Bool := bitsOf v 23 8 != 255

/-- Tiers that `OBJ_MOVE` may name for a kind (R285, R290; log entry 31). -/
def tierAllowed (kind tier : Nat) : Bool :=
  match kind with
  | 0x01 => tier ≤ 4
  | 0x02 | 0x03 | 0x05 => tier ≤ 1
  | 0x04 => tier ≤ 2
  | 0x06 => tier == 1 || tier == 2
  | 0x10 => tier ≤ 2 || tier == 4
  | 0x20 => tier == 2 || tier == 4
  | _ => false

/-- Rows of a part of a table (R238). -/
def partRows (x : Desc) : Nat :=
  let v := db x 48 4 + 1
  let r := db x 56 4
  match db x 44 1 with
  | 1 => ceilDiv v (max r 1)
  | 2 => r
  | _ => v

/-- Bytes of one row of a table (R239). -/
def rowBytes (fmt dim : Nat) : Nat :=
  match fmt with
  | 1 => 4 * dim
  | 2 => dim + 64
  | 3 => ceilDiv (dim / 256 * 160) 64 * 64
  | _ => 0

/-- Does a dimension suit the row format (R239)? -/
def dimOk (fmt dim : Nat) : Bool :=
  0 < dim && dim ≤ 8192 && (if fmt == 3 then dim % 256 == 0 else dim % 64 == 0)

/-- Item-2 faults of each opcode's own fields. -/
def opFaults (x : Desc) (count : Nat) : List Item2 :=
  match dOp x with
  | 0x01 => -- SESSION_OPEN (R199)
    rsv x 4 7 ++ [it 26 (1 < db x 26 1), it 27 (8 ≤ db x 27 1 || (db x 27 1 % 8 == 3)),
      it 36 (if db x 32 4 = 0 then db x 36 1 ≠ 0 else !(2 ≤ db x 36 1 && db x 36 1 ≤ 4)), it 37 (1 < db x 37 1),
      it 48 (db x 48 8 % 8 ≠ 0)] ++ rsvBytes x 38 39 ++ rsvBytes x 56 63
  | 0x02 | 0x05 | 0x07 => rsvBytes x 24 63
  | 0x03 => [it 24 (!(2 ≤ db x 24 1 && db x 24 1 ≤ 4))] ++ rsvBytes x 25 63
  | 0x04 => [it 24 (1 < db x 24 1), it 25 (3 < db x 25 1), it 26 (!bitOf (db x 25 1) 0 && db x 26 2 != 0)] ++ rsvBytes x 28 63
  | 0x06 | 0x08 => rsvBytes x 28 63
  | 0x10 => -- STEP_SUBMIT (R204)
    [it 4 (dbits x 4 13 19 ≠ 0 || (4096 < dbits x 4 0 13 && dbits x 4 0 13 != 8191))] ++ rsv x 56 63
  | 0x11 => -- PREFILL (R206)
    [it 36 (4096 < db x 36 4 && db x 36 4 != 0xFFFFFFFF), it 40 (1 < db x 40 1)] ++ rsv x 41 43 ++ rsv x 48 63
  | 0x12 => -- TUNE_STEP (R185)
    let fl := db x 54 1
    if bitOf fl 1 then
      [it 24 (db x 24 4 ≠ 0), it 28 (db x 28 4 ≠ 0), it 32 (db x 32 8 ≠ 0), it 40 (db x 40 4 ≠ 0), it 44 (db x 44 4 ≠ 0),
       it 48 (db x 48 4 ≠ 0), it 52 (db x 52 2 ≠ 0), it 54 (fl ≠ 2)] ++ rsv x 55 63
    else
      [it 24 (dbits x 24 26 6 ≠ 0), it 28 (4096 < db x 28 4 && db x 28 4 != 0xFFFFFFFF),
       it 48 (!(f32Finite (db x 48 4) && dbits x 48 31 1 == 0 && db x 48 4 != 0)),
       it 52 (if bitOf fl 0 then !(1 ≤ db x 52 2 && db x 52 2 ≤ 256) else db x 52 2 ≠ 0), it 54 (3 < fl)] ++ rsv x 55 63
  | 0x20 => -- OBJ_MOVE (R290)
    let kind := db x 24 1
    let one := kind == 1 && !bitOf (db x 26 1) 0
    [it 4 ((kind == 0x10 && dbits x 4 6 26 != 0) || (kind == 0x20 && dbits x 4 8 24 != 0)), it 24 (!([1, 2, 3, 4, 5, 6, 0x10, 0x20].contains kind)),
     it 25 (4 < db x 25 1 || !tierAllowed kind (db x 25 1)), it 26 (1 < db x 26 1),
     it 28 (if one then 2 ^ 18 < db x 28 4 + db x 32 4 else db x 28 4 ≠ 0),
     it 32 (if one then !(1 ≤ db x 32 4 && db x 32 4 ≤ 2 ^ 18) else db x 32 4 ≠ 0),
     it 36 (kind != 0x10 && db x 36 4 != 0)] ++ rsv x 27 27 ++ rsv x 40 63
  | 0x21 => -- OBJ_PLACE_HINT (R290, R292)
    let kind := db x 24 1
    [it 4 ((kind == 0x10 && dbits x 4 6 26 != 0) || (kind == 0x20 && dbits x 4 8 24 != 0)), it 24 (!(kind == 1 || kind == 0x10)),
     it 25 (!(db x 25 1 ≤ 4 || db x 25 1 == 0xFF) || (kind == 0x10 && db x 25 1 == 3)), it 28 (2 ^ 18 < db x 28 4)]
     ++ rsv x 26 26 ++ rsv x 27 27 ++ rsv x 32 35 ++ rsv x 36 39 ++ rsv x 40 63
  | 0x22 => -- OBJ_FREE (R290, R293)
    let kind := db x 24 1
    [it 4 ((kind == 0x10 && dbits x 4 6 26 != 0) || (kind == 0x20 && dbits x 4 8 24 != 0)), it 24 (!(kind == 6 || kind == 0x10 || kind == 0x20)),
     it 36 (kind != 0x10 && db x 36 4 != 0)]
     ++ rsv x 25 25 ++ rsv x 26 26 ++ rsv x 27 27 ++ rsv x 28 31 ++ rsv x 32 35 ++ rsv x 40 63
  | 0x30 => -- TABLE_LOAD (R240, R241)
    let kind := db x 54 1
    let fmt := db x 55 1
    let needs := db x 61 1 ≠ 0 || bitOf (db x 45 1) 1
    [it 4 (dbits x 4 6 26 ≠ 0), it 40 (db x 40 4 % 64 ≠ 0),
     it 44 (2 < db x 44 1 || (kind == 1 && db x 44 1 != 0) || (kind == 2 && db x 44 1 == 0)), it 45 (3 < db x 45 1),
     it 46 (!needs && db x 46 2 != 0), it 48 (db x 61 1 == 1 && db x 48 4 + 1 < 264), it 52 (!dimOk fmt (db x 52 2)),
     it 54 (!(kind == 1 || kind == 2)), it 55 (!(1 ≤ fmt && fmt ≤ 3)),
     it 56 (if kind = 2 then !(1 ≤ db x 56 4 && db x 56 4 ≤ 2 ^ 24) else db x 56 4 ≠ 0),
     it 60 (if kind = 2 then 1 < db x 60 1 else db x 60 1 ≠ 0), it 61 (8 < db x 61 1),
     it 62 (!([1, 2, 4].contains (db x 62 1)))] ++ rsv x 63 63
  | 0x31 => [it 4 (dbits x 4 6 26 ≠ 0), it 28 (3 < db x 28 1)] ++ rsv x 29 63
  | 0x32 => -- GATHER_POOL (R245)
    [it 4 (dbits x 4 6 26 ≠ 0), it 60 (4096 < db x 60 2 && db x 60 2 != 0xFFFF), it 62 (1 < db x 62 1)] ++ rsv x 63 63
  | 0x40 => -- SEARCH (R326)
    let k := db x 52 2
    [it 4 (dbits x 4 8 24 ≠ 0), it 52 (k != 0xFFFF && (1024 < k || db x 54 2 < k)), it 54 (!(1 ≤ db x 54 2 && db x 54 2 ≤ 1024)),
     it 58 (64 < db x 58 1 && db x 58 1 != 255), it 59 (8 ≤ db x 59 1 || (bitOf (db x 59 1) 1 && !bitOf (db x 59 1) 0))]
  | 0x41 => -- VEC_INSERT (R331)
    [it 4 (dbits x 4 8 24 ≠ 0), it 60 (4096 < db x 60 2 && db x 60 2 != 0xFFFF)]
  | 0x42 => -- VEC_DELETE (R333)
    [it 4 (dbits x 4 8 24 ≠ 0), it 40 (4096 < db x 40 2 && db x 40 2 != 0xFFFF)] ++ rsvBytes x 42 47 ++ rsvBytes x 60 63
  | 0x43 => -- INDEX_FOLD (R335)
    [it 4 (dbits x 4 8 24 ≠ 0), it 24 (!([0, 2, 4].contains (db x 24 1)))] ++ rsv x 25 63
  | 0x50 => -- SLATE_MARK (R388)
    let cancel := bitOf (db x 40 1) 0
    [it 4 (db x 4 4 ≠ 0), it 24 (cancel && db x 24 6 != 0),
     it 32 (if cancel then db x 32 4 ≠ 0 else db x 32 4 != 0 && !(250 ≤ db x 32 4 && db x 32 4 ≤ 600000)),
     it 36 (if cancel then db x 36 4 ≠ 0 else dbits x 36 18 14 != 0 || (if dbits x 36 17 1 = 1 then count ≤ dbits x 36 0 17 else db x 36 4 != 0)),
     it 40 (1 < db x 40 1)] ++ rsv x 30 31 ++ rsv x 41 63
  | 0x51 => -- RESTORE (R403, R406)
    let dev := bitOf (db x 28 1) 0
    [it 4 (dev && db x 4 4 != 0), it 28 (1 < db x 28 1), it 30 (!dev && db x 30 2 != 0), it 32 (!dev && db x 32 2 != 0),
     it 40 (!dev && db x 40 8 != 0), it 48 (!dev && db x 48 4 != 0)] ++ rsv x 29 29 ++ rsv x 34 39 ++ rsv x 52 63
  | 0x60 => -- SYNC_SIGNAL (R71)
    [it 4 (dbits x 4 17 15 ≠ 0 || count ≤ dbits x 4 0 17), it 36 (dbits x 36 0 2 == 3 || 8 ≤ db x 36 1)]
      ++ rsv x 32 35 ++ rsv x 37 63
  | 0x61 => [it 4 (dbits x 4 17 15 ≠ 0 || count ≤ dbits x 4 0 17)] ++ rsv x 36 36 ++ rsv x 37 63
  | 0x70 => -- RECIPE_LOAD (R148)
    [it 4 (dbits x 4 6 26 ≠ 0), it 32 (2 ^ 30 < db x 32 4 && db x 32 4 != 0xFFFFFFFF),
     it 48 ((1 ≤ db x 48 4 && db x 48 4 < 64) || (1056 < db x 48 4 && db x 48 4 != 0xFFFFFFFF)), it 52 (16 ≤ db x 52 1)]
      ++ rsv x 53 63
  | 0x71 => [it 4 (dbits x 4 6 26 ≠ 0)] ++ rsvBytes x 24 63
  | 0x78 => -- CONSTRAINT_LOAD (R261)
    if bitOf (db x 42 1) 0 then
      [it 4 (dbits x 4 8 24 ≠ 0), it 24 (db x 24 8 ≠ 0), it 32 (db x 32 4 ≠ 0), it 36 (db x 36 4 ≠ 0), it 40 (db x 40 2 ≠ 0),
       it 42 (db x 42 1 ≠ 1)] ++ rsv x 43 63
    else
      [it 4 (dbits x 4 8 24 ≠ 0), it 40 (db x 40 2 == 0 || (1024 < db x 40 2 && db x 40 2 != 0xFFFF)), it 42 (1 < db x 42 1)]
        ++ rsv x 43 63
  | 0x79 => -- STOP_SET (R267)
    [it 24 (db x 36 1 == 0 && db x 24 8 != 0), it 36 (16 < db x 36 1 && db x 36 1 != 255), it 37 (3 < db x 37 1),
     it 38 (!bitOf (db x 37 1) 1 && db x 38 1 != 0),
     it 40 (!(f32Finite (db x 40 4) && (dbits x 40 31 1 == 0 || db x 40 4 == 0x80000000))),
     it 44 (264 < db x 44 2),
     it 48 (!(db x 48 4 != 0 && db x 48 4 ≤ 0x3F800000))] ++ rsv x 39 39 ++ rsv x 46 47 ++ rsv x 52 63
  | 0x80 => -- CHECK_VALUE (R481)
    let alg := db x 52 1
    let mode := dbits x 53 0 2
    let width := match alg with | 1 => 4 | 2 => 4 | 3 => 8 | _ => 2
    [it 4 (dbits x 4 4 28 ≠ 0), it 52 (!(1 ≤ alg && alg ≤ 4)),
     it 53 (mode == 3 || 16 ≤ db x 53 1 || (dbits x 53 3 1 == 1 && mode != 0)),
     it 56 (if dbits x 53 2 1 = 1 then 2 ^ (8 * width) ≤ db x 56 8 else db x 56 8 ≠ 0)] ++ rsv x 54 55
  | 0xF0 => rsv x 4 7 ++ rsv x 24 63
  | _ => []

/-! ### Item 3: lengths and bounds (R65, R66, R502) -/

/-- A failed item-3 check: status and offset. -/
abbrev Item3 := Option (Nat × Nat)

/-- The first failed check of a list in ascending byte offset. -/
def firstFail (l : List Item3) : Item3 := l.findSome? id

/-- A failed check if the condition holds. -/
def failIf (c : Bool) (st off : Nat) : Item3 := if c then some (st, off) else none

/-- A length or count field of `w` bytes at `off`: all-ones, zero unless legal (R65). -/
def lenCheck (x : Desc) (off w : Nat) (zeroOk : Bool) : Item3 :=
  failIf (db x off w == 2 ^ (8 * w) - 1 || (db x off w == 0 && !zeroOk)) stInvalidLength off

/-- A bound field at `off` of the buffer whose address is at `addr`: all-ones, zero unless legal, or wrap (R65). -/
def boundCheck (x : Desc) (addr off : Nat) (zeroOk : Bool) : Item3 :=
  failIf (db x off 4 == 0xFFFFFFFF || (db x off 4 == 0 && !zeroOk) || 2 ^ 64 < db x addr 8 + db x off 4)
    stInvalidLength off

/-- A length larger than its bound (R65). -/
def overBound (x : Desc) (off bound : Nat) : Item3 := failIf (db x bound 4 < db x off 4) stBoundExceeded off

/-- An area of fixed size at the address field `addr` that would wrap (R502). -/
def wraps (x : Desc) (addr size : Nat) : Item3 := failIf (2 ^ 64 < db x addr 8 + size) stInvalidLength addr

/-- Does a batch list have a reserved bit set or a handle twice (R204)? -/
def batchBad (n : Nat) (list : List Byte) : Bool :=
  let hs := (List.range n).map (fun i => leAt list (8 * i) 4)
  (List.range n).any (fun i => 1 < leAt list (8 * i + 4) 1 || leAt list (8 * i + 5) 3 != 0) || !decide hs.Nodup

/-- Is an entry of a stop list malformed (R267)? -/
def stopEntryBad (e : List Byte) : Bool :=
  let n := leAt e 0 1
  !(1 ≤ n && n ≤ 64) || leAt e 1 7 != 0 || (e.drop (8 + n)).any (fun b => b != 0)

/-- Item-3 checks of each opcode. `gdim` is the dimension of the table a `GATHER_POOL` names. -/
def lenChecks (x : Desc) (list : List Byte) (gdim : Nat) : List Item3 :=
  match dOp x with
  | 0x01 => [wraps x 48 16]
  | 0x06 => [lenCheck x 24 4 true]
  | 0x08 => [lenCheck x 24 4 true]
  | 0x10 =>
    let n := dbits x 4 0 13
    [failIf (n == 0 || n == 8191) stInvalidLength 4, boundCheck x 24 32 false, lenCheck x 36 4 false, overBound x 36 32,
     failIf (db x 36 4 != 8 * n) stInvalidField 36, failIf (batchBad n list) stInvalidField 24,
     boundCheck x 40 48 false, failIf (db x 48 4 < 16 * n) stBoundExceeded 48]
  | 0x11 => [boundCheck x 24 32 false, lenCheck x 36 4 false, overBound x 36 32]
  | 0x12 =>
    if bitOf (db x 54 1) 1 then [] else
    [lenCheck x 28 4 false, boundCheck x 32 40 false, lenCheck x 44 4 false, overBound x 44 40,
     failIf (db x 44 4 != db x 28 4 + 1) stInvalidField 44]
  | 0x30 =>
    let size := rowBytes (db x 55 1) (db x 52 2)
    let k := if size = 0 then 0 else db x 36 4 / size
    [boundCheck x 24 32 false, failIf (bitOf (db x 45 1) 1 && db x 32 4 < db x 36 4 + 16) stBoundExceeded 32,
     lenCheck x 36 4 false, overBound x 36 32, failIf (size == 0 || db x 36 4 % size != 0
       || (k % 64 != 0 && db x 40 4 + k != partRows x)) stInvalidField 36,
     failIf (partRows x < db x 40 4 + k) stInvalidField 40]
  | 0x32 =>
    let bags := db x 60 2
    let ls := (List.range bags).map (fun i => leAt list (4 * i) 4)
    let none' := ls.all (fun v => v == 0)
    [boundCheck x 24 32 none', lenCheck x 36 4 none', overBound x 36 32,
     -- bag lengths that include an all-ones one have no sum
     failIf (!ls.any (fun v => v == 0xFFFFFFFF) && db x 36 4 != 4 * sumN ls) stInvalidField 36, wraps x 40 (4 * bags),
     failIf (ls.any (fun v => v == 0xFFFFFFFF)) stInvalidLength 40, boundCheck x 48 56 false,
     failIf (db x 56 4 < 4 * gdim * bags) stBoundExceeded 56, lenCheck x 60 2 false]
  | 0x40 =>
    let nq := db x 58 1
    let k := db x 52 2
    [boundCheck x 24 32 false, lenCheck x 36 4 false, overBound x 36 32, failIf (db x 36 4 != 4 * db x 56 2 * nq) stInvalidField 36,
     boundCheck x 40 48 false,
     failIf (db x 48 4 < 64 + 1024 * b2n (bitOf (db x 59 1) 0) + nq * (16 + 24 * k)) stBoundExceeded 48,
     lenCheck x 52 2 false, lenCheck x 58 1 false]
  | 0x41 =>
    let n := db x 60 2
    let status := db x 48 8 ≠ 0
    [boundCheck x 24 32 false, lenCheck x 36 4 false, overBound x 36 32,
     failIf (db x 36 4 != n * (8 + 4 * db x 62 2)) stInvalidField 36, wraps x 40 (if db x 40 8 = 0 then 0 else 576),
     boundCheck x 48 56 (!status), failIf (status && db x 56 4 < 8 * n) stBoundExceeded 56,
     failIf (!status && db x 56 4 != 0) stInvalidField 56, lenCheck x 60 2 false]
  | 0x42 =>
    let n := db x 40 2
    let status := db x 48 8 ≠ 0
    [boundCheck x 24 32 false, lenCheck x 36 4 false, overBound x 36 32, failIf (db x 36 4 != 8 * n) stInvalidField 36,
     lenCheck x 40 2 false, boundCheck x 48 56 (!status), failIf (status && db x 56 4 < n) stBoundExceeded 56,
     failIf (!status && db x 56 4 != 0) stInvalidField 56]
  | 0x51 => if bitOf (db x 28 1) 0 then [boundCheck x 40 48 false] else []
  | 0x61 => [lenCheck x 32 4 true]
  | 0x70 => [lenCheck x 32 4 false, overBound x 32 36, boundCheck x 24 36 false, boundCheck x 40 48 false]
  | 0x78 =>
    if bitOf (db x 42 1) 0 then [] else
    [boundCheck x 24 32 false, lenCheck x 36 4 false, overBound x 36 32, lenCheck x 40 2 true]
  | 0x79 =>
    let n := db x 36 1
    [boundCheck x 24 32 (n == 0), failIf (db x 32 4 < 72 * n) stBoundExceeded 32,
     failIf (n == 0 && db x 32 4 != 0) stInvalidField 32,
     failIf ((List.range n).any (fun i => stopEntryBad ((list.drop (72 * i)).take 72)) && n != 255) stInvalidField 24,
     failIf (n == 255) stInvalidLength 36]
  | 0x80 =>
    let len := db x 36 4
    let width := match db x 52 1 with | 1 => 4 | 2 => 4 | 3 => 8 | _ => 2
    let need := match dbits x 53 0 2 with | 0 => 16 | 1 => len + width | _ => len - width
    [boundCheck x 24 32 false, lenCheck x 36 4 false, overBound x 36 32,
     failIf (dbits x 53 0 2 == 2 && len ≤ width) stInvalidField 36, boundCheck x 40 48 false,
     failIf (db x 48 4 < need) stBoundExceeded 48]
  | _ => []

/-! ### Item 4: the enables of the blocks (R505) -/

/-- The `enable` fields that must be set for an opcode. -/
def blocksOf (x : Desc) : List Fd :=
  let op := dOp x
  (if (dWait x).2.1 ≠ 0 ∨ (dSignal x).2.1 ≠ 0 ∨ op = 0x60 ∨ op = 0x61 then [Fd.SYN_CTL_enable] else []) ++
  (if 0x01 ≤ op ∧ op ≤ 0x08 then
    [Fd.CTX_CTL_enable, Fd.ATN_CTL_enable, Fd.MEM_CTL_enable, Fd.DLY_CTL_enable, Fd.TXT_CTL_enable, Fd.MAP_CTL_enable]
  else if 0x10 ≤ op ∧ op ≤ 0x12 then
    [Fd.CTX_CTL_enable, Fd.ATN_CTL_enable, Fd.ARR_CTL_enable, Fd.MEM_CTL_enable, Fd.DLY_CTL_enable, Fd.TXT_CTL_enable,
     Fd.LNK_CTL_enable]
  else if 0x20 ≤ op ∧ op ≤ 0x22 then
    [Fd.MEM_CTL_enable, Fd.DLY_CTL_enable] ++ (if db x 24 1 = 0x20 then [Fd.FLS_CTL_enable] else [])
  else if 0x30 ≤ op ∧ op ≤ 0x32 then
    [Fd.TXT_CTL_enable, Fd.MEM_CTL_enable] ++ (if op = 0x30 ∧ bitOf (db x 45 1) 1 then [Fd.SEC_CTL_enable] else [])
  else if 0x40 ≤ op ∧ op ≤ 0x43 then [Fd.FLS_CTL_enable]
  else if op = 0x50 ∨ op = 0x51 then
    [Fd.CKP_CTL_enable, Fd.CTX_CTL_enable, Fd.MEM_CTL_enable, Fd.DLY_CTL_enable] ++
    (if op = 0x51 ∧ bitOf (db x 28 1) 0 then [Fd.MAP_CTL_enable, Fd.LNK_CTL_enable] else [])
  else if op = 0x70 ∨ op = 0x71 then [Fd.ARR_CTL_enable, Fd.MEM_CTL_enable, Fd.SEC_CTL_enable]
  else if op = 0x78 ∨ op = 0x79 then [Fd.TXT_CTL_enable]
  else if op = 0x80 then [Fd.CVU_CTL_enable]
  else [])

/-- The opcodes of the table (R60). -/
def opcodes : List Nat :=
  [0x01, 0x02, 0x03, 0x04, 0x05, 0x06, 0x07, 0x08, 0x10, 0x11, 0x12, 0x20, 0x21, 0x22, 0x30, 0x31, 0x32, 0x40, 0x41, 0x42,
   0x43, 0x50, 0x51, 0x60, 0x61, 0x70, 0x71, 0x78, 0x79, 0x80, 0xF0]

/-- The first group of checks (R63): the status and result of the first check that fails. -/
def firstCheck (d : Dev) (client : Nat) (x : Desc) (list : List Byte) : Option (Nat × Nat) :=
  if !opcodes.contains (dOp x) then some (stInvalidOpcode, 0) else
  let count := fget d Fd.SEQ_CLIENT_SYNC_sync_count client
  match lowest (commonFaults x count ++ opFaults x count) with
  | some off => some (stInvalidField, off)
  | none =>
    let gdim := match (mget d.txt.tbl {} (dbits x 4 0 6)).cur with | some v => v.dim | none => 0
    match firstFail (lenChecks x list gdim) with
    | some r => some r
    | none => if (blocksOf x).all (fun f => fbit d f) then none else some (stBusyRetry, 1)

end Sys2Proof.Machine
end

