-- ==== Sys2Proof/Machine/Sync.lean ====
section
/-!
DEFINITION. Sys2Proof/Machine/Sync.lean: sync objects (02 R68 to R73, R510): signals, failure marks, waits, mirrors.
-/

namespace Sys2Proof.Machine

/-- The device's sync objects (R68). -/
def syncCount : Nat := 131072

/-- A client's range (R510): base and count. -/
def syncRange (d : Dev) (client : Nat) : Nat × Nat :=
  (fget d Fd.SEQ_CLIENT_SYNC_sync_base client, fget d Fd.SEQ_CLIENT_SYNC_sync_count client)

/-- The absolute number of a relative object. -/
def syncAbs (d : Dev) (client rel : Nat) : Nat := (syncRange d client).1 + rel

/-- The state of an object. -/
def syncObj (d : Dev) (obj : Nat) : SynObj := mget d.syn.objs {} obj

/-- The mirror write of one client for one of its objects (R72): 16 bytes at `mirror_base`, for the ring that caused it. -/
def mirrorWrite (d : Dev) (client obj : Nat) (ring : Nat := 0) : Dev :=
  let (base, count) := syncRange d client
  if fbit d Fd.SEQ_CLIENT_MIRROR_mirror_en client ∧ base ≤ obj ∧ obj < base + count then
    let o := syncObj d obj
    hostWrite d ring (fget d Fd.SEQ_CLIENT_MIRROR_mirror_base client * 16 + 16 * (obj - base))
      (leBytes 8 o.ctr.toNat ++ leBytes 8 (match o.mark with | none => 2 ^ 64 - 1 | some m => m.toNat))
  else d

/-- The client whose range holds an object (R70): the lowest, since ranges must not overlap. -/
def syncOwner (d : Dev) (obj : Nat) : Option Nat :=
  (List.range 256).find? (fun c => (syncRange d c).1 ≤ obj && obj < (syncRange d c).1 + (syncRange d c).2)

/-- Make the mirror write of the owner of an object (R72). -/
def mirrorObj (d : Dev) (obj : Nat) (ring : Nat := 0) : Dev :=
  match syncOwner d obj with
  | none => d
  | some c => mirrorWrite d c obj ring

/-- Store an object. -/
def syncPut (d : Dev) (obj : Nat) (o : SynObj) : Dev := { d with syn := { d.syn with objs := mset d.syn.objs {} obj o } }

/-- Store an object and, if that changes it, make the mirror write of its owner (R72). -/
def syncStore (d : Dev) (obj : Nat) (o : SynObj) (ring : Nat := 0) : Dev :=
  if o = syncObj d obj then d else mirrorObj (syncPut d obj o) obj ring

/-- Apply an operation to an object of a client (R68, R70): op 1 adds, op 2 takes the maximum; a saturating add writes
a report of class SYNC; a failed signaller lowers the failure mark to the value produced. Without `mirror` the mirror
write is left for the completion of the signalling descriptor (R72). -/
def syncApply (d : Dev) (client rel op value : Nat) (failed : Bool) (mirror : Bool := true) (ring : Nat := 0) : Dev :=
  if op = 1 ∨ op = 2 then
    let obj := syncAbs d client rel
    let o := syncObj d obj
    let sum := o.ctr.toNat + value
    let carries := op = 1 ∧ 2 ^ 64 ≤ sum
    let ctr : BitVec 64 :=
      if op = 1 then (if 2 ^ 64 ≤ sum then BitVec.allOnes 64 else BitVec.ofNat 64 sum)
      else BitVec.ofNat 64 (max o.ctr.toNat value)
    let mark := if failed then
        some (match o.mark with | none => ctr | some m => if m.toNat ≤ ctr.toNat then m else ctr)
      else o.mark
    let d := if mirror then syncStore d obj { ctr := ctr, mark := mark } ring else syncPut d obj { ctr := ctr, mark := mark }
    if carries then
      (reportWith d { cls := clsSync, unit := 17, action := 0, detailA := obj, client := syncOwner d obj }
        (obj - (syncRange d ((syncOwner d obj).getD 0)).1)).1
    else d
  else d

/-- The outcome of testing a wait (R69). -/
inductive WaitRes where
  | met
  | failed (mark : Nat)
  | blocked
  deriving DecidableEq, Repr

/-- Test a wait for a value on an object (R69). -/
def waitTest (o : SynObj) (v : Nat) : WaitRes :=
  match o.mark with
  | some m => if m.toNat ≤ v then .failed m.toNat else if v ≤ o.ctr.toNat then .met else .blocked
  | none => if v ≤ o.ctr.toNat then .met else .blocked

end Sys2Proof.Machine
end

