-- ==== Sys2Proof/Machine/Rings.lean ====
section
/-!
DEFINITION. Sys2Proof/Machine/Rings.lean: submission and completion rings (02 R46 to R59, R507, R509): fetch,
completion in ring order, stall, signals after completions, interrupts, and the conditions of dispatch (R63).
-/

namespace Sys2Proof.Machine

/-! ### Configuration of a ring -/

def sqOf (d : Dev) (n : Nat) : Sq := mget d.seq.sq {} n
def cqOf (d : Dev) (n : Nat) : Cq := mget d.seq.cq {} n
def strOf (d : Dev) (n : Nat) : StrRing := mget d.seq.str {} n

def setSq (d : Dev) (n : Nat) (q : Sq) : Dev := { d with seq := { d.seq with sq := mset d.seq.sq {} n q } }
def setCq (d : Dev) (n : Nat) (q : Cq) : Dev := { d with seq := { d.seq with cq := mset d.seq.cq {} n q } }
def setStr (d : Dev) (n : Nat) (q : StrRing) : Dev := { d with seq := { d.seq with str := mset d.seq.str {} n q } }

/-- Owning client of a submission ring (R46). -/
def sqClient (d : Dev) (n : Nat) : Nat := fget d Fd.SEQ_SQ_CFG_client n
/-- Completion ring a submission ring names (R46). -/
def sqCq (d : Dev) (n : Nat) : Nat := fget d Fd.SEQ_SQ_CFG_cq n
def sqOpenBit (d : Dev) (n : Nat) : Bool := fbit d Fd.SEQ_SQ_CFG_open n
def cqOpenBit (d : Dev) (n : Nat) : Bool := fbit d Fd.SEQ_CQ_CFG_open n
def strOpenBit (d : Dev) (n : Nat) : Bool := fbit d Fd.SEQ_STR_CFG_open n

/-- Free entries of a completion ring beyond those reserved (R49, R509). -/
def cqFree (d : Dev) (n : Nat) : Nat :=
  ringFree (fget d Fd.SEQ_CQ_CFG_size_log2 n) (cqOf d n).tail (cqOf d n).cons - (cqOf d n).reserved

/-- No engine runs: RESET_N is low. -/
def inReset (d : Dev) : Bool := d.sys.resetLow

/-- The device neither fetches nor dispatches: reset, TDISP ERROR (R44), a fatal fault (R470), `SEQ_CTL.enable`
clear (R48). -/
def seqHalted (d : Dev) : Bool :=
  inReset d || d.hst.tdisp == .error || d.sys.fatal || !fbit d Fd.SEQ_CTL_enable

/-! ### Flights -/

/-- Change one flight of a ring. -/
def updFlight (d : Dev) (ring id : Nat) (f : Flight → Flight) : Dev :=
  let q := sqOf d ring
  setSq d ring { q with flights := q.flights.map (fun x => if x.id = id then f x else x) }

/-- A flight of a ring. -/
def flightOf (d : Dev) (ring id : Nat) : Option Flight := (sqOf d ring).flights.find? (fun x => x.id == id)

/-- Is a status an error for `stop_on_error` (R59)? -/
def stalls (st : Nat) : Bool := 0x10 ≤ st && st != stCut

/-- Did the descriptor succeed (R68)? -/
def isOk (st : Nat) : Bool := st == stOK || st == stTruncated

/-- Raise a completion ring's interrupt (R51). -/
def cqInterrupt (d : Dev) (cq : Nat) : Dev :=
  if fbit d Fd.SEQ_CQ_CFG_irq_en cq then
    setCq (send d (.msix (fget d Fd.SEQ_CQ_CFG_vector cq))) cq { cqOf d cq with since := 0 }
  else setCq d cq { cqOf d cq with since := 0 }

/-- Write the completion of a flight (R59): 16 bytes at the ring's write index; moderation and `irq` (R51). A quiet
`OK` writes none and returns its reservation (R49). -/
def writeCompletion (d : Dev) (ring : Nat) (f : Flight) : Dev :=
  let cq := sqCq d ring
  let c := cqOf d cq
  if dQuiet f.desc ∧ f.status = stOK then setCq d cq { c with reserved := c.reserved - 1 } else
  let k := fget d Fd.SEQ_CQ_CFG_size_log2 cq
  let d := hostWrite d cq (fget d Fd.SEQ_CQ_BASE_base cq * 4096 + 16 * c.tail)
    (fields [(dTag f.desc, 2), (f.status, 1), (b2n c.phase, 1), (ring, 2), (f.result, 4), (now d % 2 ^ 48, 6)])
  let (t, p) := ringStep k c.tail c.phase
  let first := if c.since = 0 then up d else c.firstAt
  let d := setCq d cq { c with tail := t, phase := p, reserved := c.reserved - 1, since := c.since + 1, firstAt := first }
  if dIrq f.desc ∨ max 1 (fget d Fd.SEQ_CQ_MOD_count cq) ≤ c.since + 1 then cqInterrupt d cq else d

/-- Deliver the oldest flight of a ring, which is done (P1, R59, R68): its completion, the mirror write of its own
operation (R72), its signal, and the stall. -/
def deliverOne (d : Dev) (ring : Nat) (f : Flight) : Dev :=
  let q := sqOf d ring
  let d := setSq d ring { q with flights := q.flights.drop 1 }
  let d := writeCompletion d ring f
  let d := if f.changed then mirrorObj d (syncAbs d (sqClient d ring) (dbits f.desc 4 0 17)) ring else d
  let (so, sm, sv) := dSignal f.desc
  let d := if f.noSignal then d else syncApply d (sqClient d ring) so sm sv (!isOk f.status) true ring
  if stalls f.status ∧ fbit d Fd.SEQ_SQ_CFG_stop_on_error ring ∧ !(sqOf d ring).stalled then
    let q := sqOf d ring
    raise (setSq d ring { q with stalled := true, stallTag := dTag f.desc, stallStatus := f.status })
      Fd.SEQ_EVT_ring_stalled
  else d

/-- The rings that have fetched descriptors, in ascending number. -/
def busyRings (d : Dev) : List Nat := keys d.seq.sq

/-- The oldest flight of a ring if it can be delivered: done, dispatched before if the ring is stalled (R59), interface
not in ERROR (R44). -/
def deliverable (d : Dev) (ring : Nat) : Option Flight :=
  match (sqOf d ring).flights with
  | [] => none
  | f :: _ => if f.phase = .done ∧ (f.ran || !(sqOf d ring).stalled) ∧ d.hst.tdisp ≠ .error then some f else none

/-- The own wait of a `SYNC_WAIT` that is being tested (R71): the outcome once it is decided. -/
def ownWait (d : Dev) (ring : Nat) : Option (Flight × Nat × Nat) :=
  match (sqOf d ring).flights.find? (fun f => f.phase == .waiting) with
  | none => none
  | some f =>
    if dOp f.desc = 0x61 ∧ f.testedAt.isSome then
      match waitTest (syncObj d (syncAbs d (sqClient d ring) (dbits f.desc 4 0 17))) (db f.desc 24 8) with
      | .met => some (f, stOK, 0)
      | .failed m => some (f, stDependencyFailed, m % 2 ^ 32)
      | .blocked => none
    else none

/-- Mark a flight done; one that has ended already stays as it is. -/
def markDone (d : Dev) (ring id st res : Nat) : Dev :=
  updFlight d ring id (fun f => if f.phase = .done then f else { f with phase := .done, status := st, result := res, ran := f.ran || isOk st })

/-! ### Stage 3 (R63) -/

/-- Step-group opcodes commit at their commit point (R63). -/
def stepGroup (x : Desc) : Bool := dOp x == 0x10 || dOp x == 0x11 || dOp x == 0x12

/-- Has an earlier descriptor passed, for a session it names, the point up to which it holds back later ones (R63)? A step of a
batch has once it is finished, other work of the step group once it is done, and a failed command; any other command only once
its completion is written. -/
def pastSession (e : Flight) (h : Nat) : Bool :=
  (e.phase == .done && (stepGroup e.desc || !isOk e.status)) || (dOp e.desc == 0x10 && e.entries.any (fun x => x.handle == h && x.finished))

/-- Does an earlier flight still hold back a later one that names the same session (R63, stage 3)? -/
def holdsBack (e : Flight) (f : Flight) : Bool :=
  (namedSessions e.desc e.list).any (fun h => (namedSessions f.desc f.list).contains h && !pastSession e h)

/-- Where the oldest undispatched descriptor of a ring stands in stage 3. -/
inductive Ready where
  /-- It must wait (fence, an earlier command of the session, the wait condition, a stall, a unit in reset). -/
  | waits
  /-- Its wait can no longer succeed (R69). -/
  | fails (mark : Nat)
  | ready (f : Flight)
  deriving DecidableEq, Repr

/-- Test the conditions of stage 3 in their order (R63): fence, earlier commands of the session, wait condition. A dispatched
command that holds its ring keeps the descriptors behind it (R52, R218), and a wait that has been met stays met (R69). -/
def stageThree (d : Dev) (ring : Nat) : Option (Flight × Ready) :=
  if seqHalted d ∨ (sqOf d ring).stalled ∨ (sqOf d ring).draining then none else
  match (sqOf d ring).flights.find? (fun f => f.phase == .waiting) with
  | none => none
  | some f =>
    let earlier := (sqOf d ring).flights.filter (fun e => e.id < f.id)
    if (dFence f.desc ∧ !earlier.isEmpty) ∨ earlier.any (fun e => e.holds && e.phase == .dispatched) then some (f, .waits)
    else if earlier.any (fun e => holdsBack e f) then some (f, .waits)
    else
      let (wo, wm, wv) := dWait f.desc
      if wm = 1 ∧ !f.waited then
        match waitTest (syncObj d (syncAbs d (sqClient d ring) wo)) wv with
        | .met => some (f, .ready f)
        | .failed m => some (f, .fails m)
        | .blocked => some (f, .waits)
      else some (f, .ready f)

/-- The descriptor wait at the head of a ring, tested after every change (R69): it has just been met, or has failed. -/
def headWait (d : Dev) (ring : Nat) : Option (Flight × Option Nat) :=
  match stageThree d ring with
  | some (f, .fails m) => some (f, some m)
  | some (f, .ready _) => if (dWait f.desc).2.1 = 1 ∧ !f.waited then some (f, none) else none
  | _ => none

/-- One move towards rest: deliver the oldest flight of the lowest ring that can be delivered (R51), else decide the
own wait of a `SYNC_WAIT`, else a descriptor wait (R69: waits are tested again after every change). -/
def settleOne (d : Dev) : Option Dev :=
  match (busyRings d).findSome? (fun r => (deliverable d r).map (fun f => (r, f))) with
  | some (r, f) => some (deliverOne d r f)
  | none =>
    match (busyRings d).findSome? (fun r => (ownWait d r).map (fun w => (r, w))) with
    | some (r, f, st, res) => some (markDone d r f.id st res)
    | none =>
      match (busyRings d).findSome? (fun r => (headWait d r).map (fun w => (r, w))) with
      | some (r, f, some m) => some (markDone d r f.id stDependencyFailed (m % 2 ^ 32))
      | some (r, f, none) => some (updFlight d r f.id (fun g => { g with waited := true }))
      | none => none

/-- Move towards rest while something can move, by fuel. -/
def settleBy : Nat → Dev → Dev
  | 0, d => d
  | n + 1, d => match settleOne d with | none => d | some d' => settleBy n d'

/-- Every completion and signal that can be written is written, and every wait tested. Each flight has its wait met, is decided and
is delivered at most once, so three times their number is enough. -/
def settle (d : Dev) : Dev :=
  settleBy (3 * sumN ((busyRings d).map (fun r => (sqOf d r).flights.length))) d

/-- A descriptor ends with a status and a result (R17). -/
def finish (d : Dev) (ring id st res : Nat) : Dev := settle (markDone d ring id st res)

/-- A descriptor has passed its checks and is dispatched (R16). -/
def dispatched (d : Dev) (ring id : Nat) : Dev := updFlight d ring id (fun f => { f with phase := .dispatched, ran := true })

/-! ### Fetch (R507, R49, R63 first group) -/

/-- May a descriptor be fetched (R45, R48, R49, R507)? -/
def mayFetch (d : Dev) (ring : Nat) : Bool :=
  let q := sqOf d ring
  !seqHalted d && hostPath d && sqOpenBit d ring && !q.stalled && q.head != q.tail && decide (q.flights.length ≤ 256)
    && decide (0 < cqFree d (sqCq d ring))

/-- A descriptor arrives at its sequencer: completion space is reserved and the first group of checks is made. -/
def fetch (d : Dev) (ring : Nat) (x : Desc) (list : List Byte) : Dev :=
  if mayFetch d ring then
    let q := sqOf d ring
    let cq := sqCq d ring
    let d := setCq d cq { cqOf d cq with reserved := (cqOf d cq).reserved + 1 }
    let entries := if dOp x = 0x10 then
        (List.range (dbits x 4 0 13)).map (fun i =>
          ({ handle := leAt list (8 * i) 4, single := bitOf (leAt list (8 * i + 4) 1) 0 } : EntryRes))
      else []
    -- R58: a descriptor whose own wait or signal field fails applies no signal
    let bad := (commonFaults x (syncRange d (sqClient d ring)).2).any (fun p => p.1 != 1 && p.2)
    let f : Flight := { id := q.nextId, desc := x, list := list, fetchTc := up d, entries := entries, noSignal := bad }
    let d := setSq d ring { q with head := (q.head + 1) % 2 ^ fget d Fd.SEQ_SQ_CFG_size_log2 ring, flights := q.flights ++ [f], nextId := q.nextId + 1 }
    match firstCheck d (sqClient d ring) x list with
    | none => settle d
    | some (st, res) => finish d ring f.id st res
  else d

/-- `DESCRIPTOR_FETCH` (R507). -/
def execDescriptorFetch (ring : Nat) (descriptor : Desc) (list : List Byte) (s : State) :
    Host.Outcome State Fault Refusal := lift (fun d => fetch d ring descriptor list) s

/-! ### Dispatch (R63, stage 3 of the control path) -/

/-- Tiers that hold the pages of a session. -/
def sessTiers (d : Dev) (h : Nat) : List Nat := (vals (mget d.ctx.recs ({} : Rec) (h % 2 ^ 24)).pages).map (fun l => l.tier)

/-- Tiers that hold the pages of the current version of a table, or of its version `v`. -/
def tableTiers (d : Dev) (n : Nat) (v : Option Nat) : List Nat :=
  let t : Tbl := mget d.txt.tbl {} n
  ((t.cur.toList ++ t.staged.toList ++ t.old).filter (fun x => match v with | some v => x.num == v | none => (t.cur.map (fun c => c.num)) == some x.num)).flatMap
    (fun x => (vals x.pages).map (fun l => l.tier))

/-- Tiers that hold the pages of an index. -/
def indexTiers (d : Dev) (n : Nat) : List Nat := (vals (mget d.fls.idx ({} : Idx) n).base.pages).map (fun l => l.tier)

/-- Tiers whose memories an operation reads or writes pages in. -/
def tiersOf (d : Dev) (x : Desc) (list : List Byte) : List Nat :=
  let op := dOp x
  let sess := (namedSessions x list).flatMap (sessTiers d)
  if op = 0x03 then db x 24 1 :: sess
  else if op = 0x04 ∨ op = 0x10 ∨ op = 0x11 ∨ op = 0x12 then sess
  else if op = 0x20 then
    let kind := db x 24 1
    db x 25 1 :: (if kind = 0x10 then tableTiers d (dbits x 4 0 6) (some (db x 36 4))
      else if kind = 0x20 then indexTiers d (dbits x 4 0 8) else sess)
  else if op = 0x30 then [db x 62 1]
  else if op = 0x32 then tableTiers d (dbits x 4 0 6) none
  else if 0x40 ≤ op ∧ op ≤ 0x43 then indexTiers d (dbits x 4 0 8)
  else []

/-- Units a descriptor's operation needs, by bit of the unit table (R101, R103): those of its opcode, the far memory controllers for
pages in T2 and the flash controllers for pages in T4, and the security unit to unwrap rows. -/
def unitsOf (d : Dev) (x : Desc) (list : List Byte) : List Nat :=
  let ts := tiersOf d x list
  opUnits x ++ (if ts.contains 2 then [8] else []) ++ (if ts.contains 4 then [4] else [])
    ++ (if dOp x = 0x30 ∧ bitOf (db x 45 1) 1 then [6] else [])
where opUnits (x : Desc) : List Nat :=
  let op := dOp x
  if op = 0x10 ∨ op = 0x11 ∨ op = 0x12 then [0, 1, 2]
  else if op = 0x03 ∨ op = 0x04 ∨ op = 0x20 then [3]
  else if op = 0x30 ∨ op = 0x32 then [1]
  else if op = 0x40 ∨ op = 0x41 ∨ op = 0x42 ∨ op = 0x43 then [4]
  else if op = 0x50 ∨ op = 0x51 then [5]
  else if op = 0x70 then [6]
  else if op = 0x80 then [7]
  else []

/-- Is a unit in reset (R103)? -/
def unitInReset (d : Dev) (u : Nat) : Bool := (look d.sys.unitRst u).isSome

/-- The oldest undispatched descriptor of a ring goes through stage 3 and on to `go`, which makes its second group of
checks and carries it out, if it has the opcode. A wait that can no longer succeed ends it with `DEPENDENCY_FAILED`;
a unit in reset holds it (R103). -/
def dispatch (d : Dev) (ring op : Nat) (go : Dev → Flight → Dev) : Dev :=
  match stageThree d ring with
  | none => d
  | some (f, r) =>
    if dOp f.desc ≠ op then d else
    match r with
    | .waits => d
    | .fails m => finish d ring f.id stDependencyFailed (m % 2 ^ 32)
    | .ready f => if (unitsOf d f.desc f.list).any (unitInReset d) then d else go d f

/-- The groups that wait for timecode and stage LINKS (R25, R95). -/
def gatedGroup (x : Desc) : Bool :=
  let op := dOp x
  (0x01 ≤ op && op ≤ 0x08) || (0x10 ≤ op && op ≤ 0x12) || (0x20 ≤ op && op ≤ 0x22) || (0x40 ≤ op && op ≤ 0x43)
    || op == 0x50 || op == 0x51

/-- The first check of the second group (R25, R95, R373): `BUSY_RETRY` before timecode is acquired or stage LINKS, and
on an isolated device. -/
def timeGate (d : Dev) (x : Desc) : Option (Nat × Nat) :=
  if gatedGroup x ∧ d.map.isolated then some (stBusyRetry, fget d Fd.MAP_HB_period * fget d Fd.MAP_HB_miss) else
  if gatedGroup x ∧ (!d.tc.acquired ∨ d.sys.stage < 7 ∨ d.sys.stage = 15) then some (stBusyRetry, 100)
  else if dOp x = 0x70 ∧ d.sys.stage ≠ 8 then some (stBusyRetry, 100)
  else none

/-- Dispatch behind the time gate. -/
def dispatchGated (d : Dev) (ring op : Nat) (go : Dev → Flight → Dev) : Dev :=
  dispatch d ring op (fun d f => match timeGate d f.desc with
    | some (st, res) => finish d ring f.id st res
    | none => go d f)

/-! ### Fatal fault (R470) and unfinished work of rings -/

/-- Every flight that is not done ends with a status (result 0). -/
def endAll (d : Dev) (ring st : Nat) : Dev :=
  let q := sqOf d ring
  setSq d ring { q with
    flights := q.flights.map (fun f => if f.phase = .done then f else { f with phase := .done, status := st, result := 0 }) }

/-- The contexts give up their work: slots that ran or were saved are open again, and no team runs. -/
def dropWork (d : Dev) : Dev :=
  let ctx := { d.ctx with slots := d.ctx.slots.map (fun p => (p.1, { p.2 with
    work := none, state := if p.2.state = .running ∨ p.2.state = .saved then .opened else p.2.state })) }
  { d with ctx := ctx, fab := { d.fab with teams := [] } }

/-- A fatal fault (R470): `fatal` is set and recorded, and every fetched descriptor ends with `UNIT_FAILED`. -/
def fatalFault (d : Dev) (unit : Nat) : Dev :=
  if d.sys.fatal then d else
  let d := raise { d with sys := { d.sys with fatal := true } } Fd.FLT_EVT_fatal
  let d := (report d { cls := clsFatal, unit := unit, action := 2 }).1
  settle ((busyRings d).foldl (fun d r => endAll d r stUnitFailed) (dropWork d))

end Sys2Proof.Machine
end

