-- ==== Sys2Proof/Machine/RegOps.lean ====
section
/-!
DEFINITION. Sys2Proof/Machine/RegOps.lean: the access rules of register fields (00 R5 to R11): which field a write
changes, and when it raises `cfg_ignored`; and host areas that registers name (02 R502).
-/

namespace Sys2Proof.Machine

/-- The register at a window offset, with the number of its copy (R74, R75). -/
def regAt (off : Nat) : Option (RegDef × Nat) :=
  regTable.findSome? (fun r =>
    if r.off ≤ off ∧ (off - r.off) % r.stride = 0 ∧ (off - r.off) / r.stride < r.count
    then some (r, (off - r.off) / r.stride) else none)

/-- The stored word of a register: its RW, WD and WP fields as last written. -/
def rawWord (d : Dev) (r : RegDef) (bank : Nat) : Nat :=
  sumN (r.flds.map (fun f => match f.acc with
    | .rw | .wd | .wp => fget d ⟨r.off, f.lo, f.width, f.reset⟩ bank * 2 ^ f.lo
    | _ => 0))

/-- One field of a write (R7, R8): RW and WP take the value; WD takes it while the block is not enabled, and otherwise
stays, which is reported if the write would have changed it. Other fields ignore the write. -/
def fieldWrite (off bank word : Nat) (enabled : Bool) (s : Dev × Bool) (f : FldDef) : Dev × Bool :=
  let fd : Fd := ⟨off, f.lo, f.width, f.reset⟩
  let v := bitsOf word f.lo f.width
  match f.acc with
  | .rw | .wp => (fset s.1 fd v bank, s.2)
  | .wd => if fget s.1 fd bank = v then s else if enabled then (s.1, true) else (fset s.1 fd v bank, s.2)
  | _ => s

/-- A write that reaches a register (R8): answers whether some WD field ignored it. -/
def regStore (d : Dev) (r : RegDef) (bank word : Nat) (enabled : Bool) : Dev × Bool :=
  r.flds.foldl (fieldWrite r.off bank word enabled) (d, false)

/-- A write with `cfg_ignored` for ignored WD fields (R8). -/
def regWrite (d : Dev) (r : RegDef) (bank addr word : Nat) (enabled : Bool) : Dev :=
  let (d', ig) := regStore d r bank word enabled
  if ig then cfgIgnored d' addr else d'

/-- The register defined at an offset, for the rows whose register is fixed. -/
def regDef (off : Nat) : RegDef := match regAt off with | some (r, _) => r | none => ⟨off, 8, 1, []⟩

/-- Window offset of copy `n` of a register. -/
def copyAddr (off stride n : Nat) : Nat := off + stride * n

/-- Would an area of `size` bytes at `base` run past 2^64 (R502)? -/
def areaWraps (base size : Nat) : Bool := 2 ^ 64 < base + size

/-! ### Stream records (R52, R50, R276) -/

/-- Free records of a stream ring (R509). -/
def strFree (d : Dev) (s : Nat) : Nat :=
  ringFree (fget d Fd.SEQ_STR_CFG_size_log2 s) (strOf d s).tail (strOf d s).cons

/-- Write one 64-byte record, with its phase bit (R276). -/
def strPut (d : Dev) (s : Nat) (bytes : List Byte) : Dev :=
  let q := strOf d s
  let b0 := leAt bytes 0 1
  let d := hostWrite d s (fget d Fd.SEQ_STR_BASE_base s * 4096 + 64 * q.tail)
    (padTo 64 (BitVec.ofNat 8 (b0 + 128 * b2n q.phase) :: bytes.drop 1))
  let (t, p) := ringStep (fget d Fd.SEQ_STR_CFG_size_log2 s) q.tail q.phase
  setStr d s { q with tail := t, phase := p }

/-- Write a record of a step from its hold (R52). -/
def strPutHeld (d : Dev) (s : Nat) (bytes : List Byte) : Dev :=
  let d := strPut d s bytes
  setStr d s { strOf d s with held := (strOf d s).held - 1 }

/-- May a step be dispatched: six records beyond the standing reserve of two, and none waiting (R52)? -/
def strReady (d : Dev) (s : Nat) : Bool := 8 ≤ strFree d s && (strOf d s).waiting.isEmpty

/-- A command without a ring of its own (automatic records). -/
def noRing : Nat := 512

/-- A cut whose record has been written is finished: the context takes the state before the cut, with RUNNING and SAVED
read as OPEN (R202, R224). -/
def cutFinished (d : Dev) (s : Nat) : Dev :=
  let sl : Slot := mget d.ctx.slots {} s
  if sl.state = .cutPending then
    let paused := (mget d.ctx.recs ({} : Rec) sl.rcd).state = .paused
    { d with ctx := { d.ctx with slots := mset d.ctx.slots {} s { sl with state := if paused then .paused else .opened } } }
  else d

/-- A command that may not complete before its record is written ends: at once, or when it no longer holds its ring (R52). -/
def endHeld (d : Dev) (ring id st res : Nat) : Dev :=
  if (flightOf d ring id).any (fun f => f.holds) then updFlight d ring id (fun f => { f with ending := some (st, res) })
  else finish d ring id st res

/-- The record of a command that goes on beside it is written (R52): the ring is no longer held, and the command completes if it
has ended meanwhile. -/
def gateOpen (d : Dev) (ring id : Nat) : Dev :=
  match flightOf d ring id with
  | none => d
  | some f =>
    let d := updFlight d ring id (fun f => { f with holds := false, ending := none })
    match f.ending with
    | some (st, res) => finish d ring id st res
    | none => d

/-- The record of a command is written, or needs none. -/
def recordDone (d : Dev) (w : StrWait) : Dev :=
  if w.ring = noRing then d else if w.gate then gateOpen d w.ring w.id else finish d w.ring w.id w.status w.result

/-- Write waiting records while records are free beyond those held, by fuel; each command completes after its record
is written (R52). An entry without bytes is a command that completes behind the records before it (R225). -/
def strFlushBy : Nat → Dev → Nat → Dev
  | 0, d, _ => d
  | n + 1, d, s =>
    match (strOf d s).waiting with
    | [] => d
    | w :: rest =>
      if strFree d s ≤ (strOf d s).held ∧ w.bytes ≠ [] then d else
      let d := setStr d s { strOf d s with waiting := rest }
      let d := if w.bytes = [] then d else strPut d s w.bytes
      let d := cutFinished d s
      strFlushBy n (recordDone d w) s

/-- A cut or rewind record (R52): from the step's hold if one is held, else behind the records that wait, from the
standing reserve as soon as one is free. The command completes after it, and holds its ring while it waits. -/
def strSpecial (d : Dev) (s : Nat) (w : StrWait) : Dev :=
  if 0 < (strOf d s).held ∧ (strOf d s).waiting = [] then
    recordDone (strPutHeld d s w.bytes) w
  else
    let q := strOf d s
    let d := if w.ring = noRing then d else updFlight d w.ring w.id (fun f => { f with holds := true })
    strFlushBy (q.waiting.length + 1) (setStr d s { q with waiting := q.waiting ++ [w] }) s

end Sys2Proof.Machine
end

