-- ==== Sys2Proof/Machine/Memory.lean ====
section
/-!
DEFINITION. Sys2Proof/Machine/Memory.lean: the tiers and their frames (10 R282 to R289, R299, R302 to R309; 11 R314 to
R316): capacities, the use of each client, allocation and reservation, erasing.
A frame number is the location word's bits above the tier (R287); the pages that objects hold are the allocated frames.
-/

namespace Sys2Proof.Machine

/-- Bytes of a page (R162). -/
def pageSize : Nat := 32768

/-! ### Frames in service -/

/-- Pantry banks held by recipe footprints (R303). -/
def recipeBanks (d : Dev) : List Nat := (vals d.fab.rcp).flatMap (fun s => s.banks)

/-- A retired pantry bank. -/
def bankRetired (d : Dev) (b : Nat) : Bool := (look d.mem.bankRetired b).isSome

/-- Far density in GiB (R304). -/
def farGib (d : Dev) : Nat := 4 * 2 ^ fget d Fd.MEM_FAR_CFG_density

/-- A far channel that an erase is running over gives out no frames (R309). -/
def erasingChannel (d : Dev) (c : Nat) : Bool := d.mem.erase == some (4, c)

/-- Banks of the run-time T0 pool (R303, R366, R368): those of some slice, kept by an apply that is in progress, that no recipe
holds. -/
def poolBanks (d : Dev) : List Nat :=
  (List.range 48).filter (fun b => !bankRetired d b && !(recipeBanks d).contains b
    && (vals d.fab.slice).any (fun s => s.banks.contains b && (match s.next with | some n => n.2.contains b | none => true)))

/-- Runs of frames of a tier in service: first frame and number. -/
def units (d : Dev) : Nat → List (Nat × Nat)
  | 0 => (poolBanks d).map (fun b => (128 * b, 128))
  | 1 => ((List.range 8).filter (fun s => maskBit d.mem.nearUp.toNat s && !maskBit d.mem.nearRetired.toNat s)).map
      (fun s => (2 ^ 19 * s, 2 ^ 19))
  | 2 => ((List.range 32).filter (fun c => maskBit d.mem.farUp.toNat c && !maskBit d.mem.farRetired.toNat c)).map
      (fun c => (2 ^ 20 * c, farGib d * 2 ^ 7 * 255))
  | 3 => (d.lnk.borrows.filter (fun p => p.2.recalled.isNone)).map (fun p => (p.1 * 2 ^ 32, p.2.pages))
  | _ => []

/-- Runs of frames of a tier from which an allocation may take: not a far channel being erased (R309). -/
def openUnits (d : Dev) (t : Nat) : List (Nat × Nat) :=
  if t = 2 then (units d 2).filter (fun u => !erasingChannel d (u.1 / 2 ^ 20)) else units d t

/-! ### Pages held -/

/-- Locations of the pages of a session. -/
def recLocs (r : Rec) : List Loc := vals r.pages

/-- Locations of the pages of every version of a table. -/
def tblLocs (t : Tbl) : List Loc :=
  (t.cur.toList ++ t.staged.toList ++ t.old).flatMap (fun v => vals v.pages)

/-- Locations of the pages of every base version of an index, one being built included; versions may share chunks. -/
def idxLocs (i : Idx) : List Loc :=
  ((i.base :: i.old ++ (i.folding.map (fun f => f.2.2)).toList).flatMap (fun b => vals b.pages)).dedup

/-- The client that owns what a move group moves. -/
def grpClient (d : Dev) (g : MoveGrp) : Nat :=
  match g.obj with
  | .session r | .restore r => (mget d.ctx.recs {} r).client
  | .table n _ => (mget d.txt.tbl {} n).client
  | .index n => (mget d.fls.idx {} n).client

/-- Destinations reserved for pages that are moving (R291, R294); those of a restore are the restore's own. -/
def destLocs (d : Dev) : List (Nat × Loc) :=
  let waiting := (vals d.dly.queues).flatten ++ vals d.dly.movers
  let own := fun (id : Nat) => !d.dly.groups.any (fun g => g.id == id && (match g.obj with | .restore _ => true | _ => false))
  (waiting.filter (fun p => own p.group)).map (fun p => (p.group, p.dest))
    ++ (d.dly.groups.filter (fun g => own g.id)).flatMap (fun g => g.done.map (fun x => (g.id, x.2)))

/-- Client of a move group by number. -/
def grpIdClient (d : Dev) (id : Nat) : Nat :=
  match d.dly.groups.find? (fun g => g.id == id) with
  | some g => grpClient d g
  | none => 256

/-- Every location that an object of some client holds, with the client; 256 for snapshot objects (R394) and the items
held for other devices. -/
def ownedLocs (d : Dev) : List (Nat × Loc) :=
  (vals d.ctx.recs).flatMap (fun r => (recLocs r).map (fun l => (r.client, l)))
    ++ (vals d.txt.tbl).flatMap (fun t => (tblLocs t).map (fun l => (t.client, l)))
    ++ (vals d.fls.idx).flatMap (fun i => (idxLocs i).map (fun l => (i.client, l)))
    ++ (destLocs d).map (fun p => (grpIdClient d p.1, p.2))
    ++ d.ckp.restores.flatMap (fun (e : Nat × Restore) => (vals e.2.pages).map (fun l => ((mget d.ctx.recs {} e.1).client, l)))
    ++ (vals d.ckp.copies ++ d.ckp.held.flatMap (fun h => h.locs)).map (fun l => (256, l))
    ++ (vals d.ctx.recs).flatMap (fun r => r.edits.flatMap (fun e => match e with
      | .fold _ p | .relocate p => (vals p).map (fun l => (r.client, l))
      | _ => []))

/-- The pages of the seal object that keep the counter of a T4 page held (R299), with those counters' frames. -/
def sealLive (d : Dev) : NMap Nat :=
  if d.mem.sealAt.isEmpty then []
  else
    let used := ((ownedLocs d).filter (fun p => p.2.tier == 4)).map (fun p => p.2.frame)
    d.mem.sealAt.filter (fun (p : Nat × Nat) => used.contains p.1)

/-- Locations of the seal object. -/
def sealLocs (d : Dev) : List Loc := ((vals (sealLive d)).dedup).filterMap (look d.mem.sealObj)

/-- Every location held, with the client; 256 for the device's own: snapshot objects, held items and the seal object. -/
def heldLocs (d : Dev) : List (Nat × Loc) := ownedLocs d ++ (sealLocs d).map (fun l => (256, l))

/-- Frames of a tier that are allocated, those lent to other devices included (R359). -/
def usedFrames (d : Dev) (t : Nat) : List Nat :=
  ((heldLocs d).filter (fun p => p.2.tier == t)).map (fun p => p.2.frame)
    ++ ((vals d.lnk.loans).filter (fun l => l.tier == t)).flatMap (fun l =>
        (l.frames.zipIdx.filter (fun f => !l.freed.contains f.2)).map Prod.fst)
    ++ (if t = 3 then d.lnk.borrows.flatMap (fun p => p.2.freed.map (fun n => p.1 * 2 ^ 32 + n)) else [])

/-! ### Near memory beyond pages (R285, R289) -/

/-- Bytes of one saved frame of an entry (R156): 16,896 and its working region. -/
def savedBytes (d : Dev) (t : Team) : Nat :=
  match look d.ctx.slots t.slot with
  | none => 0
  | some s =>
    let r := mget d.ctx.recs {} s.rcd
    let e := (mget d.fab.rcp {} (r.recipe % 64)).entries.find? (fun e => e.kind == t.kind)
    t.size * (16896 + 4096 * (match e with | some e => e.work | none => 0))

/-- Bytes of a vector row (R239). -/
def vecRow (fmt dim : Nat) : Nat :=
  match fmt with
  | 1 => 4 * dim
  | 2 => dim + 64
  | 3 => ceilDiv (dim / 256 * 160) 64 * 64
  | _ => 0

/-- Bytes of a node record (R322). -/
def nodeSize (i : Idx) : Nat := ceilDiv (16 + vecRow i.row i.dim + 8 * i.degree) 64 * 64

/-- Bytes of the side list of an index (R324; log entry 17): records, and 8 bytes for an addition or a tombstone. -/
def sideBytes (i : Idx) : Nat := nodeSize i * i.side.length + 8 * (i.adds.length + i.tombs.length)

/-- Bytes of T1 that the headers and directories of the base versions of an index take (R320; log entry 17): a parameter block, and a
location word for each chunk page. -/
def headBytes (i : Idx) : Nat :=
  if i.state = 0 then 0
  else sumN ((i.base :: i.old ++ (i.folding.map (fun f => f.2.2)).toList).map (fun b => 576 + 8 * b.pages.length))

/-- Bytes of T1 of a client beyond its pages: stages and save areas (reserved as the save begins, R156), colander versions (576 B a state, R265), side lists,
and 8 B for the seal counter of each of its pages in T2 and T3. -/
def extraT1 (d : Dev) (c : Nat) : Nat :=
  sumN ((vals d.ctx.slots).map (fun s => match s.work with
    | some w => if (mget d.ctx.recs {} s.rcd).client = c then w.reserved else 0
    | none => 0))
  + sumN ((d.fab.teams.filter (fun t => (t.saved || t.saving) && t.client == c)).map (savedBytes d))
  + sumN ((vals d.txt.col).map (fun t => if t.client = c then
      576 * sumN ((t.cur.toList ++ t.old).map (fun v => v.states)) else 0))
  + sumN ((vals d.fls.idx).map (fun i => if i.client = c then sideBytes i + headBytes i else 0))
  + 8 * ((heldLocs d).filter (fun p => p.1 == c && (p.2.tier == 2 || p.2.tier == 3))).length

/-- Bytes a client uses of a tier (R289). -/
def useOf (d : Dev) (c t : Nat) : Nat :=
  pageSize * ((heldLocs d).filter (fun p => p.1 == c && p.2.tier == t)).length + (if t = 1 then extraT1 d c else 0)

/-- Near memory of the device itself (R302): the record table twice, the seal counters' second copy, and the counters of the device's own
pages. -/
def deviceT1 (d : Dev) : Nat :=
  (match d.ctx.tableLog2 with | some n => 2 * 256 * 2 ^ n | none => 0)
    + 8 * ((heldLocs d).filter (fun p => p.2.tier == 2 || p.2.tier == 3)).length
    + 8 * ((heldLocs d).filter (fun p => p.1 == 256 && (p.2.tier == 2 || p.2.tier == 3))).length
    + 1568 * d.sec.peers.length + if fbit d Fd.CKP_CTL_enable then fget d Fd.CKP_BUF_buffer_mib * 2 ^ 20 else 0

/-- The clients that may hold objects. -/
def clients : List Nat := List.range 256

/-- Bytes of a tier in service. -/
def capacity (d : Dev) (t : Nat) : Nat := pageSize * sumN ((units d t).map (fun u => u.2))

/-- Position of a frame in the runs of a tier, counting from `acc`. -/
def virtOf : List (Nat × Nat) → Nat → Nat → Option Nat
  | [], _, _ => none
  | (b, n) :: t, f, acc => if b ≤ f ∧ f < b + n then some (acc + (f - b)) else virtOf t f (acc + n)

/-- The frame at a position. -/
def frameOf : List (Nat × Nat) → Nat → Nat
  | [], _ => 0
  | (b, n) :: t, k => if k < n then b + k else frameOf t (k - n)

/-- Free bytes of T0 to T3. -/
def freeBytes (d : Dev) (t : Nat) : Nat :=
  capacity d t - pageSize * ((usedFrames d t).filterMap (fun f => virtOf (units d t) f 0)).length
    - (if t = 1 then sumN (clients.map (extraT1 d)) + deviceT1 d else 0)

/-- A client's share of a tier, in bytes (R289, R308); T4 has none. -/
def shareOf (d : Dev) (c t : Nat) : Option Nat :=
  match t with
  | 0 => some (fget d Fd.MEM_CLIENT_SHARE_t0 c * 2 ^ 20)
  | 1 => some (fget d Fd.MEM_CLIENT_SHARE_t1 c * 2 ^ 26)
  | 2 => some (fget d Fd.MEM_CLIENT_SHARE_t2 c * 2 ^ 28)
  | 3 => some (fget d Fd.MEM_CLIENT_SHARE_t3 c * 2 ^ 28)
  | _ => none

/-! ### Flash frames (R314 to R316) -/

/-- A frame of T4 in the bits of the location word above [7:0]: channel, target, LUN, pair, page (R314). -/
def flsFrame (pair page : Nat) : Nat := pair + page * 2 ^ 29

/-- The block pair of a T4 frame, and the channel of a pair. -/
def pairOf (frame : Nat) : Nat := frame % 2 ^ 29
def flsChannel (frame : Nat) : Nat := frame % 32

/-- Channels in service (R317). -/
def flsChannels (d : Dev) : List Nat :=
  (List.range 32).filter (fun c => maskBit d.fls.up.toNat c && !maskBit d.fls.retired.toNat c)

/-- LUNs in service, as the low bits of their pairs. -/
def flsLuns (d : Dev) : List Nat :=
  (flsChannels d).flatMap (fun c => (List.range (fget d Fd.FLS_CFG_targets_m1 + 1)).flatMap (fun t =>
    (List.range (fget d Fd.FLS_CFG_luns_m1 + 1)).map (fun l => c + 32 * t + 256 * l)))

/-- Block pairs used per LUN: at most 8 TB a channel (R311). -/
def pairsPerLun (d : Dev) (lun : Nat) : Nat :=
  let c := lun % 32
  let luns := (fget d Fd.FLS_CFG_targets_m1 + 1) * (fget d Fd.FLS_CFG_luns_m1 + 1)
  min (min (Config.flashPairs c) (2 ^ 19)) (8 * 10 ^ 12 / (luns * max 1 (Config.flashPages c) * pageSize))

/-- Live pages of a pair; `taken` are frames that an allocation under way has taken. -/
def liveWith (d : Dev) (taken : List Nat) (pair : Nat) : Nat :=
  ((usedFrames d 4 ++ taken).filter (fun f => pairOf f == pair)).length

/-- Live pages of a pair. -/
def livePages (d : Dev) (pair : Nat) : Nat := liveWith d [] pair

/-- Is a pair usable, if no page of it is live (R315, R316)? -/
def pairUsable (d : Dev) (pair : Nat) : Bool :=
  match look d.fls.pairs pair with
  | some p => !p.bad
  | none => !Config.flashBad pair

/-- Pages that a pair can still take: those of its erased part, and all of it once no page of it is live. -/
def pairRoom (d : Dev) (pair : Nat) : Nat :=
  let n := Config.flashPages (pair % 32)
  if !pairUsable d pair then 0
  else match look d.fls.pairs pair with
    | none => n
    | some p => if livePages d pair = 0 then n else n - p.next

/-- Free T4 pages of a LUN. -/
def lunRoom (d : Dev) (lun : Nat) : Nat :=
  sumN ((List.range (pairsPerLun d lun)).map (fun i => pairRoom d (lun + 1024 * i)))

/-- The pair a LUN programs next (R316): its open pair, else the lowest that can be erased. -/
def openPair (d : Dev) (taken : List Nat) (lun : Nat) : Option Nat :=
  let ps := (List.range (pairsPerLun d lun)).map (fun i => lun + 1024 * i)
  match ps.find? (fun p => match look d.fls.pairs p with
      | some q => !q.bad && q.next != 0 && q.next < Config.flashPages (p % 32) && liveWith d taken p != 0
      | none => false) with
  | some p => some p
  | none => ps.find? (fun p => pairUsable d p && liveWith d taken p == 0 && Config.flashPages (p % 32) != 0)

/-- Take the next page of a pair: the pair is erased first if nothing in it is live, and its factory marks are read before it is first
erased (R316). -/
def flsNext (d : Dev) (taken : List Nat) (pair : Nat) : Nat × Dev :=
  let q : FPair := mget d.fls.pairs {} pair
  let fresh := liveWith d taken pair = 0
  let d := if (look d.fls.pairs pair).isNone then send d (.onfi (flsChannel pair) (.pageRead pair 0)) else d
  let d := if fresh then send d (.onfi (flsChannel pair) (.blockErase pair)) else d
  let q := if fresh then { q with next := 0, erases := q.erases + 1, reads := 0 } else q
  (flsFrame pair q.next, { d with fls := { d.fls with pairs := put d.fls.pairs pair { q with next := q.next + 1, reads := 0 } } })

/-- Pages of T4 have been read: the reads of their pairs are counted (R318). -/
def flsRead (d : Dev) (l : Loc) (n : Nat) : Dev :=
  if l.tier = 4 then
    let q : FPair := mget d.fls.pairs {} (pairOf l.frame)
    let d := send d (.onfi (flsChannel l.frame) (.pageRead (pairOf l.frame) (l.frame / 2 ^ 29)))
    { d with fls := { d.fls with pairs := put d.fls.pairs (pairOf l.frame) { q with reads := q.reads + n } } }
  else d

/-- The bytes of one NAND page (R315): four tiles, then for each its tag, the low bytes of its IV and its parity, then 0xFF. A tile is
given as it is sealed: 4,096 bytes, the tag of 16 and 8 bytes of the IV. -/
def nandPage (spare : Nat) (tiles : List (List Byte)) : List Byte :=
  let part := fun (t : List Byte) => let x := padTo 4120 t; (x.drop 4096).take 24 ++ (padTo 464 (Config.ldpc (x.take 4120))).take 464
  let four := (List.range 4).map (fun k => tiles.getD k [])
  four.flatMap (fun t => (padTo 4096 t).take 4096) ++ four.flatMap part ++ List.replicate (max 1952 spare - 1952) 0xFF

/-- A T4 page is programmed as one NAND page in each of the two planes of its pair: tiles 0 to 3 in the even one, 4 to 7 in the odd one
(R314, R315). A tile that is not in use holds zeros (R294). -/
def nandProgram (d : Dev) (l : Loc) (tiles : List (List Byte)) : Dev :=
  if l.tier ≠ 4 then d
  else
    let spare := Config.flashSpare (flsChannel l.frame)
    send d (.onfi (flsChannel l.frame) (.pageProgram (pairOf l.frame) (l.frame / 2 ^ 29) (nandPage spare (tiles.take 4))
      (nandPage spare (tiles.drop 4))))

/-- Take one T4 page on a LUN chosen freely. -/
def flsTake (d : Dev) (taken : List Nat) : Option (Nat × Dev) :=
  let luns := (flsLuns d).filter (fun l => (openPair d taken l).isSome)
  if luns.isEmpty then none
  else
    let (k, d) := freshBelow d luns.length
    match openPair d taken (luns.getD k 0) with
    | none => none
    | some p => some (flsNext d taken p)

/-! ### Allocation (R289, R291, R309) -/

/-- Insert into a rising list. -/
def insertN (n : Nat) : List Nat → List Nat
  | [] => [n]
  | m :: t => if n < m then n :: m :: t else if n = m then m :: t else m :: insertN n t

/-- Pick free positions, each freely among those free. -/
def pickFree : Nat → Nat → List Nat → Dev → List Nat × Dev
  | 0, _, _, d => ([], d)
  | n + 1, total, used, d =>
    let (k, d) := freshBelow d (total - used.length)
    let p := nthFree used k
    let (ps, d) := pickFree n total (insertN p used) d
    (p :: ps, d)

/-- Frames of T2, handed out in turn across the channels (R306), each freely among those free in its channel; `used` are those that are
not free. -/
def takeFar : Nat → List Nat → Dev → List Nat × Dev
  | 0, _, d => ([], d)
  | n + 1, used, d =>
    let us := openUnits d 2
    let inUse := fun (u : Nat × Nat) => used.filter (fun f => u.1 ≤ f && f < u.1 + u.2)
    let order := us.filter (fun u => d.mem.turn ≤ u.1 / 2 ^ 20) ++ us.filter (fun u => u.1 / 2 ^ 20 < d.mem.turn)
    match order.find? (fun u => (inUse u).length < u.2) with
    | none => ([], d)
    | some u =>
      let held := (inUse u).foldl (fun l f => insertN (f - u.1) l) []
      let (k, d) := freshBelow d (u.2 - held.length)
      let f := u.1 + nthFree held k
      let (fs, d) := takeFar n (f :: used) { d with mem := { d.mem with turn := (u.1 / 2 ^ 20 + 1) % 32 } }
      (f :: fs, d)

/-- Positions of T4 for `n` pages; `taken` are those taken before. -/
def flsTakes : Nat → List Nat → Dev → Option (List Nat × Dev)
  | 0, _, d => some ([], d)
  | n + 1, taken, d =>
    match flsTake d taken with
    | none => none
    | some (f, d) => (flsTakes n (f :: taken) d).map (fun r => (f :: r.1, r.2))

/-- Counters that a page of the seal object holds. -/
def sealsPerPage : Nat := pageSize / 8

/-- The next seal counter (R298), for one page written outside the package. -/
def sealed (d : Dev) (t : Nat) : Nat × Dev :=
  if t = 2 ∨ t = 3 ∨ t = 4 then (d.mem.sealCtr.toNat, { d with mem := { d.mem with sealCtr := d.mem.sealCtr + 1 } }) else (0, d)

/-- Bytes of T1 left over by what is held. -/
def roomT1 (d : Dev) : Nat := freeBytes d 1

/-- A place in the seal object for the counter of each T4 frame (R299), in any page with room (log entry 69), else in a new page in T2;
none if T2 has no room for it. `extra` are frames of T2 that new pages have taken. -/
def sealSlots : List Nat → List Nat → Dev → Option Dev
  | [], _, d => some d
  | f :: fs, extra, d =>
    let count := fun (k : Nat) => (d.mem.sealAt.filter (fun (p : Nat × Nat) => p.2 == k)).length
    let room := (keys d.mem.sealObj).filter (fun k => count k < sealsPerPage)
    if !room.isEmpty then
      let (k, d) := freshBelow d room.length
      sealSlots fs extra { d with mem := { d.mem with sealAt := put d.mem.sealAt f (room.getD k 0) } }
    else if freeBytes d 2 < pageSize * (extra.length + 1) ∨ roomT1 d < 16 then none
    else
      let (far, d) := takeFar 1 (usedFrames d 2 ++ extra) d
      match far with
      | [] => none
      | x :: _ =>
        let (ctr, d) := sealed d 2
        let k := (List.range (d.mem.sealObj.length + 1)).find? (fun k => (look d.mem.sealObj k).isNone)
        let n := k.getD 0
        sealSlots fs (x :: extra) { d with mem := { d.mem with
          sealObj := put d.mem.sealObj n { tier := 2, frame := x, ctr := ctr }, sealAt := put d.mem.sealAt f n } }

/-- `n` frames of T4, with places for their seal counters: what the seal object no longer needs is let go first. -/
def takeT4 (n : Nat) (d : Dev) : Option (List Nat × Dev) :=
  let live := sealLive d
  let d := { d with mem := { d.mem with
    sealAt := live, sealObj := d.mem.sealObj.filter (fun (p : Nat × Loc) => (vals live).contains p.1) } }
  match flsTakes n [] d with
  | none => none
  | some (fs, d) => (sealSlots fs [] d).map (fun d => (fs, d))

/-- Seal counters for which the pages of the seal object that stay have room. -/
def sealRoom (d : Dev) : Nat :=
  let ks := vals (sealLive d)
  sumN (ks.dedup.map (fun k => sealsPerPage - ks.count k))

/-- The outcome of an allocation: frames, or the KiB lacking, or it waits for an erase (R309). -/
inductive Alloc where
  | ok (frames : List Nat) (d : Dev)
  | quota (kib : Nat)
  | noFit (kib : Nat)
  | waits
  deriving DecidableEq, Repr

/-- KiB that a number of bytes lacks of what there is, saturating. -/
def lackKib (need have' : Nat) : Nat := sat32 (ceilDiv (need - have') 1024)

/-- Does an erase of free frames run over a tier (R309)? No frame of it counts as erased before the erase has ended. -/
def erasing (d : Dev) (t : Nat) : Bool :=
  match d.mem.erase with
  | some (1, _) => t == 0
  | some (2, _) => t == 1
  | some (3, _) => t == 2
  | _ => false

/-- Must an allocation of `n` pages wait for an erase (R309): of its tier, or of one in which its pages need seal counters? -/
def waitsErase (d : Dev) (t n : Nat) : Bool :=
  erasing d t || ((t == 2 || t == 3) && erasing d 1) || (t == 4 && decide (sealRoom d < n) && (erasing d 1 || erasing d 2))

/-- Must a reservation of T1 that would fit wait for an erase (R309)? -/
def heldT1 (d : Dev) (bytes : Nat) : Bool := erasing d 1 && bytes != 0

/-- Does a client's share allow `bytes` more of a tier; otherwise the KiB lacking? -/
def overShare (d : Dev) (c t bytes : Nat) : Option Nat :=
  match shareOf d c t with
  | none => none
  | some s => if useOf d c t + bytes ≤ s then none else some (lackKib (useOf d c t + bytes) s)

/-- Is there room for `bytes` more in T0 to T3; otherwise the KiB lacking? -/
def overFree (d : Dev) (t bytes : Nat) : Option Nat :=
  if bytes ≤ freeBytes d t then none else some (lackKib bytes (freeBytes d t))

/-- Reserve `bytes` of T1 for a client (R189, R289): none if it fits; otherwise whether it is the share, and the KiB
lacking. -/
def lackT1 (d : Dev) (c bytes : Nat) : Option (Bool × Nat) :=
  match overShare d c 1 bytes with
  | some k => some (true, k)
  | none => (overFree d 1 bytes).map (fun k => (false, k))

/-- Allocate `n` pages of a tier for a client. Pages in T2 and T3 need a seal counter in T1 each. -/
def alloc (d : Dev) (c t n : Nat) : Alloc :=
  if n = 0 then .ok [] d
  else if waitsErase d t n then .waits
  else
    let ctrs := if t = 2 ∨ t = 3 then 8 * n else 0
    match overShare d c t (pageSize * n) with
    | some k => .quota k
    | none =>
      match overShare d c 1 (if t = 1 then pageSize * n else ctrs) with
      | some k => .quota k
      | none =>
        if t = 4 then
          match takeT4 n d with
          | some (fs, d) => .ok fs d
          | none => .noFit (lackKib (pageSize * n) (pageSize * sumN ((flsLuns d).map (lunRoom d))))
        else
          match overFree d t (pageSize * n) with
          | some k => .noFit k
          | none =>
            match overFree d 1 (if t = 1 then pageSize * n else ctrs) with
            | some k => .noFit k
            | none =>
              let us := openUnits d t
              let used := ((usedFrames d t).filterMap (fun f => virtOf us f 0)).foldl (fun l f => insertN f l) []
              let total := sumN (us.map (fun u => u.2))
              if total < n + used.length then .waits
              else if t = 2 then
                let (fs, d) := takeFar n (usedFrames d 2) d
                .ok fs d
              else
                let (ps, d) := pickFree n total used d
                .ok (ps.map (frameOf us)) d

/-- Frames of T1 for pages whose room was reserved (R189): the reservation has been checked, and room that is reserved is not free, so
that no erase runs over it (R309). -/
def takeReserved (d : Dev) (n : Nat) : List Nat × Dev :=
  let us := units d 1
  let used := ((usedFrames d 1).filterMap (fun f => virtOf us f 0)).foldl (fun l f => insertN f l) []
  let (ps, d) := pickFree n (sumN (us.map (fun u => u.2))) used d
  (ps.map (frameOf us), d)

/-- Locations at frames of a tier, each with its own seal counter. -/
def locsAt (d : Dev) (t : Nat) (frames : List Nat) : List Loc × Dev :=
  frames.foldl (fun (s : List Loc × Dev) f =>
    let r := sealed s.2 t
    (s.1 ++ [{ tier := t, frame := f, ctr := r.1 }], r.2)) ([], d)

/-- Another frame of a tier than those in use, for a page whose write failed (R295). -/
def otherFrame (d : Dev) (t : Nat) : Option (Nat × Dev) :=
  if t = 4 then (takeT4 1 d).bind (fun r => r.1.head?.map (fun f => (f, r.2)))
  else if t = 2 then
    let r := takeFar 1 (usedFrames d 2) d
    r.1.head?.map (fun f => (f, r.2))
  else
    let us := openUnits d t
    let used := ((usedFrames d t).filterMap (fun f => virtOf us f 0)).foldl (fun l f => insertN f l) []
    let total := sumN (us.map (fun u => u.2))
    if total ≤ used.length then none
    else
      let (ps, d) := pickFree 1 total used d
      ps.head?.map (fun p => (frameOf us p, d))

/-- Frames of a tier that are free and open to allocation. -/
def openPages (d : Dev) (t : Nat) : Nat :=
  let us := openUnits d t
  if erasing d t then 0 else sumN (us.map (fun u => u.2)) - ((usedFrames d t).filterMap (fun f => virtOf us f 0)).length

/-! ### Moves that the device makes for itself (R318, R368) -/

/-- New locations of a session's pages are a pending edit of its page table (R286); pending edits and moves follow. -/
def moveRec (g : Loc → Loc) (r : Rec) : Rec :=
  let gm := fun (m : NMap Loc) => m.map (fun (p : Nat × Loc) => (p.1, g p.2))
  let edits := r.edits.map (fun e => match e with
    | .fold l p => Edit.fold l (gm p)
    | .relocate p => Edit.relocate (gm p)
    | e => e)
  -- a page whose move is pending already needs no other
  let pending := r.edits.flatMap (fun e => match e with | .relocate p => keys p | _ => [])
  let moved := r.pages.filter (fun (p : Nat × Loc) => g p.2 != p.2 && !pending.contains p.1)
  { r with edits := edits ++ (if moved.isEmpty then [] else [.relocate (gm moved)]) }

/-- Change every location that an object, a copy, a held item or a move holds; those of a session's pages when its next generation
is published. -/
def mapLocs (d : Dev) (g : Loc → Loc) : Dev :=
  let gm := fun (m : NMap Loc) => m.map (fun (p : Nat × Loc) => (p.1, g p.2))
  let gv := fun (v : TVer) => ({ v with pages := gm v.pages } : TVer)
  let gb := fun (b : IBase) => ({ b with pages := gm b.pages } : IBase)
  let gq := fun (p : QPage) => ({ p with dest := g p.dest } : QPage)
  let d := { d with ctx := { d.ctx with recs := d.ctx.recs.map (fun (p : Nat × Rec) => (p.1, moveRec g p.2)) } }
  let d := { d with txt := { d.txt with tbl := d.txt.tbl.map (fun (p : Nat × Tbl) =>
    (p.1, { p.2 with cur := p.2.cur.map gv, staged := p.2.staged.map gv, old := p.2.old.map gv })) } }
  let d := { d with fls := { d.fls with idx := d.fls.idx.map (fun (p : Nat × Idx) =>
    (p.1, { p.2 with
      base := gb p.2.base, old := p.2.old.map gb, folding := p.2.folding.map (fun (f : Nat × Nat × IBase) => (f.1, f.2.1, gb f.2.2)) })) } }
  let d := { d with ckp := { d.ckp with
    copies := gm d.ckp.copies,
    restores := d.ckp.restores.map (fun (e : Nat × Restore) => (e.1, { e.2 with pages := gm e.2.pages })), held := d.ckp.held.map (fun (h : Held) => { h with locs := h.locs.map g }) } }
  { d with dly := { d.dly with
    queues := d.dly.queues.map (fun (p : Nat × List QPage) => (p.1, p.2.map gq)),
    movers := d.dly.movers.map (fun (p : Nat × QPage) => (p.1, gq p.2)),
    groups := d.dly.groups.map (fun (x : MoveGrp) => { x with done := x.done.map (fun (e : Nat × Loc) => (e.1, g e.2)) }) } }

/-- Frames of T0 whose pages have new locations that wait for publication. -/
def leaving (d : Dev) : List Nat :=
  (vals d.ctx.recs).flatMap (fun r => r.edits.flatMap (fun e => match e with
    | .relocate p => p.filterMap (fun (x : Nat × Loc) => (look r.pages x.1).bind (fun l => if l.tier = 0 then some l.frame else none))
    | _ => []))

/-- Do run-time pages lie in pantry banks? -/
def bankHeld (d : Dev) (banks : List Nat) : Bool := (usedFrames d 0).any (fun f => banks.contains (f / 128))

/-- Move the run-time pages of pantry banks to other banks of the pool, or to T1 when those have no room; none if T1 has no room
either (R368). -/
def vacate (d : Dev) (banks : List Nat) : Option Dev :=
  let live := ((usedFrames d 0).filter (fun f => banks.contains (f / 128) && !(leaving d).contains f)).dedup
  let us := (units d 0).filter (fun u => !banks.contains (u.1 / 128))
  let used := ((usedFrames d 0).filterMap (fun f => virtOf us f 0)).foldl (fun l f => insertN f l) []
  let total := sumN (us.map (fun u => u.2))
  let n := min live.length (total - used.length)
  let (ps, d) := pickFree n total used d
  let rest := live.drop n
  if (n ≠ 0 ∧ erasing d 0) ∨ (!rest.isEmpty ∧ erasing d 1) ∨ freeBytes d 1 < pageSize * rest.length then none
  else
    let (fs, d) := takeReserved d rest.length
    let to0 := (live.take n).zip (ps.map (frameOf us))
    let to1 := rest.zip fs
    let find := fun (l : List (Nat × Nat)) (f : Nat) => (l.find? (fun p => p.1 == f)).map Prod.snd
    some (mapLocs d (fun l =>
      if l.tier ≠ 0 then l
      else match find to0 l.frame, find to1 l.frame with
        | some f, _ => { l with frame := f }
        | none, some f => { l with tier := 1, frame := f }
        | none, none => l))

/-! ### Shares (R308) -/

/-- What a tier can give out, in bytes (R308): T0's capacity in service is that of its banks not retired. -/
def tierCap (d : Dev) (t : Nat) : Nat :=
  if t = 0 then 2 ^ 22 * ((List.range 48).filter (fun b => !bankRetired d b)).length
  else if t = 3 then pageSize * sumN ((vals d.lnk.borrows).map (fun b => b.pages))
  else capacity d t

/-- The clients' shares of a tier. -/
def shareSum (d : Dev) (t : Nat) : Nat := sumN (clients.map (fun c => (shareOf d c t).getD 0))

/-- Do the clients' shares of every tier that a write changes still fit its capacity in service (R308)? -/
def sharesFit (d d' : Dev) : Bool :=
  (List.range 4).all (fun t => decide (shareSum d' t ≤ tierCap d' t) || clients.all (fun c => shareOf d c t == shareOf d' c t))

/-- A write to `MEM_CLIENT_SHARE` (R308): ignored if the shares of a tier would exceed its capacity in service. -/
def shareWrite (d : Dev) (word : Nat) (addr : Nat := Rg.MEM_CLIENT_SHARE) : Dev :=
  let c := fget d Fd.MEM_CLIENT_SEL_client
  let d' := regWrite d (regDef Rg.MEM_CLIENT_SHARE) c addr word false
  if sharesFit d d' then d' else cfgIgnored d addr

/-- `MEM_CLIENT_SHARE_WRITE` (R308). -/
def execMemClientShareWrite (value : Word) (s : State) : Host.Outcome State Fault Refusal :=
  lift (fun d => if d.sys.portUp then shareWrite d value.toNat else d) s

/-! ### Erase (R309) -/

/-- A matched guarded write: its pending value is used up (R11). -/
def unguard (d : Dev) (off : Nat) : Dev := { d with sys := { d.sys with guards := del d.sys.guards off } }

/-- A matched `MEM_ERASE` write: refused while another erase runs, or for a channel in service with an allocated frame
(R83, R309). -/
def eraseStart (d : Dev) (target channel : Nat) : Dev :=
  if !d.sys.portUp then d
  else
    let d := unguard d Rg.MEM_ERASE_A
    let held := (usedFrames d 2).any (fun f => f / 2 ^ 20 == channel)
    if d.mem.erase.isSome ∨ (target = 4 ∧ !maskBit d.mem.farRetired.toNat channel ∧ held) then cfgIgnored d Rg.MEM_ERASE_A
    else { d with mem := { d.mem with erase := some (target, channel) } }

/-- `ERASE_T0_FREE`, `ERASE_T1_FREE`, `ERASE_T2_FREE`, `ERASE_FAR_CHANNEL` (R309). -/
def execEraseT0Free (s : State) : Host.Outcome State Fault Refusal := lift (fun d => eraseStart d 1 0) s
def execEraseT1Free (s : State) : Host.Outcome State Fault Refusal := lift (fun d => eraseStart d 2 0) s
def execEraseT2Free (s : State) : Host.Outcome State Fault Refusal := lift (fun d => eraseStart d 3 0) s
def execEraseFarChannel (channel : Nat) (s : State) : Host.Outcome State Fault Refusal :=
  lift (fun d => if channel < 32 then eraseStart d 4 channel else d) s

end Sys2Proof.Machine
end

