-- ==== Sys2Proof/Machine/Accounts.lean ====
section
/-!
DEFINITION. Sys2Proof/Machine/Accounts.lean: per-client accounting and tenant records (15 R419 to R425), latency-critical
quotas (R411), virtual time (R415).
-/

namespace Sys2Proof.Machine

/-- The unattributed account (R419). -/
def unattributed : Nat := 256

/-- Add to an account and to its activity in the present minute (R419, R420, R421). -/
def charge (d : Dev) (a cycles : Nat) (bytes : List Nat) : Dev :=
  let addl := fun (x y : List Nat) => (List.range 5).map (fun i => x.getD i 0 + y.getD i 0)
  let d := updAcct d a (fun c => { c with cycles := c.cycles + cycles, bytes := addl c.bytes bytes })
  let k := minuteOf d * 512 + a
  let u : MinUse := mget d.seq.minutes {} k
  { d with seq := { d.seq with
      minutes := mset d.seq.minutes {} k { cycles := u.cycles + cycles, bytes := addl u.bytes bytes } } }

/-- Charge bytes moved in one tier (R420). -/
def chargeTier (d : Dev) (a tier n : Nat) : Dev := charge d a 0 ((List.range 5).map (fun i => if i = tier then n else 0))

/-- Charge array cycles (R419). -/
def chargeCycles (d : Dev) (a n : Nat) : Dev := charge d a n []

/-! ### Energy (R421) -/

/-- The activity of an account in a minute. -/
def activityOf (d : Dev) (m a : Nat) : Nat :=
  let u : MinUse := mget d.seq.minutes {} (m * 512 + a)
  fget d Fd.SEQ_ENERGY_COEF_k_arr * (u.cycles / 1024)
    + sumN ((List.range 5).map (fun t => bitsOf (fget d Fd.SEQ_ENERGY_COEF_k_t) (8 * t) 8 * (u.bytes.getD t 0 / 2 ^ 20)))

/-- A minute has been apportioned or given up: none is twice. Minutes before the last 16 count as such. -/
def minuteSettled (d : Dev) (m : Nat) : Bool := d.seq.settled.contains m || decide (m + 16 ≤ minuteOf d)

/-- Is a minute without a record a gap: minute `m + 2` has ended, and the minute began after timecode was acquired? -/
def gapDue (d : Dev) (m : Nat) : Bool :=
  decide (m + 3 ≤ minuteOf d) && d.seq.energyFrom.any (fun f => decide (f ≤ m)) && !minuteSettled d m

/-- Apportion the energy of a minute: exact shares to the clients, the rest to the unattributed account; without a
record before minute `m + 2` ends, the minute is a gap, and a later record of it is not used. -/
def apportion (d : Dev) (m : Nat) : Dev :=
  let forget := fun (d : Dev) => { d with seq := { d.seq with
    minutes := d.seq.minutes.filter (fun (p : Nat × MinUse) => p.1 / 512 != m), minuteE := del d.seq.minuteE m
    settled := m :: d.seq.settled.filter (fun k => decide (minuteOf d < k + 16)) } }
  if minuteSettled d m then { d with seq := { d.seq with minuteE := del d.seq.minuteE m } } else
  match look d.seq.minuteE m with
  | some e =>
    let total := sumN ((List.range 257).map (activityOf d m)) + fget d Fd.SEQ_ENERGY_BASE_base
    let share := fun (a : Nat) => if total = 0 then 0 else e * activityOf d m a / total
    let d' := clients.foldl (fun s a => updAcct s a (fun c => { c with energy := c.energy + share a })) d
    forget (updAcct d' unattributed (fun c => { c with energy := c.energy + (e - sumN (clients.map share)) }))
  | none =>
    if gapDue d m then
      let d := forget d
      { d with seq := { d.seq with energyGap := true } }
    else d

/-- The minutes that are to be apportioned or given up (R421). -/
def minutesDue (d : Dev) : List Nat := keys d.seq.minuteE ++ ((List.range 16).map (fun k => minuteOf d - k)).filter (gapDue d)

/-- `ENERGY_APPORTION` (R421). -/
def execEnergyApportion (minute : Nat) (s : State) : Host.Outcome State Fault Refusal :=
  lift (fun d => apportion d minute) s

/-! ### Tenant records (R424) -/

/-- A count in its unit, saturating at all-ones of `n` bytes. -/
def quantised (v unit n : Nat) : Nat := min (v / unit) (2 ^ (8 * n) - 1)

/-- The 256 bytes of a client's record. -/
def tenantRecord (d : Dev) (c period endFrame : Nat) : List Byte :=
  let a := mget d.seq.acct {} c
  padTo 256 (fields ([(1, 2), (c, 1), (b2n d.seq.energyGap, 1), (period, 4), (endFrame, 8), (quantised a.cycles (2 ^ 24) 8, 8)]
    ++ (List.range 5).map (fun t => (quantised (a.bytes.getD t 0) (2 ^ 26) 8, 8))
    ++ [(quantised a.energy 1000 8, 8), (quantised a.precEvents 16 4, 4), (quantised a.underflow (2 ^ 16) 4, 4),
      (quantised a.dropped 256 4, 4), (quantised a.replaced 16 4, 4), (quantised a.takesRun (2 ^ 16) 4, 4),
      (quantised a.takesAcc (2 ^ 16) 4, 4), (quantised a.stops 16 4, 4), (quantised a.shards 16 4, 4),
      (quantised a.backlinks 256 4, 4), (quantised a.faults 1 4, 4)]))

/-- A period has ended (log entry 19: periods begin at timecode minutes divisible by `acct_minutes`): the record of each
client with `acct_en` is written, in ascending client order. -/
def tenantRecords (d : Dev) : Dev :=
  let m := max 1 (fget d Fd.SEQ_SCHED_CFG_acct_minutes)
  let q := minuteOf d / m
  if inReset d || !d.tc.acquired || (d.seq.periodFrom.map (fun p => decide (q * m ≤ p))).getD false then d
  else
    let d := fbump d Fd.SEQ_SCHED_STAT_period
    let n := fget d Fd.SEQ_SCHED_STAT_period
    let d := clients.foldl (fun s c => if fbit s Fd.SEQ_CLIENT_ACCT_acct_en c then
        hostWrite s 0 (fget s Fd.SEQ_CLIENT_ACCT_acct_addr c * 64) (tenantRecord s c n (q * m * 60000)) else s) d
    { d with seq := { d.seq with periodFrom := some (q * m), energyGap := false } }

/-- `TENANT_RECORD_WRITE` (R424). -/
def execTenantRecordWrite (s : State) : Host.Outcome State Fault Refusal := lift tenantRecords s

/-! ### Quotas and virtual time (R411, R415) -/

/-- Is an array retired? -/
def arrRetired (d : Dev) (a : Nat) : Bool := (mget d.fab.arr {} a).retired

/-- The arrays of a slice that are in service, in ascending number; one that an apply in progress removes has left once no entry runs
on it, and takes no new one (R368). -/
def sliceArrays (d : Dev) (s : Nat) : List Nat :=
  let x : Slice := mget d.fab.slice {} s
  let busy := fun (a : Nat) => d.fab.teams.any (fun t => t.arrays.contains a)
  x.arrays.filter (fun a => !arrRetired d a && (match x.next with | some n => n.1.contains a || busy a | none => true))

/-- Bank of `SEQ_LC_QUOTA`: slice and client. -/
def lcBank (slice client : Nat) : Nat := slice * 256 + client

/-- A client's latency-critical quota on a slice (R411). -/
def lcQuota (d : Dev) (slice client : Nat) : Nat := fget d Fd.SEQ_LC_QUOTA_lc_arrays (lcBank slice client)

/-- A write to `SEQ_LC_QUOTA` (R411). -/
def lcQuotaWrite (d : Dev) (word : Nat) (addr : Nat := Rg.SEQ_LC_QUOTA) : Dev :=
  let s := fget d Fd.SEQ_LC_SEL_slice
  let d' := fset d Fd.SEQ_LC_QUOTA_lc_arrays (bitsOf word 0 8) (lcBank s (fget d Fd.SEQ_LC_SEL_client))
  if sumN (clients.map (lcQuota d' s)) ≤ (sliceArrays d s).length then d' else cfgIgnored d addr

/-- `LC_QUOTA_WRITE` (R411). -/
def execLcQuotaWrite (value : Word) (s : State) : Host.Outcome State Fault Refusal :=
  lift (fun d => if d.sys.portUp then lcQuotaWrite d value.toNat else d) s

/-- A client's weight; 0 reads as 1 (R415). -/
def weightOf (d : Dev) (c : Nat) : Nat := max 1 (fget d Fd.SEQ_CLIENT_SCHED_weight c)

/-- Key of a virtual time: class and client. -/
def vtKey (lc : Bool) (c : Nat) : Nat := (if lc then 0 else 256) + c

/-- A client's virtual time of a class. -/
def vtOf (d : Dev) (lc : Bool) (c : Nat) : Nat := mget d.seq.vt 0 (vtKey lc c)

def setVt (d : Dev) (lc : Bool) (c v : Nat) : Dev :=
  { d with seq := { d.seq with vt := mset d.seq.vt 0 (vtKey lc c) (v % 2 ^ 64) } }

/-- The clients with an entry waiting, running or saved in a class. -/
def activeClients (d : Dev) (lc : Bool) : List Nat := ((d.fab.teams.filter (fun t => t.lc == lc)).map (fun t => t.client)).dedup

/-- An entry of a client joins its class (R415): a client that was idle gains no credit. -/
def vtJoin (d : Dev) (lc : Bool) (c : Nat) : Dev :=
  let act := activeClients d lc
  if act.contains c then d
  else match act.map (vtOf d lc) with
    | [] => d
    | v :: vs => setVt d lc c (max (vtOf d lc c) (vs.foldl min v))

/-- Charge an entry's cycles to its client and advance its virtual time (R415, R419). -/
def vtCharge (d : Dev) (lc : Bool) (c cycles : Nat) : Dev :=
  setVt (chargeCycles d c cycles) lc c (vtOf d lc c + ceilDiv (cycles * 65536) (weightOf d c))

end Sys2Proof.Machine
end

