-- ==== Sys2Proof/Machine/Float.lean ====
section
/-!
DEFINITION. Sys2Proof/Machine/Float.lean: the edge unit's FP32 operations (04 R123, R124), exact and correctly rounded.
A finite FP32 value is an integer number of units of 2^-149.
-/

namespace Sys2Proof.Machine

/-- A result with the row flags it sets (R127) and the underflows it counts (R124). -/
structure W (α : Type) where
  v : α
  sat : Bool := false
  scale : Bool := false
  ovf : Bool := false
  und : Nat := 0
  deriving DecidableEq, Repr

/-- Go on with a result, keeping its flags. -/
def W.bind {α β : Type} (a : W α) (f : α → W β) : W β :=
  let b := f a.v
  { v := b.v, sat := a.sat || b.sat, scale := a.scale || b.scale, ovf := a.ovf || b.ovf, und := a.und + b.und }

/-- A result without flags. -/
def W.pure {α : Type} (a : α) : W α := { v := a }

def W.map {α β : Type} (f : α → β) (a : W α) : W β := a.bind (fun x => W.pure (f x))

/-- Is any row flag set? -/
def W.flagged {α : Type} (a : W α) : Bool := a.sat || a.scale || a.ovf

/-- Left to right over a list, keeping the flags. -/
def W.foldl {α β : Type} (f : β → α → W β) : β → List α → W β
  | b, [] => W.pure b
  | b, a :: t => (f b a).bind (fun b => W.foldl f b t)

/-- Each element of a list, keeping the flags. -/
def W.mapM {α β : Type} (f : α → W β) : List α → W (List β)
  | [] => W.pure []
  | a :: t => (f a).bind (fun b => (W.mapM f t).map (fun bs => b :: bs))

/-! ### Reading -/

/-- Exponent and mantissa fields. -/
def f32Exp (x : F32) : Nat := bitsOf x.toNat 23 8
def f32Man (x : F32) : Nat := bitsOf x.toNat 0 23
def f32Neg (x : F32) : Bool := bitOf x.toNat 31

/-- An infinity or a NaN. -/
def nonFinite (x : F32) : Bool := f32Exp x == 255

/-- The value of a finite operand in units of 2^-149; subnormal and non-finite operands read as zero (R124). -/
def fixOf (x : F32) : Int :=
  let e := f32Exp x
  if e = 0 ∨ e = 255 then 0
  else
    let m : Int := (2 ^ 23 + f32Man x) * 2 ^ (e - 1)
    if f32Neg x then -m else m

/-- Read an operand: a non-finite one sets `ovf` (R124). -/
def rd (x : F32) : W Int := { v := fixOf x, ovf := nonFinite x }

/-! ### Rounding -/

/-- Largest finite value of a sign. -/
def maxFinite (neg : Bool) : F32 := if neg then 0xFF7FFFFF else 0x7F7FFFFF

/-- Round a quotient to an integer, half to even. -/
def rneDiv (num den : Nat) : Nat :=
  let q := num / den
  let r := num % den
  if 2 * r < den then q else if den < 2 * r then q + 1 else q + q % 2

/-- Round half to even, with the sign. -/
def rneInt (num : Int) (den : Nat) : Int :=
  if num < 0 then -(rneDiv num.natAbs den : Int) else rneDiv num.natAbs den

/-- Round `num / den * 2^e` (`num`, `den > 0`) to 24 bits with an unbounded exponent: significand and the exponent of
its unit. -/
def round24 (num den : Nat) (e : Int) : Nat × Int :=
  let s : Int := 24 - (num.log2 : Int) + den.log2
  let n := num * 2 ^ s.toNat
  let dn := den * 2 ^ (-s).toNat
  let (dn, s) := if n / dn < 2 ^ 24 then (dn, s) else (2 * dn, s - 1)
  let q := rneDiv n dn
  if q = 2 ^ 24 then (2 ^ 23, e - s + 1) else (q, e - s)

/-- The FP32 result nearest to `num / den * 2^e` (R124): underflow is tested after rounding, overflow gives the largest
finite value of the sign. -/
def roundTo (neg : Bool) (num den : Nat) (e : Int) : W F32 :=
  if num = 0 then W.pure 0
  else
    let (m, u) := round24 num den e
    let be := u + 150
    if be ≤ 0 then { v := 0, und := 1 }
    else if 255 ≤ be then { v := maxFinite neg, ovf := true }
    else W.pure (BitVec.ofNat 32 (b2n neg * 2 ^ 31 + be.toNat * 2 ^ 23 + (m - 2 ^ 23)))

/-- Round an integer number of units of `2^e`. -/
def roundUnits (v : Int) (e : Int) : W F32 := roundTo (v < 0) v.natAbs 1 e

/-! ### Operations (R123) -/

def fMul (x y : F32) : W F32 := (rd x).bind fun a => (rd y).bind fun b => roundUnits (a * b) (-298)
def fAdd (x y : F32) : W F32 := (rd x).bind fun a => (rd y).bind fun b => roundUnits (a + b) (-149)
/-- The value with the other sign, exactly. -/
def fNeg (x : F32) : F32 := if fixOf x = 0 then 0 else x ^^^ 0x80000000
def fSub (x y : F32) : W F32 := (rd x).bind fun a => (rd y).bind fun b => roundUnits (a - b) (-149)
def fMax (x y : F32) : W F32 := (rd x).bind fun a => (rd y).bind fun b => roundUnits (max a b) (-149)

/-- An integer as FP32. -/
def fOfInt (n : Int) : W F32 := roundUnits n 0

/-- 1/x, correctly rounded; of zero, the largest finite value with `ovf`. -/
def fRcp (x : F32) : W F32 :=
  (rd x).bind fun a => if a = 0 then { v := 0x7F7FFFFF, ovf := true } else roundTo (a < 0) 1 a.natAbs 149

/-- Bits kept by the brackets of `powGe`. -/
def powBits : Nat := 128

/-- Cut a number to `powBits` bits, down or up: mantissa and binary exponent. -/
def cutBits (roundUp : Bool) (m e : Nat) : Nat × Nat :=
  let s := m.log2 + 1 - powBits
  (m / 2 ^ s + (if roundUp && m % 2 ^ s != 0 then 1 else 0), e + s)

/-- Square `k` times from brackets below and above. -/
def squareBy : Nat → (Nat × Nat) × (Nat × Nat) → (Nat × Nat) × (Nat × Nat)
  | 0, b => b
  | k + 1, ((lm, le), (hm, he)) =>
    squareBy k (cutBits false (lm * lm) (2 * le), cutBits true (hm * hm) (2 * he))

/-- Is `M^(2^k) ≥ 2^N` (`M > 0`)? Decided from brackets of the power where they suffice, exactly otherwise. -/
def powGe (M k N : Nat) : Bool :=
  let b := squareBy k ((M, 0), (M, 0))
  if N ≤ b.1.1.log2 + b.1.2 then true
  else if b.2.1.log2 + b.2.2 < N then false
  else decide (2 ^ N ≤ M ^ 2 ^ k)

/-- The integer part of the irrational `2^(N / 2^k)`, from a part `q` known so far and `n` bits to find. -/
def rootBits (k N : Nat) : Nat → Nat → Nat
  | 0, q => q
  | n + 1, q => rootBits k N n (if powGe (q + 2 ^ n) k N then q else q + 2 ^ n)

/-- `2^x`, correctly rounded (R123, R124). With `x = i + r / 2^k` and `r` odd, `2^x` is irrational, so the 25th bit
alone decides the rounding. -/
def fExp2 (x : F32) : W F32 :=
  (rd x).bind fun a =>
    if 128 * 2 ^ 149 ≤ a then { v := 0x7F7FFFFF, ovf := true }
    else
      let i := a / 2 ^ 149
      let r := (a % 2 ^ 149).toNat
      if r = 0 then roundTo false 1 1 i
      else
        let z := (r &&& (2 ^ 150 - r)).log2
        let k := 149 - z
        let q := rootBits k (24 * 2 ^ k + r / 2 ^ z) 24 (2 ^ 24)
        roundTo false ((q + 1) / 2) 1 (i - 23)

/-- The nearest integer to an FP32 value, half to even. -/
def fRne (x : F32) : Int := rneInt (fixOf x) (2 ^ 149)

/-- `quant`: the nearest integer to `fp32(x * r)`, limited to `-lim..lim` (R116, R123). -/
def fQuant (lim : Int) (x r : F32) : W Int :=
  (fMul x r).map fun y => max (-lim) (min lim (fRne y))

/-- `scale`: `y + fp32(fp32(acc) * c)` (R123). -/
def fScale (y : F32) (acc : Int) (c : F32) : W F32 :=
  (fOfInt acc).bind fun f => (fMul f c).bind fun p => fAdd y p

/-- The sum of a list, left to right from +0. -/
def fSum (l : List F32) : W F32 := W.foldl fAdd 0 l

/-- Is one FP32 value at most another, non-finite values read as 0? -/
def fLe (x y : F32) : Bool := fixOf x ≤ fixOf y

/-- Is it less? -/
def fLt (x y : F32) : Bool := fixOf x < fixOf y

/-- The FP32 values in a byte string. -/
def f32s (bs : List Byte) : List F32 :=
  (List.range (bs.length / 4)).map (fun i => BitVec.ofNat 32 (leAt bs (4 * i) 4))

/-- The bytes of FP32 values. -/
def f32Bytes (l : List F32) : List Byte := l.flatMap (fun x => leBytes 4 x.toNat)

end Sys2Proof.Machine
end

