-- ==== Sys2Proof/Machine/Formats.lean ====
section
/-!
DEFINITION. Sys2Proof/Machine/Formats.lean: the number formats and the products of the arrays (04 R105 to R122): A8 and
A4 rows, blocks, their decoding and encoding, and one block of a product. Exact values are integers in units of 2^-149.
-/

namespace Sys2Proof.Machine

/-! ### A8 and A4 rows (R108, R116) -/

/-- The INT8 codes of a byte string. -/
def int8s (l : List Byte) : List Int := l.map (fun b => b.toInt)

/-- Encode a row (R116): codes and scale; a non-finite row gives zeros and `ovf`. -/
def encodeRow (k : F32) (lim : Int) (x : List F32) : W (List Int × F32) :=
  if x.any nonFinite then { v := (x.map (fun _ => 0), 0), ovf := true }
  else
    let a := x.foldl (fun m v => max m (fixOf v).natAbs) 0
    if a = 0 then W.pure (x.map (fun _ => 0), 0)
    else
      (roundUnits a (-149)).bind fun a => (fMul a k).bind fun s => (fRcp s).bind fun r =>
        (W.mapM (fun v => fQuant lim v r) x).map fun c => (c, s)

/-- A8 with k8, A4 with k4 (R116). -/
def encodeA8 (x : List F32) : W (List Int × F32) := encodeRow 0x3C010204 127 x
def encodeA4 (x : List F32) : W (List Int × F32) := encodeRow 0x3E124925 7 x

/-- An A8 head row of FP32 values. -/
def headRowOf (x : List F32) : W HeadRow :=
  (encodeA8 x).map fun r => { codes := r.1.map (BitVec.ofInt 8), scale := r.2 }

/-- The exact values of an A8 head row (R108). -/
def headRowFix (r : HeadRow) : List Int := (int8s r.codes).map (fun c => c * fixOf r.scale)

/-- An exact value that FP32 holds. -/
def f32OfFix (v : Int) : F32 := (roundUnits v (-149)).v

/-! ### Blocks (R109 to R115) -/

/-- Bits per code, and the size of a block, by format: 1 Q4, 2 Q3, 3 Q2, 4 F4. -/
def codeBits (fmt : Nat) : Nat := match fmt with | 2 => 3 | 3 => 2 | _ => 4
def blockSize (fmt : Nat) : Nat := match fmt with | 1 => 160 | 2 => 128 | 3 => 80 | _ => 144
/-- Blocks per page (R161). -/
def blocksPerPage (fmt : Nat) : Nat := match fmt with | 1 => 200 | 2 => 256 | 3 => 408 | _ => 224
/-- Has the format an outlier pool? -/
def hasPool (fmt : Nat) : Bool := fmt == 1 || fmt == 2
/-- Do its codes enter the cell doubled (R113)? -/
def doubled (fmt : Nat) : Bool := fmt == 3 || fmt == 4

/-- `M` and `X` of an S8 byte (R110). -/
def s8Man (b : Nat) : Nat := if bitsOf b 3 4 = 0 then bitsOf b 0 3 else 8 + bitsOf b 0 3
def s8Exp (b : Nat) : Int := if bitsOf b 3 4 = 0 then -9 else (bitsOf b 3 4 : Int) - 10

/-- The shift of a header byte (R111). -/
def hdrShift (b : Nat) : Int := if bitOf b 4 then (bitsOf b 0 5 : Int) - 32 else bitsOf b 0 5

/-- F4 magnitudes, doubled (R113). -/
def f4Mags : List Nat := [0, 1, 2, 3, 4, 6, 8, 12]

/-- The integer of a code in the cell; none for the outlier code (R113). -/
def cellInt (fmt code : Nat) : Option Int :=
  match fmt with
  | 1 => if code = 8 then none else if code < 8 then some code else some ((code : Int) - 16)
  | 2 => if code = 4 then none else if code < 4 then some code else some ((code : Int) - 8)
  | 3 => some (2 * (code : Int) - 3)
  | _ =>
    let m : Int := f4Mags.getD (code % 8) 0
    some (if 8 ≤ code then -m else m)

/-- A well-formed block as the cells read it: integers, and per group `M` and `T`. -/
structure Blk where
  n : List Int
  m : List Nat
  t : List Int
  half : Bool
  deriving DecidableEq, Repr

/-- Pool entries of a block (R114): index and value. -/
def poolOf (fmt : Nat) (bs : List Byte) : List (Nat × Nat) :=
  if hasPool fmt then
    (List.range 8).map (fun k => (leAt bs (32 * codeBits fmt + 16 + 2 * k) 1, leAt bs (32 * codeBits fmt + 17 + 2 * k) 1))
  else []

/-- Used entries packed first in strictly ascending index (R114, R115). -/
def poolPacked : List (Nat × Nat) → Bool
  | [] => true
  | (i, v) :: t =>
    if i = 0 ∧ v = 0 then t.all (fun e => e.1 == 0 && e.2 == 0)
    else (match t with | (j, w) :: _ => (j == 0 && w == 0) || i < j | [] => true) && poolPacked t

/-- Read a block; none if it is malformed (R115). -/
def readBlk (fmt : Nat) (bs : List Byte) : Option Blk :=
  let w := codeBits fmt
  let area := 32 * w
  let codes := ofLe (bs.take area)
  let ns := (List.range 256).map (fun i => cellInt fmt (bitsOf codes (w * i) w))
  let s8 := (List.range 8).map (fun g => leAt bs (area + g) 1)
  let hd := (List.range 8).map (fun g => leAt bs (area + 8 + g) 1)
  let pool := poolOf fmt bs
  let used := pool.filter (fun e => e.1 != 0 || e.2 != 0)
  let bad := s8.any (bitOf · 7) || hd.any (bitOf · 7) || !poolPacked pool
    || (List.range 256).any (fun i => (ns.getD i none).isNone != used.any (fun e => e.1 == i))
  if bad then none
  else
    let val := fun (i : Nat) => match ns.getD i none with
      | some n => n
      | none => match used.find? (fun e => e.1 == i) with
        | some e => (BitVec.ofNat 8 e.2).toInt
        | none => 0
    some {
      n := (List.range 256).map val, m := s8.map s8Man,
      t := (List.range 8).map (fun g => s8Exp (s8.getD g 0) + hdrShift (hd.getD g 0)), half := doubled fmt }

/-- Exact value of an element (R113): units of 2^-149. -/
def blkFix (b : Blk) (i : Nat) : Int :=
  let g := i / 32
  let e := 149 + b.t.getD g 0 - (if b.half then 1 else 0)
  b.n.getD i 0 * b.m.getD g 0 * 2 ^ e.toNat

/-- The exact values of a block; a malformed block holds zeros. -/
def blkValues (fmt : Nat) (bs : List Byte) : List Int :=
  match readBlk fmt bs with
  | none => List.replicate 256 0
  | some b => (List.range 256).map (blkFix b)

/-! ### Encoding blocks (R117, R118) -/

/-- Put an element into a list sorted by a strict order, behind those it does not precede. -/
def insertBy {α : Type} (lt : α → α → Bool) (a : α) : List α → List α
  | [] => [a]
  | b :: t => if lt a b then a :: b :: t else b :: insertBy lt a t

/-- Stable sort. -/
def sortBy {α : Type} (lt : α → α → Bool) (l : List α) : List α := l.foldl (fun s a => insertBy lt a s) []

/-- `v` of an S8 code in units of 2^-9. -/
def s8Val (c : Nat) : Nat := if c < 8 then c else (8 + c % 8) * 2 ^ (c / 8 - 1)

/-- Twice the largest normal magnitude `q` (R117 step 3). -/
def qTwice (fmt : Nat) : Nat := match fmt with | 1 => 14 | 2 => 6 | 3 => 3 | _ => 12

/-- Is `v * 2^H` at least the required scale of a group with largest normal `n` and outlier `o`? -/
def scaleOk (fmt : Nat) (h : Int) (n o c : Nat) : Bool :=
  decide (n ≤ s8Val c * qTwice fmt * 2 ^ (h + 139).toNat) && decide (o ≤ s8Val c * 127 * 2 ^ (h + 140).toNat)

/-- Q2 code of `x / s` (R118). -/
def q2Code (x : Int) (s : Nat) : Nat :=
  if x < 0 then (if x.natAbs ≤ s then 1 else 0) else (if x.natAbs ≤ s then 2 else 3)

/-- F4 code of `x / s` (R118): the nearest magnitude, a tie to the even mantissa. -/
def f4Code (x : Int) (s : Nat) : Nat :=
  let above := fun (i : Nat) =>
    let mid := (f4Mags.getD i 0 + f4Mags.getD (i + 1) 0) * s
    decide (mid < 4 * x.natAbs) || (4 * x.natAbs == mid && i % 2 == 1)
  let k := ((List.range 7).filter above).length
  if k ≠ 0 ∧ x < 0 then k + 8 else k

/-- What encoding a block answers: its bytes, whether its outlier pool overflowed, and the groups clipped. -/
structure Encoded where
  bytes : List Byte
  overflow : Bool
  clips : Nat
  deriving DecidableEq, Repr

/-- Limit an integer to `-lim..lim`. -/
def limit (lim : Int) (n : Int) : Int := max (-lim) (min lim n)

/-- Encode 256 exact values (R117, R118). -/
def encodeBlk (fmt : Nat) (xs : List Int) : Encoded :=
  let grp := fun (g : Nat) => (xs.drop (32 * g)).take 32
  let mag := fun (i : Nat) => (xs.getD i 0).natAbs
  -- steps 1 and 2: outliers
  let r := (List.range 8).map (fun g => (sortBy (fun (a b : Nat) => decide (b < a)) ((grp g).map Int.natAbs)).getD 3 0)
  let rOf := fun (i : Nat) => r.getD (i / 32) 0
  let cand := if hasPool fmt then (List.range 256).filter (fun i => 0 < rOf i && 4 * rOf i < mag i) else []
  let ranked := sortBy (fun a b => decide (mag b * rOf a < mag a * rOf b)) cand
  let outl := ranked.take 8
  -- steps 3 and 4: required scales
  let big := fun (sel : Nat → Bool) (g : Nat) =>
    ((List.range 32).filter (fun i => sel (32 * g + i))).foldl (fun m i => max m (mag (32 * g + i))) 0
  let no := (List.range 8).map (fun g => (big (fun i => !outl.contains i) g, big (fun i => outl.contains i) g))
  let h : Int := ((List.range 32).map (fun k => (k : Int) - 16)).find? (fun h => no.all (fun p => scaleOk fmt h p.1 p.2 127))
    |>.getD 15
  -- step 5: scale bytes and clips
  let codeOf := fun (p : Nat × Nat) => (List.range 128).find? (scaleOk fmt h p.1 p.2)
  let clip := no.map (fun p => (codeOf p).isNone)
  let s8 := no.map (fun p => (codeOf p).getD 127)
  -- step 6: the span rule
  let xmax := (s8.filter (· != 0)).foldl (fun m c => max m (s8Exp c)) (-9)
  let low := s8.map (fun c => c != 0 && decide (s8Exp c < xmax - 7))
  let s8 := s8.map (fun c => if c != 0 && decide (s8Exp c < xmax - 7) then 8 * (xmax + 3).toNat else c)
  -- steps 7 and 8: codes
  let sOf := fun (i : Nat) => let c := s8.getD (i / 32) 0; s8Man c * 2 ^ (s8Exp c + h + 149).toNat
  let lim : Int := if fmt = 1 then 7 else 3
  let q := fun (i : Nat) => if sOf i = 0 then 0 else rneInt (xs.getD i 0) (sOf i)
  let isOut := fun (i : Nat) => outl.contains i && decide (lim < (q i).natAbs)
  let code := fun (i : Nat) =>
    match fmt with
    | 3 => q2Code (xs.getD i 0) (sOf i)
    | 4 => if sOf i = 0 then 0 else f4Code (xs.getD i 0) (sOf i)
    | _ =>
      let w := codeBits fmt
      if isOut i then 2 ^ (w - 1) else (BitVec.ofInt w (limit lim (q i))).toNat
  let pool := ((List.range 256).filter isOut).flatMap (fun i => [BitVec.ofNat 8 i, BitVec.ofInt 8 (limit 127 (q i))])
  let w := codeBits fmt
  let codes := (List.range 256).foldr (fun i acc => acc * 2 ^ w + code i) 0
  let hdr := (List.range 8).map (fun g =>
    (BitVec.ofNat 8 ((h % 32).toNat + 32 * b2n (low.getD g false) + 64 * b2n (clip.getD g false)) : Byte))
  { bytes := leBytes (32 * w) codes ++ s8.map (fun c => (BitVec.ofNat 8 c : Byte)) ++ hdr
      ++ (if hasPool fmt then padTo 16 pool else []),
    overflow := 8 < cand.length, clips := (clip.filter id).length }

/-! ### Products (R105, R122, R127) -/

/-- Wrap an integer to 32 bits, two's complement. -/
def wrap32 (n : Int) : Int := (BitVec.ofInt 32 n).toInt

/-- One cell's accumulation (R105, R127): the wrapping sum, the exact sum, and the sticky saturation bit. -/
def accumulate (ps : List Int) : W Int :=
  let r := ps.foldl (fun (s : Int × Int × Bool) p =>
    (wrap32 (s.1 + p), s.2.1 + p, s.2.2 || decide (s.1 + p ≠ wrap32 (s.1 + p)))) (0, 0, false)
  if r.2.2 then
    let neg := if decide (r.1 < 0) == decide (r.2.1 < 0) then decide (r.1 < 0) else Config.satNegative r.2.1 r.1
    { v := if neg then -2 ^ 31 else 2 ^ 31 - 1, sat := true }
  else W.pure r.1

/-- The elements `js` of one block in a reduction with activation codes `a` (R122): the block's sum is converted and
added into `y`. Where c comes out below the normal range it is an underflow and sets no `ovf`, which is the MODEL's reading of R122
and R127 (log entry 77). -/
def macAt (y : F32) (a : List Int) (sa : F32) (b : Option Blk) (js : List Nat) : W F32 :=
  match b with
  | none => { v := y, scale := true }
  | some b =>
    let gs := ((js.map (fun i => i / 32)).dedup).filter (fun g => b.m.getD g 0 != 0)
    match gs.map (fun g => b.t.getD g 0) with
    | [] => W.pure y
    | t0 :: ts =>
      let tmin := ts.foldl min t0
      if gs.any (fun g => 15 < b.t.getD g 0 - tmin) then { v := y, scale := true }
      else
        let ps := (a.zip js).map (fun (c, i) =>
          let g := i / 32
          if gs.contains g then c * b.n.getD i 0 * b.m.getD g 0 * 2 ^ (b.t.getD g 0 - tmin).toNat else 0)
        (accumulate ps).bind fun acc =>
          (rd sa).bind fun s => (roundUnits s (-149 + tmin - (if b.half then 1 else 0))).bind fun c => fScale y acc c

/-- Elements `lo` to `lo + len - 1` of one block. -/
def macBlk (y : F32) (a : List Int) (sa : F32) (b : Option Blk) (lo len : Nat) : W F32 :=
  macAt y a sa b ((List.range len).map (fun k => lo + k))

/-- A8 by A8 (R122): the accumulator is flushed every 256 elements. -/
def macA8 (y : F32) (a : List Int) (sa : F32) (b : List Int) (sb : F32) : W F32 :=
  (fMul sa sb).bind fun c =>
    W.foldl (fun y ch => (accumulate ((a.zip b |>.drop (256 * ch)).take 256 |>.map (fun p => p.1 * p.2))).bind fun acc =>
      fScale y acc c) y (List.range (ceilDiv (min a.length b.length) 256))

/-! ### Windows in block format (R159, R162) -/

/-- Exact K and V values of the rows of a window, as rows of `d` values by head. -/
structure FixRow where
  k : List (List Int)
  v : List (List Int)
  deriving DecidableEq, Repr

/-- The exact values of an A8 row of all heads. -/
def fixRow (r : KVRow) : FixRow := { k := r.k.map headRowFix, v := r.v.map headRowFix }

/-- The element of plane `c` (0 K, 1 V) of head `h` at offset `p` and dimension `x`. -/
def fixAt (rows : List FixRow) (c h p x : Nat) : Int :=
  match rows[p]? with
  | none => 0
  | some r => ((if c = 0 then r.k else r.v).getD h []).getD x 0

/-- Fold a window: encode 256 rows (absent ones as zero) into blocks in window block index order; the blocks that
overflowed their pool and the groups clipped are counted. -/
def encodeWindow (fmt d heads : Nat) (rows : List FixRow) : WinBlk × Nat × Nat :=
  let es := (List.range heads).flatMap fun h => (List.range 2).flatMap fun c => (List.range d).map fun b =>
    encodeBlk fmt ((List.range 256).map fun i =>
      if c = 0 then fixAt rows 0 h (256 / d * b + i / d) (i % d) else fixAt rows 1 h i b)
  ({ fmt := fmt, blocks := es.map (fun e => e.bytes) }, (es.filter (fun e => e.overflow)).length, sumN (es.map (fun e => e.clips)))

/-- The exact rows of a window held in blocks. -/
def decodeWindow (w : WinBlk) (d heads : Nat) : List FixRow :=
  let vals := w.blocks.map (blkValues w.fmt)
  let blk := fun (c h b : Nat) => vals.getD ((2 * h + c) * d + b) []
  (List.range 256).map fun p => {
    k := (List.range heads).map fun h => (List.range d).map fun x => (blk 0 h (p / (256 / d))).getD (p % (256 / d) * d + x) 0,
    v := (List.range heads).map fun h => (List.range d).map fun x => (blk 1 h x).getD p 0 }

/-- Encode exact rows into A8 head rows (R116, R120). -/
def rowsToA8 (rows : List FixRow) : W (List KVRow) :=
  W.mapM (fun (r : FixRow) =>
    (W.mapM (fun x => headRowOf (x.map f32OfFix)) r.k).bind fun k =>
      (W.mapM (fun x => headRowOf (x.map f32OfFix)) r.v).map fun v => ({ k := k, v := v } : KVRow)) rows

/-- Refold a window (R121): its blocks are decoded exactly and encoded again. -/
def refold (fmt d heads : Nat) (w : WinBlk) : WinBlk × Nat × Nat := encodeWindow fmt d heads (decodeWindow w d heads)

end Sys2Proof.Machine
end

