-- ==== Sys2Proof/Machine/ArrayIsa.lean ====
section
/-!
DEFINITION. Sys2Proof/Machine/ArrayIsa.lean: the array programs of recipes (05 R137 to R142): instruction words, the store, the
operations, and a team that runs to `halt`. What the spec leaves to the compiler (operand layouts, stream contents, parameter
words) is free (log entry 21).
-/

namespace Sys2Proof.Machine

/-! ### Instruction words (R140, R141) -/

/-- The fields of an instruction word. -/
def iwClass (w : Nat) : Nat := bitsOf w 60 4
def iwOp (w : Nat) : Nat := bitsOf w 54 6
def iwPred (w : Nat) : Nat := bitsOf w 52 2
def iwInv (w : Nat) : Bool := bitOf w 51

/-- What a team's members share: the recipe's code, its static image, the sizes of the regions, the entry's kind, the pass and
the parameter words that the spec gives. -/
structure ArrEnv where
  code : List Word
  objects : List RObj
  staticSize : Nat
  work : Nat
  kind : Nat
  pass : Nat
  rows : Nat
  takes : Nat
  /-- The exchange input: the data block received (R210). -/
  input : List Byte
  /-- What the entry works on, which names its open values (R26). -/
  key : List Nat
  deriving DecidableEq, Repr

/-- A running team: the members by role, the bytes moved to the outputs, those handed over, and the product tiles with flagged rows
(R128). -/
structure TeamRun where
  cores : List ArrCore
  out : NMap Byte := []
  handed : NMap Byte := []
  flagged : Nat := 0
  stuck : Bool := false
  deriving DecidableEq, Repr

/-- An integer register: x0 reads as zero (R140). -/
def xget (c : ArrCore) (r : Nat) : BitVec 32 := if r = 0 then 0 else c.x.getD r 0

/-- Write an integer register: a write to x0 is ignored (R140). -/
def xset (c : ArrCore) (r : Nat) (v : BitVec 32) : ArrCore := if r = 0 then c else { c with x := c.x.set r v }

/-- A predicate: p0 is always true (R140). -/
def pget (c : ArrCore) (r : Nat) : Bool := r == 0 || c.p.getD r false

/-- Write a predicate; p0 stays true. -/
def pset (c : ArrCore) (r : Nat) (v : Bool) : ArrCore := if r = 0 then c else { c with p := c.p.set r v }

/-- Does an instruction execute (R140)? -/
def predOk (c : ArrCore) (w : Nat) : Bool := pget c (iwPred w) != iwInv w

/-- The word that a member is to execute. -/
def coreWord (e : ArrEnv) (c : ArrCore) : Nat := (e.code.getD c.pc 0).toNat

/-! ### The array store (R138) -/

/-- A byte of the static image; one that no store constant covers is free. -/
def staticByte (e : ArrEnv) (off : Nat) : Byte :=
  if e.staticSize = 0 then Config.streamByte 6 (e.key.take 1) off
  else
    let o := off % e.staticSize
    match e.objects.find? (fun x => x.kind == 2 && decide (x.offset ≤ o) && decide (o < x.offset + x.size)) with
    | some x => x.data.getD (o - x.offset) 0
    | none => Config.streamByte 6 (e.key.take 1) o

/-- Read byte `i` from an array-store address on: offset modulo the size of its region. -/
def storeByte (e : ArrEnv) (c : ArrCore) (a i : Nat) : Byte :=
  if bitOf a 31 then staticByte e (bitsOf a 0 20 + i) else mget c.working 0 ((bitsOf a 0 20 + i) % e.work)

/-- Read bytes from an array-store address on. -/
def storeBytes (e : ArrEnv) (c : ArrCore) (a n : Nat) : List Byte := (List.range n).map (storeByte e c a)

/-- Write bytes from `off` bytes on after an array-store address: a destination is always in the working region, and each byte's
offset is taken modulo its size. -/
def storeWrite (e : ArrEnv) (c : ArrCore) (a off : Nat) (bs : List Byte) : ArrCore :=
  { c with working := (bs.zipIdx).foldl (fun m (b : Byte × Nat) => mset m 0 ((bitsOf a 0 20 + off + b.2) % e.work) b.1) c.working }

/-- An FP32 value at an array-store address, some bytes on. -/
def storeF32 (e : ArrEnv) (c : ArrCore) (a i : Nat) : F32 :=
  BitVec.ofNat 32 (ofLe ((List.range 4).map (fun k => storeByte e c a (i + k))))

/-- Write FP32 values. -/
def storeF32s (e : ArrEnv) (c : ArrCore) (a off : Nat) (l : List F32) : ArrCore := storeWrite e c a off (f32Bytes l)

/-! ### Control (R142) -/

/-- Where execution goes after the word at `pc`, the innermost loop first. -/
def wrapLoops : List (Nat × Nat × Nat) → Nat → List (Nat × Nat × Nat) × Nat
  | [], pc => ([], pc + 1)
  | (s, e, n) :: t, pc =>
    if pc = e then (if 1 < n then ((s, e, n - 1) :: t, s) else wrapLoops t pc) else ((s, e, n) :: t, pc + 1)

/-- Go on to the next word, the one before being done. -/
def advance (c : ArrCore) : ArrCore :=
  let r := wrapLoops c.loops c.pc
  { c with loops := r.1, pc := r.2, partly := false, progress := 0, shadow := [] }

/-- A member's place in its program: the loops it is in, outermost first, with the iterations left; then its word. -/
def placeOf (c : ArrCore) : List Int := c.loops.reverse.flatMap (fun l => [(l.1 : Int), -(l.2.2 : Int)]) ++ [(c.pc : Int)]

/-- CTRL: `nop`, `br`, `loop`, `halt`. A branch out of a body leaves its loop; zero iterations skip the body. -/
def execCtrl (c : ArrCore) (w : Nat) : ArrCore :=
  match iwOp w with
  | 0 => advance c
  | 1 =>
    let t := bitsOf w 0 16
    { c with pc := t, loops := c.loops.filter (fun l => decide (l.1 ≤ t) && decide (t ≤ l.2.1)) }
  | 2 =>
    let n := (xget c (bitsOf w 18 4)).toNat
    let last := bitsOf w 0 16
    if n = 0 then advance { c with pc := last } else { c with pc := c.pc + 1, loops := (c.pc + 1, last, n) :: c.loops }
  | _ => { c with halted := true }

/-! ### INT (R142) -/

/-- The parameter word: words 0 to 2 of HEADS hold the pass, the rows and the takes (R255); the rest is free. The pass number, 1 or 2,
is in bit [0], and which of the two sets that bit is free (log entry 21). -/
def paramOf (e : ArrEnv) (role k : Nat) : BitVec 32 :=
  if e.kind = 3 ∧ k = 0 then
    let w := Config.paramWord 3 0 0
    BitVec.ofNat 32 (2 * (w / 2) + (w + e.pass) % 2)
  else if e.kind = 3 ∧ k = 1 then BitVec.ofNat 32 e.rows
  else if e.kind = 3 ∧ k = 2 then BitVec.ofNat 32 e.takes
  else BitVec.ofNat 32 (Config.paramWord e.kind k role)

/-- INT arithmetic wraps modulo 2^32. -/
def intOp (op : Nat) (a b : BitVec 32) : BitVec 32 :=
  match op with
  | 0 => b
  | 1 => a + b
  | 2 => a - b
  | 3 => a * b
  | 4 => a &&& b
  | 5 => a ||| b
  | 6 => a ^^^ b
  | 7 => a <<< (b.toNat % 32)
  | _ => a >>> (b.toNat % 32)

/-- INT. -/
def execInt (e : ArrEnv) (role : Nat) (c : ArrCore) (w : Nat) : ArrCore :=
  let d := bitsOf w 44 4
  let imm := BitVec.ofNat 32 (bitsOf w 0 32)
  let a := xget c (bitsOf w 40 4)
  let b := if bitOf w 35 then imm else xget c (bitsOf w 36 4)
  advance (match iwOp w with
    | 9 => pset c d (decide (a.toNat < b.toNat))
    | 10 => pset c d (a == b)
    | 11 => xset c d (paramOf e role (bitsOf w 0 4))
    | op => xset c d (intOp op a b))

/-! ### MOVE (R138, R141) -/

/-- Where the bytes for the exchange output stand among those moved out. -/
def exchangeOut : Nat := 2 ^ 40

/-- A byte of a space: a pantry object modulo its size, the data block received, or a stream, that of K and V by its tile groups. -/
def spaceByte (e : ArrEnv) (group space obj off : Nat) : Byte :=
  if space = 0 then
    match e.objects.find? (fun x => x.kind == 1 && x.number == obj) with
    | some x => x.data.getD (off % x.size) 0
    | none => Config.streamByte 0 e.key off
  else if space = 1 then Config.streamByte 1 (group :: e.key) off
  else if space = 2 then e.input.getD off (Config.streamByte 2 e.key off)
  else Config.streamByte space e.key off

/-- Bytes that a MOVE or a send transfers: those of its length field, in units of 64 B. -/
def moveLen (w : Nat) : Nat := 64 * (if iwClass w = 7 then bitsOf w 20 12 else bitsOf w 16 12)

/-- Bytes `p` to `q - 1` of a MOVE: `ld` fills the working region; `st` to the output path or the exchange output is kept for `done`. A
`st` to a space that takes no output leaves everything as it is. -/
def moveBytes (e : ArrEnv) (c : ArrCore) (out : NMap Byte) (w p q : Nat) : ArrCore × NMap Byte :=
  let space := bitsOf w 48 3
  let b := (xget c (bitsOf w 44 4)).toNat
  let a := (xget c (bitsOf w 40 4)).toNat
  if iwOp w = 0 then
    (storeWrite e c b p ((List.range (q - p)).map (fun i => spaceByte e c.group space (bitsOf w 28 12) (a + p + i))), out)
  else if space = 5 ∨ space = 3 then
    let base := a + p + (if space = 3 then exchangeOut else 0)
    (c, (((storeBytes e c b q).drop p).zipIdx).foldl (fun m (x : Byte × Nat) => put m (base + x.2) x.1) out)
  else (c, out)

/-- Where a stop in the middle of a transfer of `n` bytes stands, of which `p` are done (R155): after some whole 4 KiB more; `p`
itself where none is chosen. -/
def stopAfter (n p choice : Nat) : Nat := p + 4096 * (choice % ((n - p - 1) / 4096 + 1))

/-! ### MAC (04 R122, R127; R142) -/

/-- Note the flags of one row and the underflows of one lane (R124, R127). -/
def noteFlags {α : Type} (c : ArrCore) (row lane : Nat) (v : W α) : ArrCore :=
  let bit := fun (b : Bool) => if b then (1#64 <<< row) else 0
  { c with
    sat := c.sat ||| bit v.sat, scale := c.scale ||| bit v.scale, ovf := c.ovf ||| bit v.ovf,
    underflow := c.underflow.set lane (c.underflow.getD lane 0 + v.und) }

/-- Activation codes and scale of row `i` for block `b`, `len` of them. -/
def actOf (e : ArrEnv) (c : ArrCore) (a4 : Bool) (a i b len : Nat) : List Int × F32 :=
  let code := fun (k : Nat) =>
    if a4 then
      let v := (storeByte e c a (Config.macPlace 10 i b (k / 2))).toNat
      (BitVec.ofNat 4 (if k % 2 = 0 then v % 16 else v / 16)).toInt
    else (storeByte e c a (Config.macPlace 9 i b k)).toInt
  ((List.range len).map code, storeF32 e c a (Config.macPlace 11 i b 0))

/-- One output element over blocks `b0` to `b1 - 1` of the tile, in ascending order. -/
def macElem (e : ArrEnv) (c : ArrCore) (w i j b0 b1 : Nat) (y0 : F32) : W F32 :=
  let wt := bitsOf w 48 3
  let wa := (xget c (bitsOf w 43 4)).toNat
  let aa := (xget c (bitsOf w 39 4)).toNat
  W.foldl (fun y b =>
    let len := Config.macPlace 12 wt b j % 257
    let act := actOf e c (bitOf w 47) aa i b len
    if wt = 0 then
      macA8 y act.1 act.2 ((List.range len).map (fun k => (storeByte e c wa (Config.macPlace 0 b j k)).toInt))
        (storeF32 e c wa (Config.macPlace 8 b j 0))
    else
      let lo := Config.macPlace 13 wt b j % (257 - len)
      macBlk y act.1 act.2 (readBlk wt ((List.range (blockSize wt)).map (fun k => storeByte e c wa (Config.macPlace wt b j k)))) lo len)
    y0 ((List.range (b1 - b0)).map (fun k => b0 + k))

/-- Does a mask supplied with the KV stream hide an element (R141, R182)? -/
def maskedAt (e : ArrEnv) (group w i j : Nat) : Bool :=
  (bitOf w 26 && Config.masked 0 (group :: e.key) i j) || (bitOf w 25 && Config.masked 1 (group :: e.key) i j)

/-- Blocks of a product tile. -/
def macBlocks (w : Nat) : Nat := bitsOf w 27 8

/-- The rows of a tile up to block `b1`, read out into the shadow of the output rows (R142): a tile that starts clears the row flags
and, the MODEL's choice (log entry 77), the underflow counts of all lanes; one that was stopped goes on from its shadow. -/
def macShadow (e : ArrEnv) (c : ArrCore) (w b1 : Nat) : ArrCore :=
  let o := (xget c (bitsOf w 35 4)).toNat
  let start := fun (i j : Nat) =>
    if c.partly then c.shadow.getD (64 * i + j) 0 else if bitOf w 24 then 0 else storeF32 e c o (256 * i + 4 * j)
  let cells := (List.range 64).flatMap (fun i => (List.range 64).map (fun j =>
    (i, j, if maskedAt e c.group w i j then W.pure (0xFF7FFFFF : F32) else macElem e c w i j c.progress b1 (start i j))))
  let c := if c.partly then c else { c with sat := 0, scale := 0, ovf := 0, underflow := List.replicate 64 0 }
  let c := cells.foldl (fun c (x : Nat × Nat × W F32) => noteFlags c x.1 x.2.1 x.2.2) c
  { c with partly := true, progress := b1, shadow := cells.map (fun (x : Nat × Nat × W F32) => x.2.2.v) }

/-- MAC: one product tile of 64 × 64; at the end of the tile the shadow is written to the output rows. -/
def execMac (e : ArrEnv) (c : ArrCore) (w : Nat) : ArrCore :=
  let c := macShadow e c w (macBlocks w)
  advance (storeF32s e c (xget c (bitsOf w 35 4)).toNat 0 c.shadow)

/-! ### EDGE and LANE (04 R123, 05 R142) -/

/-- A row of 64 FP32 values at an array-store address. -/
def rowAt (e : ArrEnv) (c : ArrCore) (a r : Nat) : List F32 := (List.range 64).map (fun j => storeF32 e c a (256 * r + 4 * j))

/-- One lane of an EDGE operation: `x` of the first source, `z` of the second, `y` of the destination. -/
def edgeLane (e : ArrEnv) (op : Nat) (place : List Int) (cell : Nat) (x z y : F32) : W F32 :=
  match op with
  | 0 => fScale y (Config.accumulator e.key place cell) z
  | 1 => fMul x z
  | 2 => fAdd x z
  | 3 => fMax x z
  | 4 => fExp2 x
  | _ => fRcp x

/-- One row of an EDGE instruction. `quant` writes codes in the layout that MAC reads. -/
def edgeRow (e : ArrEnv) (w r : Nat) (c : ArrCore) : ArrCore :=
  let d := (xget c (bitsOf w 44 4)).toNat
  let s1 := (xget c (bitsOf w 40 4)).toNat
  let s2 := (xget c (bitsOf w 36 4)).toNat
  let z := fun (j : Nat) => if bitOf w 29 then storeF32 e c s2 (4 * r) else storeF32 e c s2 (256 * r + 4 * j)
  if iwOp w = 6 then
    let a4 := bitOf w 27
    let qs := (rowAt e c s1 r).zipIdx.map (fun (x : F32 × Nat) => fQuant (if a4 then 7 else 127) x.1 (z x.2))
    let c := qs.zipIdx.foldl (fun c (q : W Int × Nat) => noteFlags c r q.2 q.1) c
    let code := fun (k : Nat) => ((qs.map (fun q => q.v)).getD k 0)
    if a4 then (List.range 32).foldl (fun c k => storeWrite e c d (Config.macPlace 10 r 0 k)
      [BitVec.ofNat 8 ((BitVec.ofInt 4 (code (2 * k))).toNat + 16 * (BitVec.ofInt 4 (code (2 * k + 1))).toNat)]) c
    else (List.range 64).foldl (fun c k => storeWrite e c d (Config.macPlace 9 r 0 k) [BitVec.ofInt 8 (code k)]) c
  else
    let ys := ((rowAt e c s1 r).zip (rowAt e c d r)).zipIdx.map (fun (x : (F32 × F32) × Nat) =>
      edgeLane e (iwOp w) (placeOf c) (64 * r + x.2) x.1.1 (z x.2) x.1.2)
    let c := ys.zipIdx.foldl (fun c (y : W F32 × Nat) => noteFlags c r y.2 y.1) c
    storeF32s e c d (256 * r) (ys.map (fun y => y.v))

/-- EDGE: one row after the other. -/
def execEdge (e : ArrEnv) (c : ArrCore) (w : Nat) : ArrCore :=
  advance ((List.range (bitsOf w 30 6 + 1)).foldl (fun c r => edgeRow e w r c) c)

/-- The fixed pairwise tree of `rsum` (R142). -/
def laneSum : Nat → List F32 → W F32
  | 0, l => W.pure (l.headD 0)
  | n + 1, l => (W.mapM (fun i => fAdd (l.getD (2 * i) 0) (l.getD (2 * i + 1) 0)) (List.range (l.length / 2))).bind (laneSum n)

/-- The largest of a row. -/
def laneMax (l : List F32) : W F32 := W.foldl fMax (l.headD 0) (l.drop 1)

/-- LANE: one FP32 value per row. -/
def execLane (e : ArrEnv) (c : ArrCore) (w : Nat) : ArrCore :=
  let d := (xget c (bitsOf w 44 4)).toNat
  let s1 := (xget c (bitsOf w 40 4)).toNat
  advance ((List.range (bitsOf w 30 6 + 1)).foldl (fun c r =>
    let row := rowAt e c s1 r
    let v := if iwOp w = 0 then laneMax row else laneSum 6 row
    storeF32s e (noteFlags c r 0 v) d (4 * r) [v.v]) c)

/-! ### One instruction of one member -/

/-- The members after bytes `p` to `q - 1` of a send have arrived in the working region of the target role. -/
def sendBytes (e : ArrEnv) (cores : List ArrCore) (c : ArrCore) (w p q : Nat) : List ArrCore :=
  let bs := (storeBytes e c (xget c (bitsOf w 44 4)).toNat q).drop p
  let role := bitsOf w 32 8
  cores.zipIdx.map (fun (x : ArrCore × Nat) => if x.2 = role then storeWrite e x.1 (xget c (bitsOf w 40 4)).toNat p bs else x.1)

/-- Has the tile in progress a flagged row? -/
def tileFlagged (c : ArrCore) : Bool := (c.sat ||| c.scale ||| c.ovf) != 0

/-- Put a member back; a flag that an EDGE or LANE instruction sets first belongs to the tile that has just ended (R127, R128). -/
def setCore (t : TeamRun) (r : Nat) (c : ArrCore) : TeamRun :=
  { t with cores := t.cores.set r c, flagged := t.flagged + b2n (!tileFlagged (t.cores.getD r {}) && tileFlagged c) }

/-- The end of a product tile (R128): its operands hold no committed position, so that there is no A8 copy. -/
def tileDone (t : TeamRun) (r : Nat) (c : ArrCore) : TeamRun :=
  { t with cores := t.cores.set r c, flagged := t.flagged + b2n (tileFlagged c) }

/-- Execute the word of one member that waits for no other; a word that is partly done goes on from its progress (R155, R156). One
that has run past the recipe's code has halted. -/
def coreStep (e : ArrEnv) (t : TeamRun) (r : Nat) : TeamRun :=
  let c := t.cores.getD r {}
  let w := coreWord e c
  if e.code.length ≤ c.pc then setCore t r { c with halted := true }
  else if !predOk c w then setCore t r (advance c)
  else match iwClass w with
    | 0 => setCore t r (execCtrl c w)
    | 1 => setCore t r (execInt e r c w)
    | 2 =>
      let m := moveBytes e c t.out w c.progress (moveLen w)
      { setCore t r (advance m.1) with out := m.2 }
    | 3 => tileDone t r (execMac e c w)
    | 4 => setCore t r (execEdge e c w)
    | 5 => setCore t r (execLane e c w)
    | 6 =>
      if iwOp w = 0 then setCore t r { advance c with group := c.group + 1 }
      else if iwOp w = 2 then { setCore t r (advance c) with handed := t.out }
      else setCore t r (advance c)
    | _ =>
      if iwOp w = 0 then
        let t := { t with cores := sendBytes e t.cores c w c.progress (moveLen w) }
        setCore t r (advance (t.cores.getD r {}))
      else setCore t r (advance c)

/-- One member stops in the middle of its word, where the word has a stopping point there (R155): a MOVE or a send after some whole
4 KiB, a MAC after the readout of some block. The choice is which. -/
def stopCore (e : ArrEnv) (t : TeamRun) (r choice : Nat) : TeamRun :=
  let c := t.cores.getD r {}
  let w := coreWord e c
  let at' := stopAfter (moveLen w) c.progress choice
  let block := c.progress + choice % (macBlocks w - c.progress)
  if c.halted || decide (e.code.length ≤ c.pc) || !predOk c w then t
  else if iwClass w = 2 ∧ at' ≠ c.progress then
    let m := moveBytes e c t.out w c.progress at'
    { t with cores := t.cores.set r { m.1 with partly := true, progress := at' }, out := m.2 }
  else if iwClass w = 7 ∧ iwOp w = 0 ∧ at' ≠ c.progress then
    let cs := sendBytes e t.cores c w c.progress at'
    { t with cores := cs.set r { cs.getD r {} with partly := true, progress := at' } }
  else if iwClass w = 3 ∧ block ≠ c.progress then { t with cores := t.cores.set r (macShadow e c w block) }
  else t

/-! ### A team (R139, R142) -/

/-- Is a member at a `barrier`; at a `recv`? -/
def atBarrier (e : ArrEnv) (c : ArrCore) : Bool :=
  let w := coreWord e c
  !c.halted && predOk c w && iwClass w == 6 && iwOp w == 1
def atRecv (e : ArrEnv) (c : ArrCore) : Bool :=
  let w := coreWord e c
  !c.halted && predOk c w && iwClass w == 7 && iwOp w == 1

/-- Does one place come before another? -/
def placeBefore : List Int → List Int → Bool
  | a :: s, b :: t => decide (a < b) || (a == b && placeBefore s t)
  | _, _ => false

/-- Can a member go on by itself? -/
def freeToRun (e : ArrEnv) (c : ArrCore) : Bool := !c.halted && !atBarrier e c && !atRecv e c

/-- The members let go once none can go on by itself: all, at one barrier; else those whose `recv` comes first, since every
`send` before it has been executed. -/
def released (e : ArrEnv) (t : TeamRun) : List Nat :=
  let ids := (t.cores.map (fun c => bitsOf (coreWord e c) 0 8)).dedup
  if t.cores.all (atBarrier e) && decide (ids.length ≤ 1) then List.range t.cores.length
  else
    let rs := t.cores.zipIdx.filter (fun (x : ArrCore × Nat) => atRecv e x.1)
    (rs.filter (fun (x : ArrCore × Nat) => rs.all (fun y => !placeBefore (placeOf y.1) (placeOf x.1)))).map (fun x => x.2)

/-- One step of a team: the lowest role that can go on, or the release of those that wait. -/
def teamStep (e : ArrEnv) (t : TeamRun) : TeamRun :=
  match t.cores.findIdx? (freeToRun e) with
  | some r => coreStep e t r
  | none =>
    let rs := released e t
    if rs.isEmpty then { t with stuck := true }
    else { t with cores := t.cores.zipIdx.map (fun (x : ArrCore × Nat) => if rs.contains x.2 then advance x.1 else x.1) }

/-- Has every member executed `halt` (R139)? -/
def teamHalted (t : TeamRun) : Bool := t.cores.all (fun c => c.halted)

/-- Run a team for so many steps, or until it has halted. -/
def teamRuns (e : ArrEnv) : Nat → TeamRun → TeamRun
  | 0, t => t
  | n + 1, t => if teamHalted t || t.stuck then t else teamRuns e n (teamStep e t)

/-- More steps than any entry takes: words, times four nested loops of less than 2^32 iterations, times members. -/
def runBound : Nat := 2 ^ 160

/-- A member at the start of an entry: its working region is zeroed (R137). -/
def startCore (first : Nat) : ArrCore := { pc := first }

/-- A byte handed over through an output. -/
def handedByte (e : ArrEnv) (m : NMap Byte) (a : Nat) : Byte :=
  match look m a with | some b => b | none => Config.streamByte 5 e.key a

/-- Bytes handed over. -/
def handedBytes (e : ArrEnv) (m : NMap Byte) (off n : Nat) : List Byte := (List.range n).map (fun i => handedByte e m (off + i))

/-- FP32 values handed over, in order. -/
def handedF32 (e : ArrEnv) (m : NMap Byte) (off n : Nat) : List F32 := f32s (handedBytes e m off (4 * n))

/-! ### The saved frame (R156) -/

/-- A member's frame: 16,896 bytes and the working region. -/
def frameBytes (e : ArrEnv) (c : ArrCore) : List Byte :=
  fields [(c.pc, 2), (iwClass (coreWord e c), 1), (b2n c.partly, 1), (c.progress, 4)]
    ++ (List.range 16).flatMap (fun r => leBytes 4 (xget c r).toNat)
    ++ padTo 48 (c.loops.reverse.flatMap (fun l => fields [(l.1, 2), (l.2.1, 2), (l.2.2, 4), (0, 4)]))
    ++ fields [(sumN ((List.range 4).map (fun k => b2n (pget c k) * 2 ^ k)), 1), (0, 7)]
    ++ fields [(c.sat.toNat, 8), (c.scale.toNat, 8), (c.ovf.toNat, 8)]
    ++ (List.range 64).flatMap (fun k => leBytes 4 (c.underflow.getD k 0))
    ++ List.replicate 104 0
    ++ padTo 16384 (f32Bytes c.shadow)
    ++ (List.range e.work).map (fun k => mget c.working 0 k)

/-- The member that a frame holds, at a position of its KV stream. -/
def frameCore (bs : List Byte) (group : Nat) : ArrCore :=
  let partly := bitOf (leAt bs 3 1) 0
  let level := fun (k : Nat) => (leAt bs (72 + 12 * k) 2, leAt bs (74 + 12 * k) 2, leAt bs (76 + 12 * k) 4)
  { pc := leAt bs 0 2, partly := partly, progress := leAt bs 4 4, group := group,
    x := (List.range 16).map (fun r => BitVec.ofNat 32 (leAt bs (8 + 4 * r) 4)),
    p := (List.range 4).map (fun k => bitOf (leAt bs 120 1) k),
    loops := (((List.range 4).map level).filter (fun l => l.2.2 != 0)).reverse,
    sat := BitVec.ofNat 64 (leAt bs 128 8), scale := BitVec.ofNat 64 (leAt bs 136 8), ovf := BitVec.ofNat 64 (leAt bs 144 8),
    underflow := (List.range 64).map (fun k => leAt bs (152 + 4 * k) 4),
    shadow := if partly then f32s ((bs.drop 512).take 16384) else [],
    working := (bs.drop 16896).zipIdx.foldl (fun m (b : Byte × Nat) => mset m 0 b.2 b.1) [] }

end Sys2Proof.Machine
end

