-- ==== Sys2Proof/Machine/Kv.lean ====
section
/-!
DEFINITION. Sys2Proof/Machine/Kv.lean: the stored history of a session (04 R119 to R121; 06 R159 to R164, R170 to R174,
R184; 08 R231, R232): appending, folding, ageing, trimming, the tuning window, and the pages it occupies.
-/

namespace Sys2Proof.Machine

/-! ### Records and recipes -/

def recOf (d : Dev) (i : Nat) : Rec := mget d.ctx.recs {} i
def setRec (d : Dev) (i : Nat) (r : Rec) : Dev := { d with ctx := { d.ctx with recs := mset d.ctx.recs {} i r } }
def updRec (d : Dev) (i : Nat) (f : Rec → Rec) : Dev := setRec d i (f (recOf d i))

def rcpOf (d : Dev) (n : Nat) : RSlot := mget d.fab.rcp {} n
def setRcp (d : Dev) (n : Nat) (r : RSlot) : Dev := { d with fab := { d.fab with rcp := mset d.fab.rcp {} n r } }

/-- The handle of a recipe (R148 on): slot in [5:0], load generation in [15:8]. -/
def rcpHandle (n : Nat) (r : RSlot) : Nat := n + 256 * r.gen

/-- The slot a recipe handle names, and whether the handle is current. -/
def rcpIndex (h : Nat) : Nat := h % 64
def rcpCurrent (d : Dev) (h : Nat) : Bool := bitsOf h 6 2 == 0 && (rcpOf d (rcpIndex h)).gen == h / 256

/-- LOADED or STRANDED. -/
def rcpServes (r : RSlot) : Bool := r.state == .loaded || r.state == .stranded

/-- The recipe of a session, and its model. -/
def rcpFor (d : Dev) (r : Rec) : RSlot := rcpOf d (rcpIndex r.recipe)
def modelFor (d : Dev) (r : Rec) : Model := (rcpFor d r).model

/-! ### Windows -/

/-- The rows of one window as exact values. -/
def windowFix (rows : List KVRow) : List FixRow := rows.map fixRow

/-- Fold full A8 rows into the model's format (R119): the blocks, pools overflowed, groups clipped. -/
def foldRows (m : Model) (rows : List KVRow) : WinBlk × Nat × Nat := encodeWindow m.kvFormat m.d m.kvHeads (windowFix rows)

/-- Refold one window if the format is narrower (R121). -/
def ageWin (m : Model) (fmt : Nat) (w : WinBlk) : WinBlk × Nat × Nat :=
  if codeBits fmt < codeBits w.fmt then refold fmt m.d m.kvHeads w else (w, 0, 0)

/-- The refolds that fall due when fresh window `f` opens (R121): the windows, the pools overflowed, and the window of each group
clipped. -/
def ageAt (m : Model) (f : Nat) (s : List WinBlk × Nat × List Nat) : List WinBlk × Nat × List Nat :=
  [(m.age3, 2), (m.age2, 3)].foldl (fun (s : List WinBlk × Nat × List Nat) (a : Nat × Nat) =>
    if a.1 = 0 ∨ f < a.1 then s
    else match s.1[f - a.1]? with
      | none => s
      | some w =>
        let r := ageWin m a.2 w
        (s.1.set (f - a.1) r.1, s.2.1 + r.2.1, s.2.2 ++ List.replicate r.2.2 (f - a.1))) s

/-- Fold the full fresh window of a layer (R119, R121, R172 step 2). -/
def foldFresh (m : Model) (lk : LayerKV) : LayerKV × Nat × List Nat :=
  let r := foldRows m lk.fresh
  let a := ageAt m (lk.folded.length + 1) (lk.folded ++ [r.1], r.2.1, List.replicate r.2.2 lk.folded.length)
  ({ lk with folded := a.1, retained := lk.fresh, fresh := [] }, a.2.1, a.2.2)

/-- Append rows to a layer, folding each window as it fills, by fuel: a window already full is folded first. -/
def appendBy (m : Model) : Nat → LayerKV → List KVRow → LayerKV × Nat × List Nat
  | 0, lk, _ => (lk, 0, [])
  | fuel + 1, lk, rows =>
    if 256 ≤ lk.fresh.length then
      let r := foldFresh m lk
      let s := appendBy m fuel r.1 rows
      (s.1, s.2.1 + r.2.1, r.2.2 ++ s.2.2)
    else if rows.isEmpty then (lk, 0, [])
    else
      let n := 256 - lk.fresh.length
      appendBy m fuel { lk with fresh := lk.fresh ++ rows.take n } (rows.drop n)

/-- Append rows to a layer (R172): the layer, the blocks whose pool overflowed, and the window of each group clipped. -/
def appendRows (m : Model) (lk : LayerKV) (rows : List KVRow) : LayerKV × Nat × List Nat :=
  if rows.isEmpty then (lk, 0, []) else appendBy m (2 * rows.length + 3) lk rows

/-- The rows that go into the fresh window in place, before any fold is published (R172 step 1). -/
def appendInPlace (lk : LayerKV) (rows : List KVRow) : LayerKV :=
  { lk with fresh := lk.fresh ++ rows.take (256 - lk.fresh.length) }

/-- Trim a layer to `n` positions (R120). -/
def trimLayer (m : Model) (n : Nat) (lk : LayerKV) : W LayerKV :=
  let f := lk.folded.length
  let w := (n - 1) / 256
  if n = 0 then W.pure { lk with folded := [], retained := [], fresh := [] }
  else if f ≤ w then W.pure { lk with fresh := lk.fresh.take (n - 256 * f) }
  else if w + 1 = f ∧ !lk.retained.isEmpty then
    W.pure { lk with folded := lk.folded.take w, retained := [], fresh := lk.retained.take (n - 256 * w) }
  else
    (rowsToA8 (decodeWindow (lk.folded.getD w ⟨m.kvFormat, []⟩) m.d m.kvHeads)).map fun rows =>
      { lk with folded := lk.folded.take w, retained := [], fresh := rows.take (n - 256 * w) }

/-- Does a trim to `n` positions make the retained window the fresh one (R120), so that their areas change places? -/
def takesRetained (n : Nat) (lk : LayerKV) : Bool :=
  decide (n ≠ 0 ∧ lk.folded.length = (n - 1) / 256 + 1) && !lk.retained.isEmpty

/-- The session is damaged (R176): a trim clears it if it removes every window that has failed; `none` is no window. -/
def hurtRec (r : Rec) (win : Option Nat) : Rec :=
  { r with
    damaged := true
    damagedWin := if r.damaged then (match r.damagedWin, win with | some a, some b => some (min a b) | _, _ => none) else win }

/-- The n-gram carry after a log (R232): the last 7 symbols, missing ones read as pad. -/
def carryOf (log : List Nat) : List Nat :=
  let l := log.drop (log.length - 7)
  List.replicate (7 - l.length) 511 ++ l

/-- Trim a session to `n` positions (R226, R253): its history, log and carry; the output state is reset, but bytes
already released wait on; `damaged` clears with its window (R176). -/
def trimRec (m : Model) (n : Nat) (r : Rec) : W Rec :=
  (W.mapM (trimLayer m n) r.kv).map fun kv => { r with
    kv := kv, len := n, log := r.log.take n, carry := carryOf (r.log.take n),
    rebuildTo := match r.rebuildTo with | some t => if n < t then none else some t | none => none,
    damaged := r.damaged && !(r.damagedWin.any (fun w => decide (n ≤ 256 * w))),
    freshSel := r.freshSel != takesRetained n (r.kv.headD {}),
    out := { r.out with pending := none, tree := [], colStr := [], stopHeld := [], utf8Held := [] } }

/-- A drop (R192): the trim of an exhaustion victim keeps the length before it as `rebuild_to`. -/
def dropRec (m : Model) (n : Nat) (r : Rec) : W Rec :=
  (trimRec m n r).map fun t => { t with rebuildTo := some (match r.rebuildTo with | some x => max x r.len | none => r.len) }

/-! ### The tuning window (R184) -/

/-- Exact rows of the first `p` positions of a layer, in the form they are held in. -/
def firstFix (m : Model) (p : Nat) (lk : LayerKV) : List FixRow :=
  match lk.folded with
  | w :: _ => (decodeWindow w m.d m.kvHeads).take p
  | [] => (windowFix lk.fresh).take p

/-- FP32 masters from exact rows. -/
def masterOf (r : FixRow) : Master := { k := r.k.map (fun x => x.map f32OfFix), v := r.v.map (fun x => x.map f32OfFix) }

/-- The A8 encoding of masters (R116, R184). -/
def tuningOf (ms : List Master) : W (List KVRow) :=
  W.mapM (fun (r : Master) => (W.mapM headRowOf r.k).bind fun k => (W.mapM headRowOf r.v).map fun v => ({ k := k, v := v } : KVRow)) ms

/-- A layer with new masters. -/
def withMasters (lk : LayerKV) (ms : List Master) : W LayerKV :=
  (tuningOf ms).map fun t => { lk with masters := ms, tuning := t }

/-- The layer with a tuning window created from its first `p` positions. -/
def initTuning (m : Model) (p : Nat) (lk : LayerKV) : W LayerKV := withMasters lk ((firstFix m p lk).map masterOf)

/-! ### Pages of a session (R162, R163, R285) -/

/-- Key of a page: object kind and index within the object. -/
def pageKey (kind index : Nat) : Nat := kind * 2 ^ 48 + index
def pageKind (key : Nat) : Nat := key / 2 ^ 48
def pageIndex (key : Nat) : Nat := key % 2 ^ 48

/-- Pages of one A8 area and layer, and of one folded window and layer in a format (R163). -/
def pagesA8 (m : Model) : Nat := ceilDiv (2 * m.kvHeads * (m.d / 16 + 1)) 8
def pagesFold (m : Model) (fmt : Nat) : Nat := ceilDiv (2 * m.kvHeads * m.d) (blocksPerPage fmt)

/-- Folded-area chunks of 64 windows. -/
def chunksFor (windows : Nat) : Nat := ceilDiv windows 64

/-- Pages of the page table: header, directory and slots of 128 bytes (R163). -/
def ptPages (m : Model) (windows : Nat) : Nat :=
  ceilDiv (64 + 8 * chunksFor windows
    + 128 * (3 * m.layers * pagesA8 m + 64 * chunksFor windows * m.layers * pagesFold m m.kvFormat)) pageSize

/-- Pages of the symbol log for a length. -/
def logPages (len : Nat) : Nat := max 1 (ceilDiv (2 * len) pageSize)

/-- Pages of the tuning masters. -/
def masterPages (m : Model) (p : Nat) : Nat := ceilDiv (8 * m.kvHeads * m.d * p * m.layers) pageSize

/-- Folded page `k` of layer `l` of window `w`. -/
def foldPage (m : Model) (w l k : Nat) : Nat :=
  pageKey 1 ((w * m.layers + l) * pagesFold m m.kvFormat + k)

/-- The folded window that a page key belongs to. -/
def foldWindow (m : Model) (key : Nat) : Nat := pageIndex key / max 1 (m.layers * pagesFold m m.kvFormat)

/-- Pages of the folded windows of a layer. -/
def foldKeys (m : Model) (l : Nat) (ws : List WinBlk) : List Nat :=
  ws.zipIdx.flatMap (fun (w, i) => (List.range (pagesFold m w.fmt)).map (foldPage m i l))

/-- The pages that a session's content occupies, in rising order of key. -/
def wantPages (m : Model) (r : Rec) : List Nat :=
  let tuned := r.kv.any (fun l => !l.masters.isEmpty)
  let a8 := m.layers * pagesA8 m
  let windows := (r.kv.headD {}).folded.length
  sortBy (fun (a b : Nat) => decide (a < b)) (r.kv.zipIdx.flatMap (fun (lk, l) => foldKeys m l lk.folded))
    ++ (List.range (3 * a8)).filterMap (fun i => if i < a8 ∧ !tuned then none else some (pageKey 2 i))
    ++ (List.range (ptPages m windows)).map (pageKey 3)
    ++ (List.range (logPages r.len)).map (pageKey 4)
    ++ [pageKey 5 0]
    ++ (if tuned then (List.range (masterPages m ((r.kv.headD {}).masters.length))).map (pageKey 6) else [])

/-- Pages wanted that have no location yet. -/
def missingPages (m : Model) (r : Rec) : List Nat := (wantPages m r).filter (fun k => (look r.pages k).isNone)

/-- Bytes of the stage for `n` rows (R170). -/
def stageBytes (m : Model) (n : Nat) : Nat := n * m.layers * m.kvHeads * 2 * (m.d + 4)

/-- Bytes that an append of `n` positions may need beyond the stage: fold pages, and growth of page table and log
(R189). -/
def growBytes (m : Model) (r : Rec) (n : Nat) : Nat :=
  let f := (r.kv.headD {}).folded.length
  let f' := (r.len + n) / 256
  pageSize * ((f' - f) * m.layers * pagesFold m m.kvFormat + (ptPages m f' - ptPages m f) + (logPages (r.len + n) - logPages r.len))

/-- New T1 locations for page keys whose room was reserved. -/
def newPages (d : Dev) (ks : List Nat) : NMap Loc × Dev :=
  let r := takeReserved d ks.length
  let ls := locsAt r.2 1 r.1
  ((ks.zip ls.1).foldl (fun (p : NMap Loc) kl => put p kl.1 kl.2) [], ls.2)

/-- Merge page locations; the second table's win. -/
def mergePages (p q : NMap Loc) : NMap Loc := q.foldl (fun (s : NMap Loc) e => put s e.1 e.2) p

/-- Give the pages wanted and not present a location in T1, and free those no longer wanted. -/
def syncPages (d : Dev) (i : Nat) : Dev :=
  let r := recOf d i
  let m := modelFor d r
  let want := wantPages m r
  let d := setRec d i { r with pages := r.pages.filter (fun (p : Nat × Loc) => want.contains p.1) }
  let n := newPages d (missingPages m r)
  updRec n.2 i (fun r => { r with pages := mergePages r.pages n.1 })

/-- The folded windows that differ between two states of a layer (folds and refolds). -/
def changedWindows (o n : List WinBlk) : List Nat := (List.range n.length).filter (fun w => n[w]? != o[w]?)

/-- Page keys that a fold writes (R166): those of new and refolded windows, and growth. -/
def foldWrites (m : Model) (r : Rec) (layers : List LayerKV) : List Nat :=
  let ws := changedWindows ((r.kv.headD {}).folded) ((layers.headD {}).folded)
  (wantPages m { r with kv := layers }).filter (fun k =>
    (look r.pages k).isNone || (pageKind k == 1 && ws.contains (foldWindow m k)))

end Sys2Proof.Machine
end

