-- ==== Sys2Proof/Machine/Attn.lean ====
section
/-!
DEFINITION. Sys2Proof/Machine/Attn.lean: attention over one layer (06 R173, R175, R179 to R183; 04 R128): the units a row
reads, online softmax, masks, recompute and precision events.
-/

namespace Sys2Proof.Machine

/-- fp32 nearest to log2(e) / sqrt(d) (R179). -/
def softK (d : Nat) : F32 := match d with | 64 => 0x3E38AA3B | 128 => 0x3E0293EE | _ => 0x3DB8AA3B

/-- A masked score before scaling (R180). -/
def maskedScore : F32 := 0xFF7FFFFF

/-- A unit (R175): its blocks if it is held in blocks; its A8 rows by column if it is held in A8, or if the fresh or the
retained window gives an A8 copy of it (R128). -/
structure KUnit where
  /-- Place in the layer: 0 the tuning window, 2w + 1 window w in blocks, 2w + 2 window w in A8. -/
  key : Nat
  win : Nat
  inBlocks : Bool
  blks : List (Option Blk)
  rows : List (Option KVRow)
  /-- Does an A8 copy exist? -/
  copy : Bool
  tiles : Nat
  deriving DecidableEq, Repr

/-- A tile with flagged rows (R128): unit, tile (score tiles, then output tiles), window, recomputed, event. -/
structure Hit where
  unit : Nat
  tile : Nat
  win : Nat
  recompute : Bool
  event : Bool
  deriving DecidableEq, Repr

/-- What one query row gives: its output, row maximum and sum, underflows, and flagged tiles. -/
structure RowOut where
  o : List F32
  m : F32
  l : F32
  und : Nat
  hits : List Hit
  deriving DecidableEq, Repr

/-- Pairwise sum of lanes (R142, `rsum`), by fuel. -/
def pairSum : Nat → List F32 → W F32
  | 0, l => W.pure (l.headD 0)
  | n + 1, l => match l with
    | [] => W.pure 0
    | [x] => W.pure x
    | _ => (W.mapM (fun (p : List F32) => match p with | [x, y] => fAdd x y | _ => W.pure (p.headD 0)) (pieces 2 l)).bind (pairSum n)

/-- `rsum` of a tile. -/
def rsum (l : List F32) : W F32 := pairSum 7 l

/-- `rmax` of a tile. -/
def rmax (l : List F32) : F32 := l.foldl (fun a b => if fLt a b then b else a) (l.headD 0)

/-! ### Products -/

/-- Block of plane `c`, head `h`, number `b` of a unit. -/
def unitBlk (u : KUnit) (d c h b : Nat) : Option Blk := u.blks.getD ((2 * h + c) * d + b) none

/-- Score of a query with column `j` from blocks, and from A8 rows. -/
def scoreBlk (u : KUnit) (d h j : Nat) (q : HeadRow) : W F32 :=
  macBlk 0 (int8s q.codes) q.scale (unitBlk u d 0 h (j / (256 / d))) (j % (256 / d) * d) d
def kvHead (l : List HeadRow) (h : Nat) : HeadRow := l.getD h ⟨[], 0⟩
def scoreA8 (u : KUnit) (h j : Nat) (q : HeadRow) : W F32 :=
  match u.rows.getD j none with
  | none => W.pure 0
  | some r => macA8 0 (int8s q.codes) q.scale (int8s (kvHead r.k h).codes) (kvHead r.k h).scale

/-- The scores of one tile, scaled; masked columns as R180. -/
def scoreTile (a8 : Bool) (u : KUnit) (d h : Nat) (q : HeadRow) (seen : List Bool) (t : Nat) : W (List F32) :=
  W.mapM (fun j => (if seen.getD j false then (if a8 then scoreA8 u h j q else scoreBlk u d h j q)
    else W.pure maskedScore).bind fun s => fMul s (softK d)) ((List.range 64).map (fun c => 64 * t + c))

/-- Activation codes of a quantised row. -/
def quantP (a4 : Bool) (p : List F32) : W (List Int × F32) := if a4 then encodeA4 p else encodeA8 p

/-- Column `x` of V in a unit, as codes by position. -/
def vCodes (u : KUnit) (h x : Nat) : List Int :=
  u.rows.map (fun r => match r with | none => 0 | some r => ((kvHead r.v h).codes.getD x 0).toInt)

/-- V row scales by column. -/
def vScales (u : KUnit) (h : Nat) : List F32 :=
  u.rows.map (fun r => match r with | none => 0 | some r => (kvHead r.v h).scale)

/-- One output tile of P·V from blocks. -/
def outBlk (u : KUnit) (d h t : Nat) (pq : List Int × F32) : W (List F32) :=
  W.mapM (fun x => macBlk 0 pq.1 pq.2 (unitBlk u d 1 h x) 0 256) ((List.range 64).map (fun c => 64 * t + c))

/-- One output tile of P·V from A8 rows, V with scale 1. -/
def outA8 (u : KUnit) (h t : Nat) (pq : List Int × F32) : W (List F32) :=
  W.mapM (fun x => macA8 0 pq.1 pq.2 (vCodes u h x) 0x3F800000) ((List.range 64).map (fun c => 64 * t + c))

/-- A tile's result under R128: from an A8 copy again if the row is flagged and a copy exists. Where the recompute sets a flag again,
the recomputed results are the ones kept, which is the MODEL's choice (log entry 77). -/
def guarded (u : KUnit) (tile : Nat) (first : W (List F32)) (again : Unit → W (List F32)) : W (List F32) × List Hit :=
  if !first.flagged then (first, [])
  else if u.copy then
    let a := again ()
    ({ a with sat := false, scale := false, ovf := false }, [⟨u.key, tile, u.win, true, a.flagged⟩])
  else ({ first with sat := false, scale := false, ovf := false }, [⟨u.key, tile, u.win, false, true⟩])

/-- An edge operation outside the products flags a row of a tile (R127): its operands are no block of the tile, so that nothing is
recomputed and an event is counted (R128; log entry 80). -/
def edgeHit {α : Type} (u : KUnit) (tile : Nat) (v : W α) : List Hit :=
  if v.flagged then [⟨u.key, tile, u.win, false, true⟩] else []

/-! ### Online softmax (R179) -/

/-- The running state of one row: absent before its first unit. `last` is the unit read last. -/
structure Soft where
  st : Option (F32 × F32 × List F32) := none
  und : Nat := 0
  hits : List Hit := []
  last : Option KUnit := none
  deriving DecidableEq, Repr

/-- Softmax weights of a tile from its scores; masked columns are +0 and not counted (R180). -/
def weights (s : List F32) (seen : List Bool) (t : Nat) (n : F32) : W (List F32) :=
  W.mapM (fun (x : F32 × Nat) => if seen.getD (64 * t + x.2) false then (fAdd x.1 n).bind fExp2 else W.pure 0) s.zipIdx

/-- The score tiles of a unit. -/
def unitScores (d h : Nat) (q : HeadRow) (u : KUnit) (seen : List Bool) : List (W (List F32) × List Hit) :=
  (List.range u.tiles).map (fun t =>
    guarded u t (scoreTile (!u.inBlocks) u d h q seen t) (fun _ => scoreTile true u d h q seen t))

/-- The weights of a unit's tiles, from their scores. -/
def unitWeights (seen : List Bool) (sc : List (W (List F32) × List Hit)) (n : F32) : List (W (List F32)) :=
  sc.zipIdx.map (fun (r : (W (List F32) × List Hit) × Nat) => weights r.1.1.v seen r.2 n)

/-- The flags of results by score tile. -/
def tileHits {α : Type} (u : KUnit) (l : List (W α)) : List Hit := l.zipIdx.flatMap (fun (r : W α × Nat) => edgeHit u r.2 r.1)

/-- The output tiles of P·V of a unit; quantising P is part of each product, and its underflows are counted once. -/
def unitOut (a4 : Bool) (d h : Nat) (u : KUnit) (p : List F32) : List (W (List F32) × List Hit) × Nat :=
  let pa : W (List F32) := W.mapM (fun (z : F32 × F32) => fMul z.1 z.2) (p.zip (vScales u h))
  let qb := if u.inBlocks then quantP a4 p else pa.bind (quantP a4)
  let first := fun (t : Nat) => ({ qb with und := 0 }).bind (fun q => if u.inBlocks then outBlk u d h t q else outA8 u h t q)
  ((List.range (d / 64)).map (fun t => guarded u (4 + t) (first t) (fun _ => (pa.bind (quantP a4)).bind (outA8 u h t))), qb.und)

/-- Add the output tiles into the accumulator, tile by tile. -/
def addOut (acc : List F32) (outs : List (W (List F32) × List Hit)) : List (W (List F32)) :=
  ((pieces 64 acc).zip outs).map (fun z => W.mapM (fun (e : F32 × F32) => fAdd e.1 e.2) (z.1.zip z.2.1.v))

/-- The results of a list of tiles, their underflows and their hits. -/
def tilesUnd {α : Type} (l : List (W α)) : Nat := sumN (l.map (fun r => r.und))
def outsUnd (l : List (W (List F32) × List Hit)) : Nat := sumN (l.map (fun r => r.1.und))
def outsHits (l : List (W (List F32) × List Hit)) : List Hit := l.flatMap (fun r => r.2)

/-- One unit of the procedure. -/
def softUnit (a4 : Bool) (d h : Nat) (q : HeadRow) (s : Soft) (x : KUnit × List Bool) : Soft :=
  let u := x.1
  let seen := x.2
  if !seen.any id then s else
  let sc := unitScores d h q u seen
  let maxes := sc.map (fun r => rmax r.1.v)
  let m0 := match s.st with | none => maxes.headD 0 | some (m, _, _) => m
  let mNew := maxes.foldl (fun a b => if fLt a b then b else a) m0
  let n := (fMul mNew 0xBF800000).v
  let ps := unitWeights seen sc n
  let sums := ps.map (fun p => rsum p.v)
  let vs := sums.map (fun r => r.v)
  let l1 : W (F32 × List F32) := match s.st with
    | none => (W.foldl fAdd (vs.headD 0) (vs.drop 1)).map (fun l => (l, List.replicate d 0))
    | some (m, l, acc) =>
      (fAdd m n).bind fun e => (fExp2 e).bind fun a => (fMul l a).bind fun l => (W.foldl fAdd l vs).bind fun l =>
        (W.mapM (fun z => fMul z a) acc).map fun acc => (l, acc)
  let (outs, qund) := unitOut a4 d h u (ps.flatMap (fun p => p.v))
  let acc := addOut l1.v.2 outs
  { st := some (mNew, l1.v.1, acc.flatMap (fun r => r.v)),
    und := s.und + outsUnd sc + tilesUnd ps + tilesUnd sums + l1.und + qund + outsUnd outs + tilesUnd acc,
    hits := s.hits ++ outsHits sc ++ tileHits u ps ++ tileHits u sums ++ edgeHit u (u.tiles - 1) l1 ++ outsHits outs
      ++ acc.zipIdx.flatMap (fun (r : W (List F32) × Nat) => edgeHit u (4 + r.2) r.1),
    last := some u }

/-- The output of a row from what it has accumulated (R179). -/
def softOut (s : Soft) (l : F32) (acc : List F32) : W (List F32) × List Hit :=
  let o := (fRcp l).bind fun r => W.mapM (fun a => fMul a r) acc
  (o, match s.last with | some u => edgeHit u 4 o | none => [])

/-- Attention of one query row over its units (R179). -/
def attnRow (a4 : Bool) (d h : Nat) (q : HeadRow) (us : List (KUnit × List Bool)) : RowOut :=
  let s := us.foldl (softUnit a4 d h q) {}
  match s.st with
  | none => ⟨List.replicate d 0, 0, 0, s.und, s.hits⟩
  | some (m, l, acc) =>
    let (o, hits) := softOut s l acc
    ⟨o.v, m, l, s.und + o.und, s.hits ++ hits⟩

/-- One unit of the procedure under a maximum known before (R186). -/
def againUnit (a4 : Bool) (d h : Nat) (q : HeadRow) (n : F32) (s : Soft) (x : KUnit × List Bool) : Soft :=
  let u := x.1
  if !x.2.any id then s else
  let sc := unitScores d h q u x.2
  let ps := unitWeights x.2 sc n
  let (outs, qund) := unitOut a4 d h u (ps.flatMap (fun p => p.v))
  let acc := addOut (match s.st with | some (_, _, a) => a | none => List.replicate d 0) outs
  { st := some (0, 0, acc.flatMap (fun r => r.v)),
    und := s.und + outsUnd sc + tilesUnd ps + qund + outsUnd outs + tilesUnd acc,
    hits := s.hits ++ outsHits sc ++ tileHits u ps ++ outsHits outs
      ++ acc.zipIdx.flatMap (fun (r : W (List F32) × Nat) => edgeHit u (4 + r.2) r.1),
    last := some u }

/-- The output of one query row computed again under its saved maximum and sum (R186; log entry 80): nothing is rescaled. -/
def rowAgain (a4 : Bool) (d h : Nat) (q : HeadRow) (m l : F32) (us : List (KUnit × List Bool)) : RowOut :=
  let s := us.foldl (againUnit a4 d h q (fMul m 0xBF800000).v) {}
  match s.st with
  | none => ⟨List.replicate d 0, m, l, s.und, s.hits⟩
  | some (_, _, acc) =>
    let (o, hits) := softOut s l acc
    ⟨o.v, m, l, s.und + o.und, s.hits ++ hits⟩

/-! ### The units of a row (R173, R175, R182) -/

/-- What the rows of one layer of a piece of work see: the committed history, and the rows in the stage. -/
structure Hist where
  m : Model
  lk : LayerKV
  /-- Committed length as the rows see it: the tail fence, or for a replay the start of the span. -/
  base : Nat
  /-- Stage rows; in a run of positions they stand at `base` on. -/
  stage : List KVRow
  /-- A tree of more than one node. -/
  tree : Bool
  /-- A replay (R186): committed windows stay as they are. -/
  replay : Bool
  deriving DecidableEq, Repr

/-- Blocks of a window, read. -/
def readWin (w : WinBlk) : List (Option Blk) := w.blocks.map (readBlk w.fmt)

/-- Rows of window `w` that the run reads in A8, by column: committed ones, then those of the stage. -/
def a8Rows (x : Hist) (w : Nat) : List (Option KVRow) :=
  (List.range 256).map (fun c =>
    let p := 256 * w + c
    if p < x.base then (if w = x.lk.folded.length then x.lk.fresh[c]? else none)
    else if x.tree then none
    else x.stage[p - x.base]?)

/-- The tuning window as a unit; its columns beyond the masters are masked. -/
def tuningUnit (x : Hist) : List (KUnit × List Bool) :=
  if x.lk.tuning.isEmpty then []
  else [(⟨0, 0, false, [], (List.range 256).map (fun c => x.lk.tuning[c]?), false, 4⟩,
    (List.range 256).map (fun c => decide (c < x.lk.tuning.length)))]

/-- Did the fresh window stand full when the work started? -/
def fullFresh (x : Hist) : Bool := !x.replay && 256 ≤ x.lk.fresh.length

/-- Windows that the run completes in the stage below window `v` (R173). -/
def stagedFolds (x : Hist) (v : Nat) : List Nat :=
  let f := x.lk.folded.length + b2n (fullFresh x)
  if x.replay ∨ x.tree then [] else (List.range v).filter (fun w => f ≤ w)

/-- The windows in blocks as a row of window `v` reads them: each window that the run has completed is folded in the stage, and what it
then makes due is refolded, as the commits of single steps would have done (R121, R173, R181). -/
def blockWins (x : Hist) (v : Nat) : List WinBlk :=
  let held := if fullFresh x then x.lk.folded ++ [(foldRows x.m x.lk.fresh).1] else x.lk.folded
  (stagedFolds x v).foldl (fun ws w => (ageAt x.m (w + 1) (ws ++ [(foldRows x.m ((a8Rows x w).filterMap id)).1], 0, [])).1) held

/-- Window `w` in blocks, as a row of window `v` reads it, with the columns below position `p`. -/
def blockUnit (x : Hist) (v p w : Nat) : KUnit × List Bool :=
  let staged := stagedFolds x v
  let seen := (List.range 256).map (fun c => decide (256 * w + c < p))
  let blks := readWin ((if staged.isEmpty then x.lk.folded else blockWins x v).getD w ⟨x.m.kvFormat, []⟩)
  if staged.contains w then (⟨2 * w + 1, w, true, blks, a8Rows x w, w + 1 == v, 4⟩, seen)
  else
    let copy := staged.isEmpty && w + 1 == x.lk.folded.length && !x.lk.retained.isEmpty
    (⟨2 * w + 1, w, true, blks,
      if copy then (List.range 256).map (fun c => x.lk.retained[c]?) else [], copy, 4⟩, seen)

/-- Window `w` in A8, with the columns up to position `p`. -/
def a8Unit (x : Hist) (p w : Nat) : KUnit × List Bool :=
  let rows := a8Rows x w
  (⟨2 * w + 2, w, false, [], rows, true, 4⟩,
    (List.range 256).map (fun c => 256 * w + c ≤ p && (rows.getD c none).isSome))

/-- Is node `i` node `j` or below it? -/
def isAncestor (rows : List WRow) : Nat → Nat → Nat → Bool
  | 0, i, j => i == j
  | n + 1, i, j => i == j || (i != 0 && isAncestor rows n (rows.getD i ⟨0, 0, 0, 0⟩).parent j)

/-- The row that holds node `c` of the tree. -/
def nodeRow (rows : List WRow) (c : Nat) : Option Nat := rows.findIdx? (fun r => r.node == c)

/-- The tree unit of row `i` (R182): column `c` is node `c`; columns of nodes that were not run are masked. -/
def treeUnit (x : Hist) (rows : List WRow) (i : Nat) : KUnit × List Bool :=
  (⟨2 ^ 40, x.base / 256, false, [], (List.range 64).map (fun c => (nodeRow rows c).bind (fun j => x.stage[j]?)), true, 1⟩,
    (List.range 64).map (fun c => match nodeRow rows c with
      | some j => isAncestor rows rows.length i j
      | none => false))

/-- The units of row `i`, at position `p` (R175). -/
def rowUnits (x : Hist) (rows : List WRow) (i : Nat) : List (KUnit × List Bool) :=
  let p := (rows.getD i ⟨0, 0, 0, 0⟩).pos
  let f := x.lk.folded.length
  if x.replay then
    let v := p / 256
    let inBlocks := (List.range (min f (ceilDiv x.base 256))).map (blockUnit x v x.base)
    let first := x.base / 256
    let a8 := (List.range (v + 1)).filter (fun w => first ≤ w || (f ≤ w))
    tuningUnit x ++ inBlocks ++ a8.map (a8Unit x p)
  else if x.tree then
    tuningUnit x ++ (List.range f).map (blockUnit x f x.base)
      ++ (if x.lk.fresh.isEmpty then [] else [a8Unit x (x.base - 1) f]) ++ [treeUnit x rows i]
  else
    let v := p / 256
    let held := (List.range v).filter (fun w => w < f || (stagedFolds x v).contains w)
    tuningUnit x ++ held.map (fun w => blockUnit x v p w)
      ++ (if fullFresh x then [a8Unit x p f] else []) ++ [a8Unit x p v]

/-! ### One layer (R183) -/

/-- What a layer's attention gives: outputs, maxima and sums by row and query head; underflows; tiles recomputed and
events by window. -/
structure LayerOut where
  o : List (List F32)
  m : List F32
  l : List F32
  und : Nat
  recomputes : Nat
  events : List Nat
  deriving DecidableEq, Repr

/-- The tiles that were recomputed, and the windows of those with an event. A tile of 64 query rows of one KV head counts once: `hits`
are given with KV head and row group. -/
def tally (hits : List ((Nat × Nat) × Hit)) : Nat × List Nat :=
  let tiles := fun (p : Hit → Bool) =>
    ((hits.filter (fun e => p e.2)).map (fun e => (e.1, e.2.unit, e.2.tile, e.2.win))).dedup
  ((tiles (fun t => t.recompute)).length, (tiles (fun t => t.event)).map (fun e => e.2.2.2))

/-- Query heads of a KV head; KV head and row group of query head `h` of row `i` (R183). -/
def groupSize (m : Model) : Nat := max 1 (m.qHeads / max 1 m.kvHeads)
def rowGroup (m : Model) (i h : Nat) : Nat × Nat := (h / groupSize m, (i * groupSize m + h % groupSize m) / 64)

/-- The rows of a layer, by row and query head, together. -/
def layerOf (m : Model) (outs : List (List RowOut)) : LayerOut :=
  let t := tally (outs.zipIdx.flatMap (fun r => r.1.zipIdx.flatMap (fun e => e.1.hits.map (fun x => (rowGroup m r.2 e.2, x)))))
  { o := outs.map (fun r => r.flatMap (fun e => e.o)), m := outs.flatten.map (fun r => r.m),
    l := outs.flatten.map (fun r => r.l), und := sumN (outs.flatten.map (fun r => r.und)), recomputes := t.1, events := t.2 }

/-- Attention of one layer: `qs` are the query head rows by row. -/
def attnLayer (a4 : Bool) (x : Hist) (rows : List WRow) (qs : List (List HeadRow)) : LayerOut :=
  layerOf x.m ((List.range rows.length).map (fun i =>
    let us := rowUnits x rows i
    (List.range x.m.qHeads).map (fun h => attnRow a4 x.m.d (h / groupSize x.m) (kvHead (qs.getD i []) h) us)))

/-- The outputs of a layer once more, under the maxima and sums that a replay has saved (R186). -/
def layerAgain (a4 : Bool) (x : Hist) (rows : List WRow) (sv : TuneSave) : LayerOut :=
  layerOf x.m ((List.range rows.length).map (fun i =>
    let us := rowUnits x rows i
    (List.range x.m.qHeads).map (fun h =>
      let k := i * x.m.qHeads + h
      rowAgain a4 x.m.d (h / groupSize x.m) (kvHead (sv.q.getD i []) h) (sv.m.getD k 0) (sv.l.getD k 0) us)))

end Sys2Proof.Machine
end

