-- ==== Sys2Proof/Machine/RingRegs.lean ====
section
/-!
DEFINITION. Sys2Proof/Machine/RingRegs.lean: rings, clients and sync objects as registers set them up (02 R42, R46 to
R56, R73, R510; 03 R95; 15 R425; 18 R477): opening and closing, doorbells, resume, interrupts, shadow reads.
-/

namespace Sys2Proof.Machine

/-! ### Submission rings -/

/-- The opening of a submission ring is refused (R42, R55, R502). -/
def sqOpenRefused (d : Dev) (n : Nat) : Bool :=
  let k := fget d Fd.SEQ_SQ_CFG_size_log2 n
  !d.hst.ideActive || !(4 ≤ k && k ≤ 16) || !cqOpenBit d (sqCq d n) || sqCq d n ≥ 512
    || areaWraps (fget d Fd.SEQ_SQ_BASE_base n * 4096) (64 * 2 ^ k)

/-- Closing a submission ring (R56): nothing more is fetched, undispatched descriptors end with `CUT`, and the ring
drains while dispatched operations remain. A close also ends a stall (DESIGN CHOICE, log entry 77). -/
def sqClose (d : Dev) (n : Nat) : Dev :=
  let q := sqOf d n
  let flights := q.flights.map (fun f =>
    if f.phase = .waiting then { f with phase := .done, status := stCut, result := 0 } else f)
  let d := settle (setSq d n { q with flights := flights, tail := q.head, stalled := false, sequencer := none })
  setSq d n { sqOf d n with draining := !(sqOf d n).flights.isEmpty }

/-- The control sequencer that a ring is bound to as it opens (R18): which of the 32 that serve fewer than 16 open rings is free. -/
def bindSequencer (d : Dev) (n : Nat) : Dev :=
  let serves := fun (k : Nat) =>
    ((List.range 512).filter (fun r => r != n && sqOpenBit d r && (sqOf d r).sequencer == some k)).length
  let room := (List.range 32).filter (fun k => decide (serves k < 16))
  let (i, d) := freshBelow d room.length
  setSq d n { sqOf d n with sequencer := room[i]? }

/-- A write to `SEQ_SQ_CFG` (R18, R54, R55, R56): its WD fields also stay while the ring drains. An opened ring starts at index 0:
DEDUCED, log entry 75. -/
def sqCfgWrite (d : Dev) (n word addr : Nat) : Dev :=
  let was := sqOpenBit d n
  let sets := bitOf word 0
  if sets ∧ (sqOf d n).draining then cfgIgnored d addr else
  let d := regWrite d (regDef Rg.SEQ_SQ_CFG) n addr word (was || (sqOf d n).draining)
  if sets ∧ !was then
    if sqOpenRefused d n then cfgIgnored (fset d Fd.SEQ_SQ_CFG_open 0 n) addr
    else bindSequencer (setSq d n { sqOf d n with head := 0, tail := 0, stalled := false }) n
  else if was ∧ !sets then sqClose d n
  else d

/-- Offset of copy `n` of `SEQ_SQ_CFG`. -/
def sqCfgAddr (n : Nat) : Nat := copyAddr Rg.SEQ_SQ_CFG 0x40 n

/-- `SQ_OPEN`: a write to `SEQ_SQ_CFG` of a ring (R55). -/
def execSqOpen (ring : Nat) (value : BitVec 32) (s : State) : Host.Outcome State Fault Refusal :=
  lift (fun d => if ring < 512 ∧ d.sys.portUp then sqCfgWrite d ring (value.toNat ||| 1) (sqCfgAddr ring) else d) s

/-- `SQ_CLOSE`: a write that clears `open` and leaves the other fields (R56). -/
def execSqClose (ring : Nat) (s : State) : Host.Outcome State Fault Refusal :=
  lift (fun d => if ring < 512 ∧ d.sys.portUp then
    sqCfgWrite d ring (withBits (rawWord d (regDef Rg.SEQ_SQ_CFG) ring) 0 1 0) (sqCfgAddr ring) else d) s

/-- `SQ_DRAIN_END`: every dispatched operation of a closing ring has completed (R56). -/
def execSqDrainEnd (ring : Nat) (s : State) : Host.Outcome State Fault Refusal :=
  lift (fun d => if (sqOf d ring).draining ∧ (sqOf d ring).flights = [] then
    setSq d ring { sqOf d ring with draining := false } else d) s

/-- `SQ_RESUME`: a write of 1 to `SEQ_SQ_CMD.resume` (R59). -/
def execSqResume (ring : Nat) (s : State) : Host.Outcome State Fault Refusal :=
  lift (fun d => if (sqOf d ring).stalled ∧ d.sys.portUp then
    settle (setSq d ring { sqOf d ring with stalled := false }) else d) s

/-! ### Completion and stream rings -/

/-- A submission ring that is open or draining names the completion ring (R55). -/
def cqInUse (d : Dev) (n : Nat) : Bool :=
  (List.range 512).any (fun r => sqCq d r == n && (sqOpenBit d r || (sqOf d r).draining))

/-- A write to `SEQ_CQ_CFG` (R42, R50, R54, R55, R502). -/
def cqCfgWrite (d : Dev) (n word addr : Nat) : Dev :=
  let was := cqOpenBit d n
  let sets := bitOf word 0
  if was ∧ !sets ∧ cqInUse d n then cfgIgnored d addr else
  let d := regWrite d (regDef Rg.SEQ_CQ_CFG) n addr word was
  if sets ∧ !was then
    let k := fget d Fd.SEQ_CQ_CFG_size_log2 n
    if !d.hst.ideActive || !(6 ≤ k && k ≤ 20) || areaWraps (fget d Fd.SEQ_CQ_BASE_base n * 4096) (16 * 2 ^ k)
        || areaWraps (fget d Fd.SEQ_CQ_SHADOW_shadow n * 8) 8 then
      cfgIgnored (fset d Fd.SEQ_CQ_CFG_open 0 n) addr
    else setCq d n {}
  else d

/-- `CQ_OPEN` (R50, R55). -/
def execCqOpen (ring : Nat) (value : BitVec 32) (s : State) : Host.Outcome State Fault Refusal :=
  lift (fun d => if ring < 512 ∧ d.sys.portUp then
    cqCfgWrite d ring (value.toNat ||| 1) (copyAddr Rg.SEQ_CQ_CFG 0x40 ring) else d) s

/-- `CQ_CLOSE` (R55). -/
def execCqClose (ring : Nat) (s : State) : Host.Outcome State Fault Refusal :=
  lift (fun d => if ring < 512 ∧ d.sys.portUp then
    cqCfgWrite d ring (withBits (rawWord d (regDef Rg.SEQ_CQ_CFG) ring) 0 1 0) (copyAddr Rg.SEQ_CQ_CFG 0x40 ring)
    else d) s

/-- Does a context hold the slot (R55)? -/
def slotHeld (d : Dev) (n : Nat) : Bool := (mget d.ctx.slots {} n).state != .free

/-- A write to `SEQ_STR_CFG` (R42, R50, R54, R55, R502). -/
def strCfgWrite (d : Dev) (n word addr : Nat) : Dev :=
  let was := strOpenBit d n
  let sets := bitOf word 0
  if was ∧ !sets ∧ slotHeld d n then cfgIgnored d addr else
  let d := regWrite d (regDef Rg.SEQ_STR_CFG) n addr word was
  if sets ∧ !was then
    let k := fget d Fd.SEQ_STR_CFG_size_log2 n
    if !d.hst.ideActive || !(4 ≤ k && k ≤ 16) || areaWraps (fget d Fd.SEQ_STR_BASE_base n * 4096) (64 * 2 ^ k)
        || areaWraps (fget d Fd.SEQ_STR_SHADOW_shadow n * 8) 8 then
      cfgIgnored (fset d Fd.SEQ_STR_CFG_open 0 n) addr
    else setStr d n {}
  else d

/-- `STR_OPEN` (R50, R55). -/
def execStrOpen (ring : Nat) (value : BitVec 32) (s : State) : Host.Outcome State Fault Refusal :=
  lift (fun d => if ring < 4096 ∧ d.sys.portUp then
    strCfgWrite d ring (value.toNat ||| 1) (copyAddr Rg.SEQ_STR_CFG 0x40 ring) else d) s

/-- `STR_CLOSE` (R55). -/
def execStrClose (ring : Nat) (s : State) : Host.Outcome State Fault Refusal :=
  lift (fun d => if ring < 4096 ∧ d.sys.portUp then
    strCfgWrite d ring (withBits (rawWord d (regDef Rg.SEQ_STR_CFG) ring) 0 1 0) (copyAddr Rg.SEQ_STR_CFG 0x40 ring)
    else d) s

/-- A write to the configuration of a fault ring: the operator log or the selected client's (R42, R477, R485, R502). -/
def fltCfgWrite (d : Dev) (operator : Bool) (word addr : Nat) : Dev :=
  let bank := if operator then 0 else fget d Fd.FLT_CLIENT_SEL_client
  let ring := if operator then 256 else bank
  let op := if operator then Fd.FLT_LOG_CFG_open else Fd.FLT_CLIENT_CFG_open
  let reg := if operator then Rg.FLT_LOG_CFG else Rg.FLT_CLIENT_CFG
  let was := fbit d op bank
  let sets := bitOf word 0
  let d := regWrite d (regDef reg) bank addr word was
  if sets ∧ !was then
    let (_, k, base) := fltRingCfg d ring
    let shadow := if operator then fget d Fd.FLT_LOG_SHADOW_shadow else fget d Fd.FLT_CLIENT_SHADOW_shadow bank
    let lo := if operator then 6 else 4
    let hi := if operator then 20 else 16
    if !d.hst.ideActive || !(lo ≤ k && k ≤ hi) || areaWraps base (64 * 2 ^ k) || areaWraps (shadow * 8) 8 then
      cfgIgnored (fset d op 0 bank) addr
    else
      let q := mget d.flt.rings {} ring
      { d with flt := { d.flt with rings := mset d.flt.rings {} ring { q with tail := 0, phase := true, cons := 0 } } }
  else d

/-- `FAULT_RING_OPEN` (R477): the operator log or the selected client's ring is opened. -/
def execFaultRingOpen (operator : Bool) (value : BitVec 32) (s : State) : Host.Outcome State Fault Refusal :=
  lift (fun d => if d.sys.portUp then
    fltCfgWrite d operator (value.toNat ||| 1) (if operator then Rg.FLT_LOG_CFG else Rg.FLT_CLIENT_CFG) else d) s

/-! ### Doorbells, interrupts, shadows -/

/-- A doorbell (R44, R47, R48). -/
def doorbellWrite (d : Dev) (ring value : Nat) : Dev :=
  if d.hst.tdisp = .error then d else
  let tail := value % 2 ^ 16
  if !sqOpenBit d ring then raise d Fd.SEQ_EVT_doorbell_closed
  else if 2 ^ fget d Fd.SEQ_SQ_CFG_size_log2 ring ≤ tail then raise d Fd.SEQ_EVT_doorbell_invalid
  else setSq d ring { sqOf d ring with tail := tail }

/-- `DOORBELL` (R48). -/
def execDoorbell (ring : Nat) (value : BitVec 32) (s : State) : Host.Outcome State Fault Refusal :=
  lift (fun d => if ring < 512 ∧ d.sys.portUp then doorbellWrite d ring value.toNat else d) s

/-- `holdoff` has elapsed since the first completion of a ring not yet interrupted for (R51). -/
def cqHoldoff (d : Dev) (ring : Nat) : Dev :=
  let h := fget d Fd.SEQ_CQ_MOD_holdoff ring
  if h ≠ 0 ∧ 0 < (cqOf d ring).since ∧ (cqOf d ring).firstAt + h * 1024 ≤ up d then cqInterrupt d ring else d

/-- `MSIX_HOLDOFF_EXPIRE` (R51). -/
def execMsixHoldoffExpire (ring : Nat) (s : State) : Host.Outcome State Fault Refusal := lift (fun d => cqHoldoff d ring) s

/-- The consumer index of the meter's log is read (R459, R509): entries from it to the next one to write are unconsumed; an index that
has not moved has consumed nothing. -/
def logConsumed (d : Dev) (consumer : Nat) : Dev :=
  let n := 2 ^ fget d Fd.MTR_LOG_CFG_size_log2
  let c := consumer % n
  let t := d.mtr
  if c = t.cons then d
  else { d with mtr := { t with cons := c, unread := min t.unread ((t.written % n + n - c) % n) } }

/-- The device reads the consumer index of a completion (0) or fault (2) ring, or of the meter's log (3) (R459, R509). -/
def shadowRead (d : Dev) (kind ring consumer : Nat) : Dev :=
  if inReset d ∨ !hostPath d then d
  else if kind = 0 ∧ cqOpenBit d ring then
    setCq d ring { cqOf d ring with cons := consumer % 2 ^ fget d Fd.SEQ_CQ_CFG_size_log2 ring }
  else if kind = 2 ∧ (fltRingCfg d ring).1 then
    let q : FRing := mget d.flt.rings {} ring
    let q := { q with cons := consumer % 2 ^ (fltRingCfg d ring).2.1 }
    { d with flt := { d.flt with rings := mset d.flt.rings {} ring q } }
  else if kind = 3 ∧ fbit d Fd.MTR_LOG_BASE_log_en then logConsumed d consumer
  else d

/-! ### Sync set-up -/

/-- A write to `SYN_INIT` (R10, R73, R81): dropped while a posted write is in progress; otherwise it clears the mark,
loads the counter, makes the mirror write and tests the waits again. How long `busy` stays within its 64 cycles is
free. -/
def synInitWrite (d : Dev) (word : Nat) : Dev :=
  if up d < d.syn.busyUntil then postedOverrun d Rg.SYN_INIT else
  let obj := bitsOf word 0 17
  let o := syncObj d obj
  let mark := if bitOf word 17 then none else o.mark
  let ctr := if bitOf word 18 then BitVec.ofNat 64 (fget d Fd.SYN_INIT_VALUE_value) else o.ctr
  let d := regWrite d (regDef Rg.SYN_INIT) 0 Rg.SYN_INIT word false
  let (b, d) := freshBelow d 4
  let d := { d with syn := { d.syn with busyUntil := up d + b } }
  if ctr ≠ o.ctr ∨ mark ≠ o.mark then settle (syncStore d obj { ctr := ctr, mark := mark }) else d

/-- `SYN_INIT` (R73). -/
def execSynInit (value : BitVec 32) (s : State) : Host.Outcome State Fault Refusal :=
  lift (fun d => if d.sys.portUp then synInitWrite d value.toNat else d) s

/-- A write to `SEQ_CLIENT_SYNC` (R54, R510). -/
def clientSyncWrite (d : Dev) (client word addr : Nat) : Dev :=
  if syncCount < bitsOf word 0 17 + bitsOf word 17 18 then cfgIgnored d addr
  else regWrite d (regDef Rg.SEQ_CLIENT_SYNC) client addr word (fbit d Fd.SEQ_CTL_enable)

/-- `CLIENT_SYNC_WRITE` (R510). -/
def execClientSyncWrite (client : Nat) (value : Word) (s : State) : Host.Outcome State Fault Refusal :=
  lift (fun d => if client < 256 ∧ d.sys.portUp then
    clientSyncWrite d client value.toNat (copyAddr Rg.SEQ_CLIENT_SYNC 0x20 client) else d) s

/-- A write to `SEQ_CLIENT_MIRROR` (R54, R502). -/
def clientMirrorWrite (d : Dev) (client word addr : Nat) : Dev :=
  let en := fbit d Fd.SEQ_CTL_enable
  let d := regWrite d (regDef Rg.SEQ_CLIENT_MIRROR) client addr word en
  if !en ∧ fbit d Fd.SEQ_CLIENT_MIRROR_mirror_en client
      ∧ areaWraps (fget d Fd.SEQ_CLIENT_MIRROR_mirror_base client * 16) (16 * (syncRange d client).2) then
    cfgIgnored (fset d Fd.SEQ_CLIENT_MIRROR_mirror_en 0 client) addr
  else d

/-- A write to `SEQ_CLIENT_ACCT` (R54, R425, R502). -/
def clientAcctWrite (d : Dev) (client word addr : Nat) : Dev :=
  let en := fbit d Fd.SEQ_CTL_enable
  let d := regWrite d (regDef Rg.SEQ_CLIENT_ACCT) client addr word en
  if !en ∧ fbit d Fd.SEQ_CLIENT_ACCT_acct_en client
      ∧ areaWraps (fget d Fd.SEQ_CLIENT_ACCT_acct_addr client * 64) 256 then
    cfgIgnored (fset d Fd.SEQ_CLIENT_ACCT_acct_en 0 client) addr
  else d

/-- A write to `SEQ_CTL` (R95, R425): `enable` is refused before stage MEM and with a period out of range. -/
def seqCtlWrite (d : Dev) (word : Nat) : Dev :=
  if bitOf word 0 ∧ !fbit d Fd.SEQ_CTL_enable then
    let m := fget d Fd.SEQ_SCHED_CFG_acct_minutes
    if d.sys.stage < 4 ∨ d.sys.stage = 15 ∨ !(1 ≤ m ∧ m ≤ 60) then cfgIgnored d Rg.SEQ_CTL
    else fset d Fd.SEQ_CTL_enable 1
  else fset d Fd.SEQ_CTL_enable (word % 2)

/-- `SEQ_ENABLE`: a write that sets `SEQ_CTL.enable` (R95). -/
def execSeqEnable (s : State) : Host.Outcome State Fault Refusal :=
  lift (fun d => if d.sys.portUp then seqCtlWrite d 1 else d) s

/-- A write to `CTX_CTL` (R195, R229): setting `enable` with `records_log2` outside 10 to 24 is refused; the first
setting allocates the record table. -/
def ctxCtlWrite (d : Dev) (word : Nat) : Dev :=
  if bitOf word 0 ∧ !fbit d Fd.CTX_CTL_enable then
    let n := fget d Fd.CTX_REC_CFG_records_log2
    if !(10 ≤ n ∧ n ≤ 24) then cfgIgnored d Rg.CTX_CTL
    else
      let d := fset d Fd.CTX_CTL_enable 1
      { d with ctx := { d.ctx with tableLog2 := some (d.ctx.tableLog2.getD n) } }
  else fset d Fd.CTX_CTL_enable (word % 2)

/-- `CTX_ENABLE`: a write that sets `CTX_CTL.enable` (R195). -/
def execCtxEnable (s : State) : Host.Outcome State Fault Refusal :=
  lift (fun d => if d.sys.portUp then ctxCtlWrite d 1 else d) s

/-- `SYNC_SIGNAL` (R71): clears the mark if asked, applies its own operation, and completes; the mirror write of its own
change and then its descriptor signal follow its completion (R72). -/
def execSyncSignal (ring : Nat) (s : State) : Host.Outcome State Fault Refusal :=
  lift (fun d => dispatch d ring 0x60 (fun d f =>
    let c := sqClient d ring
    let rel := dbits f.desc 4 0 17
    let obj := syncAbs d c rel
    let before := syncObj d obj
    let d := if dbits f.desc 36 2 1 = 1 then syncPut d obj { before with mark := none } else d
    let d := syncApply d c rel (dbits f.desc 36 0 2) (db f.desc 24 8) false false
    let d := updFlight d ring f.id (fun g => { g with changed := decide (syncObj d obj ≠ before) })
    finish d ring f.id stOK 0)) s

/-- `SYNC_WAIT` (R71): the own wait is tested once the second group has passed; while it is not met the descriptor
holds its ring, and it is tested again after every change (`settle`). Within it the descriptor counts as not dispatched (DESIGN
CHOICE, log entry 77). -/
def execSyncWait (ring : Nat) (s : State) : Host.Outcome State Fault Refusal :=
  lift (fun d => dispatch d ring 0x61 (fun d f =>
    if f.testedAt.isSome then d
    else settle (updFlight d ring f.id (fun g => { g with testedAt := some (up d) })))) s

/-- The timeout of the own wait at the head of a ring has run out (R71). -/
def waitExpire (d : Dev) (ring : Nat) : Dev :=
  match (sqOf d ring).flights.find? (fun f => f.phase == .waiting) with
  | none => d
  | some f =>
    match f.testedAt with
    | none => d
    | some t =>
      if dOp f.desc = 0x61 ∧ db f.desc 32 4 ≠ 0 ∧ t + db f.desc 32 4 * 65536 ≤ up d then
        finish d ring f.id stExpired 0
      else d

/-- `SYNC_WAIT_TIMEOUT` (R71): the timeout of the own wait runs out first. -/
def execSyncWaitTimeout (ring : Nat) (s : State) : Host.Outcome State Fault Refusal := lift (fun d => waitExpire d ring) s

/-- `NOP` (R60): its wait and signal still apply. -/
def execNop (ring : Nat) (s : State) : Host.Outcome State Fault Refusal :=
  lift (fun d => dispatch d ring 0xF0 (fun d f => finish d ring f.id stOK 0)) s

end Sys2Proof.Machine
end

