-- ==== Sys2Proof/Machine/Keys.lean ====
section
/-!
DEFINITION. Sys2Proof/Machine/Keys.lean: the key store of the security unit (16 R426 to R430): derivation, draws,
signatures with the index discipline, certificates. The cryptographic functions are those of external standards (log
entry 4).
-/

namespace Sys2Proof.Machine

/-- A customisation label as a number, its first character in the lowest byte. -/
def label (s : String) : Nat := ofLe (s.toList.map (fun c => BitVec.ofNat 8 c.toNat))

/-- `KDF(label)` from the device root (R426). -/
def kdf (s : String) : BitVec 256 := Config.kmac256 Config.root [] (label s)

/-- The 32 bytes of a 256-bit value. -/
def b256 (v : BitVec 256) : List Byte := leBytes 32 v.toNat

/-- `uid` (R426). -/
def uidOf : Nat := (kdf "CYP-UID").toNat % 2 ^ 64

/-- Make a byte string exactly `n` bytes long. -/
def exactly (n : Nat) (bs : List Byte) : List Byte := (padTo n bs).take n

/-- The seeds of the identity key, SK_SEED, SK_PRF and PUB_SEED, and of the model KEM key, d and z, as one number (R426). -/
def idSeeds : Nat := ofLe (b256 (kdf "CYP-ID-SK") ++ b256 (kdf "CYP-ID-PRF") ++ b256 (kdf "CYP-ID-PUB"))
def modelSeeds : Nat := ofLe (b256 (kdf "CYP-MKEM-D") ++ b256 (kdf "CYP-MKEM-Z"))

/-- Public keys: identity (68 bytes: OID, root, PUB_SEED), model KEM and link KEM (1,568), attestation and meter (68). -/
def idPublic : List Byte := exactly 36 (Config.publicKey 4 idSeeds) ++ b256 (kdf "CYP-ID-PUB")
def modelPublic : List Byte := exactly 1568 (Config.publicKey 5 modelSeeds)
def linkPublic (k : BitVec 256) : List Byte := exactly 1568 (Config.publicKey 3 k.toNat)
def attPublic (k : BitVec 256) : List Byte := exactly 68 (Config.publicKey 1 k.toNat)
def meterPublic (k : BitVec 256) : List Byte := exactly 68 (Config.publicKey 2 k.toNat)

/-- The next output of the DRBG (R427). -/
def draw (d : Dev) : BitVec 256 × Dev := (Config.drbg d.fresh, { d with fresh := d.fresh + 1 })

/-- A signature under the identity key, at a leaf drawn uniformly (R428). -/
def idSign (d : Dev) (msg : List Byte) : List Byte × Dev :=
  let (v, d) := draw d
  (exactly 14824 (Config.xmssSign idSeeds (v.toNat % 2 ^ 60) msg), d)

/-- The 64-byte body of a key certificate (R430). -/
def certBody (kind succ bootId device : Nat) (key : List Byte) : List Byte :=
  fields [(0x54524543, 4), (1, 2), (kind, 1), (succ, 1), (uidOf, 8), (bootId, 8), (device, 2), (0, 6)]
    ++ b256 (Config.shake256 key)

/-- Certify a key with the identity key (R427, R428). -/
def idCertify (d : Dev) (kind succ bootId : Nat) (key : List Byte) : List Byte × Dev :=
  let body := certBody kind succ bootId 0 key
  let (s, d) := idSign d body
  (body ++ s, d)

/-- Leaves of an attestation or meter key: height 20 (R427). -/
def leaves : Nat := 2 ^ 20

/-- Sign with the next unused leaf of the attestation key (R429): with 1,024 leaves left a successor is formed and
certified; it signs from the first request after the last leaf. -/
def attSign (d : Dev) (msg : List Byte) : List Byte × Dev :=
  let d := if d.sec.attUsed = leaves then
      match d.sec.attNext with
      | some (k, c) => raise { d with sec := { d.sec with
          attKey := k, attCert := c, attUsed := 0, attSucc := d.sec.attSucc + 1, attNext := none } }
          Fd.SEC_EVT_att_key_rolled
      | none => d
    else d
  let sig := exactly 4963 (Config.xmssSign d.sec.attKey.toNat d.sec.attUsed msg)
  let used := d.sec.attUsed + 1
  let d := { d with sec := { d.sec with attUsed := used } }
  if used + 1024 = leaves then
    let (k, d) := draw d
    let (c, d) := idCertify d 1 (d.sec.attSucc + 1) d.sec.bootId (attPublic k)
    (sig, { d with sec := { d.sec with attNext := some (k, c) } })
  else (sig, d)

/-- Certify the link KEM key with the attestation key (R427, R430). -/
def certifyKem (d : Dev) : Dev :=
  match d.sec.linkKem with
  | none => d
  | some k =>
    let body := certBody 3 d.sec.kemSucc d.sec.bootId (fget d Fd.MAP_CFG_device) (linkPublic k)
    let (s, d) := attSign d body
    { d with sec := { d.sec with kemCert := body ++ s } }

/-- Certify the meter's public key, as the security unit reads it (R427). -/
def certifyMeter (d : Dev) : Dev :=
  if d.meter.rail ∧ d.sys.rom then
    let (c, d) := idCertify d 2 d.meter.keySucc d.meter.bootId (meterPublic d.meter.key)
    { d with sec := { d.sec with meterCert := c } }
  else d

/-- Stage ROM's keys (R426 to R428): the per-boot values are drawn and certified. -/
def romKeys (d : Dev) : Dev :=
  let (att, d) := draw d
  let (kem, d) := draw d
  let (sto, d) := draw d
  let (ck, d) := draw d
  let (bid, d) := draw d
  let boot := bid.toNat % 2 ^ 64
  let d := { d with sec := { d.sec with
    ready := true, attKey := att, attUsed := 0, attSucc := 0, linkKem := some kem, storageKey := sto, ckptKey := ck,
    bootId := boot } }
  let (c, d) := idCertify d 1 0 boot (attPublic att)
  certifyMeter (certifyKem { d with sec := { d.sec with attCert := c } })

end Sys2Proof.Machine
end

