-- ==== Sys2Proof/Machine/Output.lean ====
section
/-!
DEFINITION. Sys2Proof/Machine/Output.lean: the output path's decisions (09 R254 to R280): colander, sampler, verification
of takes, stop and UTF-8 stages, stream records.
-/

namespace Sys2Proof.Machine

/-- Is a list a suffix of another? -/
def suffixOf (s l : List Byte) : Bool := s.isSuffixOf l

/-! ### The colander (R261 to R264) -/

/-- The distinct non-empty prefixes of the listed sequences, and the empty string (R263). -/
def colStates (seqs : List ColSeq) : Nat :=
  1 + (seqs.flatMap (fun q => (List.range q.bytes.length).map (fun n => q.bytes.take (n + 1)))).dedup.length

/-- The longest suffix of a string that is a prefix of some sequence: the state (R263). -/
def colFit (seqs : List ColSeq) (w : List Byte) : List Byte :=
  ((w.tails).find? (fun t => seqs.any (fun q => t.isPrefixOf q.bytes))).getD []

/-- The state after a printed byte. -/
def colNext (seqs : List ColSeq) (s : List Byte) (b : Byte) : List Byte := colFit seqs (s ++ [b])

/-- Is a byte banned in a state (R263)? -/
def colBan (seqs : List ColSeq) (s : List Byte) (b : Byte) : Bool :=
  seqs.any (fun q => !q.force && suffixOf q.bytes (s ++ [b]))

/-- The byte forced in a state (R263). -/
def colForce (seqs : List ColSeq) (s : List Byte) : Option Byte :=
  (seqs.find? (fun q => q.force && s.isPrefixOf q.bytes && decide (q.trigger ≤ s.length) && decide (s.length < q.bytes.length))).bind
    (fun q => q.bytes[s.length]?)

/-- Do two forced sequences demand different bytes after the same string (R262)? -/
def colConflict (seqs : List ColSeq) : Bool :=
  let fs := seqs.filter (fun q => q.force)
  fs.any (fun f => fs.any (fun g => (List.range (min f.bytes.length g.bytes.length)).any (fun n =>
    decide (f.trigger ≤ n) && decide (g.trigger ≤ n) && f.bytes.take n == g.bytes.take n && f.bytes[n]? != g.bytes[n]?)))

/-- Read the sequence list (R262), by fuel; none if an entry is malformed or the entries do not fill the list exactly. -/
def colParse : Nat → List Byte → Option (List ColSeq)
  | 0, bs => if bs.isEmpty then some [] else none
  | n + 1, bs =>
    let kind := leAt bs 0 1
    let trig := leAt bs 1 1
    let len := leAt bs 2 2
    let size := 8 + ceilDiv len 8 * 8
    let str := (bs.drop 8).take len
    if bs.length < size ∨ !(kind == 1 || kind == 2) ∨ !(1 ≤ len && len ≤ 256) ∨ leAt bs 4 4 ≠ 0
        ∨ (if kind = 1 then trig ≠ 0 else !(1 ≤ trig && trig < len))
        ∨ (((bs.take size).drop (8 + len)).any (fun b => b != 0)) then none
    else (colParse n (bs.drop size)).map (fun r => ⟨kind == 2, trig, str⟩ :: r)

/-! ### The sampler (R259, R260) -/

/-- The draw value for a position (R260). -/
def drawValue (seed : BitVec 64) (j : Nat) : Nat :=
  let x : BitVec 64 := seed + BitVec.ofNat 64 (j + 1) * 0x9E3779B97F4A7C15
  let x := (x ^^^ (x >>> 30)) * 0xBF58476D1CE4E5B9
  let x := (x ^^^ (x >>> 27)) * 0x94D049BB133111EB
  let x := x ^^^ (x >>> 31)
  (x >>> 40).toNat

/-- Sort symbols by descending value, ties to the lower symbol. -/
def byLargest (v : Nat → F32) (l : List Nat) : List Nat :=
  sortBy (fun a b => decide (fixOf (v b) < fixOf (v a))) l

/-- The shortest leading run whose running sum reaches the threshold. -/
def leadingRun (p : Nat → F32) (threshold : F32) : F32 → List Nat → List Nat
  | _, [] => []
  | acc, s :: t =>
    let acc := (fAdd acc (p s)).v
    if fLe threshold acc then [s] else s :: leadingRun p threshold acc t

/-- The first symbol whose running sum exceeds the target. -/
def firstAbove (p : Nat → F32) (target : F32) : F32 → List Nat → Option Nat
  | _, [] => none
  | acc, s :: t =>
    let acc := (fAdd acc (p s)).v
    if fLt target acc then some s else firstAbove p target acc t

/-- One sample (R259): the symbol, and whether it was forced although banned (R264). -/
def sample (cfg : OutCfg) (seqs : List ColSeq) (seed : BitVec 64) (z : List F32) (state : List Byte) (j : Nat) : Nat × Bool :=
  match colForce seqs state with
  | some b => (b.toNat, colBan seqs state b)
  | none =>
    let allowed := (List.range 264).filter (fun s => 256 ≤ s || !colBan seqs state (BitVec.ofNat 8 s))
    let zOf := fun (s : Nat) => z.getD s 0
    if cfg.temperature = 0 ∨ cfg.temperature = 0x80000000 then ((byLargest zOf allowed).headD 0, false)
    else
      let y := fun (s : Nat) => (fMul (zOf s) (fRcp cfg.temperature).v).v
      let m := y ((byLargest y allowed).headD 0)
      let pl := (List.range 264).map (fun s => (fExp2 (fAdd (y s) (fMul m 0xBF800000).v).v).v)
      let p := fun (s : Nat) => pl.getD s 0
      let kept := if 1 ≤ cfg.topK ∧ cfg.topK < allowed.length then (byLargest p allowed).take cfg.topK else allowed
      let kept := if fLt cfg.topP 0x3F800000 then
          let order := byLargest p (sortBy (fun a b => decide (a < b)) kept)
          let total := (fSum (order.map p)).v
          leadingRun p (fMul cfg.topP total).v 0 order
        else kept
      let kept := sortBy (fun a b => decide (a < b)) kept
      let w := (fSum (kept.map p)).v
      let r := (fMul (fOfInt (drawValue seed j)).v 0x33800000).v
      ((firstAbove p (fMul r w).v 0 kept).getD (kept.getLastD 0), false)

/-! ### Verification (R257) -/

/-- The walk of R257 over the rows that were run, by fuel: prints, rows passed through (the root's first), and forced
bytes that were banned. `logits` are by row. -/
def walk (cfg : OutCfg) (seqs : List ColSeq) (seed : BitVec 64) (rows : List WRow) (logits : List (List F32)) :
    Nat → Nat → List Byte → List Nat × List Nat × Nat
  | 0, _, _ => ([], [], 0)
  | fuel + 1, u, state =>
    let row := rows.getD u ⟨0, 0, 0, 0⟩
    let (x, fb) := sample cfg seqs seed (logits.getD u []) state (row.pos + 1)
    let state := if 256 ≤ x then [] else colNext seqs state (BitVec.ofNat 8 x)
    let child := (List.range rows.length).find? (fun i => u < i && (rows.getD i ⟨0, 0, 0, 0⟩).parent == u
      && (rows.getD i ⟨0, 0, 0, 0⟩).sym == x)
    match if 256 ≤ x then none else child with
    | none => ([x], [], b2n fb)
    | some c =>
      let (ps, us, n) := walk cfg seqs seed rows logits fuel c state
      (x :: ps, c :: us, n + b2n fb)

/-- The colander state after a run of prints. -/
def colAfter (seqs : List ColSeq) (state : List Byte) (prints : List Nat) : List Byte :=
  prints.foldl (fun s x => if 256 ≤ x then [] else colNext seqs s (BitVec.ofNat 8 x)) state

/-! ### The UTF-8 stage (R274) -/

/-- Length of the sequence a byte begins; 0 if it can begin none. -/
def u8Len (b : Nat) : Nat :=
  if b ≤ 0x7F then 1 else if 0xC2 ≤ b ∧ b ≤ 0xDF then 2 else if 0xE0 ≤ b ∧ b ≤ 0xEF then 3
  else if 0xF0 ≤ b ∧ b ≤ 0xF4 then 4 else 0

/-- Range of the second byte after a first byte; later bytes are 80–BF. -/
def u8Second (b : Nat) : Nat × Nat :=
  match b with
  | 0xE0 => (0xA0, 0xBF)
  | 0xED => (0x80, 0x9F)
  | 0xF0 => (0x90, 0xBF)
  | 0xF4 => (0x80, 0x8F)
  | _ => (0x80, 0xBF)

/-- The replacement character. -/
def replacement : List Byte := [0xEF, 0xBF, 0xBD]

/-- A byte as a first byte: bytes passed, bytes held, replacements. -/
def u8First (b : Byte) : List Byte × List Byte × Nat :=
  match u8Len b.toNat with
  | 0 => (replacement, [], 1)
  | 1 => ([b], [], 0)
  | _ => ([], [b], 0)

/-- One byte through the stage with a held prefix. -/
def u8Step (held : List Byte) (b : Byte) : List Byte × List Byte × Nat :=
  match held with
  | [] => u8First b
  | f :: rest =>
    let (lo, hi) := if rest.isEmpty then u8Second f.toNat else (0x80, 0xBF)
    if lo ≤ b.toNat ∧ b.toNat ≤ hi then
      if held.length + 1 = u8Len f.toNat then (held ++ [b], [], 0) else ([], held ++ [b], 0)
    else
      let (o, h, n) := u8First b
      (replacement ++ o, h, n + 1)

/-- The stages' running result: bytes for the stream, bytes held in the UTF-8 stage, replacements. -/
structure U8 where
  out : List Byte
  held : List Byte
  replaced : Nat
  deriving DecidableEq, Repr

/-- Pass bytes through the UTF-8 stage; in RAW mode they pass as they are (R275). -/
def u8Pass (raw : Bool) (s : U8) (bs : List Byte) : U8 :=
  if raw then { s with out := s.out ++ bs }
  else bs.foldl (fun s b =>
    let (o, h, n) := u8Step s.held b
    { out := s.out ++ o, held := h, replaced := s.replaced + n }) s

/-- Flush the stage. -/
def u8Flush (s : U8) : U8 :=
  if s.held.isEmpty then s else { out := s.out ++ replacement, held := [], replaced := s.replaced + 1 }

/-! ### The stop stage (R270) -/

/-- The longest suffix of the held bytes that is a proper prefix of some stop string. -/
def stopKeep (stops : List (List Byte)) (h : List Byte) : List Byte :=
  (h.tails.find? (fun t => t.isEmpty || stops.any (fun s => t.isPrefixOf s && t.length < s.length))).getD []

/-- The lowest-indexed stop string that the held bytes end with. -/
def stopHit (stops : List (List Byte)) (h : List Byte) : Option Nat :=
  (List.range stops.length).find? (fun i => suffixOf (stops.getD i []) h)

/-- What the stages make of the prints (R270 to R272). -/
structure Staged where
  u8 : U8
  held : List Byte
  /-- Prints that survive. -/
  kept : Nat
  ending : Option (Nat × Nat × Nat × Nat) := none
  deriving DecidableEq, Repr

/-- Prints through the stop stage, in order. -/
def stagePrints (cfg : OutCfg) (raw : Bool) (total : Nat) : Nat → List Nat → Staged → Staged
  | _, [], s => s
  | i, x :: rest, s =>
    if 256 ≤ x then
      { u8 := u8Flush (u8Pass raw s.u8 s.held), held := [], kept := total, ending := some (2, x - 256, 2, 0) }
    else
      let h := s.held ++ [BitVec.ofNat 8 x]
      match stopHit cfg.stops h with
      | some k =>
        let m := (cfg.stops.getD k []).length
        let pre := h.take (h.length - m) ++ (if cfg.inclusive then cfg.stops.getD k [] else [])
        { u8 := u8Flush (u8Pass raw s.u8 pre), held := [], kept := i + 1,
          ending := some (1, k, b2n cfg.inclusive + 2 * b2n (i + 1 == total), m) }
      | none =>
        let keep := stopKeep cfg.stops h
        stagePrints cfg raw total (i + 1) rest
          { s with u8 := u8Pass raw s.u8 (h.take (h.length - keep.length)), held := keep, kept := i + 1 }

/-- What the output path decides before pass 2 (R257, R270 to R275): `rows` are those run, the root first; `logits` are
by row; `start` is the row the walk starts from. -/
def decide1 (o : OutSt) (raw : Bool) (seed : BitVec 64) (col : Option ColVer) (colId : Nat × Nat) (rows : List WRow)
    (logits : List (List F32)) (start : Nat) : Verdict × Nat :=
  let seqs := match col with | some v => v.seqs | none => []
  let state0 := if col.isSome ∧ o.colVer = colId then o.colStr else []
  let (prints, us, forced) := walk o.cfg seqs seed rows logits (rows.length + 1) start state0
  let st := stagePrints o.cfg raw prints.length 0 prints
    { u8 := { out := o.ready, held := o.utf8Held, replaced := 0 }, held := o.stopHeld, kept := 0 }
  let path := start :: us
  let stopped := match st.ending with | some (1, _) => true | _ => false
  let pendingStays := !stopped || st.kept == prints.length
  ({ prints := prints.take st.kept,
     rows := if pendingStays then path else path.take (st.kept + 1),
     last := path.getLastD start,
     pending := if pendingStays then prints.getLast? else none,
     bytes := st.u8.out, ending := st.ending, tree := [],
     out := { o with
       colStr := if col.isSome then colAfter seqs state0 (prints.take st.kept) else [], colVer := colId,
       stopHeld := st.held, utf8Held := st.u8.held, ready := [],
       pending := if pendingStays then prints.getLast? else none, tree := [] },
     replaced := st.u8.replaced, accepted := us.length }, forced)

/-! ### The candidate tree (R255, R256) -/

/-- Entry of a template: parent and rank. -/
def tmplAt (t : List Byte) (i : Nat) : Nat × Nat := (leAt t (2 * i) 1, leAt t (2 * i + 1) 1)

/-- Depths of the nodes of a template whose parents come first. -/
def tmplDepths (t : List Byte) (n : Nat) : List Nat :=
  (List.range n).foldl (fun ds i => ds ++ [if i = 0 then 0 else ds.getD (tmplAt t i).1 0 + 1]) []

/-- Is a template valid (R256)? -/
def tmplValid (t : List Byte) (n takes : Nat) : Bool :=
  let e := (List.range n).map (tmplAt t)
  let ds := tmplDepths t n
  tmplAt t 0 == (0, 0)
    && (List.range n).all (fun i => i == 0 || ((e.getD i (0, 0)).1 < i && ds.getD i 0 ≤ takes))
    && (List.range n).all (fun i => i == 0 || (List.range i).all (fun j => j == 0 || e.getD j (0, 0) != e.getD i (0, 0)))

/-- The next candidate tree (R256): byte and parent of each node; an invalid template gives the root alone. -/
def nextTree (pending takes nodes : Nat) (takeLogits : List F32) (t : List Byte) : List (Nat × Nat) × Bool :=
  if tmplValid t nodes takes then
    let ds := tmplDepths t nodes
    ((List.range nodes).map (fun i =>
      if i = 0 then (pending, 0)
      else
        let z := fun (b : Nat) => takeLogits.getD (256 * (ds.getD i 1 - 1) + b) 0
        ((byLargest z (List.range 256)).getD (tmplAt t i).2 0, (tmplAt t i).1)), true)
  else ([(pending, 0)], false)

/-! ### Stream records (R276 to R279) -/

/-- DATA records of at most 62 bytes each. -/
def dataRecords (bs : List Byte) : List (List Byte) :=
  (pieces 62 bs).map (fun c => padTo 64 (1 :: BitVec.ofNat 8 c.length :: c))

/-- An END record (R277). -/
def endRecord (e : Nat × Nat × Nat × Nat) (data : List Byte) (offset stepSeq : Nat) : List Byte :=
  padTo 64 (fields [(2, 1), (data.length, 1), (e.1, 1), (e.2.1, 1), (e.2.2.1, 1), (e.2.2.2, 1), (0, 2), (offset, 8),
    (stepSeq, 8)] ++ data)

/-- The records of a step that releases `bs` from stream offset `off` (R279). -/
def stepRecords (bs : List Byte) (ending : Option (Nat × Nat × Nat × Nat)) (off stepSeq : Nat) : List (List Byte) :=
  match ending with
  | none => dataRecords bs
  | some e =>
    let t := min bs.length 40
    dataRecords (bs.take (bs.length - t)) ++ [endRecord e (bs.drop (bs.length - t)) (off + bs.length) stepSeq]

/-- A CUT record (R278). -/
def cutRecord (off stepSeq : Nat) (stopped pending : Bool) (held : Nat) : List Byte :=
  padTo 64 (fields [(3, 8), (off, 8), (stepSeq, 8), (b2n stopped + 2 * b2n pending, 1), (held, 1)])

/-- A REWIND record (R278). -/
def rewindRecord (off len epoch slate : Nat) : List Byte :=
  padTo 64 (fields [(4, 8), (off, 8), (len, 4), (epoch, 4), (slate, 8)])

end Sys2Proof.Machine
end

