-- ==== Sys2Proof/Machine/Tables.lean ====
section
/-!
DEFINITION. Sys2Proof/Machine/Tables.lean: embedding tables (08 R233 to R249): row formats, the byte path's hash and
embedding, versions, pooling; and the versions of tables and colanders that work binds (R244, R265).
-/

namespace Sys2Proof.Machine

def tblOf (d : Dev) (n : Nat) : Tbl := mget d.txt.tbl {} n
def setTbl (d : Dev) (n : Nat) (t : Tbl) : Dev := { d with txt := { d.txt with tbl := mset d.txt.tbl {} n t } }
def colOf (d : Dev) (n : Nat) : Col := mget d.txt.col {} n
def setCol (d : Dev) (n : Nat) (t : Col) : Dev := { d with txt := { d.txt with col := mset d.txt.col {} n t } }

/-! ### Rows (R238, R239) -/

/-- A decoded row and whether a block of it was malformed. -/
abbrev DRow := List F32 × Bool

/-- Decode one row. -/
def rowDecode (fmt dim : Nat) (bs : List Byte) : DRow :=
  match fmt with
  | 1 => ((f32s (bs.take (4 * dim))).map (fun x => if nonFinite x then 0 else x), false)
  | 2 =>
    let s : F32 := BitVec.ofNat 32 (leAt bs dim 4)
    ((bs.take dim).map (fun c => if nonFinite s then 0 else ((fOfInt c.toInt).bind fun f => fMul f s).v), false)
  | _ =>
    let blks := (pieces 160 (bs.take (dim / 256 * 160)))
    (blks.flatMap (fun b => (blkValues 1 b).map f32OfFix), blks.any (fun b => (readBlk 1 b).isNone))

/-- Key of a chunk of 64 rows: part and chunk. -/
def chunkKey (part row : Nat) : Nat := part * 2 ^ 40 + row / 64

/-- A loaded row of a part, decoded; none in a chunk never loaded. -/
def partRow (v : TVer) (part row : Nat) : Option DRow :=
  match look v.chunks (chunkKey part row) with
  | none => none
  | some rows => rows[row % 64]?.map (rowDecode v.fmt v.dim)

/-- The rows that row `i` is made of: part and row. -/
def rowParts (v : TVer) (i : Nat) : List (Nat × Nat) :=
  if v.kind = 1 then [(0, i)] else [(1, i / max 1 v.r), (2, i % max 1 v.r)]

/-- Row `i` of a version (R238). -/
def tblRow (v : TVer) (i : Nat) : Option DRow :=
  if v.kind = 1 then partRow v 0 i
  else match partRow v 1 (i / max 1 v.r), partRow v 2 (i % max 1 v.r) with
    | some q, some r =>
      some ((q.1.zip r.1).map (fun e => (if v.combine = 1 then fMul e.1 e.2 else fAdd e.1 e.2).v), q.2 || r.2)
    | _, _ => none

/-- Rows of a part. -/
def rowsOf (v : TVer) (part : Nat) : Nat :=
  match part with
  | 1 => ceilDiv (v.rowsM1 + 1) (max 1 v.r)
  | 2 => v.r
  | _ => v.rowsM1 + 1

/-- Parts of a version. -/
def partsOf (v : TVer) : List Nat := if v.kind = 1 then [0] else [1, 2]

/-- Are all chunks loaded (R243)? -/
def fullyLoaded (v : TVer) : Bool :=
  (partsOf v).all (fun p => (List.range (ceilDiv (rowsOf v p) 64)).all (fun c => (look v.chunks (p * 2 ^ 40 + c)).isSome))

/-- Page keys and tile numbers that a row occupies (R239). -/
def rowTiles (v : TVer) (part row : Nat) : List Nat :=
  let size := rowBytes v.fmt v.dim
  let a := row * size / 4096
  (List.range ((row * size + size - 1) / 4096 + 1 - a)).map (fun i => part * 2 ^ 43 + a + i)

/-- Page of a tile. -/
def tilePage (tile : Nat) : Nat := tile / 8

/-- Charge the tiles that a set of distinct rows touches to an account, and count the rows the ladle fetched and those it
need not fetch again (R250, R420; log entry 18). -/
def ladleCharge (d : Dev) (a : Nat) (v : TVer) (distinct total : Nat) (rows : List Nat) : Dev :=
  let tiles := (rows.flatMap (fun i => (rowParts v i).flatMap (fun p => rowTiles v p.1 p.2)))
  let d := tiles.foldl (fun d t => match look v.pages (tilePage t) with
    | some l => chargeTier d a l.tier 4096
    | none => d) d
  { d with txt := { d.txt with fetched := d.txt.fetched + distinct, coalesced := d.txt.coalesced + (total - distinct) } }

/-! ### The byte path (R233 to R235) -/

/-- One round of the n-gram hash. -/
def hashStep (h : BitVec 64) (s : Nat) : BitVec 64 :=
  let h := (h ^^^ BitVec.ofNat 64 (s + 1)) * 0x9E3779B97F4A7C15
  h ^^^ (h >>> 32)

/-- The index of an n-gram (R234), oldest symbol first; order 1 is the symbol itself. -/
def gramIdx (n v : Nat) (syms : List Nat) : Nat :=
  if n = 1 then syms.getLastD 0
  else ((syms.foldl hashStep (BitVec.ofNat 64 n)) >>> 32).toNat * v / 2 ^ 32

/-- The current version of each byte-path table of a recipe, by ascending order: order, table, version. -/
def byteTables (d : Dev) (recipe : Nat) : List (Nat × Nat × TVer) :=
  ((List.range 8).map (fun k => k + 1)).filterMap (fun n =>
    d.txt.tbl.findSome? (fun (p : Nat × Tbl) => match p.2.cur with
      | some v => if v.order = n ∧ v.recipe = recipe then some (n, p.1, v) else none
      | none => none))

/-- Find a version of a table, current or old. -/
def verOf (d : Dev) (t num : Nat) : Option TVer :=
  ((tblOf d t).cur.toList ++ (tblOf d t).old).find? (fun v => v.num == num)

/-- The indices that the rows of a run read in one table: `grams` are the symbols up to each row, oldest first. -/
def runIdx (n v : Nat) (grams : List (List Nat)) : List Nat := grams.map (fun g => gramIdx n v (g.drop (g.length - n)))

/-- The embedding of one row (R233). -/
def embedRow (vs : List (Nat × TVer)) (dim : Nat) (gram : List Nat) : W (List F32) :=
  vs.foldl (fun (acc : W (List F32)) (p : Nat × TVer) =>
    acc.bind fun acc =>
      match tblRow p.2 (gramIdx p.1 (p.2.rowsM1 + 1) (gram.drop (gram.length - p.1))) with
      | some r => W.mapM (fun (e : F32 × F32) => fAdd e.1 e.2) (acc.zip r.1)
      | none => W.pure acc) (W.pure (List.replicate dim 0))

/-! ### Pooling (R246 to R248) -/

/-- The pieces of one bag (R247): runs of valid indices with at most 4,096 distinct rows, by fuel. -/
def segment : Nat → List Nat → List Nat → List Nat → List Nat × List Nat
  | 0, _, acc, rest => (acc, rest)
  | _, _, acc, [] => (acc, [])
  | n + 1, seen, acc, i :: rest =>
    if seen.contains i then segment n seen (acc ++ [i]) rest
    else if seen.length = 4096 then (acc, i :: rest)
    else segment n (i :: seen) (acc ++ [i]) rest

def segmentsBy : Nat → List Nat → List (List Nat)
  | 0, _ => []
  | n + 1, l => match l with
    | [] => []
    | _ =>
      let s := segment l.length [] [] l
      s.1 :: segmentsBy n s.2

/-- The terms of a count (R247): whole parts of 2^24, then the rest; more than one part is a split. -/
def countTerms (c : Nat) : List Nat :=
  if c ≤ 2 ^ 24 then [c]
  else List.replicate (c / 2 ^ 24) (2 ^ 24) ++ (if c % 2 ^ 24 = 0 then [] else [c % 2 ^ 24])

/-- Add one segment into the pool. -/
def poolSegment (v : TVer) (pool : List F32) (s : List Nat) : W (List F32) :=
  (sortBy (fun (a b : Nat) => decide (a < b)) s.dedup).foldl (fun (acc : W (List F32)) i =>
    match tblRow v i with
    | none => acc
    | some r => (countTerms (s.count i)).foldl (fun (acc : W (List F32)) c =>
        acc.bind fun p => W.mapM (fun (e : F32 × F32) =>
          (fOfInt c).bind fun f => (fMul f e.2).bind fun t => fAdd e.1 t) (p.zip r.1)) acc) (W.pure pool)

/-- Valid indices of a bag, with the numbers dropped as invalid and as missing (R246). -/
def bagValid (v : TVer) (bag : List Nat) : List Nat × Nat × Nat :=
  let inRange := bag.filter (fun i => i ≤ v.rowsM1)
  let good := inRange.filter (fun i => match tblRow v i with | some r => !r.2 | none => false)
  (good, bag.length - inRange.length, inRange.length - good.length)

/-- Pool one bag (R247, R248). -/
def poolBag (v : TVer) (mean : Bool) (good : List Nat) : W (List F32) :=
  let zero : List F32 := List.replicate v.dim 0
  if good.isEmpty then W.pure zero
  else
    ((segmentsBy good.length good).foldl (fun (acc : W (List F32)) s => acc.bind fun p => poolSegment v p s) (W.pure zero)).bind
      fun p => if mean then (fOfInt good.length).bind fun n => (fRcp n).bind fun r => W.mapM (fun x => fMul x r) p else W.pure p

/-- The table versions that satisfy `p` are marked `damaged` (R239), with an event for each (R250). -/
def hurtTables (d : Dev) (p : Nat → TVer → Bool) : Dev :=
  let hit := d.txt.tbl.flatMap (fun (e : Nat × Tbl) =>
    (e.2.cur.toList ++ e.2.staged.toList ++ e.2.old).filter (fun v => p e.1 v && !v.damaged))
  let g := fun (n : Nat) (v : TVer) => if p n v then { v with damaged := true } else v
  raiseMany { d with txt := { d.txt with tbl := d.txt.tbl.map (fun (e : Nat × Tbl) => (e.1, { e.2 with
    cur := e.2.cur.map (g e.1), staged := e.2.staged.map (g e.1), old := e.2.old.map (g e.1) })) } } Fd.TXT_EVT_crc_lasting hit.length

/-! ### Versions (R242, R244, R265) -/

/-- The next version number: modulo 2^32, skipping 0. -/
def nextVersion (n : Nat) : Nat := if (n + 1) % 2 ^ 32 = 0 then 1 else (n + 1) % 2 ^ 32

/-- All work dispatched in contexts. -/
def allWork (d : Dev) : List Work := (vals d.ctx.slots).filterMap (fun s => s.work)

/-- Is a table version, or a colander version, bound by work in flight? -/
def tblBound (d : Dev) (t num : Nat) : Bool := (allWork d).any (fun w => w.tables.any (fun b => b.2.1 == t && b.2.2 == num))
def colBound (d : Dev) (t num : Nat) : Bool := (allWork d).any (fun w => w.colander == some (t, num))

/-- Free old versions of tables and colanders that nothing binds any more. -/
def reap (d : Dev) : Dev :=
  let d := (keys d.txt.tbl).foldl (fun d n =>
    let t := tblOf d n
    let gone := t.old.filter (fun v => !tblBound d n v.num)
    if gone.isEmpty then d
    else gone.foldl (fun d _ => raise d Fd.TXT_EVT_version_freed)
      (setTbl d n { t with old := t.old.filter (fun v => tblBound d n v.num) })) d
  (keys d.txt.col).foldl (fun d n =>
    let t := colOf d n
    let gone := t.old.filter (fun v => !colBound d n v.num)
    if gone.isEmpty then d
    else gone.foldl (fun d _ => raise d Fd.TXT_OUT_EVT_colander_freed)
      (setCol d n { t with old := t.old.filter (fun v => colBound d n v.num) })) d

end Sys2Proof.Machine
end

