-- ==== Sys2Proof/Machine/Image.lean ====
section
/-!
DEFINITION. Sys2Proof/Machine/Image.lean: what a page holds (06 R160 to R164; 08 R231, R239), the entries of a page table (06 R163
to R166), and the seal of a page outside the package (10 R298).
-/

namespace Sys2Proof.Machine

/-- A page of zeros up to its size. -/
def page32k (bs : List Byte) : List Byte := exactly 32768 bs

/-- Tiles of a page. -/
def tilesOf (bs : List Byte) : List (List Byte) := (List.range 8).map (fun t => (bs.drop (4096 * t)).take 4096)

/-- Blocks of one page packed into its tiles (R161). -/
def packBlocks (fmt : Nat) (blocks : List (List Byte)) : List Byte :=
  let n := blocksPerPage fmt / 8
  (List.range 8).flatMap (fun t => exactly 4096 (((blocks.drop (n * t)).take n).flatten))

/-- Folded page `index` of a session (R162). -/
def foldedBytes (m : Model) (r : Rec) (index : Nat) : List Byte :=
  let sf := max 1 (pagesFold m m.kvFormat)
  let lw := index / sf
  let lk := r.kv.getD (lw % max 1 m.layers) {}
  match lk.folded[lw / max 1 m.layers]? with
  | none => []
  | some w =>
    let n := blocksPerPage w.fmt
    packBlocks w.fmt ((w.blocks.drop (n * (index % sf))).take n)

/-- The tiles of a stripe of A8 rows (R160): codes of 256 positions, then the scales. -/
def stripeBytes (d : Nat) (rows : List HeadRow) : List Byte :=
  exactly (256 * d) (rows.flatMap (fun r => r.codes)) ++ exactly 4096 (rows.flatMap (fun r => leBytes 4 r.scale.toNat))

/-- The window that an A8 area holds (R163), as the kind of an entry: 1 fresh, 2 retained, 3 tuning. Area 0 is the tuning area, 1 is
area A, 2 area B. -/
def areaKind (freshSel : Bool) (area : Nat) : Nat :=
  if area = 0 then 3 else if (area = 1) = (freshSel = false) then 1 else 2

/-- The A8 rows of the window of a kind. -/
def areaRows (lk : LayerKV) (kind : Nat) : List KVRow :=
  match kind with | 3 => lk.tuning | 1 => lk.fresh | _ => lk.retained

/-- A8 page `index` of a session (R162): areas one after another, layer-major. -/
def a8Bytes (m : Model) (r : Rec) (index : Nat) : List Byte :=
  let sa := max 1 (pagesA8 m)
  let layer := index / sa % max 1 m.layers
  let rows := areaRows (r.kv.getD layer {}) (areaKind r.freshSel (index / sa / max 1 m.layers))
  let stripes := (List.range m.kvHeads).flatMap (fun h =>
    stripeBytes m.d (rows.map (fun x => kvHead x.k h)) ++ stripeBytes m.d (rows.map (fun x => kvHead x.v h)))
  (stripes.drop (32768 * (index % sa))).take 32768
where kvHead (l : List HeadRow) (h : Nat) : HeadRow := l.getD h ⟨[], 0⟩

/-- Page `index` of the symbol log (R231). -/
def logBytesAt (r : Rec) (index : Nat) : List Byte :=
  ((r.log.drop (16384 * index)).take 16384).flatMap (fun s => leBytes 2 s)

/-- A list of numbers with its length in front. -/
def counted (l : List Nat) : List Nat := l.length :: l

/-- Bytes as numbers. -/
def nums (l : List Byte) : List Nat := l.map (fun b => b.toNat)

/-- What the output state stands for (R251, R266, R270). -/
def outNums (o : OutSt) : List Nat :=
  (match o.pending with | none => [0] | some p => [1, p]) ++ counted (o.tree.flatMap (fun t => [t.1, t.2]))
    ++ counted (nums o.colStr) ++ [o.colVer.1, o.colVer.2] ++ counted (nums o.stopHeld) ++ counted (nums o.utf8Held)
    ++ counted (nums o.ready) ++ counted (o.cfg.stops.flatMap (fun s => counted (nums s)))
    ++ [b2n o.cfg.inclusive, b2n o.cfg.colander, o.cfg.table, o.cfg.temperature.toNat, o.cfg.topK, o.cfg.topP.toNat]

/-- What the tuning masters stand for (R184). -/
def masterNums (lk : LayerKV) : List Nat :=
  lk.masters.flatMap (fun x => (x.k ++ x.v).flatMap (fun l => l.map (fun v => v.toNat)))

/-- What the session record stands for (R195, R396): the record image is page 0 of kind 0x00. -/
def recNums (r : Rec) : List Nat :=
  [r.client, r.recipe, r.cls, r.policy, r.hold, r.parkAfter, r.parkTier, r.ttl, r.seed.toNat, b2n r.raw, r.stepSeq, r.strOff,
    r.strEpoch, r.rebuildTo.getD 0, b2n r.rewound, b2n r.folded, r.len, r.ptGen.toNat, r.key.toNat, r.epoch]
    ++ r.carry ++ (match r.hint with | none => [0] | some h => [1, h.1, h.2])

/-! ### The page table (R163 to R166) -/

/-- The format byte of a page of a session (R164): 0 for A8 and everything that is not a block format. -/
def pageFmt (m : Model) (r : Rec) (key : Nat) : Nat :=
  if pageKind key = 1 then
    match ((r.kv.headD {}).folded)[foldWindow m key]? with
    | some w => w.fmt
    | none => m.kvFormat
  else 0

/-- Tiles in use of the page that starts at a block (R161, R162). -/
def blockTiles (fmt total page : Nat) : Nat := min 8 (ceilDiv (total - blocksPerPage fmt * page) (blocksPerPage fmt / 8))

/-- Tiles in use of a page of the folded area or of an A8 area (R160 to R162). -/
def pageTiles (m : Model) (r : Rec) (key : Nat) : Nat :=
  if pageKind key = 1 then blockTiles (pageFmt m r key) (2 * m.kvHeads * m.d) (pageIndex key % max 1 (pagesFold m m.kvFormat))
  else min 8 (2 * m.kvHeads * (m.d / 16 + 1) - 8 * (pageIndex key % max 1 (pagesA8 m)))

/-- The content of a page of the folded area or of an A8 area. -/
def kvPage (m : Model) (r : Rec) (key : Nat) : List Byte :=
  page32k (if pageKind key = 1 then foldedBytes m r (pageIndex key) else a8Bytes m r (pageIndex key))

/-- The checksums of the tiles in use of a page (R164). -/
def tileCrcs (tiles : Nat) (bytes : List Byte) : List (BitVec 32) :=
  ((tilesOf bytes).take tiles).map (fun t => BitVec.ofNat 32 (crc32c t))

/-- The entry that a slot implies for a page at a location (R164, R176). -/
def pageEntry (m : Model) (r : Rec) (key : Nat) (l : Loc) (gen : BitVec 32) : PEnt :=
  let i := pageIndex key
  let tiles := pageTiles m r key
  let crc := tileCrcs tiles (kvPage m r key)
  if pageKind key = 1 then
    let sf := max 1 (pagesFold m m.kvFormat)
    let fmt := pageFmt m r key
    { loc := l, gen := gen, fmt := fmt, layer := i / sf % max 1 m.layers, first := blocksPerPage fmt * (i % sf),
      start := 256 * foldWindow m key, tiles := tiles, kind := 0, crc := crc }
  else
    let sa := max 1 (pagesA8 m)
    let kind := areaKind r.freshSel (i / sa / max 1 m.layers)
    let f := (r.kv.headD {}).folded.length
    { loc := l, gen := gen, fmt := 0, layer := i / sa % max 1 m.layers, first := 8 * (i % sa),
      start := if kind = 1 then 256 * f else if kind = 2 then 256 * (f - 1) else 0, tiles := tiles, kind := kind, crc := crc }

/-- Does an entry agree with what its slot implies (R176)? -/
def entryGood (m : Model) (r : Rec) (key : Nat) (e : PEnt) : Bool :=
  let x := pageEntry m r key e.loc e.gen
  e.present && e.layer == x.layer && e.fmt == x.fmt && e.start == x.start && e.kind == x.kind && e.first == x.first

/-- Is one generation not later than another, in serial-number order (R165)? -/
def genLe (a b : BitVec 32) : Bool := decide ((b - a).toNat < 2 ^ 31)

/-- The entry of a slot that a reader of a generation uses (R165): the one with the larger generation that is not later. -/
def slotAt (g : BitVec 32) (x : PSlot) : Option PEnt :=
  match x.a.filter (fun e => genLe e.gen g), x.b.filter (fun e => genLe e.gen g) with
  | some a, some b => if genLe a.gen b.gen then some b else some a
  | some a, none => some a
  | none, b => b

/-- Write an entry into a slot for generation `g` (R166): in place of the entry that is pending or, if there is none, of the other
than the one that readers of generation `cur` use. -/
def slotWrite (cur : BitVec 32) (x : PSlot) (e : PEnt) : PSlot :=
  if slotAt cur x = x.a ∧ x.a.isSome then { x with b := some e } else { x with a := some e }

/-- The slot's entry for generation `g` as its page now is: kept if it says so already, written anew otherwise; the entry of a page
that is gone is not present. `inPlace` changes checksums only (R172). -/
def slotSync (m : Model) (r : Rec) (cur g : BitVec 32) (key : Nat) (x : PSlot) : PSlot :=
  match look r.pages key, slotAt g x with
  | none, none => x
  | none, some e => if e.present then slotWrite cur x { e with gen := g, present := false } else x
  | some l, e =>
    let want := pageEntry m r key l g
    match e with
    | some o => if { o with gen := g } = want then x else slotWrite cur x want
    | none => slotWrite cur x want

/-- The keys of the slots that a session's page table has or needs. -/
def slotKeys (r : Rec) : List Nat :=
  (keys r.table).foldl (fun l k => insertN k l)
    (((keys r.pages).filter (fun k => pageKind k == 1 || pageKind k == 2)).foldl (fun l k => insertN k l) [])

/-- The page table brought to generation `g`, while `cur` is the current one (R166, R167). -/
def tableSync (m : Model) (r : Rec) (cur g : BitVec 32) : NMap PSlot :=
  (slotKeys r).map (fun k => (k, slotSync m r cur g k (mget r.table {} k)))

/-- The checksums of the tiles written in place under the current generation (R172). -/
def tableRows (m : Model) (r : Rec) : NMap PSlot :=
  r.table.map (fun (p : Nat × PSlot) =>
    if pageKind p.1 ≠ 2 then p
    else
      let fix := fun (e : PEnt) => if slotAt r.ptGen p.2 = some e ∧ e.present then
          { e with crc := tileCrcs e.tiles (kvPage m r p.1) } else e
      (p.1, { a := p.2.a.map fix, b := p.2.b.map fix }))

/-- A location word (R287, R314). -/
def locWord (l : Loc) : Nat :=
  8 + l.tier + (if l.tier = 3 then (l.frame / 2 ^ 64 % 2 ^ 16) * 2 ^ 8 + (l.frame % 2 ^ 32) * 2 ^ 24 else l.frame * 2 ^ 8)

/-- The 64 bytes of an entry (R164). -/
def entryBytes64 (e : PEnt) : List Byte :=
  exactly 64 (fields [(if e.present then locWord e.loc else 0, 8), (e.gen.toNat, 4), (e.fmt, 1), (e.layer, 1), (e.first, 2), (e.start, 4),
    (e.tiles, 1), (e.kind, 1), (0, 10)] ++ e.crc.flatMap (fun c => leBytes 4 c.toNat))

/-- The 128 bytes of a slot. -/
def slotBytes (x : PSlot) : List Byte :=
  (match x.a with | some e => entryBytes64 e | none => exactly 64 []) ++ (match x.b with | some e => entryBytes64 e | none => exactly 64 [])

/-- The 64 bytes of a page-table header (R163). -/
def tableHeader (m : Model) (r : Rec) (directory : Nat) : List Byte :=
  let lk := r.kv.headD {}
  exactly 64 (fields [(r.ptGen.toNat, 4),
    (b2n r.freshSel + 2 * b2n (!lk.retained.isEmpty) + 4 * b2n (!lk.tuning.isEmpty) + 8 * b2n r.damaged + 16 * b2n (!r.edits.isEmpty), 1),
    (m.kvFormat, 1), ((if m.d = 64 then 0 else if m.d = 128 then 1 else 2), 1), (m.kvHeads, 1), (m.layers, 2), (pagesA8 m, 1),
    (pagesFold m m.kvFormat, 1), (r.len, 4), (chunksFor lk.folded.length, 4), (lk.tuning.length, 2), (0, 2), (directory, 8)])

/-- The bytes of a page table (R163): header, chunk directory, tuning area, areas A and B, then the folded area's chunks. Where the
parts lie among the table's pages the spec does not say: one behind the other, and a location word names the page that its part
begins in (log entry 79). -/
def tableBytes (m : Model) (r : Rec) : List Byte :=
  let n := chunksFor (r.kv.headD {}).folded.length
  let a8 := 3 * m.layers * pagesA8 m
  let per := 64 * m.layers * pagesFold m m.kvFormat
  let at' := fun (off : Nat) => match look r.pages (pageKey 3 (off / pageSize)) with | some l => locWord l | none => 0
  tableHeader m r (at' 64) ++ (List.range n).flatMap (fun c => leBytes 8 (at' (64 + 8 * n + 128 * (a8 + per * c))))
    ++ (List.range a8).flatMap (fun i => slotBytes (mget r.table {} (pageKey 2 i)))
    ++ (List.range (n * per)).flatMap (fun i => slotBytes (mget r.table {} (pageKey 1 i)))

/-- The plaintext of a page of a session, by its key. -/
def sessPage (m : Model) (r : Rec) (key : Nat) : List Byte :=
  page32k (match pageKind key with
    | 1 => foldedBytes m r (pageIndex key)
    | 2 => a8Bytes m r (pageIndex key)
    | 3 => ((tableBytes m r).drop (pageSize * pageIndex key)).take pageSize
    | 4 => logBytesAt r (pageIndex key)
    | 5 => Config.layout 5 (pageIndex key) (outNums r.out)
    | 6 => Config.layout 6 (pageIndex key) (r.kv.flatMap masterNums)
    | k => Config.layout k (pageIndex key) (recNums r))

/-- The plaintext of a page of a table version: rows at their stride (R239). -/
def tblPage (v : TVer) (key : Nat) : List Byte :=
  let part := key / 2 ^ 40
  let size := max 1 (rowBytes v.fmt v.dim)
  let lo := key % 2 ^ 40 * 32768
  let row := fun (i : Nat) => match look v.chunks (chunkKey part i) with
    | none => exactly size []
    | some rows => exactly size (rows.getD (i % 64) [])
  let a := lo / size
  page32k (((List.range (32768 / size + 2)).flatMap (fun k => row (a + k))).drop (lo - a * size))

/-- A node record (R322). -/
def nodeBytes (i : Idx) (n : INode) : List Byte :=
  exactly (nodeSize i) (fields [(n.key, 8), (n.edges.length, 1), (0, 7)] ++ exactly (vecRow i.row i.dim) n.vec
    ++ n.edges.flatMap (fun e => leBytes 8 e))

/-- Tiles of a chunk of 4,096 records, and its pages (R322). -/
def chunkTiles (i : Idx) : Nat :=
  let size := nodeSize i
  if size ≤ 4096 then ceilDiv 4096 (4096 / max 1 size) else 4096 * ceilDiv size 4096
def chunkPages (i : Idx) : Nat := ceilDiv (chunkTiles i) 8

/-- Key of a page of a chunk. -/
def idxKey (chunk page : Nat) : Nat := chunk * 2 ^ 16 + page

/-- The tile of a chunk in which a node's record starts. -/
def nodeTile (i : Idx) (node : Nat) : Nat :=
  let size := nodeSize i
  if size ≤ 4096 then node % 4096 / (4096 / max 1 size) else node % 4096 * ceilDiv size 4096

/-- One tile of a chunk. -/
def idxTile (i : Idx) (b : IBase) (chunk t : Nat) : List Byte :=
  let size := nodeSize i
  let rec' := fun (k : Nat) => match look b.nodes (4096 * chunk + k) with | some n => nodeBytes i n | none => exactly size []
  exactly 4096 (
    if size ≤ 4096 then
      let per := 4096 / max 1 size
      (List.range per).flatMap (fun k => if per * t + k < 4096 then rec' (per * t + k) else [])
    else
      let n := ceilDiv size 4096
      (rec' (t / n)).drop (4096 * (t % n)))

/-- The plaintext of a page of an index (R322). -/
def idxPage (i : Idx) (b : IBase) (key : Nat) : List Byte :=
  page32k ((List.range 8).flatMap (fun k => idxTile i b (key / 2 ^ 16) (8 * (key % 2 ^ 16) + k)))

/-- The digest of a page (R396). -/
def pageDigest (bs : List Byte) : BitVec 256 := Config.shake256 bs

/-! ### Sealing (R298) -/

/-- A session's sealing key on this device. -/
def sealKey (d : Dev) (r : Rec) : BitVec 256 :=
  Config.kmac256 r.key (fields [(d.sec.bootId, 8), (ownDevice d, 2)]) (label "CYP-SEAL")

/-- The initialisation vector of a tile. -/
def sealIv (ctr device tile : Nat) : List Byte := fields [(ctr, 8), (device, 2), (tile, 1), (0, 1)]

/-- The additional data of a tile. -/
def sealAad (name index fmt tile : Nat) : List Byte := fields [(name, 8), (index, 4), (fmt, 1), (tile, 1), (0, 2)]

/-- One sealed tile with its tag, and the low bytes of its IV, as a PUT carries it (R359). -/
def sealTile (d : Dev) (key : BitVec 256) (name index fmt ctr tile : Nat) (plain : List Byte) : List Byte :=
  exactly 4112 (Config.gcmSeal key (sealIv ctr (ownDevice d) tile) (sealAad name index fmt tile) plain)
    ++ (sealIv ctr (ownDevice d) tile).take 8

/-- Name of the object of a kind of a session: its first object is the record itself (log entry 20). -/
def objName (r : Rec) (kind : Nat) : Nat := r.name + kind

/-- All tiles of a session's page sealed under a seal counter. -/
def sealSess (d : Dev) (r : Rec) (key ctr : Nat) : List (List Byte) :=
  let m := modelFor d r
  (tilesOf (sessPage m r key)).zipIdx.map (fun (t, i) =>
    sealTile d (sealKey d r) (objName r (pageKind key)) (pageIndex key % 2 ^ 32) (pageFmt m r key) ctr i t)

end Sys2Proof.Machine
end

