-- ==== Sys2Proof/Machine/Dolly.lean ====
section
/-!
DEFINITION. Sys2Proof/Machine/Dolly.lean: groups of page moves, the dolly's queues and movers (10 R286, R291 to R297), pages
of neighbours given back (12 R359), and the publication of a session's pending edits (06 R166 to R169).
-/

namespace Sys2Proof.Machine

/-! ### Slots -/

def slotOf (d : Dev) (n : Nat) : Slot := mget d.ctx.slots {} n
def setSlot (d : Dev) (n : Nat) (s : Slot) : Dev := { d with ctx := { d.ctx with slots := mset d.ctx.slots {} n s } }
def updSlot (d : Dev) (n : Nat) (f : Slot → Slot) : Dev := setSlot d n (f (slotOf d n))

/-- State encodings (R197). -/
def RecState.code : RecState → Nat
  | .closed => 0
  | .active => 1
  | .paused => 2
  | .parked => 3
  | .moving => 4
  | .expired => 5

def CtxState.code : CtxState → Nat
  | .free => 0
  | .opened => 1
  | .running => 2
  | .paused => 3
  | .saved => 4
  | .cutPending => 5

/-- The context state of a record: FREE without a slot. -/
def ctxStateOf (d : Dev) (i : Nat) : CtxState :=
  match (recOf d i).slot with
  | none => .free
  | some s => (slotOf d s).state

/-- The result of `STATE_CONFLICT` for a session (R198). -/
def conflictOf (d : Dev) (i : Nat) : Nat := (recOf d i).state.code + 256 * (ctxStateOf d i).code

/-- The work dispatched for a session. -/
def sessWork (d : Dev) (i : Nat) : Option Work :=
  match (recOf d i).slot with
  | none => none
  | some s => (slotOf d s).work

/-! ### Neighbour pages (12 R359, R361) -/

/-- A loan message. -/
def loanFrame (typ status tier mask loan page pages deadline : Nat) (tiles : List Byte) : List Byte :=
  padTo 32 (fields [(typ, 1), (status, 1), (tier, 1), (mask, 1), (loan, 4), (page, 4), (pages, 4), (deadline, 4)]) ++ tiles

/-- Key of a loan taken (lender and loan), lender, loan and page of a T3 frame. -/
def t3Key (l : Loc) : Nat := l.frame / 2 ^ 32
def t3Page (l : Loc) : Nat := l.frame % 2 ^ 32
def t3Lender (key : Nat) : Nat := key / 2 ^ 32
def t3Loan (key : Nat) : Nat := key % 2 ^ 32

/-- A location is freed: a page on loan is given back, and the loan is returned with its last page. -/
def releaseLoc (client : Option Nat) (d : Dev) (l : Loc) : Dev :=
  let k := t3Key l
  if l.tier ≠ 3 then d
  else match look d.lnk.borrows k with
    | none => d
    | some b =>
      let b := { b with freed := insertN (t3Page l) b.freed }
      let d := sendFrame d 3 0x30 (t3Lender k) client (loanFrame 7 0 0 0 (t3Loan k) (t3Page l) 0 0 [])
      if b.pages ≤ b.freed.length then
        sendFrame { d with lnk := { d.lnk with borrows := del d.lnk.borrows k } } 3 0x30 (t3Lender k) client
          (loanFrame 9 0 0 0 (t3Loan k) 0 0 0 [])
      else { d with lnk := { d.lnk with borrows := put d.lnk.borrows k b } }

def releaseLocs (d : Dev) (client : Option Nat) (ls : List Loc) : Dev := ls.foldl (releaseLoc client) d

/-! ### Objects that move -/

/-- A version of a table: current, staged or old. -/
def anyVer (d : Dev) (n v : Nat) : Option TVer :=
  ((tblOf d n).cur.toList ++ (tblOf d n).staged.toList ++ (tblOf d n).old).find? (fun x => x.num == v)

/-- Pages of an object by key. -/
def objPages (d : Dev) (o : MoveOf) : NMap Loc :=
  match o with
  | .session i => (recOf d i).pages
  | .table n v => match anyVer d n v with
    | some x => x.pages
    | none => []
  | .index n => (mget d.fls.idx {} n).base.pages
  | .restore _ => []

/-- Change one version of a table. -/
def updVer (t : Tbl) (v : Nat) (f : TVer → TVer) : Tbl :=
  let g := fun (x : TVer) => if x.num = v then f x else x
  { t with cur := t.cur.map g, staged := t.staged.map g, old := t.old.map g }

/-- Change an index. -/
def setIdx (d : Dev) (n : Nat) (i : Idx) : Dev := { d with fls := { d.fls with idx := mset d.fls.idx {} n i } }
def idxOf (d : Dev) (n : Nat) : Idx := mget d.fls.idx {} n

/-- Record new locations of an object's pages: one write of its owner's descriptor (R286). -/
def setObjPages (d : Dev) (o : MoveOf) (ps : NMap Loc) : Dev :=
  match o with
  | .session i => updRec d i (fun r => { r with pages := ps })
  | .table n v => setTbl d n (updVer (tblOf d n) v (fun x => { x with pages := ps }))
  | .index n =>
    -- R320: moved chunks publish as a new base version with the same contents
    let i := idxOf d n
    let bound := (vals d.fls.search).any (fun (s : Search) => s.index == n && s.base == i.base.num)
    let d := if bound then d else raise d Fd.FLS_EVT_version_freed
    setIdx d n { i with base := { i.base with num := i.base.num + 1, pages := ps }, old := if bound then i.base :: i.old else i.old }
  | .restore _ => d

/-- The client that owns an object. -/
def objClient (d : Dev) (o : MoveOf) : Nat :=
  match o with
  | .session i | .restore i => (recOf d i).client
  | .table n _ => (tblOf d n).client
  | .index n => (idxOf d n).client

/-- Kinds written in place at commit points (R296). -/
def inPlaceKind (k : Nat) : Bool := k == 2 || k == 4 || k == 5

/-! ### Groups -/

def grpOf (d : Dev) (id : Nat) : Option MoveGrp := d.dly.groups.find? (fun g => g.id == id)

def updGrp (d : Dev) (id : Nat) (f : MoveGrp → MoveGrp) : Dev :=
  { d with dly := { d.dly with groups := d.dly.groups.map (fun g => if g.id = id then f g else g) } }

/-- The queue a move waits in (R297): `lc` is the class of what waits for it. -/
def queueOf (why : MoveWhy) (lc : Bool) : Nat :=
  match why with
  | .resume | .urgent => if lc then 0 else 1
  | .spill => 2
  | .recall => 3
  | .park | .autoPark | .handoff => 4
  | .prefetch => 5
  | .objMove | .hint => 6

/-- Pages of an object that some group has reserved and not published (R296). -/
def movingPages (d : Dev) (o : MoveOf) : List Nat :=
  (d.dly.groups.filter (fun g => g.obj == o)).flatMap (fun g => g.left ++ g.done.map Prod.fst)

/-- Is a mover at work on a page of a session (R168)? -/
def sessMoving (d : Dev) (i : Nat) : Bool :=
  (vals d.dly.movers).any (fun p => match grpOf d p.group with | some g => g.obj == .session i | none => false)

/-- Is any move of a session under way (R296)? -/
def sessGroups (d : Dev) (i : Nat) : List MoveGrp := d.dly.groups.filter (fun g => g.obj == .session i)

/-- Pages of a set that lie in place-written kinds and are in a move (R296: work waits for them). -/
def inPlaceMoving (d : Dev) (i : Nat) : Bool := (movingPages d (.session i)).any (fun k => inPlaceKind (pageKind k))

/-- Forget the waiting and moving pages of a group; their destinations are free again. -/
def dropGroup (d : Dev) (id : Nat) : Dev :=
  { d with dly := { d.dly with
    queues := (d.dly.queues.map (fun (q : Nat × List QPage) => (q.1, q.2.filter (fun p => p.group != id)))).filter
      (fun (q : Nat × List QPage) => !q.2.isEmpty),
    movers := d.dly.movers.filter (fun (m : Nat × QPage) => m.2.group != id),
    groups := d.dly.groups.filter (fun g => g.id != id) } }

/-- Queue a group: its pages join their queue in order. -/
def queueGroup (d : Dev) (why : MoveWhy) (obj : MoveOf) (ring flight : Nat) (answers lc : Bool) (tier : Nat) (keys frames : List Nat) :
    Dev :=
  let id := d.dly.nextGroup
  let q := queueOf why lc
  let ps := (keys.zip frames).map (fun (k, f) => ({ group := id, page := k, dest := { tier := tier, frame := f }, queued := frame d, since := frame d } : QPage))
  let old : List QPage := mget d.dly.queues [] q
  { d with dly := { d.dly with
    nextGroup := id + 1, queues := mset d.dly.queues [] q (old ++ ps),
    groups := d.dly.groups ++ [{ id := id, why := why, obj := obj, ring := ring, flight := flight, answers := answers, left := keys }] } }

/-! ### Moves asked for on the side (R193, R292, R296) -/

/-- Folded pages that a hint wants elsewhere (R292). -/
def hintPages (d : Dev) (i : Nat) : Nat × List Nat :=
  let r := recOf d i
  let m := modelFor d r
  match r.hint with
  | none => (0, [])
  | some (tier, keep) =>
    (tier, (r.pages.filter (fun (p : Nat × Loc) =>
      pageKind p.1 == 1 && foldWindow m p.1 + keep < (r.kv.headD {}).folded.length && p.2.tier != tier)).map Prod.fst)

/-- The moves of a hint, once no page of them is in an earlier move. -/
def askHint (d : Dev) (i : Nat) : Dev :=
  let r := recOf d i
  let w := hintPages d i
  if !r.hintDue ∨ w.2.any (fun k => (movingPages d (.session i)).contains k) then d
  else
    let d0 := d
    let d := updRec d i (fun r => { r with hintDue := false })
    if w.2.isEmpty then d
    else match alloc d r.client w.1 w.2.length with
      | .ok fs d => queueGroup d .hint (.session i) 0 0 false false w.1 w.2 fs
      | .waits => d0
      | _ => d

/-- Pages of a session in T2 or T3, which a prefetch brings back (R193). -/
def prefetchPages (r : Rec) : List Nat := (r.pages.filter (fun (p : Nat × Loc) => p.2.tier == 2 || p.2.tier == 3)).map Prod.fst

/-- The moves of a prefetch, while room exists, once no page of them is in an earlier move. -/
def askPrefetch (d : Dev) (i : Nat) : Dev :=
  let r := recOf d i
  let ks := prefetchPages r
  if !r.prefetchDue ∨ ks.any (fun k => (movingPages d (.session i)).contains k) then d
  else
    let d0 := d
    let d := updRec d i (fun r => { r with prefetchDue := false })
    let n := ((List.range ks.length).map (fun k => ks.length - k)).find? (fun n => (lackT1 d r.client (pageSize * n)).isNone)
    match n with
    | none => d
    | some n => match alloc d r.client 1 n with
      | .ok fs d => queueGroup d .prefetch (.session i) 0 0 false false 1 (ks.take n) fs
      | .waits => d0
      | _ => d

/-- The most pages, up to `n`, that can be allocated in a tier. -/
def allocMost (d : Dev) (c t : Nat) : Nat → List Nat × Dev
  | 0 => ([], d)
  | n + 1 => match alloc d c t (n + 1) with
    | .ok fs d => (fs, d)
    | _ => allocMost d c t n

/-- Pages of a session on loans being recalled come home (R307): to T2, or to T4 where T2 has no room. Those that find no room now, or
are in an earlier move, are looked at again. -/
def bringHome (d : Dev) (i : Nat) : Dev :=
  let r := recOf d i
  let busy := movingPages d (.session i)
  let called := fun (l : Loc) => l.tier == 3 && (match look d.lnk.borrows (t3Key l) with | some b => b.recalled.isSome | none => false)
  let ks := (r.pages.filter (fun (p : Nat × Loc) => called p.2 && !busy.contains p.1)).map Prod.fst
  if ks.isEmpty then d
  else
    let (f2, d) := allocMost d r.client 2 ks.length
    let d := if f2.isEmpty then d else queueGroup d .recall (.session i) 0 0 false false 2 (ks.take f2.length) f2
    let rest := ks.drop f2.length
    if rest.isEmpty then d
    else
      let (f4, d) := allocMost d r.client 4 rest.length
      if f4.isEmpty then d else queueGroup d .recall (.session i) 0 0 false false 4 (rest.take f4.length) f4

/-- Recalled pages, a hint and a prefetch that wait for earlier moves are looked at again. -/
def askMoves (d : Dev) (i : Nat) : Dev := askPrefetch (askHint (bringHome d i) i) i

/-- Pages on recalled loans that have found no room yet are looked at again. -/
def recallRetry (d : Dev) : Dev :=
  if d.lnk.borrows.any (fun (b : Nat × Borrow) => b.2.recalled.isSome) then (keys d.ctx.recs).foldl bringHome d else d

/-! ### Ends of groups -/

/-- What the end of a group brings about, once it has published (R194, R201, R218, R221, R291). -/
def groupEnd (d : Dev) (g : MoveGrp) (moved : Nat) : Dev :=
  let d := dropGroup d g.id
  let d := match g.obj, g.why with
    | .session i, .park | .session i, .autoPark => updRec d i (fun r => { r with state := .parked, group := none })
    | .session i, .resume => updRec d i (fun r => { r with state := .active, group := none })
    | _, .spill => if moved = 0 then d else raise (fbump d Fd.ATN_VICTIM_CNT_pages_spilled moved) Fd.ATN_EVT_victim_spill
    | _, _ => d
  let d := match g.obj with | .session i => askMoves d i | _ => d
  if g.answers then
    endHeld d g.ring g.flight stOK (match g.obj, g.why with
      | .session i, .resume => (recOf d i).slot.getD 0
      | _, _ => sat32 moved)
  else d

/-- Locations of some pages put in place of those that an object has. -/
def putLocs (ps : NMap Loc) (news : List (Nat × Loc)) : NMap Loc :=
  news.foldl (fun (s : NMap Loc) e => if (look s e.1).isSome then put s e.1 e.2 else s) ps

/-- A group's new locations become those of its object, and the old ones are freed (R286, R294). -/
def groupPublish (d : Dev) (g : MoveGrp) : Dev :=
  let ps := objPages d g.obj
  let news := g.done.filter (fun e => (look ps e.1).isSome)
  let olds := news.filterMap (fun e => look ps e.1)
  let d := match g.obj with
    | .restore i => match look d.ckp.restores i with
      | some x => { d with ckp := { d.ckp with restores := put d.ckp.restores i { x with copied := true, pages := putLocs x.pages g.done } } }
      | none => d
    | o => setObjPages d o (putLocs ps g.done)
  groupEnd (releaseLocs d (some (objClient d g.obj)) olds) g news.length

/-! ### Publication (R166 to R169) -/

/-- Pages of a session that a trim or an edit removed are freed; a move of one is abandoned (R296). -/
def tidyPages (d : Dev) (i : Nat) : Dev :=
  let old := (recOf d i).pages
  let d := syncPages d i
  let now' := (recOf d i).pages
  let gone := old.filter (fun (p : Nat × Loc) => look now' p.1 != some p.2)
  let d := releaseLocs d (some (recOf d i).client) (gone.map Prod.snd)
  let isGone := fun (g k : Nat) => (match grpOf d g with | some g => g.obj == .session i | none => false) && (look now' k).isNone
  { d with dly := { d.dly with
    queues := (d.dly.queues.map (fun (q : Nat × List QPage) => (q.1, q.2.filter (fun p => !isGone p.group p.page)))).filter
      (fun (q : Nat × List QPage) => !q.2.isEmpty),
    movers := d.dly.movers.filter (fun (m : Nat × QPage) => !isGone m.2.group m.2.page),
    groups := d.dly.groups.map (fun g => if g.obj == .session i then { g with
      left := g.left.filter (fun k => (look now' k).isSome), done := g.done.filter (fun e => (look now' e.1).isSome) } else g) } }

/-- What an edit makes of a record as its generation is published; a trim is for the length it finds then (R169). -/
def editRec (d : Dev) (r : Rec) (e : Edit) : Rec :=
  match e with
  | .fold layers pages => { r with kv := layers, pages := mergePages r.pages pages, freshSel := !r.freshSel }
  | .trim _ _ _ => r
  | .tune layers => { r with kv := (r.kv.zip layers).map (fun p => { p.1 with masters := p.2.masters, tuning := p.2.tuning }) }
  | .move g => match grpOf d g with
    | some g => { r with pages := putLocs r.pages g.done }
    | none => r
  | .relocate pages => { r with pages := putLocs r.pages pages }

/-- Carry out one edit of a session as its generation is published. -/
def applyEdit (d : Dev) (i : Nat) (e : Edit) : Dev :=
  let old := (recOf d i).pages
  let free := fun (d : Dev) (pages : NMap Loc) =>
    releaseLocs d (some (recOf d i).client) (pages.filterMap (fun (p : Nat × Loc) => look old p.1))
  match e with
  | .fold _ pages => tidyPages (free (updRec d i (fun r => editRec d r e)) pages) i
  | .trim n ring flight =>
    let r := recOf d i
    if r.len < n then finish d ring flight stStateConflict (conflictOf d i)
    else
      let d := tidyPages (setRec d i (trimRec (modelFor d r) (r.len - n) r).v) i
      finish d ring flight stOK (r.len - n)
  | .tune _ => tidyPages (updRec d i (fun r => editRec d r e)) i
  | .move g => match grpOf d g with
    | none => d
    | some g => groupPublish d g
  | .relocate pages => free (updRec d i (fun r => editRec d r e)) (pages.filter (fun (p : Nat × Loc) => (look old p.1).isSome))

/-- Is an edit a fold? -/
def Edit.isFold : Edit → Bool
  | .fold _ _ => true
  | _ => false

/-- Does a step need what an edit makes (R168): a fold's windows, or a new tuning window? -/
def Edit.needed : Edit → Bool
  | .fold _ _ => true
  | .tune _ => true
  | _ => false

/-- Is an edit a trim? -/
def Edit.isTrim : Edit → Bool
  | .trim _ _ _ => true
  | _ => false

/-- A session's page table is brought to its current generation; `cur` was current before. -/
def syncTable (d : Dev) (i : Nat) (cur : BitVec 32) : Dev :=
  updRec d i (fun r => { r with table := tableSync (modelFor d r) r cur r.ptGen })

/-- Groups of a session that have no page left to move publish at once (R296: a trim took the pages away). -/
def closeEmpty (d : Dev) (i : Nat) : Dev := ((sessGroups d i).filter (fun g => g.left.isEmpty)).foldl groupPublish d

/-- Publish the pending generation of a session, if it may be: no work in flight, no reader in its pages (R167, R168). The edits take
effect in the order in which they were asked for, so that a later one of a slot replaces an earlier (R166); a trim applies to the
length that the others leave (R169). Afterwards hints are looked at (R292). -/
def publishEdits (d : Dev) (i : Nat) : Dev :=
  let r := recOf d i
  if r.edits.isEmpty ∨ (sessWork d i).isSome ∨ sessMoving d i then d
  else
    let es := r.edits.filter (fun e => !e.isTrim) ++ r.edits.filter Edit.isTrim
    let d := setRec d i { r with edits := [], ptGen := r.ptGen + 1, hintDue := r.hintDue || es.any Edit.isFold }
    let d := closeEmpty (es.foldl (fun d e => applyEdit d i e) d) i
    askMoves (syncTable d i r.ptGen) i

/-- An edit joins the pending generation of a session: its entries are written beside those in use (R166). -/
def joinEdit (d : Dev) (i : Nat) (e : Edit) : Dev :=
  let d := updRec d i (fun r => { r with edits := r.edits ++ [e] })
  updRec d i (fun r => { r with table := tableSync (modelFor d r) (r.edits.foldl (editRec d) r) r.ptGen (r.ptGen + 1) })

/-- An edit joins the pending generation, which is published at once if no work is in flight. -/
def addEdit (d : Dev) (i : Nat) (e : Edit) : Dev := publishEdits (joinEdit d i e) i

/-- Sessions whose pages the device has moved for itself publish, or wait for their step boundary (R286). -/
def publishMoved (d : Dev) : Dev :=
  (keys d.ctx.recs).foldl (fun d i =>
    if (recOf d i).edits.any (fun e => match e with | .relocate _ => true | _ => false) then publishEdits d i else d) d

/-- Every page of a group has been moved (R291, R294). -/
def groupDone (d : Dev) (id : Nat) : Dev :=
  match grpOf d id with
  | none => d
  | some g => match g.obj with
    | .session i => addEdit d i (.move id)
    | _ => groupPublish d g

/-- Start a group of moves; one without pages ends at once. -/
def startGroup (d : Dev) (why : MoveWhy) (obj : MoveOf) (ring flight : Nat) (answers lc : Bool) (tier : Nat) (keys frames : List Nat) :
    Dev :=
  let id := d.dly.nextGroup
  let d := queueGroup d why obj ring flight answers lc tier keys frames
  if keys.isEmpty then groupDone d id else d

/-- Pages already queued that are needed at a higher priority move up (R297). -/
def promote (d : Dev) (obj : MoveOf) (keys : List Nat) (q : Nat) : Dev :=
  let up := fun (p : QPage) => keys.contains p.page && (match grpOf d p.group with | some g => g.obj == obj | none => false)
  let found := (d.dly.queues.filter (fun (e : Nat × List QPage) => q < e.1)).flatMap (fun (e : Nat × List QPage) => e.2.filter up)
  if found.isEmpty then d
  else
    let qs := (d.dly.queues.map (fun (e : Nat × List QPage) => if q < e.1 then (e.1, e.2.filter (fun p => !up p)) else e)).filter
      (fun (e : Nat × List QPage) => !e.2.isEmpty)
    let old : List QPage := mget qs [] q
    let found := found.map (fun p => { p with since := (old.head?.map (fun o => o.since)).getD (frame d) })
    { d with dly := { d.dly with queues := put qs q (old ++ found) } }

/-! ### Movers (R294, R297) -/

/-- Does a move use a tier whose controllers are in reset (R101, R103)? -/
def tierInReset (d : Dev) (tier : Nat) : Bool :=
  (tier == 2 && unitInReset d 8) || (tier == 4 && unitInReset d 4)

/-- May a page start (R103, R296)? -/
def pageReady (d : Dev) (p : QPage) : Bool :=
  match grpOf d p.group with
  | none => false
  | some g =>
    !tierInReset d p.dest.tier
    && (match look (objPages d g.obj) p.page with | some l => !tierInReset d l.tier | none => true)
    && match g.obj with
    | .session i => !(inPlaceKind (pageKind p.page) && (sessWork d i).isSome)
    | _ => true

/-- The queues that are served: an emergency slate leaves URGENT and RECALL (R408). -/
def servedQueues (d : Dev) : List Nat := if d.ckp.emergency then [0, 1, 3] else [0, 1, 2, 3, 4, 5, 6]

/-- The page a free mover takes: from a queue that has waited 16 frames with no mover, else in strict priority. -/
def nextPage (d : Dev) : Option (Nat × QPage) :=
  let first := fun (q : Nat) => ((mget d.dly.queues [] q).find? (pageReady d)).map (fun p => (q, p))
  let starved := fun (q : Nat) => match first q with
    | some (_, p) => decide (p.since + 16 ≤ frame d)
    | none => false
  match (servedQueues d).find? starved with
  | some q => first q
  | none => (servedQueues d).findSome? first

/-- The lowest idle mover. -/
def idleMover (d : Dev) : Option Nat := (List.range 64).find? (fun n => (look d.dly.movers n).isNone)

/-- Tiles in use of the page at `off` bytes of an object of `size` bytes. -/
def tilesIn (size off : Nat) : Nat := min 8 (ceilDiv (size - off) 4096)

/-- Tiles in use of a page of a session. All of them in a page whose layout the spec leaves to the device (log entry 79). -/
def sessTiles (m : Model) (r : Rec) (key : Nat) : Nat :=
  let off := pageSize * pageIndex key
  match pageKind key with
  | 1 | 2 => pageTiles m r key
  | 3 => tilesIn (64 + 8 * chunksFor (r.kv.headD {}).folded.length + 128 * (3 * m.layers * pagesA8 m
      + 64 * chunksFor (r.kv.headD {}).folded.length * m.layers * pagesFold m m.kvFormat)) off
  | 4 => max 1 (tilesIn (2 * r.log.length) off)
  | 6 => tilesIn (8 * m.kvHeads * m.d * (r.kv.headD {}).masters.length * m.layers) off
  | _ => 8

/-- The captured session that a restore under way brings back. -/
def restoredSess (d : Dev) (i : Nat) : Option Rec :=
  match look d.ckp.restores i with
  | none => none
  | some x => match d.ckp.kept.find? (fun (s : Slate) => s.num == x.slate) with
    | none => none
    | some s => (s.shards.find? (fun (h : Shard) => h.name == x.name)).bind (fun h => h.sess)

/-- Tiles in use of a page of an object (R294). -/
def usedTiles (d : Dev) (o : MoveOf) (key : Nat) : Nat :=
  match o with
  | .session i => sessTiles (modelFor d (recOf d i)) (recOf d i) key
  | .table n v => match anyVer d n v with
    | some x => tilesIn (rowBytes x.fmt x.dim * rowsOf x (key / 2 ^ 40)) (pageSize * (key % 2 ^ 40))
    | none => 8
  | .index n => min 8 (chunkTiles (idxOf d n) - 8 * (key % 2 ^ 16))
  | .restore i => match restoredSess d i with
    | some cap => sessTiles (modelFor d (recOf d i)) cap key
    | none => 8

/-- The frame that fetches the tiles in use of a page from a lender, or stores them at one (R359). -/
def getFrame (d : Dev) (client tiles : Nat) (l : Loc) : Dev :=
  sendFrame d 3 0x30 (t3Lender (t3Key l)) (some client) (loanFrame 5 0 0 (2 ^ tiles - 1) (t3Loan (t3Key l)) (t3Page l) 0 0 [])

def putFrame (d : Dev) (client tiles : Nat) (l : Loc) (sealedTiles : List Byte) : Dev :=
  sendFrame d 3 0x30 (t3Lender (t3Key l)) (some client) (loanFrame 3 0 0 (2 ^ tiles - 1) (t3Loan (t3Key l)) (t3Page l) 0 0 sealedTiles)

/-- The sealed tiles in use of a page under a counter. -/
def sealTiles (d : Dev) (o : MoveOf) (key ctr : Nat) : List (List Byte) :=
  let all := match o with
    | .session i => sealSess d (recOf d i) key ctr
    | .table n v => match anyVer d n v with
      | some x => (tilesOf (tblPage x key)).zipIdx.map (fun (t, i) => sealTile d d.sec.storageKey x.name (key % 2 ^ 32) 0 ctr i t)
      | none => []
    | .index n => (tilesOf (idxPage (idxOf d n) (idxOf d n).base key)).zipIdx.map (fun (t, i) =>
        sealTile d d.sec.storageKey (idxOf d n).name (key % 2 ^ 32) 0 ctr i t)
    | .restore i => match restoredSess d i with
      | some cap => sealSess d { cap with key := (recOf d i).key, name := (recOf d i).name } key ctr
      | none => []
  all.take (usedTiles d o key)

/-- The sealed tiles of a page as a PUT carries them. -/
def sealPage (d : Dev) (o : MoveOf) (key ctr : Nat) : List Byte := (sealTiles d o key ctr).flatten

/-- Pages of an object that now lie in T4 are programmed (R315). -/
def programAt (d : Dev) (o : MoveOf) (ks : List Nat) : Dev :=
  ks.foldl (fun d k => match look (objPages d o) k with
    | some l => if l.tier = 4 then nandProgram d l (sealTiles d o k l.ctr) else d
    | none => d) d

/-- A mover takes the next page (R294): its destination gets a fresh seal counter; a page at a lender is asked for, and one
bound for a lender is sent once it is here. -/
def moveStart (d : Dev) : Dev :=
  if inReset d ∨ d.sys.fatal ∨ (look d.sys.unitRst 3).isSome ∨ !fbit d Fd.DLY_CTL_enable then d else
  match idleMover d, nextPage d with
  | some n, some (q, p) =>
    let old : List QPage := mget d.dly.queues [] q
    let rest := (old.erase p).map (fun x => { x with since := frame d })
    match grpOf d p.group with
    | none => d
    | some g =>
      let src := look (objPages d g.obj) p.page
      let (ctr, d) := sealed d p.dest.tier
      let dest := { p.dest with ctr := ctr }
      let fromT3 := match src with | some l => l.tier == 3 | none => false
      let c := objClient d g.obj
      let wait := if fromT3 then 1 else if dest.tier = 3 then 2 else 0
      let d := { d with dly := { d.dly with
        queues := mset d.dly.queues [] q rest, movers := put d.dly.movers n { p with dest := dest, await := wait } } }
      match src with
      | none => d
      | some l =>
        if fromT3 then getFrame d c (usedTiles d g.obj p.page) l
        else if dest.tier = 3 then putFrame d c (usedTiles d g.obj p.page) dest (sealPage d g.obj p.page ctr)
        else d
  | _, _ => d

/-- `PAGE_MOVE_START` (R294, R297): a free mover takes a page. -/
def execPageMoveStart (s : State) : Host.Outcome State Fault Refusal := lift moveStart s

/-- A write to a mover's destination failed, and the page is written again to another frame of its tier (R295, R317); none if there is no
other. -/
def writeAgain (d : Dev) (n : Nat) (p : QPage) : Option (Dev × QPage) :=
  match grpOf d p.group, otherFrame d p.dest.tier with
  | some g, some (f, d) =>
    let (ctr, d) := sealed d p.dest.tier
    let p := { p with dest := { p.dest with frame := f, ctr := ctr }, await := if p.dest.tier = 3 then 2 else 0 }
    let d := { d with dly := { d.dly with movers := put d.dly.movers n p } }
    some (if p.dest.tier = 3 then
      putFrame d (objClient d g.obj) (usedTiles d g.obj p.page) p.dest (sealPage d g.obj p.page ctr) else d, p)
  | _, _ => none

/-- A page has reached its destination. -/
def pageMoved (d : Dev) (n : Nat) (p : QPage) : Dev :=
  let d := { d with dly := { d.dly with movers := del d.dly.movers n } }
  match grpOf d p.group with
  | none => d
  | some g =>
    let src := look (objPages d g.obj) p.page
    let c := objClient d g.obj
    let bytes := 4096 * usedTiles d g.obj p.page
    let d := match src with | some l => flsRead (chargeTier d c l.tier bytes) l 1 | none => d
    let d := chargeTier d c p.dest.tier bytes
    let d := if p.dest.tier = 4 then nandProgram d p.dest (sealTiles d g.obj p.page p.dest.ctr) else d
    let d := updGrp d g.id (fun g => { g with left := g.left.erase p.page, done := g.done ++ [(p.page, p.dest)] })
    let d := if (g.left.erase p.page).isEmpty then groupDone d g.id else d
    -- publication may have been held off by this mover (R168)
    match g.obj with
    | .session i => publishEdits d i
    | _ => d

end Sys2Proof.Machine
end

