-- ==== Sys2Proof/Machine/Sess.lean ====
section
/-!
DEFINITION. Sys2Proof/Machine/Sess.lean: sessions and context slots (07 R195 to R203, R215 to R220): handles, the second
group of checks on a session, placing and releasing slots, the end of dispatched work, step boundaries, parks.
-/

namespace Sys2Proof.Machine

/-! ### Handles and checks -/

/-- The handle of a record (R196). -/
def handleOf (d : Dev) (i : Nat) : Nat := i + 2 ^ 24 * (recOf d i).gen

/-- The outcome of the second group of checks on a session. -/
inductive Chk where
  | ok (i : Nat)
  | fail (st res : Nat)
  | waits
  deriving DecidableEq, Repr

/-- The registrar of a name (R375): its origin while a member, else the member next above, counted round. -/
def registrarOf (d : Dev) (name : Nat) : Nat :=
  let o := name / 2 ^ 48 % 65536
  if d.map.members.contains o then o
  else match d.map.members.filter (fun m => o < m) with
    | m :: _ => m
    | [] => d.map.members.headD (ownDevice d)

/-- The home that the map, as far as this device holds it, names for an object; none if it is this device (R375). -/
def otherHome (d : Dev) (name : Nat) : Option Nat :=
  match look d.map.reg name with
  | some e => if e.home = ownDevice d then none else some e.home
  | none => none

/-- Handle, state and ownership of the session that a descriptor names (R63, R196, R201, R203, R220, R227, R228). `expired`
and `rewound` say whether the command is exempt from those states. -/
def sessCheck (d : Dev) (h : Nat) (expired rewound : Bool) (ok : Rec → CtxState → Bool) : Chk :=
  let i := h % 2 ^ 24
  let r := recOf d i
  if r.gen ≠ h / 2 ^ 24 then .fail stStaleVersion r.gen
  else if r.state = .closed then .fail stStateConflict 0
  else if r.state = .expired ∧ !expired then (if r.lost then .fail stRestoreIncomplete 0 else .fail stExpired 0)
  else if r.state = .moving ∨ ctxStateOf d i = .cutPending then .waits
  else if r.rewound ∧ !rewound then .fail stRewound (r.rewindOff % 2 ^ 32)
  else if !ok r (ctxStateOf d i) then .fail stStateConflict (conflictOf d i)
  else match otherHome d r.name with
    | some h => .fail stNotOwner h
    | none => .ok i

/-- Carry a command on after its check; one that must wait leaves the state as it is. -/
def withSess (d : Dev) (ring : Nat) (f : Flight) (c : Chk) (go : Nat → Dev) : Dev :=
  match c with
  | .ok i => go i
  | .fail st res => finish d ring f.id st res
  | .waits => d

/-! ### Slots (R53, R202, R209) -/

/-- Free slots whose stream ring is open for a client (R53). -/
def freeSlots (d : Dev) (c : Nat) : List Nat :=
  (List.range 4096).filter (fun s => (slotOf d s).state == .free && strOpenBit d s && fget d Fd.SEQ_STR_CFG_client s == c)

/-- Take one of the free slots of a client, whichever. -/
def pickSlot (d : Dev) (c : Nat) : Option Nat × Dev :=
  let ss := freeSlots d c
  if ss.isEmpty then (none, d)
  else
    let (k, d) := freshBelow d ss.length
    (ss[k]?, d)

/-- Place a session in a slot. -/
def placeSlot (d : Dev) (i s : Nat) : Dev :=
  let d := updSlot d s (fun x => { state := .opened, rcd := i, placed := (x.placed + 1) % 2 ^ 20 })
  updRec d i (fun r => { r with slot := some s, pausedAt := none, releasedAt := none, ttlFrom := none })

/-- Release the slot of a session: the time to live starts (R216, R219). -/
def releaseSlot (d : Dev) (i : Nat) : Dev :=
  match (recOf d i).slot with
  | none => d
  | some s =>
    let d := updSlot d s (fun x => { x with state := .free, work := none, rcd := 0 })
    updRec d i (fun r => { r with
      slot := none, pausedAt := none, releasedAt := some (frame d), ttlFrom := some (frame d), prefetchDue := false })

/-! ### Freeing (R201, R220, R289) -/

/-- Free the pages, objects and slot of a session; its moves end with it. -/
def freeObjects (d : Dev) (i : Nat) : Dev :=
  let d := releaseSlot d i
  let d := (sessGroups d i).foldl (fun d g => dropGroup d g.id) d
  let r := recOf d i
  let pend := r.edits.flatMap (fun e => match e with | .fold _ p | .relocate p => vals p | _ => [])
  let d := releaseLocs d (some r.client) (recLocs r ++ pend)
  updRec d i (fun r => { r with
    pages := [], table := [], kv := [], log := [], edits := [], out := {}, len := 0, carry := List.replicate 7 511, group := none,
    inbound := false, hintDue := false, prefetchDue := false })

/-- Close a record (R196, R201): everything of it goes, and its generation advances. Its map entry goes with it. -/
def closeRec (d : Dev) (i : Nat) : Dev :=
  let d := freeObjects d i
  let r := recOf d i
  let d := { d with map := { d.map with reg := del d.map.reg r.name } }
  setRec d i { gen := (r.gen + 1) % 256 }

/-- Expire a record (R220, R227): its storage key is erased (R444). -/
def expireRec (d : Dev) (i : Nat) (lost : Bool) : Dev :=
  updRec (freeObjects d i) i (fun r => { r with state := .expired, lost := lost, key := 0, ttlFrom := none, releasedAt := none })

/-! ### Ends of work -/

/-- A step entry or a command has ended: the result record of an entry, or the completion. The batch completes with its
last entry: `OK`, or the status and result of the lowest-indexed entry that failed (R204, R205). -/
def batchEnd (d : Dev) (ring id : Nat) : Dev :=
  match flightOf d ring id with
  | none => d
  | some f =>
    if !f.entries.all (fun e => e.finished) then d
    else
      let recs := f.entries.flatMap (fun e => fields [(e.handle, 4), (e.status, 1), (e.flags, 1), (e.bytes, 2), (e.len, 4), (e.seq, 4)])
      let d := hostWrite d ring (db f.desc 40 8) recs
      match f.entries.find? (fun e => e.status != stOK) with
      | none => finish d ring id stOK 0
      | some e => finish d ring id e.status e.result

/-- One entry of a batch ends. -/
def entryEnd (d : Dev) (ring id entry st res flags bytes len seq : Nat) : Dev :=
  let d := updFlight d ring id (fun f => { f with
    entries := setAt f.entries entry (fun e => if e.finished then e else
      { e with status := st, result := res, flags := flags, bytes := bytes, len := len, seq := seq, finished := true }) })
  batchEnd d ring id

/-- The array time of a team that is stopped before its halt is charged (R419), without an update of the virtual time (R415); its length
is a free value. -/
def chargeStopped (d : Dev) (s : Nat) : Dev :=
  (d.fab.teams.filter (fun t => t.slot == s && t.running)).foldl (fun d t =>
    let (n, d) := freshBelow d (2 ^ 32)
    chargeCycles d t.client n) d

/-- The context of a finished entry is ready again (R202); the teams and frames of its work are gone. -/
def leaveSlot (d : Dev) (s : Nat) : Dev :=
  let d := chargeStopped d s
  let sl := slotOf d s
  let d := { d with fab := { d.fab with teams := d.fab.teams.filter (fun t => t.slot != s) } }
  let d := setSlot d s { sl with work := none, state := match sl.state with
    | .running => .opened
    | .saved => .opened
    | x => x }
  let q := strOf d s
  let d := setStr d s { q with held := 0 }
  strFlushBy (q.waiting.length + 1) d s

/-- Pages of a session that a move to a tier takes: those in a faster one (R218). -/
def slowerPages (r : Rec) (tier : Nat) : List Nat := (r.pages.filter (fun (p : Nat × Loc) => p.2.tier < tier)).map Prod.fst

/-- Ask the next lender for pages (R360): the lowest entry not asked and not refusing, if it can be reached. -/
def nextLender (d : Dev) : Option Nat :=
  ((List.range 8).filterMap (fun e => if fbit d Fd.LNK_LENDER_valid e then some (fget d Fd.LNK_LENDER_device e) else none)).find?
    (fun v => !d.lnk.asked.contains v && !d.lnk.refused.contains v && reachable d v && v != ownDevice d)

/-- Allocate, asking lenders for room in T3 (R360). -/
def allocT (d : Dev) (c t n : Nat) : Alloc × Dev :=
  match alloc d c t n with
  | .noFit k =>
    if t ≠ 3 then (.noFit k, d)
    else if !d.lnk.asked.isEmpty then (.waits, d)
    else match nextLender d with
      | some v =>
        let d := sendFrame d 3 0x30 v (some c) (loanFrame 1 0 0 0 0 0 n 0 [])
        (.waits, { d with lnk := { d.lnk with asked := [v] } })
      | none => (.noFit k, { d with lnk := { d.lnk with refused := [] } })
  | a => (a, d)

/-- The tier of the park that a descriptor asks for (R199). -/
def parkTier (d : Dev) (ring fl : Nat) : Nat := match flightOf d ring fl with | some f => db f.desc 24 1 | none => 0

/-- Move a session to MOVING for a group of moves; the time to live counts on. -/
def setMoving (d : Dev) (i : Nat) : Dev := updRec d i (fun r => { r with before := r.state, state := .moving })

/-- Park a session (R217, R218): room is reserved first, then the slot is released and the pages move. The result of a
park that finds no room is not stated: a free value. Answers whether it was carried out or failed at once; otherwise it
waits (moves under way, R296; an erase, R309; a lender, R360). -/
def parkNow (d : Dev) (i tier : Nat) (cmd : Option (Nat × Nat)) : Dev × Bool × Bool :=
  let r := recOf d i
  if !(sessGroups d i).isEmpty then (d, false, false)
  else
    let ks := slowerPages r tier
    match allocT d r.client tier ks.length with
    | (.ok fs d, _) =>
      let d := setMoving (releaseSlot d i) i
      let id := d.dly.nextGroup
      let d := updRec d i (fun r => { r with group := some id })
      let (ring, fl) := cmd.getD (0, 0)
      let d := if cmd.isSome then updFlight d ring fl (fun f => { f with holds := false }) else d
      (startGroup d (if cmd.isSome then .park else .autoPark) (.session i) ring fl cmd.isSome false tier ks fs, true, true)
    | (.quota _, d) => (match cmd with | some (ring, fl) => finish d ring fl stQuota 0 | none => d, true, false)
    | (.noFit _, d) =>
      match cmd with
      | some (ring, fl) =>
        let (v, d) := freshBelow d (2 ^ 32)
        (finish d ring fl stNoFit v, true, false)
      | none => (d, true, false)
    | (.waits, d) => (d, false, false)

/-- A pause takes effect (R215). -/
def pauseNow (d : Dev) (i : Nat) (cmd : Nat × Nat) : Dev :=
  let r := recOf d i
  let s := r.slot.getD 0
  let d := updSlot d s (fun x => { x with state := .paused })
  let d := updRec d i (fun r => { r with state := .paused, pausing := none, pausedAt := some (frame d) })
  finish d cmd.1 cmd.2 stOK s

/-- Staged output settings take effect (R268, R269): bytes held by the stop stage pass on to the UTF-8 stage. -/
def applyStaged (d : Dev) (i : Nat) : Dev :=
  let r := recOf d i
  match r.out.staged with
  | none => d
  | some c =>
    let u := u8Pass r.raw { out := r.out.ready, held := r.out.utf8Held, replaced := 0 } r.out.stopHeld
    let d := setRec d i { r with out := { r.out with
      ready := u.out, utf8Held := u.held, stopHeld := [], colStr := [], cfg := c, staged := none } }
    if u.replaced = 0 then d
    else
      let d := raiseMany (fbump d Fd.TXT_OUT_CNT1_utf8_replaced u.replaced) Fd.TXT_OUT_EVT_utf8_replaced u.replaced
      updAcct d r.client (fun a => { a with replaced := a.replaced + u.replaced })

/-- The step boundary of a session (R167, R215, R218, R268): edits are published, staged output settings take effect, then a
pause and a park that waited for the work. -/
def boundary (d : Dev) (i : Nat) : Dev :=
  if (sessWork d i).isSome then d else
  let d := publishEdits d i
  let d := applyStaged d i
  let d := match (recOf d i).pausing with
    | some cmd => if ctxStateOf d i = .opened then pauseNow d i cmd else d
    | none => d
  let d := match (recOf d i).parking with
    | some cmd =>
      if ctxStateOf d i = .cutPending then d else
      let p := parkNow (updRec d i (fun r => { r with parking := none })) i (parkTier d cmd.1 cmd.2) (some cmd)
      if p.2.1 then p.1 else updRec p.1 i (fun r => { r with parking := some cmd })
    | none => d
  reap d

/-- Dispatched work ends: what it reserved is freed, its result goes out, and the session stands at a step boundary. -/
def endWork (d : Dev) (s st res flags bytes : Nat) : Dev :=
  let sl := slotOf d s
  match sl.work with
  | none => d
  | some w =>
    let d := updRec d sl.rcd (fun r => { r with lastStep := now d })
    let r := recOf d sl.rcd
    let d := leaveSlot d s
    let d := match w.kind with
      | .step => entryEnd d w.ring w.flight w.entry st res flags bytes r.len (r.stepSeq % 2 ^ 32)
      | _ => finish d w.ring w.flight st res
    boundary d sl.rcd

end Sys2Proof.Machine
end

