-- ==== Sys2Proof/Machine/Victim.lean ====
section
/-!
DEFINITION. Sys2Proof/Machine/Victim.lean: the T1 reservation of steps and resumes, and the exhaustion policy (06 R189 to
R193; 10 R289).
-/

namespace Sys2Proof.Machine

/-- The tier SPILL victims move to. -/
def spillTier (d : Dev) : Nat := if fbit d Fd.ATN_CTL_spill_tier then 3 else 2

/-- Pages a session holds in T1. -/
def pagesInT1 (r : Rec) : List Nat := (r.pages.filter (fun (p : Nat × Loc) => p.2.tier == 1)).map Prod.fst

/-- Candidates for a requesting session, in the order of R190: the client's sessions with pages in T1 and no operation
dispatched, best-effort before latency-critical, then the oldest last step, then the lower handle; `spared` are those whose victim
move has failed (R191). -/
def candidates (d : Dev) (spared : List Nat) (i : Nat) : List Nat :=
  let c := (recOf d i).client
  let ok := fun (p : Nat × Rec) => p.2.client == c && p.1 != i && !spared.contains p.1 && !(pagesInT1 p.2).isEmpty
    && (sessWork d p.1).isNone && !(sessGroups d p.1).any (fun g => g.answers) && (p.2.state == .active || p.2.state == .paused || p.2.state == .parked) && p.2.policy != 2
    && ctxStateOf d p.1 != .cutPending
  let key := fun (j : Nat) => ((recOf d j).cls, (recOf d j).lastStep, handleOf d j)
  sortBy (fun (a b : Nat) =>
    let x := key a
    let y := key b
    decide (y.1 < x.1) || (x.1 == y.1 && (decide (x.2.1 < y.2.1) || (x.2.1 == y.2.1 && decide (x.2.2 < y.2.2)))))
    ((d.ctx.recs.filter ok).map Prod.fst)

/-- Folded pages in T1 that a SPILL victim can move, oldest window first. -/
def spillable (d : Dev) (j : Nat) : List Nat :=
  (pagesInT1 (recOf d j)).filter (fun k => pageKind k == 1)

/-- Pages in T1 that a DROP victim frees when it is trimmed to window boundary `w`. -/
def dropFrees (d : Dev) (j w : Nat) : Nat :=
  let r := recOf d j
  let m := modelFor d r
  let keep := wantPages m (dropRec m (256 * w) r).v
  ((pagesInT1 r).filter (fun k => !keep.contains k)).length

/-- What is done to a victim: pages to spill, or the window boundary to drop to. -/
inductive Deed where
  | spill (j : Nat) (pages : List Nat)
  | drop (j windows : Nat)
  deriving DecidableEq, Repr

/-- Choose what to do until `need` pages are freed; none if the candidates cannot free them (R190). -/
def choose (d : Dev) : Nat → List Nat → Option (List Deed)
  | need, [] => if need = 0 then some [] else none
  | need, j :: rest =>
    if need = 0 then some []
    else
      let r := recOf d j
      if r.policy = 1 then
        let top := (r.len - 1) / 256
        match ((List.range (top + 1)).map (fun k => top - k)).find? (fun w => need ≤ dropFrees d j w) with
        | some w => some [.drop j w]
        | none =>
          let n := dropFrees d j 0
          if r.len = 0 ∨ n = 0 then choose d need rest else (choose d (need - n) rest).map (fun l => .drop j 0 :: l)
      else
        let ps := (spillable d j).take need
        if ps.isEmpty then choose d need rest else (choose d (need - ps.length) rest).map (fun l => .spill j ps :: l)

/-- Trim a DROP victim at once (R192): the client is told its new length. -/
def dropVictim (d : Dev) (j w : Nat) : Dev :=
  let r := recOf d j
  let m := modelFor d r
  let windows := (r.kv.headD {}).folded.length + (if (r.kv.headD {}).fresh.isEmpty then 0 else 1) - w
  let t := (dropRec m (256 * w) r).v
  let d := closeEmpty (tidyPages (setRec d j { t with ptGen := t.ptGen + 1 }) j) j
  let d := raise (syncTable d j r.ptGen) Fd.ATN_EVT_victim_drop
  let d := fbump d Fd.ATN_VICTIM_CNT_windows_dropped windows
  (report d {
    cls := clsCapacity, unit := 3, action := 0, object := r.name, handle := handleOf d j, detailA := 256 * w,
    client := some r.client }).1

/-- Deeds carried out: the device, the victims whose spill finds no destination (R191), and whether one waits for an earlier move of
its pages (R296) or for room. -/
structure Deeds where
  d : Dev
  failed : List Nat := []
  waits : Bool := false
  deriving DecidableEq, Repr

/-- Carry out one deed. -/
def doDeed (s : Deeds) (x : Deed) : Deeds :=
  match x with
  | .drop j w => { s with d := dropVictim s.d j w }
  | .spill j ps =>
    if ps.any (fun k => (movingPages s.d (.session j)).contains k) then { s with waits := true }
    else match allocT s.d (recOf s.d j).client (spillTier s.d) ps.length with
      | (.ok fs d, _) => { s with d := startGroup d .spill (.session j) 0 0 false false (spillTier d) ps fs }
      | (.waits, d) => { s with d := d, waits := true }
      | _ => { s with failed := j :: s.failed }

/-- Bytes of T1 that the spills under way of a client will free. -/
def spillsUnderWay (d : Dev) (c : Nat) : Nat :=
  pageSize * sumN ((d.dly.groups.filter (fun g => g.why == .spill && grpClient d g == c)).map (fun g =>
    (g.left ++ g.done.map Prod.fst).length))

/-- The outcome of a T1 reservation. -/
inductive Room where
  | ok (d : Dev)
  /-- The share (true) or the tier is exceeded by so many KiB. -/
  | lacks (share : Bool) (kib : Nat) (d : Dev)
  | waits (d : Dev)
  deriving DecidableEq, Repr

/-- Make room, by fuel: each round leaves out the victims that the one before could not move. -/
def makeRoomBy : Nat → Dev → List Nat → Nat → Nat → Room
  | 0, d, _, _, _ => .waits d
  | n + 1, d, spared, i, bytes =>
    let c := (recOf d i).client
    match lackT1 d c bytes with
    | none => .ok d
    | some (share, kib) =>
      let need := ceilDiv (1024 * kib) pageSize
      let coming := spillsUnderWay d c / pageSize
      if need ≤ coming then .waits d
      else match choose d (need - coming) (candidates d spared i) with
        | none => if coming = 0 then .lacks share kib d else .waits d
        | some deeds =>
          let x := deeds.foldl doDeed { d := d }
          if x.failed ≠ [] then makeRoomBy n x.d (x.failed ++ spared) i bytes
          else match lackT1 x.d c bytes with
            | none => if heldT1 x.d bytes then .waits x.d else .ok x.d
            | some (s, k) => if spillsUnderWay x.d c = 0 ∧ !x.waits then .lacks s k x.d else .waits x.d

/-- Make room for `bytes` of T1 for a session (R189 to R191). While spill moves that would make the room are under way the
requester waits; a victim that cannot be moved is left in place, and selection goes on among the rest. -/
def makeRoom (d : Dev) (spared : List Nat) (i bytes : Nat) : Room :=
  makeRoomBy (d.ctx.recs.length + 1) d spared i bytes

/-- The status of a shortfall (R191). -/
def lackStatus (share : Bool) : Nat := if share then stQuota else stNoFit

/-- A set-up wait for victim moves has run out (R191). -/
def spillWaitOver (d : Dev) (f : Flight) : Bool :=
  match f.testedAt with
  | some t => decide (t + fget d Fd.ATN_SPILL_WAIT_frames * 65536 ≤ up d)
  | none => false

/-- The victim move of a record has failed (R191): the commands of its client that wait for room choose among the rest. -/
def spareVictim (d : Dev) (j : Nat) : Dev :=
  let c := (recOf d j).client
  (busyRings d).foldl (fun d r => if sqClient d r ≠ c then d else
    let q := sqOf d r
    setSq d r { q with flights := q.flights.map (fun f => if f.testedAt.isSome ∧ f.phase = .waiting then { f with spared := j :: f.spared } else f) }) d

/-- A set-up wait of a flight begins, if it has not. -/
def markWait (d : Dev) (ring id : Nat) : Dev :=
  updFlight d ring id (fun f => { f with testedAt := some (f.testedAt.getD (up d)) })

end Sys2Proof.Machine
end

