-- ==== Sys2Proof/Machine/Session.lean ====
section
/-!
DEFINITION. Sys2Proof/Machine/Session.lean: the session commands and their timed events (07 R199 to R201, R215 to R228).
-/

namespace Sys2Proof.Machine

/-! ### Opening (R199, R200) -/

/-- Records of a client that are not free. -/
def recordsOf (d : Dev) (c : Nat) : Nat := (d.ctx.recs.filter (fun (p : Nat × Rec) => p.2.client == c && p.2.state != .closed)).length

/-- Indices of records that are not free. -/
def usedRecords (d : Dev) : List Nat := (d.ctx.recs.filter (fun (p : Nat × Rec) => p.2.state != .closed)).map Prod.fst

/-- The record of a new session: an empty history in T1 (R199, R201, R288). -/
def newRec (d : Dev) (x : Desc) (client gen serial : Nat) (key : BitVec 256) : Rec :=
  let m := (rcpOf d (rcpIndex (db x 24 2))).model
  { state := .active, gen := gen, client := client, recipe := db x 24 2, cls := db x 26 1,
    policy := if bitOf (db x 27 1) 2 then fget d Fd.ATN_CTL_default_policy else dbits x 27 0 2,
    hold := db x 28 4, parkAfter := db x 32 4, parkTier := db x 36 1, raw := bitOf (db x 37 1) 0,
    seed := BitVec.ofNat 64 (db x 40 8), key := key, name := ownDevice d * 2 ^ 48 + serial,
    kv := List.replicate m.layers {} }

/-- `SESSION_OPEN` from its second group of checks on. -/
def sessionOpen (d : Dev) (ring : Nat) (f : Flight) : Dev :=
  let x := f.desc
  let c := sqClient d ring
  let rc := rcpOf d (rcpIndex (db x 24 2))
  if !rcpCurrent d (db x 24 2) then finish d ring f.id stStaleVersion rc.gen
  else if !rcpServes rc then finish d ring f.id stStateConflict (match rc.state with
    | .empty => 0 | .loading => 1 | .loaded => 2 | .stranded => 3 | .unloading => 4)
  else if fget d Fd.CTX_CLIENT_LIM_max_records c ≤ recordsOf d c then finish d ring f.id stQuota 0
  else
    match pickSlot d c with
    | (none, _) => finish d ring f.id stQuota 0
    | (some s, d1) =>
      let used := usedRecords d1
      let total := 2 ^ (d1.ctx.tableLog2.getD 0)
      if total ≤ used.length then finish d ring f.id stNoFit 0
      else
        let (k, d1) := freshBelow d1 (total - used.length)
        let i := nthFree used k
        let (key, d1) := draw d1
        let serial := d1.mem.nextSerial
        let r := newRec d1 x c (recOf d1 i).gen serial key
        let want := wantPages rc.model r
        match alloc d1 c 1 want.length with
        | .quota _ => finish d ring f.id stQuota 0
        | .noFit _ => let (v, d) := freshBelow d (2 ^ 32); finish d ring f.id stNoFit v
        | .waits => d
        | .ok fs d =>
          let (ls, d) := locsAt d 1 fs
          let d := { d with mem := { d.mem with nextSerial := serial + 7 } }
          let d := { d with map := { d.map with reg := put d.map.reg r.name { home := ownDevice d, epoch := 0 } } }
          let r := { r with pages := (want.zip ls).foldl (fun (p : NMap Loc) (kl : Nat × Loc) => put p kl.1 kl.2) [] }
          let d := placeSlot (setRec d i { r with table := tableSync rc.model r 0 0 }) i s
          let d := hostWrite d ring (db x 48 8) (fields [(handleOf d i, 4), (s, 2), (0, 2), (now d % 2 ^ 64, 8)])
          finish d ring f.id stOK (handleOf d i)

/-- `SESSION_OPEN` (R199, R200). -/
def execSessionOpen (ring : Nat) (s : State) : Host.Outcome State Fault Refusal :=
  lift (fun d => dispatchGated d ring 0x01 (fun d f => sessionOpen d ring f)) s

/-! ### Close, time to live, pause (R196, R201, R215, R219) -/

/-- `SESSION_CLOSE`: not while work runs or a cut is pending (R201); it waits for every move of the session (R296). -/
def execSessionClose (ring : Nat) (s : State) : Host.Outcome State Fault Refusal :=
  lift (fun d => dispatchGated d ring 0x02 (fun d f =>
    let i0 := dSel f.desc % 2 ^ 24
    if (recOf d i0).gen = dSel f.desc / 2 ^ 24 ∧ ctxStateOf d i0 = .cutPending then
      finish d ring f.id stStateConflict (conflictOf d i0)
    else
    withSess d ring f (sessCheck d (dSel f.desc) true true (fun _ c => c != .running && c != .saved)) (fun i =>
      if (sessGroups d i).isEmpty then finish (closeRec d i) ring f.id stOK 0 else d))) s

/-- `SESSION_TTL`: the count starts anew where it runs (R219). -/
def execSessionTtl (ring : Nat) (s : State) : Host.Outcome State Fault Refusal :=
  lift (fun d => dispatchGated d ring 0x08 (fun d f =>
    withSess d ring f (sessCheck d (dSel f.desc) false true (fun _ _ => true)) (fun i =>
      let d := updRec d i (fun r => { r with ttl := db f.desc 24 4, ttlFrom := if r.slot.isNone then some (frame d) else none })
      finish d ring f.id stOK 0))) s

/-- `SESSION_PAUSE`: at once, or when the dispatched work completes (R215). -/
def execSessionPause (ring : Nat) (s : State) : Host.Outcome State Fault Refusal :=
  lift (fun d => dispatchGated d ring 0x07 (fun d f =>
    withSess d ring f (sessCheck d (dSel f.desc) false false (fun r _ => r.state == .active && r.slot.isSome)) (fun i =>
      if (recOf d i).pausing.isSome ∨ (recOf d i).parking.isSome then d
      else if (sessWork d i).isSome then
        dispatched (updRec d i (fun r => { r with pausing := some (ring, f.id) })) ring f.id
      else pauseNow d i (ring, f.id)))) s

/-! ### Park and resume (R218, R221, R222, R228) -/

/-- `SESSION_PARK` (R218): a running session's park waits for the dispatched work. -/
def execSessionPark (ring : Nat) (s : State) : Host.Outcome State Fault Refusal :=
  lift (fun d => dispatchGated d ring 0x03 (fun d f =>
    withSess d ring f (sessCheck d (dSel f.desc) false false (fun r _ => r.state == .active || r.state == .paused || r.state == .parked))
      (fun i =>
        if (recOf d i).pausing.isSome ∨ (recOf d i).parking.isSome then d
        else if (sessWork d i).isSome then
          updFlight (dispatched (updRec d i (fun r => { r with parking := some (ring, f.id) })) ring f.id) ring f.id
            (fun f => { f with holds := true })
        else
          let p := parkNow (dispatched d ring f.id) i (db f.desc 24 1) (some (ring, f.id))
          if p.2.1 then p.1 else (match allocT d (recOf d i).client (db f.desc 24 1)
            (slowerPages (recOf d i) (db f.desc 24 1)).length with
            | (.waits, d') => if (sessGroups d i).isEmpty then d' else d
            | _ => d)))) s

/-- Pages a resume brings to T1: all of them, or all but folded ones (R199). -/
def bringPages (r : Rec) (bring : Nat) : List Nat :=
  (r.pages.filter (fun (p : Nat × Loc) => 2 ≤ p.2.tier && (bring == 0 || pageKind p.1 != 1))).map Prod.fst

/-- The resume itself, once its checks have passed: a slot is taken, a rewind record opens the stream if asked, and the
pages move (R220, R221, R228). -/
def resumeGo (d : Dev) (ring : Nat) (f : Flight) (i s : Nat) (keys frames : List Nat) : Dev :=
  let ack := bitOf (db f.desc 25 1) 1
  let d := dispatched d ring f.id
  let d := if bitOf (db f.desc 25 1) 0 then updRec d i (fun r => { r with recipe := db f.desc 26 2 }) else d
  let d := setMoving d i
  let d := placeSlot d i s
  let r := recOf d i
  let d := if ack then
      strSpecial (updRec d i (fun r => { r with rewound := false })) s
        { bytes := rewindRecord r.strOff r.len r.strEpoch r.rewindSlate, ring := ring, id := f.id, status := stOK, result := 0, gate := true }
    else d
  let id := d.dly.nextGroup
  let d := updRec d i (fun r => { r with group := some id })
  startGroup d .resume (.session i) ring f.id true (r.cls == 0) 1 keys frames

/-- A `SESSION_RESUME` has passed its checks, and waits (R220). -/
def resumeHeld (d : Dev) (ring id : Nat) : Dev := updFlight d ring id (fun f => { f with passed := true })

/-- `SESSION_RESUME` from its second group of checks on. -/
def sessionResume (d : Dev) (ring : Nat) (f : Flight) : Dev :=
  let x := f.desc
  let ack := bitOf (db x 25 1) 1
  let rebind := bitOf (db x 25 1) 0
  let i0 := dSel x % 2 ^ 24
  if (recOf d i0).gen = dSel x / 2 ^ 24 ∧ rebind ∧ !rcpCurrent d (db x 26 2) then
    finish d ring f.id stStaleVersion (rcpOf d (rcpIndex (db x 26 2))).gen
  else
  withSess d ring f (sessCheck d (dSel x) false ack (fun r _ =>
      (r.state == .paused || r.state == .parked) && (!ack || r.rewound)
        && (!rebind || ((rcpOf d (rcpIndex (db x 26 2))).state == .loaded
          && (rcpOf d (rcpIndex (db x 26 2))).stateClass == (rcpFor d r).stateClass)))) (fun i =>
    let r := recOf d i
    match r.slot with
    | some s =>
      let d := if rebind then updRec d i (fun r => { r with recipe := db x 26 2 }) else d
      let d := updRec d i (fun r => { r with state := .active, pausedAt := none })
      finish (updSlot d s (fun x => { x with state := .opened })) ring f.id stOK s
    | none =>
      if !(sessGroups d i).isEmpty then resumeHeld d ring f.id
      else match pickSlot d r.client with
        | (none, _) => finish d ring f.id stQuota 0
        | (some s, d1) =>
          let ks := bringPages r (db x 24 1)
          match makeRoom d1 f.spared i (pageSize * ks.length) with
          | .waits d2 => if spillWaitOver d2 f then (match lackT1 d r.client (pageSize * ks.length) with
              | some (sh, k) => finish d ring f.id (lackStatus sh) k
              | none => d) else resumeHeld (markWait { d2 with fresh := d.fresh } ring f.id) ring f.id
          | .lacks sh k d2 => finish d2 ring f.id (lackStatus sh) k
          | .ok d2 =>
            match alloc d2 r.client 1 ks.length with
            | .ok fs d3 => resumeGo d3 ring f i s ks fs
            | .quota k => finish d2 ring f.id stQuota k
            | .noFit k => finish d2 ring f.id stNoFit k
            | .waits => resumeHeld d ring f.id)

/-- `SESSION_RESUME` (R221, R222, R228). -/
def execSessionResume (ring : Nat) (s : State) : Host.Outcome State Fault Refusal :=
  lift (fun d => dispatchGated d ring 0x04 (fun d f => sessionResume d ring f)) s

/-! ### Cut (R223 to R225) -/

/-- The 64-byte header of a layer-exchange frame (R209). -/
def lxHeader (d : Dev) (s typ layer rows headRows total offset : Nat) (final : Bool) (attempt : Nat) (payload : List Byte) : List Byte :=
  let sl := slotOf d s
  let r := recOf d sl.rcd
  let rc := rcpFor d r
  padTo 64 (fields [(typ, 1), (b2n final, 1), (layer, 2), (s + 4096 * sl.placed, 4), (r.stepSeq, 8), (rc.recipeId, 8), (rc.version, 4),
    (rows, 2), (headRows, 2), (total, 4), (offset, 4), (payload.length, 4), (attempt, 1), (0, 1), (ownDevice d, 2), (crc32c payload, 4)])

/-- The layer that the block sent last belongs to. -/
def sentLayer (m : Model) (w : Work) : Nat :=
  match w.phase with
  | .qkv => w.layer - 1
  | .hid => m.layers - 1
  | _ => w.layer

/-- Send DROP to the layer engines that hold a layer of a slot's work (R210, R224). -/
def sendDrops (d : Dev) (s : Nat) (w : Work) : Dev :=
  let waiting := w.phase == .qkv || w.phase == .hid || w.phase == .dO || w.phase == .dH
  if !waiting then d
  else
    let rc := rcpFor d (recOf d (slotOf d s).rcd)
    let first := if w.attempt = 0 then none else engineFor d rc.recipeId s (sentLayer rc.model w) 0
    ((w.engine :: first.toList).dedup).foldl (fun d e =>
      sendFrame d 1 0x10 e none (lxHeader d s 9 0 1 0 0 0 true 0 [])) d

/-- The descriptors that a cut of a session cancels: fetched and not dispatched, on any ring (R223). -/
def cutQueued (d : Dev) (h ring own : Nat) : Dev × Nat :=
  let fs := (busyRings d).flatMap (fun r => ((sqOf d r).flights.filter (fun f =>
    f.phase == .waiting && !(r == ring && f.id == own) && dOp f.desc != 0x05 && (namedSessions f.desc f.list).contains h
    && (dOp f.desc != 0x10 || f.entries.any (fun e => e.handle == h && !e.started && !e.finished)))).map (fun f => (r, f)))
  fs.foldl (fun (s : Dev × Nat) p =>
    let d := if dOp p.2.desc = 0x10 then
        (match p.2.entries.findIdx? (fun e => e.handle == h) with
        | some k => entryEnd s.1 p.1 p.2.id k stCut 0 0 0 (recOf s.1 (h % 2 ^ 24)).len ((recOf s.1 (h % 2 ^ 24)).stepSeq % 2 ^ 32)
        | none => s.1)
      else finish s.1 p.1 p.2.id stCut 0
    (d, s.2 + 1)) (d, 0)

/-- The other cuts of a session that have been fetched (R225): ring and flight. -/
def otherCuts (d : Dev) (h ring own : Nat) : List (Nat × Nat) :=
  (busyRings d).flatMap (fun r => ((sqOf d r).flights.filter (fun f =>
    f.phase == .waiting && !(r == ring && f.id == own) && dOp f.desc == 0x05 && dSel f.desc == h)).map (fun f => (r, f.id)))

/-- A cut that has passed its checks: the step in flight stops and commits nothing; the cut record, the cancelled
completions and the cut's own completion follow in this order (R224); other cuts of the session complete behind it (R225). -/
def cutSession (d : Dev) (ring : Nat) (f : Flight) (i : Nat) : Dev :=
  let d := dispatched d ring f.id
  let h := handleOf d i
  let r := recOf d i
  match r.slot with
  | none =>
    let q := cutQueued d h ring f.id
    let d := finish q.1 ring f.id stOK (min q.2 0xFFFF)
    boundary ((otherCuts d h ring f.id).foldl (fun d c => finish d c.1 c.2 stOK 0) d) i
  | some s =>
    let w := (slotOf d s).work
    let d := if w.isSome then updRec d i (fun r => { r with lastStep := now d }) else d
    let record := cutRecord r.strOff r.stepSeq w.isSome r.out.pending.isSome (r.out.stopHeld.length + r.out.utf8Held.length)
    let d := match w with | some w => sendDrops d s w | none => d
    let d := leaveSlot d s
    let d := updSlot d s (fun x => { x with state := .cutPending })
    let direct := 0 < strFree d s && (strOf d s).waiting.isEmpty
    let d := if direct then strPut d s record else d
    let d := match w with
      | some w => (match w.kind with
        | .step => entryEnd d w.ring w.flight w.entry stCut 0 0 0 r.len (r.stepSeq % 2 ^ 32)
        | _ => finish d w.ring w.flight stCut 0)
      | none => d
    let q := cutQueued d h ring f.id
    let n := min (q.2 + b2n w.isSome) 0xFFFF
    let others := otherCuts q.1 h ring f.id
    let d := if direct then others.foldl (fun d c => finish d c.1 c.2 stOK 0) (finish (cutFinished q.1 s) ring f.id stOK n)
      else others.foldl (fun d c => strSpecial (dispatched d c.1 c.2) s { bytes := [], ring := c.1, id := c.2, status := stOK, result := 0 })
        (strSpecial q.1 s { bytes := record, ring := ring, id := f.id, status := stOK, result := n })
    boundary d i

/-- `SESSION_CUT` (R223): a second cut joins the one that runs, and completes behind it with result 0 (R225). -/
def execSessionCut (ring : Nat) (s : State) : Host.Outcome State Fault Refusal :=
  lift (fun d => dispatchGated d ring 0x05 (fun d f =>
    let i := dSel f.desc % 2 ^ 24
    let r := recOf d i
    match r.slot with
    | some sl =>
      if r.gen = dSel f.desc / 2 ^ 24 ∧ ctxStateOf d i = .cutPending then
        strSpecial (dispatched d ring f.id) sl { bytes := [], ring := ring, id := f.id, status := stOK, result := 0 }
      else withSess d ring f (sessCheck d (dSel f.desc) false false (fun _ _ => true)) (cutSession d ring f)
    | none => withSess d ring f (sessCheck d (dSel f.desc) false false (fun _ _ => true)) (cutSession d ring f))) s

/-! ### Records that have waited (R52, R509) -/

/-- `SHADOW_READ`: the device reads the consumer index of a completion (0), stream (1) or fault (2) ring, or of the meter's log (3)
(R459, R509, R52). A cut whose record
is written now is finished, and the session stands at a step boundary. -/
def execShadowRead (kind ring consumer : Nat) (s : State) : Host.Outcome State Fault Refusal :=
  lift (fun d =>
    if kind = 1 ∧ strOpenBit d ring ∧ !inReset d ∧ hostPath d then
      let cut := (slotOf d ring).state == .cutPending
      let d := setStr d ring { strOf d ring with cons := consumer % 2 ^ fget d Fd.SEQ_STR_CFG_size_log2 ring }
      let d := strFlushBy ((strOf d ring).waiting.length + 1) d ring
      if cut ∧ (slotOf d ring).state ≠ .cutPending then boundary d (slotOf d ring).rcd else d
    else shadowRead d kind ring consumer) s

/-! ### Trim (R226) -/

/-- `SESSION_TRIM` (R226): at once, or for the length that the step in flight leaves (R169). -/
def execSessionTrim (ring : Nat) (s : State) : Host.Outcome State Fault Refusal :=
  lift (fun d => dispatchGated d ring 0x06 (fun d f =>
    withSess d ring f (sessCheck d (dSel f.desc) false false (fun r _ =>
        (r.state == .active || r.state == .paused || r.state == .parked))) (fun i =>
      let n := db f.desc 24 4
      if (sessWork d i).isNone ∧ (recOf d i).len < n then finish d ring f.id stStateConflict (conflictOf d i)
      else addEdit (dispatched d ring f.id) i (.trim n ring f.id)))) s

/-! ### Timed events (R208, R216, R217, R220) -/

/-- Has a `SESSION_RESUME` of a record passed its checks, and waits for room or for moves (R220)? -/
def resumeWaits (d : Dev) (i : Nat) : Bool :=
  (busyRings d).any (fun r => (sqOf d r).flights.any (fun f =>
    f.phase == .waiting && dOp f.desc == 0x04 && dSel f.desc == handleOf d i && f.passed))

/-- Has the time to live of a record without a slot passed (R220)? -/
def ttlDue (d : Dev) (i : Nat) : Bool :=
  let r := recOf d i
  r.ttlFrom.any (fun t => decide (t + r.ttl ≤ frame d)) && r.ttl != 0 && r.slot.isNone && (r.state == .paused || r.state == .parked)
    && (sessGroups d i).isEmpty && !resumeWaits d i

/-- A time to live has passed (R220): the session's objects are freed, and its client is told. -/
def ttlExpire (d : Dev) (i : Nat) : Dev :=
  if ttlDue d i then
    let r := recOf d i
    let d' := raise (fbump (expireRec d i false) Fd.CTX_CNT_expired) Fd.CTX_EVT_ttl_expired
    (report d' { cls := clsExpiry, unit := 4, action := 0, object := r.name, handle := handleOf d i, client := some r.client }).1
  else d

/-- Has a session been paused with its slot for `hold` frames (R216)? -/
def holdDue (d : Dev) (i : Nat) : Bool :=
  let r := recOf d i
  r.pausedAt.any (fun t => decide (t + r.hold ≤ frame d)) && r.hold != 0 && r.state == .paused && ctxStateOf d i == .paused

/-- A session paused for `hold` frames gives up its slot (R216). -/
def holdPass (d : Dev) (i : Nat) : Dev := if holdDue d i then raise (releaseSlot d i) Fd.CTX_EVT_slot_released else d

/-- Has a session been paused without a slot for `park_after` frames (R217)? A time to live that is due comes first. -/
def parkDue (d : Dev) (i : Nat) : Bool :=
  let r := recOf d i
  r.releasedAt.any (fun t => decide (t + r.parkAfter ≤ frame d)) && r.parkAfter != 0 && r.state == .paused && r.slot.isNone
    && !(r.ttl != 0 && r.ttlFrom.any (fun f => decide (f + r.ttl ≤ frame d)))

/-- The automatic park (R217); one that does not fit is noticed and tried again. -/
def parkPass (d : Dev) (i : Nat) : Dev :=
  if parkDue d i then
    let r := recOf d i
    let p := parkNow d i r.parkTier none
    if p.2.2 then raise p.1 Fd.CTX_EVT_auto_park
    else if p.2.1 then
      let d := updRec p.1 i (fun r => { r with releasedAt := some (frame d) })
      (report d {
        cls := clsCapacity, unit := 4, action := 0, object := r.name, handle := handleOf d i, detailA := r.len,
        client := some r.client }).1
    else p.1
  else d

/-- Has the deadline of a descriptor run out (R208)? -/
def deadlineOver (d : Dev) (f : Flight) : Bool :=
  let n := match dOp f.desc with
    | 0x10 => db f.desc 52 4
    | 0x11 => db f.desc 44 4
    | _ => 0
  n != 0 && decide (f.fetchTc + n * 65536 ≤ up d)

/-- The deadline of the oldest waiting descriptor of a ring, or of an entry of its batch, has passed (R208). -/
def deadlineExpire (d : Dev) (ring entry : Nat) : Dev :=
  match (sqOf d ring).flights.find? (fun f => f.phase != .done && deadlineOver d f
      && (if dOp f.desc = 0x10 then (match f.entries[entry]? with | some e => !e.started && !e.finished | none => false)
        else f.phase == .waiting)) with
  | none => d
  | some f =>
    if dOp f.desc = 0x10 then
      let h := (f.entries.getD entry { handle := 0, single := false }).handle
      entryEnd d ring f.id entry stExpired 0 0 0 (recOf d (h % 2 ^ 24)).len ((recOf d (h % 2 ^ 24)).stepSeq % 2 ^ 32)
    else finish d ring f.id stExpired 0

/-- `DEADLINE_EXPIRY` (R208): an entry, or a `PREFILL`, that has not been dispatched when its deadline runs out completes
with `EXPIRED`. -/
def execDeadlineExpiry (ring entry : Nat) (s : State) : Host.Outcome State Fault Refusal := lift (fun d => deadlineExpire d ring entry) s

end Sys2Proof.Machine
end

