-- ==== Sys2Proof/Machine/Pools.lean ====
section
/-!
DEFINITION. Sys2Proof/Machine/Pools.lean: hardware faults met inside steps: arrays (04 R107, R130 to R133; 05 R157), stacks,
banks and channels (10 R301 to R306; 11 R316, R317), and the loss of a pool (07 R227).
-/

namespace Sys2Proof.Machine

/-! ### Work that ends early (R17, R174) -/

/-- Work fails in the data path: a report names its session, and it ends with the status (R17). -/
def failWork (d : Dev) (s cls unit action st : Nat) : Dev :=
  let i := (slotOf d s).rcd
  let r := recOf d i
  let p := report d {
    cls := cls, unit := unit, action := action, object := r.name, handle := handleOf d i, client := some r.client, status := st,
    stepSeq := r.stepSeq }
  endWork p.1 s st p.2 0 0

/-- A unit that the work needs failed. -/
def unitFail (d : Dev) (s unit : Nat) : Dev := failWork d s clsUnit unit 1 stUnitFailed

/-! ### Precision (R117, R128, R133) -/

/-- One precision event of a session (R128). -/
def precAt (d : Dev) (i layer win : Nat) : Dev :=
  let r := recOf d i
  let d := raise (fbump d Fd.ARR_PREC_CNT_prec_event) Fd.ARR_EVT_prec_event
  let d := (report d {
    cls := clsPrecision, unit := 2, action := 0, object := r.name, handle := handleOf d i, client := some r.client,
    detailA := layer, detailB := win, stepSeq := r.stepSeq }).1
  let d := updAcct d r.client (fun a => { a with precEvents := a.precEvents + 1 })
  updRec d i (fun r => { r with precCount := r.precCount + 1 })

/-- Blocks of a layer have been encoded (R117, R133): the pools that overflowed and the groups clipped are counted, and each group
clipped is a precision event of the session. -/
def countEncoded (d : Dev) (i layer full : Nat) (clips : List Nat) : Dev :=
  let d := fbump (fbump d Fd.ARR_ENC_CNT_outlier_overflow full) Fd.ARR_ENC_CNT_fold_clip clips.length
  clips.foldl (fun d w => precAt d i layer w) d

/-! ### Arrays -/

/-- Largest team of a recipe. -/
def maxTeam (r : RSlot) : Nat := r.entries.foldl (fun m e => max m e.team) 0

/-- Slots whose slice has too few arrays become STRANDED, or LOADED again (R157). -/
def strandCheck (d : Dev) : Dev :=
  (keys d.fab.rcp).foldl (fun d n =>
    let r := rcpOf d n
    let short := (sliceArrays d r.slice).length < maxTeam r
    if r.state = .loaded ∧ short then
      (report (setRcp d n { r with state := .stranded }) { cls := clsRecipe, unit := 2, action := 0 }).1
    else if r.state = .stranded ∧ !short then setRcp d n { r with state := .loaded }
    else d) d

/-- Arrays of a slice that no team holds. -/
def idleArrays (d : Dev) (s : Nat) : List Nat :=
  (sliceArrays d s).filter (fun a => !d.fab.teams.any (fun t => t.arrays.contains a))

/-- Retire an array (R130, R132, R134): its role moves to an idle array of the slice, if there is one; while others are busy it waits for
one of them, and with none left in the slice the entry ends with `UNIT_FAILED`. -/
def retireArray (d : Dev) (a cause : Nat) : Dev :=
  let x : Arr := mget d.fab.arr {} a
  if x.retired then d else
  let d := { d with fab := { d.fab with arr := mset d.fab.arr {} a { x with retired := true, cause := cause } } }
  let d := raise d Fd.ARR_EVT_array_retired
  let d := (report d { cls := clsUnit, unit := 2, action := 2, inst := a }).1
  let d : Dev := { d with fab := { d.fab with teams := d.fab.teams.map (fun (t : Team) =>
    if t.arrays.contains a then
      match idleArrays d t.slice with
      | b :: _ => { t with arrays := t.arrays.map (fun y => if y = a then b else y) }
      | [] => { t with arrays := t.arrays.erase a }
    else t) } }
  let bare := d.fab.teams.filter (fun (t : Team) => t.running && (sliceArrays d t.slice).isEmpty)
  strandCheck ((bare.map (fun (t : Team) => t.slot)).foldl (fun d s => unitFail d s 2) d)

/-- Change the counters of one array. -/
def updArr (d : Dev) (a : Nat) (f : Arr → Arr) : Dev :=
  { d with fab := { d.fab with arr := mset d.fab.arr {} a (f (mget d.fab.arr {} a)) } }

/-! ### The newest slate that verifies (R227, R404) -/

/-- The copies that a shard of a slate rests on (R404): its pages, its image and the manifest, as slate and copy index. -/
def shardCopies (n : Slate) (s : Shard) : List (Nat × Nat) :=
  s.pages.map (fun p => (p.slate, p.copy)) ++ s.image ++ n.own.map (fun k => (n.num, k))

/-- Those of them that are not here. -/
def missingCopies (d : Dev) (n : Slate) (s : Shard) : List (Nat × Nat) :=
  (shardCopies n s).filter (fun c => (look d.ckp.copies (c.1 * 2 ^ 32 + c.2)).isNone)

/-- A buddy message (R401). -/
def buddyBytes (typ status slate origin name copy mask : Nat) (data : List Byte) : List Byte :=
  fields [(typ, 1), (status, 1), (0, 2), (slate, 4), (origin, 2), (0, 2), (name, 8), (copy, 4), (mask, 1), (0, 7)] ++ data

/-- The buddy named in `CKP_CFG` (R401). -/
def ownBuddy (d : Dev) : Nat := fget d Fd.CKP_CFG_buddy

/-- Ask the buddy for page copies of an object (R401, R404). -/
def fetchCopies (d : Dev) (name : Nat) (l : List (Nat × Nat)) : Dev :=
  l.foldl (fun d c => sendFrame d 4 0x40 (ownBuddy d) none (buddyBytes 4 0 c.1 (ownDevice d) name c.2 0 [])) d

/-- A copy of this device's that a restore reads fails twice (R176, R404): it is not kept, and the buddy's is sought. -/
def copyFails (d : Dev) (i : Nat) (x : Restore) (k : Nat × Nat) : Dev :=
  let d := { d with ckp := { d.ckp with
    copies := del d.ckp.copies (k.1 * 2 ^ 32 + k.2), restores := put d.ckp.restores i { x with fetching := true, await := [k] } } }
  if fbit d Fd.CKP_CFG_buddy_valid then fetchCopies d x.name [k] else d

/-- The shard of an object in a slate. -/
def shardOf (s : Slate) (name : Nat) : Option Shard := s.shards.find? (fun h => h.name == name)

/-- May the buddy stand in for what is missing here? -/
def buddyHelps (d : Dev) (s : Slate) : Bool :=
  s.buddy && fbit d Fd.CKP_CFG_buddy_valid && reachable d (ownBuddy d)

/-- The newest of some retained slates that may serve an object: the slate, its shard, and whether it is complete here. -/
def servingSlate (d : Dev) (l : List Slate) (name : Nat) : Option (Slate × Shard × Bool) :=
  l.findSome? (fun s => match shardOf s name with
    | none => none
    | some h => if (missingCopies d s h).isEmpty then some (s, h, true) else if buddyHelps d s then some (s, h, false) else none)

/-- The newest retained slate that may serve an object; `only` names one slate, or 0 (R403). -/
def bestSlate (d : Dev) (name only : Nat) : Option (Slate × Shard × Bool) :=
  servingSlate d (d.ckp.kept.filter (fun s => only == 0 || s.num == only)) name

/-! ### Losing a session's storage (R227) -/

/-- Commands that have been dispatched for a session and wait for its pause, park, trim or moves. -/
def waitersOf (d : Dev) (i : Nat) : List (Nat × Nat) :=
  let r := recOf d i
  r.pausing.toList ++ r.parking.toList
    ++ r.edits.filterMap (fun e => match e with | .trim _ a b => some (a, b) | _ => none)
    ++ (sessGroups d i).filterMap (fun g => if g.answers then some (g.ring, g.flight) else none)

/-- Nothing of a session goes on: its pending edits and moves are dropped. -/
def dropPending (d : Dev) (i : Nat) : Dev :=
  let d := updRec d i (fun r => { r with pausing := none, parking := none, edits := [], hintDue := false, prefetchDue := false })
  (sessGroups d i).foldl (fun d g => dropGroup d g.id) d

/-- Every command that waits on a session's pending pause, park, trim or move ends with a status. -/
def endWaiters (d : Dev) (i st res : Nat) : Dev :=
  (waitersOf d i).foldl (fun d c => endHeld d c.1 c.2 st res) (dropPending d i)

/-- Commands that a pool loss stopped end (R17, R227): ring, flight, and the entry of a batch. -/
def endStopped (d : Dev) (i st res : Nat) (cs : List (Nat × Nat × Option Nat)) : Dev :=
  cs.foldl (fun d c => match c.2.2 with
    | some k => entryEnd d c.1 c.2.1 k st res 0 0 (recOf d i).len ((recOf d i).stepSeq % 2 ^ 32)
    | none => endHeld d c.1 c.2.1 st res) d

/-- A restore is over: its moves end with it. -/
def dropRestore (d : Dev) (i : Nat) : Dev :=
  let d := (d.dly.groups.filter (fun g => g.obj == .restore i)).foldl (fun d g => dropGroup d g.id) d
  { d with ckp := { d.ckp with restores := del d.ckp.restores i } }

/-- A session is lost with its pool: no slate of it verifies (R227). The offset that its commands end with is not stated: a free
value. -/
def loseSession (d : Dev) (i unit : Nat) (cs : List (Nat × Nat × Option Nat)) : Dev :=
  let r := recOf d i
  let h := handleOf d i
  let (v, d) := freshBelow d (2 ^ 32)
  let d := endStopped d i stRewound v cs
  (report (fbump (expireRec (updRec d i (fun r => { r with restoring := false })) i true) Fd.CTX_CNT_expired) {
    cls := clsPoolLoss, unit := unit, action := 4, object := r.name, handle := h, client := some r.client }).1

/-- The slate that a session is restored from is known (R227): what a pool loss stopped ends with its stream offset, and the slot is
released behind a rewind record. -/
def rewindTo (d : Dev) (i slate : Nat) (sh : Shard) (cs : List (Nat × Nat × Option Nat)) : Dev :=
  let off := match sh.sess with | some x => x.strOff | none => 0
  let len := match sh.sess with | some x => x.len | none => 0
  let r := recOf d i
  let d := endStopped d i stRewound (off % 2 ^ 32) cs
  match r.slot with
  | some s => releaseSlot (strSpecial d s {
      bytes := rewindRecord off len ((r.strEpoch + 1) % 2 ^ 32) slate, ring := noRing, id := 0, status := stOK, result := 0 }) i
  | none => d

/-- The pages of a session are lost (R227): its work stops, and its restore begins. What was stopped ends once the newest slate that
verifies is known: at once if its copies are here. `unit` is the unit of the storage that failed. -/
def poolLoss (d : Dev) (i unit : Nat) : Dev :=
  let r := recOf d i
  if r.state = .closed ∨ r.state = .expired ∨ r.restoring then d else
  let work : List (Nat × Nat × Nat × Option Nat) := match r.slot, sessWork d i with
    | some s, some w => [(s, (w.ring, w.flight, if w.kind = WKind.step then some w.entry else none))]
    | _, _ => []
  let cs := work.map Prod.snd ++ (waitersOf d i).map (fun c => (c.1, c.2, none))
  let d := dropPending (work.foldl (fun d w => leaveSlot d w.1) d) i
  let d := reap (updRec d i (fun r => { r with state := .moving, restoring := true, group := none, ttlFrom := none }))
  match bestSlate d r.name 0 with
  | none => loseSession d i unit cs
  | some (sl, sh, here) =>
    let x : Restore := {
      slate := sl.num, name := r.name, ring := noRing, flight := 0, answers := false, fetching := !here, before := r.state, unit := unit }
    if here then
      let d := rewindTo d i sl.num sh cs
      { d with ckp := { d.ckp with restores := put d.ckp.restores i x } }
    else
      let miss := missingCopies d sl sh
      let d := fetchCopies d r.name miss
      { d with ckp := { d.ckp with restores := put d.ckp.restores i { x with await := miss, ends := cs } } }

/-! ### Moves that fail (R295) -/

/-- A group of moves ends without publishing: its pages stay at their old home, the record returns to the state before, and its
command ends with a status. What its movers held off publishes now (R168), and the victim of a spill is left in place (R191). -/
def endGroup (d : Dev) (g : MoveGrp) (st res : Nat) : Dev :=
  let d := dropGroup d g.id
  let d := match g.obj with
    | .session i =>
      if (recOf d i).group = some g.id then
        let b := (recOf d i).before
        let d := if g.why = .resume then releaseSlot d i else d
        updRec d i (fun r => { r with state := b, group := none })
      else d
    | _ => d
  let d := match g.obj with
    | .session i => askMoves (publishEdits (if g.why = .spill then spareVictim d i else d) i) i
    | _ => d
  if g.answers then endHeld d g.ring g.flight st res else d

/-- The window that a page of a session belongs to (R176): none for pages that hold no window. -/
def pageWindow (m : Model) (r : Rec) (key : Nat) : Option Nat :=
  let f := (r.kv.headD {}).folded.length
  match pageKind key with
  | 1 => some (foldWindow m key)
  | 2 => match areaKind r.freshSel (pageIndex key / max 1 (pagesA8 m) / max 1 m.layers) with
    | 1 => some f
    | 2 => some (f - 1)
    | _ => none
  | _ => none

/-- An object is marked `damaged` where a tile of one of its pages failed twice (R176, R239, R336). -/
def hurtObj (d : Dev) (o : MoveOf) (page : Nat) : Dev :=
  match o with
  | .session i => updRec d i (fun r => hurtRec r (pageWindow (modelFor d r) r page))
  | .table n v => hurtTables d (fun k x => k == n && x.num == v)
  | .index n => setIdx d n { idxOf d n with damaged := true }
  | .restore i =>
    match look d.ckp.restores i with
    | none => d
    | some x =>
      let sh := (d.ckp.kept.find? (fun s => s.num == x.slate)).bind (fun s => shardOf s x.name)
      match (sh.map (fun h => h.pages)).getD [] |>.find? (fun p => p.kind == pageKind page && p.index == pageIndex page) with
      | none => d
      | some p => copyFails d i x (p.slate, p.copy)

/-- Name and handle of what a group of moves moves, for a fault record. -/
def objNamed (d : Dev) (o : MoveOf) : Nat × Nat :=
  match o with
  | .session i | .restore i => ((recOf d i).name, handleOf d i)
  | .table n v => (((anyVer d n v).map (fun x => x.name)).getD 0, 0)
  | .index n => ((idxOf d n).name, 0)

/-- A group of moves fails: its pages stay at their old home, and its command ends with the status (R295). `page` is the page whose
tile failed. -/
def failGroup (d : Dev) (id st : Nat) (page : Nat := 0) : Dev :=
  match grpOf d id with
  | none => d
  | some g =>
    let c := objClient d g.obj
    let integrity := st = stIntegrity
    let (name, h) := objNamed d g.obj
    let (d, seq) := report d {
      cls := if integrity then clsIntegrity else clsUnit, unit := 7, action := if integrity then 3 else 1, object := name,
      handle := h, client := some c, status := st }
    let d := raise d Fd.DLY_EVT_move_failed
    endGroup (if integrity then hurtObj d g.obj page else d) g st seq

/-! ### Losing frames (R302, R306, R307, R317) -/

/-- Every location that satisfies `p` is lost. -/
def loseLocs (d : Dev) (p : Loc → Bool) (unit : Nat) : Dev :=
  let groups := (destLocs d).filter (fun e => p e.2) |>.map Prod.fst |>.dedup
  let recs := (d.ctx.recs.filter (fun (e : Nat × Rec) => (recLocs e.2).any p
    || e.2.edits.any (fun x => match x with | .fold _ q | .relocate q => (vals q).any p | _ => false))).map Prod.fst
  let d := { d with ckp := { d.ckp with
    copies := d.ckp.copies.filter (fun (e : Nat × Loc) => !p e.2),
    restores := d.ckp.restores.map (fun (e : Nat × Restore) =>
      (e.1, if (vals e.2.pages).any p then { e.2 with reserved := false, pages := [] } else e.2)), held := d.ckp.held.filter (fun h => !h.locs.any p) } }
  let d := hurtTables d (fun _ v => (vals v.pages).any p)
  let d := { d with fls := { d.fls with idx := d.fls.idx.map (fun (e : Nat × Idx) => (e.1,
    if (idxLocs e.2).any p then { e.2 with damaged := true } else e.2)) } }
  let d := { d with lnk := { d.lnk with loans := d.lnk.loans.map (fun (e : Nat × Loan) => (e.1, { e.2 with
    tiles := e.2.tiles.filter (fun (t : Nat × List Byte) =>
      match e.2.frames[t.1 / 8]? with | some f => !p { tier := e.2.tier, frame := f } | none => true) })) } }
  let d := groups.foldl (fun d g => failGroup d g stUnitFailed) d
  recs.foldl (fun d i => poolLoss d i unit) d

/-- Does a stack that fails hold one of the objects of T1 that are not pages? The model does not keep where they lie (log entry 62):
each is lost or not, by a free value. -/
def inStack (d : Dev) : Bool × Dev :=
  let r := freshBelow d 2
  (r.1 == 1, r.2)

/-- The objects of T1 that are not pages, and that a stack held which is retired, are lost (R302): stages and save areas, with the sessions
concerned (R227), colander versions, and the side lists, headers and directories of indexes (R336). -/
def loseOthers (d : Dev) : Dev :=
  let kept := (vals d.ctx.slots).filterMap (fun s => match s.work with | some w => if w.reserved = 0 then none else some s.rcd | none => none)
    ++ (d.fab.teams.filter (fun t => t.saved)).map (fun t => (slotOf d t.slot).rcd)
  let d := kept.dedup.foldl (fun d i => let r := inStack d; if r.1 then poolLoss r.2 i 5 else r.2) d
  let d := ((vals d.fls.idx).zip (keys d.fls.idx)).foldl (fun d e =>
    if e.1.state = 0 then d else
    let r := inStack d
    if r.1 then setIdx r.2 e.2 { idxOf r.2 e.2 with damaged := true } else r.2) d
  (keys d.txt.col).foldl (fun d n =>
    if (colOf d n).cur.isNone then d else
    let r := inStack d
    if r.1 then setCol r.2 n { colOf r.2 n with cur := none } else r.2) d

/-- Retire a near stack (R302). -/
def retireStack (d : Dev) (s : Nat) : Dev :=
  if maskBit d.mem.nearRetired.toNat s then d else
  let d := { d with mem := { d.mem with nearRetired := d.mem.nearRetired ||| BitVec.ofNat 8 (2 ^ s), dupDegraded := true } }
  let d := raise (raise d Fd.MEM_EVT_near_uncorrected) Fd.MEM_EVT_stack_retired
  let d := (report d { cls := clsUnit, unit := 5, action := 2, inst := s }).1
  loseOthers (loseLocs d (fun l => l.tier == 1 && l.frame / 2 ^ 19 == s) 5)

/-- Retire a pantry bank (R303). -/
def retireBank (d : Dev) (b : Nat) : Dev :=
  if bankRetired d b then d else
  let d := { d with mem := { d.mem with bankRetired := put d.mem.bankRetired b true } }
  let d := raise d Fd.MEM_EVT_bank_retired
  let hit := (d.fab.rcp.filter (fun (e : Nat × RSlot) => e.2.banks.contains b)).map Prod.fst
  let d := if hit.isEmpty then (report d { cls := clsUnit, unit := 5, action := 2, inst := b }).1
    else hit.foldl (fun d n =>
      (report (setRcp d n { rcpOf d n with bankLost := true }) {
        cls := clsRecipe, unit := 5, action := 2, inst := b }).1) d
  loseLocs d (fun l => l.tier == 0 && l.frame / 128 == b) 5

/-- Retire a far channel (R306): its pages are lost, and those in T4 whose seal counters were in a page of the seal object there (R299). -/
def retireFar (d : Dev) (c : Nat) : Dev :=
  if maskBit d.mem.farRetired.toNat c then d else
  let d := { d with mem := { d.mem with farRetired := d.mem.farRetired ||| BitVec.ofNat 32 (2 ^ c) } }
  let d := raise (raise d Fd.MEM_EVT_far_uncorrected) Fd.MEM_EVT_channel_retired
  let d := (report d { cls := clsUnit, unit := 6, action := 2, inst := c }).1
  let gone := (d.mem.sealObj.filter (fun (p : Nat × Loc) => p.2.frame / 2 ^ 20 == c)).map Prod.fst
  let lost := (d.mem.sealAt.filter (fun (p : Nat × Nat) => gone.contains p.2)).map Prod.fst
  let d := { d with mem := { d.mem with
    sealObj := d.mem.sealObj.filter (fun (p : Nat × Loc) => !gone.contains p.1)
    sealAt := d.mem.sealAt.filter (fun (p : Nat × Nat) => !gone.contains p.2) } }
  loseLocs d (fun l => (l.tier == 2 && l.frame / 2 ^ 20 == c) || (l.tier == 4 && lost.contains l.frame)) 6

/-- Retire a flash channel (R317). -/
def retireFlash (d : Dev) (c : Nat) : Dev :=
  if maskBit d.fls.retired.toNat c then d else
  let d := { d with fls := { d.fls with retired := d.fls.retired ||| BitVec.ofNat 32 (2 ^ c) } }
  let d := raise d Fd.FLS_EVT_channel_retired
  let d := (report d { cls := clsUnit, unit := 8, action := 2, inst := c }).1
  loseLocs d (fun l => l.tier == 4 && flsChannel l.frame == c) 8

/-- Retire a block pair whose erase or program failed (R316, R469). -/
def retirePair (d : Dev) (pair : Nat) : Dev :=
  let q : FPair := mget d.fls.pairs {} pair
  if q.bad then d else
  let d := raise { d with fls := { d.fls with pairs := put d.fls.pairs pair { q with bad := true } } } Fd.FLS_EVT_pair_retired
  (report d { cls := clsUnit, unit := 8, action := 2, inst := flsChannel pair }).1

/-- The array time of a retry or of the rerun of a moved tile (R419): unattributed, and its length is a free value. -/
def chargeRetry (d : Dev) : Dev :=
  let (n, d) := freshBelow d (2 ^ 32)
  chargeCycles d unattributed n

/-- The effect of one fault that is not bound to the operation in which it is met. -/
def sufferOne (d : Dev) (x : Incident) : Dev :=
  match x with
  | .ckTransient a => raise (updArr (chargeRetry d) a (fun y => { y with ckTransient := min (y.ckTransient + 1) 0xFFFF })) Fd.ARR_EVT_ck_transient
  | .ckLasting a c => retireArray (chargeRetry d) a c
  | .storeCorrected a => raise (updArr d a (fun y => { y with storeCorrected := min (y.storeCorrected + 1) 0xFFFF })) Fd.ARR_EVT_store_corrected
  | .bankFail b => retireBank d b
  | .nearCorrected _ => raise (fbump d Fd.MEM_ECC_CNT_near_corrected) Fd.MEM_EVT_near_corrected
  | .nearUncorrected _ => raise d Fd.MEM_EVT_near_uncorrected
  | .stackFail s => retireStack d s
  | .farCorrected _ => raise (fbump d Fd.MEM_ECC_CNT_far_corrected) Fd.MEM_EVT_far_corrected
  | .farUncorrected _ => raise d Fd.MEM_EVT_far_uncorrected
  | .farFail c => retireFar d c
  | .flashRetry _ => raise (fbump d Fd.FLS_CHECK_CNT_transient) Fd.FLS_EVT_read_retry
  | .pairRetired p => retirePair d p
  | .flashFail c => retireFlash d c
  | .tileTransient => d
  | .tileLasting _ => d
  | .writeTransient => d
  | .writeLasting => d
  | .precision _ _ => d
  | .fatal u => reap (fatalFault d u)

/-- The faults of a step, in order. -/
def suffer (d : Dev) (xs : List Incident) : Dev := xs.foldl sufferOne d

/-- Tile checks that passed on the second read, and the window of the first that failed twice. -/
def transients (xs : List Incident) : Nat := (xs.filter (fun x => x == .tileTransient)).length
def lastingTile (xs : List Incident) : Option Nat := xs.findSome? (fun x => match x with | .tileLasting w => some w | _ => none)

/-- Count the checks of one engine: its counters and events. -/
def countChecks (d : Dev) (xs : List Incident) (tr la : Fd) (etr ela : Fd) : Dev :=
  let n := transients xs
  let d := raiseMany (fbump d tr n) etr n
  match lastingTile xs with
  | none => d
  | some _ => raise (fbump d la) ela

/-! ### Movers end (R294, R295) -/

/-- Did a write to a location fail once (R295): told so, or by its block pair being retired (R317)? -/
def writeFailed (l : Loc) (xs : List Incident) : Bool :=
  xs.contains .writeTransient || (l.tier == 4 && xs.contains (.pairRetired (pairOf l.frame)))

/-- A mover's page is at its destination. -/
def moverDone (d : Dev) (mover : Nat) (p : QPage) : Dev :=
  let o : Option MoveOf := (grpOf d p.group).map (fun g => g.obj)
  let d := pageMoved (fbump d Fd.DLY_MOVED_pages) mover p
  match o with
  | some (.session i) => boundary d i
  | _ => d

/-- `PAGE_MOVE_DONE` (R294, R295): a mover has moved its page, or failed; a write that failed once goes to another frame. -/
def execPageMoveDone (mover : Nat) (incidents : List Incident) (s : State) : Host.Outcome State Fault Refusal :=
  lift (fun d =>
    match look d.dly.movers mover with
    | none => d
    | some p =>
      if p.await ≠ 0 then d else
      let d := countChecks d incidents Fd.DLY_CHECK_CNT_transient Fd.DLY_CHECK_CNT_lasting Fd.DLY_EVT_check_transient
        Fd.DLY_EVT_check_lasting
      let d := suffer d incidents
      if (look d.dly.movers mover).isNone then d
      else if (lastingTile incidents).isSome then failGroup d p.group stIntegrity p.page
      else if incidents.contains .writeLasting then failGroup d p.group stUnitFailed
      else if writeFailed p.dest incidents then match writeAgain d mover p with
        | none => failGroup d p.group stUnitFailed
        | some (d, q) => if q.await = 0 then moverDone d mover q else d
      else moverDone d mover p) s

/-- Does a fault lie in a near stack? -/
def Incident.ofStack (n : Nat) : Incident → Bool
  | .nearCorrected s | .nearUncorrected s | .stackFail s => s == n
  | _ => false

/-- `NEAR_SCRUB` (R301): one pass over the rows of a stack in service, and what it finds there. -/
def execNearScrub (stack : Nat) (incidents : List Incident) (s : State) : Host.Outcome State Fault Refusal :=
  lift (fun d =>
    if inReset d ∨ !maskBit d.mem.nearUp.toNat stack ∨ maskBit d.mem.nearRetired.toNat stack then d
    else suffer d (incidents.filter (Incident.ofStack stack))) s

end Sys2Proof.Machine
end

