-- ==== Sys2Proof/Machine/TableOps.lean ====
section
/-!
DEFINITION. Sys2Proof/Machine/TableOps.lean: the commands of the table and output-control groups (08 R240 to R249; 09 R261 to
R269; 16 R441).
-/

namespace Sys2Proof.Machine

/-- A `STATE_CONFLICT` of an object whose states the spec does not encode: its result is a free value (log entry 23). -/
def conflictFree (d : Dev) (ring id : Nat) : Dev :=
  let (v, d) := freshBelow d (2 ^ 32)
  finish d ring id stStateConflict v

/-- Does a table hold any version? -/
def tblLive (t : Tbl) : Bool := t.cur.isSome || t.staged.isSome || !t.old.isEmpty

/-- Does a table belong to another client (R240)? -/
def tblForeign (d : Dev) (n c : Nat) : Bool := tblLive (tblOf d n) && (tblOf d n).client != c

/-! ### Loading (R241, R242) -/

/-- The version that a load with `new` starts. -/
def newVersion (d : Dev) (n : Nat) (x : Desc) : TVer :=
  { num := nextVersion (tblOf d n).last, name := ownDevice d * 2 ^ 48 + d.mem.nextSerial, recipe := db x 46 2, kind := db x 54 1,
    fmt := db x 55 1, dim := db x 52 2, rowsM1 := db x 48 4, r := db x 56 4, combine := db x 60 1, order := db x 61 1,
    tier := db x 62 1 }

/-- Do the parameters of a load repeat those of the staged version? -/
def sameParams (v : TVer) (x : Desc) : Bool :=
  v.recipe == db x 46 2 && v.rowsM1 == db x 48 4 && v.dim == db x 52 2 && v.kind == db x 54 1 && v.fmt == db x 55 1
    && v.r == db x 56 4 && v.combine == db x 60 1 && v.order == db x 61 1 && v.tier == db x 62 1

/-- Another table has a current or staged version of this order for this recipe. -/
def orderTaken (d : Dev) (n : Nat) (x : Desc) : Bool :=
  d.txt.tbl.any (fun (p : Nat × Tbl) => p.1 != n && (p.2.cur.toList ++ p.2.staged.toList).any (fun v =>
    v.order == db x 61 1 && v.recipe == db x 46 2))

/-- Is the state of a table such that the load is refused (R242)? -/
def loadConflict (d : Dev) (n : Nat) (x : Desc) : Bool :=
  let needs := db x 61 1 ≠ 0 || bitOf (db x 45 1) 1
  let rc := rcpOf d (rcpIndex (db x 46 2))
  (needs && !rcpServes rc)
    || (if bitOf (db x 45 1) 0 then
        db x 61 1 ≠ 0 && (db x 52 2 != 64 * rc.model.hidden || orderTaken d n x)
      else match (tblOf d n).staged with
        | none => true
        | some v => !sameParams v x)

/-- The rows as the load delivers them: opened under the weight key if wrapped (R441); none if the tag fails. -/
def loadRows (d : Dev) (x : Desc) (rows : List Byte) : Option (List Byte) :=
  if bitOf (db x 45 1) 1 then
    let n := rcpIndex (db x 46 2)
    match look d.sec.weight n with
    | none => none
    | some k =>
      let rc := rcpOf d n
      Config.gcmOpen k (fields [(db x 44 1, 1), (db x 40 4, 4), (0, 7)])
        (fields [(rc.recipeId, 8), (rc.version, 4), (db x 44 19, 19)]) (rows.take (db x 36 4 + 16))
  else some (rows.take (db x 36 4))

/-- Enter rows of a part from a first row on, chunk by chunk. -/
def enterRows (v : TVer) (part first : Nat) (rows : List (List Byte)) : TVer :=
  { v with
    chunks := (pieces 64 rows).zipIdx.foldl (fun (m : NMap (List (List Byte))) c => put m (chunkKey part (first + 64 * c.2)) c.1) v.chunks }

/-- Pages of a part that rows `first` to `first + k - 1` lie in. -/
def rowPages (v : TVer) (part first k : Nat) : List Nat :=
  let size := rowBytes v.fmt v.dim
  let a := first * size / pageSize
  if k = 0 then [] else (List.range (((first + k) * size - 1) / pageSize + 1 - a)).map (fun i => part * 2 ^ 40 + a + i)

/-- `TABLE_LOAD` from its second group of checks on. -/
def tableLoad (d : Dev) (ring : Nat) (f : Flight) (rows : List Byte) : Dev :=
  let x := f.desc
  let n := dSel x % 64
  let c := sqClient d ring
  let isNew := bitOf (db x 45 1) 0
  let needs := db x 61 1 ≠ 0 || bitOf (db x 45 1) 1
  if tblForeign d n c then finish d ring f.id stSecurity 0
  else if needs ∧ !rcpCurrent d (db x 46 2) then finish d ring f.id stStaleVersion (rcpOf d (rcpIndex (db x 46 2))).gen
  else if loadConflict d n x then conflictFree d ring f.id
  else
    let t := tblOf d n
    let v : TVer := if isNew then newVersion d n x else t.staged.getD (newVersion d n x)
    let place := if isNew then t.hint.getD v.tier else match v.pages with | p :: _ => p.2.tier | [] => t.hint.getD v.tier
    let k := db x 36 4 / max 1 (rowBytes v.fmt v.dim)
    -- a load with `new` gives up the staged version, unless there is no room for the new one
    let d1 := if isNew then setTbl d n { t with staged := none } else d
    -- a page in T4 that holds rows already is written to another frame (R315, R316)
    let rowsOn := rowPages v (db x 44 1) (db x 40 4) k
    let want := rowsOn.filter (fun p => match look v.pages p with | none => true | some l => l.tier == 4)
    match alloc d1 c place want.length with
    | .quota _ => finish d ring f.id stQuota 0
    | .noFit _ => let (v, d) := freshBelow d (2 ^ 32); finish d ring f.id stNoFit v
    | .waits => d
    | .ok fs d1 =>
      match loadRows d x rows with
      | none => finish d ring f.id stSecurity 0
      | some bs =>
        let d := d1
        let (ls, d) := locsAt d place fs
        let v := enterRows v (db x 44 1) (db x 40 4) (pieces (max 1 (rowBytes v.fmt v.dim)) bs)
        let v := { v with
          pages := (want.zip ls).foldl (fun (p : NMap Loc) kl => put p kl.1 kl.2) v.pages,
          wrapped := v.wrapped || bitOf (db x 45 1) 1 }
        let d := if isNew then { d with mem := { d.mem with nextSerial := d.mem.nextSerial + 1 } } else d
        let d := if isNew then fset (fset d Fd.TXT_TBL_CNT_invalid 0 n) Fd.TXT_TBL_CNT_missing 0 n else d
        let t := tblOf d n
        let d := setTbl d n { t with client := c, staged := some v, last := if isNew then v.num else t.last }
        let d := programAt d (.table n v.num) rowsOn
        finish (chargeTier d c place (db x 36 4)) ring f.id stOK v.num

/-- `TABLE_LOAD` (R241, R242, R441). -/
def execTableLoad (ring : Nat) (rows : List Byte) (s : State) : Host.Outcome State Fault Refusal :=
  lift (fun d => dispatchGated d ring 0x30 (fun d f => tableLoad d ring f rows)) s

/-! ### Swapping (R243, R244) -/

/-- `TABLE_SWAP` from its second group of checks on. A swap that would create a third old version waits. -/
def tableSwap (d : Dev) (ring : Nat) (f : Flight) : Dev :=
  let x := f.desc
  let n := dSel x % 64
  let t := tblOf d n
  let check := bitOf (db x 28 1) 0
  let drop := bitOf (db x 28 1) 1
  let curNum := match t.cur with | some v => v.num | none => 0
  if tblForeign d n (sqClient d ring) then finish d ring f.id stSecurity 0
  else if check ∧ curNum ≠ db x 24 4 then finish d ring f.id stStaleVersion curNum
  else if !drop && (match t.staged with
      | none => true
      | some v => (v.kind == 2 || v.order != 0) && !fullyLoaded v : Bool) then conflictFree d ring f.id
  else
    let bound : Bool := match t.cur with | some v => tblBound d n v.num | none => false
    if t.cur.isSome ∧ 2 ≤ t.old.length then d
    else
      let t' := { t with
        cur := if drop then none else t.staged, staged := none,
        old := if bound then t.cur.toList ++ t.old else t.old }
      let d := setTbl d n t'
      let d := if t.cur.isSome ∧ !bound then raise d Fd.TXT_EVT_version_freed else d
      finish d ring f.id stOK (match t'.cur with | some v => v.num | none => 0)

/-- `TABLE_SWAP` (R243, R244). -/
def execTableSwap (ring : Nat) (s : State) : Host.Outcome State Fault Refusal :=
  lift (fun d => dispatchGated d ring 0x31 (fun d f => tableSwap d ring f)) s

/-! ### Gathering (R245 to R248) -/

/-- The bags of a `GATHER_POOL`: lengths and indices. -/
def bagsOf : List Nat → List Nat → List (List Nat)
  | [], _ => []
  | n :: ns, is => is.take n :: bagsOf ns (is.drop n)

/-- An operation met a tile that failed twice in a table version (R239). -/
def tableDamaged (d : Dev) (n : Nat) (v : TVer) : Dev × Nat :=
  let d := setTbl d n (updVer (tblOf d n) v.num (fun y => { y with damaged := true }))
  report d {
    cls := clsIntegrity, unit := 9, action := 3, object := v.name, client := some (tblOf d n).client, status := stIntegrity }

/-- An operation binds a version that is damaged (R239). -/
def damagedReport (d : Dev) (n : Nat) (v : TVer) : Dev × Nat :=
  report d {
    cls := clsIntegrity, unit := 9, action := 1, object := v.name, client := some (tblOf d n).client, status := stIntegrity }

/-- `GATHER_POOL` from its second group of checks on. -/
def gatherPool (d : Dev) (ring : Nat) (f : Flight) (indices : List Byte) (xs : List Incident) : Dev :=
  let x := f.desc
  let n := dSel x % 64
  let c := sqClient d ring
  if tblForeign d n c then finish d ring f.id stSecurity 0
  else match (tblOf d n).cur with
  | none => conflictFree d ring f.id
  | some v =>
    if v.damaged then
      let r := damagedReport d n v
      finish r.1 ring f.id stIntegrity r.2
    else if db x 56 4 < 4 * v.dim * db x 60 2 then finish d ring f.id stBoundExceeded 56
    else
      let d := dispatched d ring f.id
      let d := countChecks d xs Fd.TXT_CRC_CNT_transient Fd.TXT_CRC_CNT_lasting Fd.TXT_EVT_crc_transient Fd.TXT_EVT_crc_lasting
      let d := suffer d xs
      if (lastingTile xs).isSome then
        let r := tableDamaged d n v
        finish r.1 ring f.id stIntegrity r.2
      else
        let nb := db x 60 2
        let lens := (List.range nb).map (fun i => leAt f.list (4 * i) 4)
        let bags := bagsOf lens ((List.range (sumN lens)).map (fun i => leAt indices (4 * i) 4))
        let vals := bags.map (bagValid v)
        let out := vals.map (fun b => (poolBag v (bitOf (db x 62 1) 0) b.1).v)
        let invalid := sumN (vals.map (fun b => b.2.1))
        let missing := sumN (vals.map (fun b => b.2.2))
        let d := hostWrite d ring (db x 48 8) (out.flatMap (fun p => p.flatMap (fun e => leBytes 4 e.toNat)))
        let d := fbump (fbump d Fd.TXT_TBL_CNT_invalid invalid n) Fd.TXT_TBL_CNT_missing missing n
        let d := raiseMany (raiseMany d Fd.TXT_EVT_row_invalid invalid) Fd.TXT_EVT_row_missing missing
        let d := raiseMany d Fd.TXT_EVT_count_split (sumN (vals.map (fun b =>
          sumN ((segmentsBy b.1.length b.1).map (fun s => (s.dedup.filter (fun i => decide (2 ^ 24 < s.count i))).length)))))
        let d := updAcct d c (fun a => { a with dropped := a.dropped + invalid + missing })
        let segs := vals.flatMap (fun b => segmentsBy b.1.length b.1)
        let d := segs.foldl (fun d s => ladleCharge d c v s.dedup.length s.length s.dedup) d
        finish d ring f.id stOK (sat32 (invalid + missing))

/-- `GATHER_POOL` (R245 to R248). -/
def execGatherPool (ring : Nat) (indices : List Byte) (incidents : List Incident) (s : State) :
    Host.Outcome State Fault Refusal :=
  lift (fun d => dispatchGated d ring 0x32 (fun d f => gatherPool d ring f indices incidents)) s

/-! ### The colander (R261 to R265) -/

/-- `CONSTRAINT_LOAD` from its second group of checks on. -/
def constraintLoad (d : Dev) (ring : Nat) (f : Flight) (list : List Byte) : Dev :=
  let x := f.desc
  let n := dSel x % 256
  let c := sqClient d ring
  let t := colOf d n
  let drop := bitOf (db x 42 1) 0
  let bound : Bool := match t.cur with | some v => colBound d n v.num | none => false
  if t.cur.isSome ∧ t.client ≠ c then finish d ring f.id stSecurity 0
  else
    let displaced := fun (d : Dev) => if t.cur.isSome ∧ !bound then raise d Fd.TXT_OUT_EVT_colander_freed else d
    let old := if bound then t.cur.toList ++ t.old else t.old
    if drop then
      if t.cur.isSome ∧ 2 ≤ t.old.length then d
      else finish (displaced (setCol d n { t with cur := none, old := old })) ring f.id stOK 0
    else match colParse (db x 40 2) (list.take (db x 36 4)) with
    | none => finish d ring f.id stInvalidField 36
    | some seqs =>
      if seqs.length ≠ db x 40 2 ∨ colConflict seqs then finish d ring f.id stInvalidField 36
      else
        let states := colStates seqs
        if 65536 < states then finish d ring f.id stNoFit states
        else if t.cur.isSome ∧ 2 ≤ t.old.length then d
        else
          let d1 := setCol d n { t with client := c, cur := none, old := old }
          match lackT1 d1 c (576 * states) with
          | some (true, _) => finish d ring f.id stQuota 0
          | some (false, _) => let (v, d) := freshBelow d (2 ^ 32); finish d ring f.id stNoFit v
          | none =>
            if heldT1 d (576 * states) then d else
            let num := nextVersion t.last
            let d := setCol d1 n { client := c, cur := some { num := num, seqs := seqs, states := states }, old := old, last := num }
            finish (displaced d) ring f.id stOK num

/-- `CONSTRAINT_LOAD` (R261 to R265). -/
def execConstraintLoad (ring : Nat) (list : List Byte) (s : State) : Host.Outcome State Fault Refusal :=
  lift (fun d => dispatchGated d ring 0x78 (fun d f => constraintLoad d ring f list)) s

/-! ### Output settings (R267, R268) -/

/-- The settings a `STOP_SET` carries. -/
def outCfgOf (f : Flight) : OutCfg :=
  let x := f.desc
  { stops := (List.range (db x 36 1)).map (fun i =>
      let e := (f.list.drop (72 * i)).take 72
      (e.drop 8).take (leAt e 0 1)),
    inclusive := bitOf (db x 37 1) 0, colander := bitOf (db x 37 1) 1, table := db x 38 1,
    temperature := BitVec.ofNat 32 (db x 40 4), topK := db x 44 2, topP := BitVec.ofNat 32 (db x 48 4) }

/-- `STOP_SET` (R267, R268): staged, and in effect at once if no work of the session is in flight. -/
def execStopSet (ring : Nat) (s : State) : Host.Outcome State Fault Refusal :=
  lift (fun d => dispatchGated d ring 0x79 (fun d f =>
    let cfg := outCfgOf f
    let t := colOf d cfg.table
    withSess d ring f (sessCheck d (dSel f.desc) false false (fun r _ =>
        r.state == .active || r.state == .paused || r.state == .parked)) (fun i =>
      if cfg.colander ∧ t.cur.isSome ∧ t.client ≠ sqClient d ring then finish d ring f.id stSecurity 0
      else if cfg.colander ∧ t.cur.isNone then conflictFree d ring f.id
      else
        let d := updRec d i (fun r => { r with out := { r.out with staged := some cfg } })
        finish (if (sessWork d i).isSome then d else applyStaged d i) ring f.id stOK 0))) s

end Sys2Proof.Machine
end

