-- ==== Sys2Proof/Machine/Recipe.lean ====
section
/-!
DEFINITION. Sys2Proof/Machine/Recipe.lean: the recipe container, the mise check and the recipe slots (05 R135 to R154; 16
R439, R440, R442; 13 R384).
-/

namespace Sys2Proof.Machine

/-! ### The configuration digest (R384) -/

/-- The distinct recipes that are LOADED or STRANDED, by identifier and version: identifier, version, digest. -/
def configRecipes (d : Dev) : List (Nat × Nat × BitVec 256) :=
  let rs := ((vals d.fab.rcp).filter rcpServes).map (fun r => (r.recipeId, r.version, r.digest))
  sortBy (fun (a b : Nat × Nat × BitVec 256) => decide (a.1 < b.1) || (a.1 == b.1 && decide (a.2.1 < b.2.1))) rs.dedup

/-- The entries of the recipes in a canonical configuration: 48 bytes each. -/
def recipeList (rs : List (Nat × Nat × BitVec 256)) : List Byte :=
  rs.flatMap (fun r => fields [(r.1, 8), (r.2.1, 4), (0, 4)] ++ b256 r.2.2)

/-- The canonical configuration. -/
def configBytes (d : Dev) : List Byte :=
  let rs := configRecipes d
  fields [(1, 2), (fget d Fd.MAP_CFG_compat, 2), (fget d Fd.MAP_DOM_domain, 8), (d.map.domEpoch, 4)]
    ++ b256 d.sys.fwRunningMeas ++ fields [(fget d Fd.CKP_CFG_ckpt_fold, 1), (0, 3), (rs.length, 2), (0, 10)]
    ++ recipeList rs

/-- Recompute the configuration digest (R384). -/
def redigest (d : Dev) : Dev := { d with map := { d.map with digest := Config.shake256 (configBytes d) } }

/-! ### Reading a container (R143 to R146) -/

/-- Bytes of the signature that ends a container (R147). -/
def sigBytes : Nat := 14824

/-- The fields of a container. -/
structure Ctr where
  magic : Nat
  format : Nat
  entries : Nat
  id : Nat
  version : Nat
  objects : Nat
  footprint : Nat
  stateClass : Nat
  staticSize : Nat
  codeWords : Nat
  codeOff : Nat
  constOff : Nat
  constSize : Nat
  keyOff : Nat
  total : Nat
  bytes : List Byte
  deriving DecidableEq, Repr

def readCtr (c : List Byte) : Ctr where
  magic := leAt c 0 4
  format := leAt c 4 2
  entries := leAt c 6 1
  id := leAt c 8 8
  version := leAt c 16 4
  objects := leAt c 20 2
  footprint := leAt c 22 2
  stateClass := leAt c 24 8
  staticSize := leAt c 32 4
  codeWords := leAt c 36 4
  codeOff := leAt c 40 4
  constOff := leAt c 44 4
  constSize := leAt c 48 4
  keyOff := leAt c 52 4
  total := leAt c 56 4
  bytes := c

/-- The model parameter block (R144). -/
def ctrModel (c : Ctr) : Model where
  layers := leAt c.bytes 64 2
  qHeads := leAt c.bytes 66 2
  kvHeads := leAt c.bytes 68 1
  d := match leAt c.bytes 69 1 with | 0 => 64 | 1 => 128 | _ => 256
  kvFormat := leAt c.bytes 70 1
  takes := leAt c.bytes 71 1
  treeNodes := leAt c.bytes 72 1
  age3 := leAt c.bytes 74 2
  age2 := leAt c.bytes 76 2
  hidden := leAt c.bytes 78 2

/-- Entry `i` of the entry table (R145), with its reserved bytes. -/
def ctrEntry (c : Ctr) (i : Nat) : REntry × Nat :=
  let o := 128 + 16 * i
  ({ kind := leAt c.bytes o 1, team := leAt c.bytes (o + 2) 2, first := leAt c.bytes (o + 4) 4, words := leAt c.bytes (o + 8) 4,
     work := leAt c.bytes (o + 12) 2 }, leAt c.bytes (o + 1) 1 + leAt c.bytes (o + 14) 2)

def ctrEntries (c : Ctr) : List (REntry × Nat) := (List.range c.entries).map (ctrEntry c)

/-- An object table entry (R146). -/
structure ObjEnt where
  number : Nat
  kind : Nat
  flags : Nat
  offset : Nat
  size : Nat
  image : Nat
  reserved : Nat
  deriving DecidableEq, Repr

def ctrObj (c : Ctr) (i : Nat) : ObjEnt :=
  let o := 128 + 16 * c.entries + 32 * i
  { number := leAt c.bytes o 2, kind := leAt c.bytes (o + 2) 1, flags := leAt c.bytes (o + 3) 1, offset := leAt c.bytes (o + 8) 8,
    size := leAt c.bytes (o + 16) 4, image := leAt c.bytes (o + 20) 4,
    reserved := leAt c.bytes (o + 4) 4 + leAt c.bytes (o + 24) 8 }

def ctrObjs (c : Ctr) : List ObjEnt := (List.range c.objects).map (ctrObj c)

/-- A code word. -/
def ctrWord (c : Ctr) (i : Nat) : Nat := leAt c.bytes (c.codeOff + 8 * i) 8

/-! ### The mise check (R153) -/

/-- A refusal as the refusal record shows it (R154). -/
structure Refuse where
  reason : Nat
  sect : Nat
  entry : Nat := 0xFFFF
  place : Nat := 0xFFFFFFFF
  needed : Nat := 0
  available : Nat := 0
  deriving DecidableEq, Repr

/-- Do two ranges overlap? -/
def overlap (a b : Nat × Nat) : Bool := a.1 < b.1 + b.2 && b.1 < a.1 + a.2 && a.2 != 0 && b.2 != 0

/-- Does any pair of a list of ranges overlap? -/
def anyOverlap : List (Nat × Nat) → Bool
  | [] => false
  | a :: t => t.any (overlap a) || anyOverlap t

/-- The sections of a container: start and size. -/
def ctrSections (c : Ctr) : List (Nat × Nat) :=
  [(0, 128), (128, 16 * c.entries), (128 + 16 * c.entries, 32 * c.objects), (c.codeOff, 8 * c.codeWords), (c.constOff, c.constSize)]
    ++ (if c.keyOff = 0 then [] else [(c.keyOff, 16 + 1624 * leAt c.bytes (c.keyOff + 6) 2)])
    ++ [(c.total - sigBytes, sigBytes)]

/-- FORMAT (0x01). -/
def chkFormat (c : Ctr) (length : Nat) : List Refuse :=
  if c.magic ≠ 0x45504352 ∨ c.format ≠ 1 ∨ c.total ≠ length ∨ leAt c.bytes 7 1 ≠ 0 ∨ leAt c.bytes 60 4 ≠ 0 then [⟨1, 0, 0xFFFF, 0xFFFFFFFF, 0, 0⟩]
  else if leAt c.bytes 73 1 ≠ 0 ∨ (((c.bytes.drop 80).take 48).any (fun b => b != 0)) then [⟨1, 1, 0xFFFF, 0xFFFFFFFF, 0, 0⟩]
  else []

/-- SECTION (0x02): the first section out of place, with its end and the container's length; for the other causes the container's length
stands in both fields, which is the MODEL's choice (log entry 77). -/
def chkSection (c : Ctr) : List Refuse :=
  let out := (ctrSections c).find? (fun s => c.total < s.1 + s.2)
  match out with
  | some s => [⟨2, 0, 0xFFFF, 0xFFFFFFFF, s.1 + s.2, c.total⟩]
  | none =>
    if c.total < sigBytes ∨ anyOverlap (ctrSections c) ∨ c.entries = 0 ∨ 16 < c.entries ∨ 4096 < c.objects ∨ 48 < c.footprint
        ∨ c.codeOff % 8 ≠ 0 ∨ c.staticSize % 64 ≠ 0
        ∨ (c.keyOff ≠ 0 ∧ !(1 ≤ leAt c.bytes (c.keyOff + 6) 2 && leAt c.bytes (c.keyOff + 6) 2 ≤ 4096)) then
      [⟨2, 0, 0xFFFF, 0xFFFFFFFF, c.total, c.total⟩]
    else []

/-- ENTRY_SET (0x03). -/
def chkEntrySet (c : Ctr) : List Refuse :=
  let es := ctrEntries c
  let kinds := es.map (fun e => e.1.kind)
  let bad := es.findIdx? (fun e => e.2 != 0 || !(1 ≤ e.1.kind && e.1.kind ≤ 5) || !(1 ≤ e.1.team && e.1.team ≤ 144)
    || !(1 ≤ e.1.work && e.1.work ≤ 255) || e.1.words == 0 || decide (c.codeWords < e.1.first + e.1.words))
  match bad with
  | some i => [⟨3, 2, i, 0xFFFFFFFF, 0, 0⟩]
  | none =>
    if !kinds.contains 1 ∨ !kinds.contains 2 ∨ !kinds.contains 3 ∨ !decide kinds.Nodup
        ∨ anyOverlap (es.map (fun e => (e.1.first, e.1.words))) then [⟨3, 2, 0xFFFF, 0xFFFFFFFF, 0, 0⟩]
    else []

/-- Bytes that an object's image takes: encrypted ones carry their tag (R440). -/
def imageSize (o : ObjEnt) : Nat := o.size + (if bitOf o.flags 0 then 16 else 0)

/-- OBJECT_LAYOUT (0x04): the first object out of place. Non-zero reserved bytes or flags [7:1], and an encrypted object in a container
without keys, are refused here too, for which the reason table names no reason: the MODEL's choice (log entry 77). -/
def chkObjects (c : Ctr) : List Refuse :=
  let os := ctrObjs c
  let room := fun (o : ObjEnt) => if o.kind = 1 then c.footprint * 2 ^ 22 else c.staticSize
  let bad := os.zipIdx.find? (fun (o, i) =>
    !(o.kind == 1 || o.kind == 2) || 4096 ≤ o.number || (os.take i).any (fun p => p.number == o.number)
      || o.offset % 64 != 0 || o.size == 0 || o.size % 64 != 0 || o.reserved != 0 || 1 < o.flags
      || (bitOf o.flags 0 && c.keyOff == 0)
      || room o < o.offset + o.size || c.constSize < o.image + imageSize o
      || (os.take i).any (fun p => p.kind == o.kind && overlap (p.offset, p.size) (o.offset, o.size)))
  match bad with
  | some (o, _) => [⟨4, 3, 0xFFFF, o.number, o.offset + o.size, room o⟩]
  | none => []

/-- Is a word well formed in class, op, field values and reserved bits (R140, R141)? -/
def wordOk (w : Nat) : Bool :=
  let op := bitsOf w 54 6
  let z := fun (lo n : Nat) => bitsOf w lo n == 0
  match bitsOf w 60 4 with
  | 0 => match op with
    | 0 | 3 => z 0 51
    | 1 => z 16 35
    | 2 => z 22 29
    | _ => false
  | 1 => op ≤ 0xB && z 48 3 && z 32 3 && ((op != 9 && op != 0xA) || bitsOf w 44 4 ≤ 3) && (op != 0xB || bitsOf w 0 32 ≤ 15)
  | 2 => op ≤ 1 && bitsOf w 48 3 ≤ 5 && (z 48 3 || z 28 12) && !z 16 12 && z 0 16
  | 3 => op == 0 && bitsOf w 48 3 ≤ 4 && !z 27 8 && z 0 24
  | 4 => op ≤ 6 && z 48 3 && z 28 1 && z 0 27
  | 5 => op ≤ 1 && z 48 3 && z 28 1 && z 0 27
  | 6 => op ≤ 2 && z 8 43 && (op == 1 || z 0 8)
  | 7 => op ≤ 1 && z 48 3 && !z 20 12 && z 0 20
  | _ => false

/-- Is a word a `br`, a `loop`, a `halt`? -/
def isOp (w cls op : Nat) : Bool := bitsOf w 60 4 == cls && bitsOf w 54 6 == op

/-- The loops of an entry: word, end, level. -/
def loopsOf (c : Ctr) (e : REntry) : List (Nat × Nat × Nat) :=
  ((List.range e.words).map (fun k => e.first + k)).filterMap (fun i =>
    let w := ctrWord c i
    if isOp w 0 2 then some (i, bitsOf w 0 16, bitsOf w 16 2) else none)

/-- Is the level of a loop wrong, or does its body overlap another's without nesting (R142)? An outermost loop has level 0, which is the
MODEL's choice (log entry 77). -/
def loopBad (ls : List (Nat × Nat × Nat)) (l : Nat × Nat × Nat) : Bool :=
  let outer := ls.filter (fun o => o.1 < l.1 && l.1 ≤ o.2.1)
  l.2.2 != outer.length || outer.any (fun o => o.2.1 < l.2.1)

/-- The refusals of one word of an entry, in the order of the reasons. -/
def chkWord (c : Ctr) (objs : List ObjEnt) (ls : List (Nat × Nat × Nat)) (e : REntry) (idx i : Nat) : List Refuse :=
  let w := ctrWord c i
  let at' := fun (r : Nat) => (⟨r, 4, idx, i, 0, 0⟩ : Refuse)
  let last := e.first + e.words
  let outside := fun (t : Nat) => t < e.first || last ≤ t
  let target := bitsOf w 0 16
  (if wordOk w then [] else [at' 0x10])
    ++ (if (isOp w 0 1 || isOp w 0 2) && (target ≤ i || outside target) then [at' 0x11] else [])
    ++ (match ls.find? (fun l => l.1 == i) with | some l => if loopBad ls l then [at' 0x12] else [] | none => [])
    ++ (if i + 1 == last && !isOp w 0 3 && !(isOp w 0 1 && bitsOf w 51 3 == 0) then [at' 0x13] else [])
    ++ (if (isOp w 2 0 || isOp w 2 1) && bitsOf w 48 3 == 0 && !(objs.any (fun o => o.number == bitsOf w 28 12 && o.kind == 1)) then
        [at' 0x14] else [])
    ++ (if (isOp w 1 9 || isOp w 1 0xA) && bitsOf w 44 4 == 0 then [at' 0x15] else [])

/-- The code checks (0x10 to 0x15) over every entry and word. -/
def chkCode (c : Ctr) : List Refuse :=
  let objs := ctrObjs c
  (ctrEntries c).zipIdx.flatMap (fun (e, idx) =>
    let ls := loopsOf c e.1
    (List.range e.1.words).flatMap (fun k => chkWord c objs ls e.1 idx (e.1.first + k)))

/-- A limit of the model block: a refusal with the value as what is needed and the upper limit as what is available, which is the
MODEL's reading of the table's one word 'Limit' (log entry 77). -/
def limitOf (reason value lo hi : Nat) : List Refuse :=
  if lo ≤ value ∧ value ≤ hi then [] else [⟨reason, 1, 0xFFFF, 0xFFFFFFFF, value, hi⟩]

/-- The model checks (0x20 to 0x23). -/
def chkModel (c : Ctr) : List Refuse :=
  let m := ctrModel c
  limitOf 0x20 m.layers 1 256 ++ limitOf 0x20 m.qHeads 1 256
    ++ (if 1 ≤ m.kvHeads ∧ m.kvHeads ≤ 64 ∧ m.qHeads % m.kvHeads ≠ 0 then [⟨0x20, 1, 0xFFFF, 0xFFFFFFFF, m.kvHeads, 64⟩]
      else limitOf 0x20 m.kvHeads 1 64)
    ++ limitOf 0x20 (leAt c.bytes 69 1) 0 2 ++ limitOf 0x20 m.hidden 1 128
    ++ (if 1 ≤ m.kvFormat ∧ m.kvFormat ≤ 4 then [] else [⟨0x21, 1, 0xFFFF, 0xFFFFFFFF, 0, 0⟩])
    ++ (if m.age2 ≠ 0 ∧ m.age3 ≠ 0 ∧ m.age2 ≤ m.age3 then [⟨0x22, 1, 0xFFFF, 0xFFFFFFFF, 0, 0⟩] else [])
    ++ limitOf 0x23 m.takes 0 8
    ++ (if m.takes = 0 ∧ m.treeNodes ≠ 1 then [⟨0x23, 1, 0xFFFF, 0xFFFFFFFF, m.treeNodes, 1⟩] else limitOf 0x23 m.treeNodes 1 64)

/-- Recipes that a slice holds. -/
def sliceRecipes (d : Dev) (s : Nat) : List RSlot := (vals d.fab.rcp).filter (fun r => r.slice == s && r.state != .empty)

/-- Whole pantry banks of a slice that no recipe holds (R368: run-time pages are moved out of those that a footprint takes). -/
def freeBanks (d : Dev) (s : Nat) : List Nat := (mget d.fab.slice {} s).banks.filter (fun b => (poolBanks d).contains b)

/-- Static bytes and code words that the recipes of a slice hold. -/
def sliceStatic (d : Dev) (s : Nat) : Nat := sumN ((sliceRecipes d s).map (fun r => r.staticSize))
def sliceCode (d : Dev) (s : Nat) : Nat := sumN ((sliceRecipes d s).map (fun r => r.code.length))

/-- The fit checks (0x30 to 0x33). -/
def chkFit (d : Dev) (c : Ctr) (s : Nat) : List Refuse :=
  let es := (ctrEntries c).map (fun e => e.1)
  let arrays := (sliceArrays d s).length
  let banks := (freeBanks d s).length
  let work := (es ++ (sliceRecipes d s).flatMap (fun r => r.entries)).foldl (fun m e => max m (4096 * e.work)) 0
  let store := sliceStatic d s + c.staticSize + work
  let code := sliceCode d s + c.codeWords
  es.zipIdx.filterMap (fun (e, i) => if arrays < e.team then some ⟨0x30, 2, i, 0xFFFFFFFF, e.team, arrays⟩ else none)
    ++ (if banks < c.footprint then [⟨0x31, 0, 0xFFFF, 0xFFFFFFFF, c.footprint, banks⟩] else [])
    ++ (if 2 ^ 20 < store then [⟨0x32, 0, 0xFFFF, 0xFFFFFFFF, store, 2 ^ 20⟩] else [])
    ++ (if 32768 < code then [⟨0x33, 0, 0xFFFF, 0xFFFFFFFF, code, 32768⟩] else [])

/-- The whole mise check: the structure group stops at its first refusal. -/
def mise (d : Dev) (c : Ctr) (length s : Nat) : List Refuse :=
  match [chkFormat c length, chkSection c, chkEntrySet c, chkObjects c].find? (fun l => !l.isEmpty) with
  | some l => l
  | none => chkCode c ++ chkModel c ++ chkFit d c s

/-- The refusal record (R154), as much as its buffer takes. -/
def refusalRecord (d : Dev) (c : Ctr) (rs : List Refuse) (slot s bound : Nat) : List Byte :=
  let n := min (min rs.length 32) ((bound - 32) / 32)
  let format := rs.any (fun r => r.reason == 1)
  fields [(1, 2), (n, 2), (min rs.length 65535, 2), (s, 1), (slot, 1), (if format then 0 else c.id, 8),
    (if format then 0 else c.version, 4), ((sliceArrays d s).length, 2), ((freeBanks d s).length, 2),
    (2 ^ 20 - sliceStatic d s, 4), (32768 - sliceCode d s, 4)]
    ++ (rs.take n).flatMap (fun r => fields [(r.reason, 1), (r.sect, 1), (r.entry, 2), (r.place, 4), (r.needed, 8), (r.available, 8),
      (0, 8)])

/-! ### Weight keys (R439, R440) -/

/-- The weight key of a container for this device; none if no entry opens. -/
def unwrapKey (d : Dev) (c : Ctr) : Option (BitVec 256) :=
  let n := leAt c.bytes (c.keyOff + 6) 2
  let entry := fun (i : Nat) => (c.bytes.drop (c.keyOff + 16 + 1624 * i)).take 1624
  if leAt c.bytes c.keyOff 4 ≠ 0x594B5457 ∨ leAt c.bytes (c.keyOff + 4) 2 ≠ 1 ∨ n = 0 ∨ 4096 < n ∨ leAt c.bytes (c.keyOff + 8) 8 ≠ 0 then none
  else match ((List.range n).map entry).find? (fun e => leAt e 0 8 == d.sys.uid) with
  | none => none
  | some e =>
    let ss := Config.kemDecap modelSeeds ((e.drop 8).take 1568)
    let kek := Config.kmac256 ss (fields [(c.id, 8), (c.version, 4)]) (label "CYP-WEIGHT")
    (Config.gcmOpen kek (List.replicate 12 0) (leBytes 8 d.sys.uid) (e.drop 1576)).map (fun k => BitVec.ofNat 256 (ofLe k))

/-- An object with its plain contents; none if its tag fails. -/
def openObj (c : Ctr) (key : Option (BitVec 256)) (o : ObjEnt) : Option RObj :=
  let raw := (c.bytes.drop (c.constOff + o.image)).take (imageSize o)
  let mk := fun (bs : List Byte) => ({ number := o.number, kind := o.kind, offset := o.offset, size := o.size, data := bs } : RObj)
  if bitOf o.flags 0 then
    match key with
    | none => none
    | some k => (Config.gcmOpen k (fields [(o.number, 2), (0, 10)]) (fields [(c.id, 8), (c.version, 4), (o.number, 2)]) raw).map mk
  else some (mk raw)

/-- All of a list, or none. -/
def allSome {α : Type} : List (Option α) → Option (List α)
  | [] => some []
  | none :: _ => none
  | some a :: t => (allSome t).map (fun l => a :: l)

/-- Choose `n` of a list freely. -/
def pickFrom : Nat → List Nat → Dev → List Nat × Dev
  | 0, _, d => ([], d)
  | n + 1, l, d =>
    let (k, d) := freshBelow d l.length
    let x := l.getD k 0
    let (r, d) := pickFrom n (l.erase x) d
    (x :: r, d)

/-! ### The commands -/

/-- Slot states as results show them. -/
def RcpState.code : RcpState → Nat
  | .empty => 0
  | .loading => 1
  | .loaded => 2
  | .stranded => 3
  | .unloading => 4

/-- The 64 bytes of a publisher key entry (R448): root, then PUB_SEED. -/
def publisherBytes (d : Dev) (e : Nat) : List Byte :=
  (List.range 8).flatMap (fun k =>
    leBytes 8 (fget d ⟨Fd.SEC_PUB_KEY0_key.off + 8 * k, Fd.SEC_PUB_KEY0_key.lo, Fd.SEC_PUB_KEY0_key.width, 0⟩ e))

/-- The number of a publisher key: the 64 bytes of its entry (R448). -/
def publisherKey (d : Dev) (e : Nat) : Nat :=
  2 ^ 600 + ofLe (publisherBytes d e)

/-- Does a container verify under a valid publisher key (R449)? -/
def recipeVerifies (d : Dev) (container : List Byte) : Bool :=
  (List.range 16).any (fun e => fbit d Fd.SEC_PUB_CFG_valid e && Config.xmssVerify (publisherKey d e) container)

/-- `RECIPE_LOAD` from its second group of checks on (R149 to R154). -/
def recipeLoad (d : Dev) (ring : Nat) (f : Flight) (container : List Byte) : Dev :=
  let x := f.desc
  let n := dSel x % 64
  let s := db x 52 1
  let r := rcpOf d n
  if r.state ≠ .empty ∨ (sliceArrays d s).isEmpty then finish d ring f.id stStateConflict r.state.code
  else if !recipeVerifies d container then finish (raise d Fd.SEC_EVT_sig_failed) ring f.id stSecurity 0
  else
    let c := readCtr container
    let rs := mise d c (db x 32 4) s
    if !rs.isEmpty then
      let d := hostWrite d ring (db x 40 8) (refusalRecord d c rs n s (db x 48 4))
      finish d ring f.id stNoFit ((rs.headD ⟨0, 0, 0, 0, 0, 0⟩).reason + 256 * min rs.length 255)
    else
      let key := if c.keyOff = 0 then none else unwrapKey d c
      if c.keyOff ≠ 0 ∧ key.isNone then finish (raise d Fd.SEC_EVT_unwrap_failed) ring f.id stSecurity 0
      else match allSome ((ctrObjs c).map (openObj c key)) with
      | none => finish d ring f.id stSecurity 0
      | some objs =>
        let d0 := d
        let (banks, d) := pickFrom c.footprint (freeBanks d s) d
        let gen := (r.gen + 1) % 256
        match vacate d banks with
        | none =>
          if erasing d 0 ∨ erasing d 1 then d0
          else
            let (v, d) := freshBelow d0 (2 ^ 16)
            finish d ring f.id stNoFit v
        | some d =>
        let d := publishMoved d
        if bankHeld d banks then d else
        let d := setRcp d n {
          state := .loaded, gen := gen, slice := s, banks := banks, recipeId := c.id, version := c.version,
          digest := Config.shake256 (container.take (container.length - sigBytes)), stateClass := c.stateClass,
          staticSize := c.staticSize, model := ctrModel c, entries := (ctrEntries c).map (fun e => e.1), objects := objs,
          code := (List.range c.codeWords).map (fun i => BitVec.ofNat 64 (ctrWord c i)) }
        let d := match key with
          | some k => { d with sec := { d.sec with weight := put d.sec.weight n k } }
          | none => d
        finish (redigest d) ring f.id stOK (n + 256 * gen)

/-- `RECIPE_LOAD`: only in stage READY (R95). -/
def execRecipeLoad (ring : Nat) (container : List Byte) (s : State) : Host.Outcome State Fault Refusal :=
  lift (fun d => dispatchGated d ring 0x70 (fun d f => recipeLoad d ring f container)) s

/-- Is a session record bound to a recipe handle (R152)? -/
def rcpBound (d : Dev) (n : Nat) : Nat :=
  let h := rcpHandle n (rcpOf d n)
  (d.ctx.recs.filter (fun (p : Nat × Rec) => p.2.recipe == h && p.2.state != .closed && p.2.state != .expired)).length

/-- Has an entry of the recipe in a slot been dispatched that has not halted yet? -/
def rcpRuns (d : Dev) (n : Nat) : Bool := d.fab.teams.any (fun t => rcpIndex (recOf d (slotOf d t.slot).rcd).recipe == n)

/-- A slot in UNLOADING whose entries have all halted is EMPTY again, and the command that unloads it completes (R152). -/
def unloadDone (d : Dev) (n : Nat) : Dev :=
  let r := rcpOf d n
  if r.state ≠ .unloading ∨ rcpRuns d n then d
  else
    let d := setRcp d n { gen := r.gen }
    let d := redigest { d with sec := { d.sec with weight := del d.sec.weight n } }
    match r.unloader with
    | some (ring, id) => finish d ring id stOK 0
    | none => d

/-- An entry has halted: recipes that wait for it to be unloaded are free (R152). -/
def unloadIdle (d : Dev) : Dev := (keys d.fab.rcp).foldl unloadDone d

/-- `RECIPE_UNLOAD` (R152): the slot is UNLOADING until every dispatched entry of the recipe has halted. -/
def execRecipeUnload (ring : Nat) (s : State) : Host.Outcome State Fault Refusal :=
  lift (fun d => dispatchGated d ring 0x71 (fun d f =>
    let n := dSel f.desc % 64
    let r := rcpOf d n
    if !rcpServes r ∨ rcpBound d n ≠ 0 then finish d ring f.id stStateConflict r.state.code
    else unloadDone (setRcp (dispatched d ring f.id) n { r with state := .unloading, unloader := some (ring, f.id) }) n)) s

end Sys2Proof.Machine
end

