-- ==== Sys2Proof/Machine/Lx.lean ====
section
/-!
DEFINITION. Sys2Proof/Machine/Lx.lean: the layer exchange (07 R209 to R213; 12 R358): data blocks out, frames in, retries;
the attention of one layer as its Q, K and V arrive (06 R170, R175 to R183; 04 R128).
-/

namespace Sys2Proof.Machine

/-! ### Work that ends early (R17, R174) -/

/-- The work of a slot. -/
def workOf (d : Dev) (s : Nat) : Option Work := (slotOf d s).work

def setWork (d : Dev) (s : Nat) (w : Work) : Dev := updSlot d s (fun x => { x with work := some w })

/-- The tile of a window failed lastingly, or an entry of the page table (R176): the session is damaged. -/
def tileFail (d : Dev) (s : Nat) (win : Option Nat) : Dev :=
  let d := updRec d (slotOf d s).rcd (fun r => hurtRec r win)
  failWork d s clsIntegrity 3 3 stIntegrity

/-- The faults of a step of the work in a slot are suffered; none if they ended the work. -/
def sufferWork (d : Dev) (s : Nat) (xs : List Incident) : Dev × Option Work :=
  let before := (workOf d s).map (fun w => (w.ring, w.flight, w.entry))
  let d := suffer d xs
  match workOf d s with
  | some w => if some (w.ring, w.flight, w.entry) = before then (d, some w) else (d, none)
  | none => (d, none)

/-! ### Teams (R135, R136, R157, R414) -/

/-- The entry of a kind that a recipe has. -/
def entryOf (rc : RSlot) (kind : Nat) : Option REntry := rc.entries.find? (fun e => e.kind == kind)

/-- Can the slice form the team of an entry (R157), and is the recipe's footprint whole (R303)? -/
def teamFits (d : Dev) (rc : RSlot) (kind : Nat) : Bool :=
  match entryOf rc kind with
  | some e => !rc.bankLost && decide (e.team ≤ (sliceArrays d rc.slice).length)
  | none => false

/-- The source unit of an entry that cannot run: the pantry whose bank has gone (R303), else the arrays (R157). -/
def teamUnit (rc : RSlot) : Nat := if rc.bankLost then 5 else 2

/-- An entry of the recipe waits for its team (R414, R415), in its operation's place. -/
def queueTeam (d : Dev) (s kind : Nat) : Dev :=
  let r := recOf d (slotOf d s).rcd
  let rc := rcpFor d r
  let size := match entryOf rc kind with | some e => e.team | none => 1
  let d := vtJoin d (r.cls == 0) r.client
  let n := match (slotOf d s).work with | some w => w.disp | none => 0
  { d with fab := { d.fab with teams := d.fab.teams ++ [{
      slot := s, kind := kind, slice := rc.slice, client := r.client, lc := r.cls == 0, size := size, order := n }] } }

/-- Does any MAC word of an entry take A4 activations (R141; log entry 15)? -/
def entryA4 (rc : RSlot) (kind : Nat) : Bool :=
  match entryOf rc kind with
  | some e => ((rc.code.drop e.first).take e.words).any (fun w => bitsOf w.toNat 60 4 == 3 && bitOf w.toNat 47)
  | none => false

/-! ### Data blocks (R209, R210) -/

/-- Elements of a hidden row, and of the queries of a row. -/
def hiddenOf (m : Model) : Nat := 64 * m.hidden
def queryOf (m : Model) : Nat := m.qHeads * m.d

/-- Head rows of the work: the trailing rows whose final hidden state is wanted. -/
def headRows (w : Work) : Nat :=
  match w.kind with
  | .prefill => b2n w.sample
  | _ => w.rows.length

/-- The position table of some rows. -/
def posTable (rows : List WRow) : List Byte := rows.flatMap (fun r => leBytes 4 r.pos)

/-- Cut a block into frames and send them to a layer engine (R209). -/
def sendBlock (d : Dev) (s typ layer rows hr attempt engine : Nat) (data : List Byte) : Dev :=
  let ps := pieces 65536 data
  ps.zipIdx.foldl (fun d p =>
    sendFrame d 1 0x10 engine none
      (lxHeader d s typ layer rows hr data.length (65536 * p.2) (p.2 + 1 == ps.length) attempt p.1 ++ p.1)) d

/-- Send a block of a layer, choosing the engine (R358): without one the work ends. -/
def sendLayer (d : Dev) (s typ layer hr attempt : Nat) (data : List Byte) : Dev :=
  match workOf d s with
  | none => d
  | some w =>
    match engineFor d (rcpFor d (recOf d (slotOf d s).rcd)).recipeId s layer attempt with
    | none => unitFail d s 11
    | some e =>
      let d := setWork d s { w with
        engine := e, attempt := attempt, sentAt := frame d, rx := [], sent := (typ, hr, data) }
      sendBlock d s typ layer w.rows.length hr attempt e data

/-- What the work waits for (R211): type, layer and size of the block. -/
def awaited (m : Model) (w : Work) : Option (Nat × Nat × Nat) :=
  let n := w.rows.length
  let heads := m.qHeads + 2 * m.kvHeads
  match w.phase with
  | .qkv => some (2, w.layer, n * (4 + 4 * hiddenOf m + heads * m.d + 4 * heads))
  | .hid => some (4, m.layers, headRows w * (4 + 4 * hiddenOf m))
  | .dO => some (6, w.layer, n * (4 + 4 * queryOf m + 4 * hiddenOf m))
  | .dH => some (8, w.layer, n * (4 + 4 * hiddenOf m))
  | _ => none

/-- The slot and the work that a received frame belongs to (R211); `typ` is the type of its row. -/
def lxFor (d : Dev) (f : LxFrame) (typ : Nat) : Option (Nat × Work) :=
  let s := f.exchange % 4096
  let sl := slotOf d s
  match sl.work with
  | none => none
  | some w =>
    let r := recOf d sl.rcd
    match awaited (modelFor d r) w with
    | none => none
    | some (t, layer, size) =>
      let size := if typ = 10 then 0 else size
      if f.typ = typ ∧ (typ = t ∨ typ = 10) ∧ f.exchange / 4096 = sl.placed ∧ f.stepSeq = r.stepSeq ∧ f.layer = layer
          ∧ f.attempt = w.attempt ∧ f.offset + f.length ≤ f.total ∧ f.total = size ∧ f.crc = crc32c f.payload
          ∧ f.payload.length = f.length ∧ (1 ≤ f.length ∨ typ = 10) ∧ f.length ≤ 65536
      then some (s, w) else none

/-- The data block that some byte ranges cover in full, by rising offset. -/
def covered (total : Nat) (rx : List (Nat × List Byte)) : Option (List Byte) :=
  let data := (sortBy (fun (a b : Nat × List Byte) => decide (a.1 < b.1)) rx).foldl (fun (acc : List Byte) p =>
    if p.1 ≤ acc.length then acc ++ p.2.drop (acc.length - p.1) else acc) []
  if data.length = total then some data else none

/-- Drop and count a frame (R211). -/
def lxDropped (d : Dev) : Dev := fbump d Fd.CTX_CNT_lx_dropped

/-- A frame arrives: dropped, kept, or the last of its block, which then goes on with `go`. -/
def lxArrive (d : Dev) (f : LxFrame) (typ : Nat) (go : Dev → Nat → List Byte → Dev) : Dev :=
  match lxFor d f typ with
  | none => lxDropped d
  | some (s, w) =>
    let rx := w.rx ++ [(f.offset, f.payload)]
    match covered f.total rx with
    | none => setWork d s { w with rx := rx }
    | some data => go (setWork d s { w with rx := [] }) s data

/-- A layer is sent once more, to the engine of attempt 1; a second failure ends the work (R212). -/
def lxAgain (d : Dev) (s : Nat) : Dev :=
  match workOf d s with
  | none => d
  | some w =>
    if w.attempt = 0 then
      let m := modelFor d (recOf d (slotOf d s).rcd)
      sendLayer (raise d Fd.CTX_EVT_lx_retry) s w.sent.1 (sentLayer m w) w.sent.2.1 1 w.sent.2.2
    else unitFail (raise d Fd.CTX_EVT_lx_failed) s 4

/-- `LX_REFUSE` (R210, R212): the engine cannot serve the layer. -/
def execLxRefuse (frame : LxFrame) (s : State) : Host.Outcome State Fault Refusal :=
  lift (fun d => match lxFor d frame 10 with
    | none => lxDropped d
    | some (n, _) => lxAgain d n) s

/-- The layer exchange of a context has had no answer in time (R212). -/
def lxOverdue (d : Dev) (slot : Nat) : Dev :=
  match workOf d slot with
    | none => d
    | some w =>
      if (awaited (modelFor d (recOf d (slotOf d slot).rcd)) w).isNone
          ∨ frame d < w.sentAt + max 1 (fget d Fd.CTX_LX_TIMEOUT_frames) then d
      else lxAgain d slot

/-- `LX_TIMEOUT` (R212): `CTX_LX_TIMEOUT` frames have passed since the last frame sent; 0 is read as 1. -/
def execLxTimeout (slot : Nat) (s : State) : Host.Outcome State Fault Refusal := lift (fun d => lxOverdue d slot) s

/-! ### Reading a QKV block (R210, R213) -/

/-- One head row: zero if its scale is not finite or negative (R213). -/
def readHead (d : Nat) (codes scale : List Byte) : HeadRow × Bool :=
  let c : F32 := BitVec.ofNat 32 (ofLe scale)
  if nonFinite c ∨ fixOf c < 0 then (⟨List.replicate d 0, 0⟩, true) else (⟨codes, c⟩, false)

/-- The head rows of one row of the block: those of Q, K and V in order. -/
def qkvRow (m : Model) (n : Nat) (data : List Byte) (i : Nat) : List (HeadRow × Bool) :=
  let heads := m.qHeads + 2 * m.kvHeads
  let codes := n * (4 + 4 * hiddenOf m)
  let scales := codes + n * heads * m.d
  (List.range heads).map (fun h =>
    readHead m.d ((data.drop (codes + (i * heads + h) * m.d)).take m.d) ((data.drop (scales + 4 * (i * heads + h))).take 4))

/-- Query rows of a row, and what it puts into the stage. -/
def rowQuery (m : Model) (l : List (HeadRow × Bool)) : List HeadRow := (l.take m.qHeads).map Prod.fst
def rowKv (m : Model) (l : List (HeadRow × Bool)) : KVRow :=
  { k := ((l.drop m.qHeads).take m.kvHeads).map Prod.fst, v := ((l.drop (m.qHeads + m.kvHeads)).take m.kvHeads).map Prod.fst }

/-! ### Counting (R128, R180, R420) -/

/-- A precision event of the work in a slot (R128). -/
def precEvent (d : Dev) (s layer win : Nat) : Dev :=
  let d := precAt d (slotOf d s).rcd layer win
  match workOf d s with
  | some w => setWork d s { w with prec := true }
  | none => d

/-- Underflows of rows are added up (R180). -/
def addUnderflow (d : Dev) (s n : Nat) : Dev :=
  let i := (slotOf d s).rcd
  let d := fbump d Fd.ATN_UFL_CNT_row_underflow n
  let d := updAcct d (recOf d i).client (fun a => { a with underflow := a.underflow + n })
  let d := updRec d i (fun r => { r with underflow := r.underflow + n })
  match workOf d s with
  | some w => setWork d s { w with underflow := w.underflow + n }
  | none => d

/-- Tiles in use of a page of a session that layer `l` reads, else 0: every tile of a block page holds an equal share of its
blocks, and a page of A8 rows is read whole (log entry 18). -/
def layerTiles (m : Model) (r : Rec) (l key : Nat) : Nat :=
  let i := pageIndex key
  if pageKind key = 1 then
    let sf := max 1 (pagesFold m m.kvFormat)
    if i / sf % max 1 m.layers ≠ l then 0
    else match (r.kv.getD l {}).folded[i / sf / max 1 m.layers]? with
      | none => 0
      | some w => ceilDiv (min (blocksPerPage w.fmt) (w.blocks.length - blocksPerPage w.fmt * (i % sf))) (blocksPerPage w.fmt / 8)
  else if pageKind key = 2 then
    let sa := max 1 (pagesA8 m)
    -- the retained copy is read for recomputes only
    if i / sa % max 1 m.layers = l ∧ areaKind r.freshSel (i / sa / max 1 m.layers) ≠ 2 then 8 else 0
  else 0

/-- What the tiles of a layer leave behind (R127, R128, R180): recomputes, whose array time is unattributed (R419), precision events by
window, and underflows. -/
def noteLayer (d : Dev) (s layer recomputes : Nat) (events : List Nat) (und : Nat) : Dev :=
  let d := events.foldl (fun d win => precEvent d s layer win) d
  let d := if recomputes = 0 then d else
    let (n, d) := freshBelow d (2 ^ 32)
    chargeCycles d unattributed n
  addUnderflow (fbump d Fd.ARR_PREC_CNT_recompute recomputes) s und

/-- Charge the tiles that a layer's attention reads, where the generation bound places them (R165): once for each group of 64 query rows
of a KV head (R183, R420). -/
def chargeTiles (d : Dev) (s : Nat) (g : BitVec 32) (l rows : Nat) : Dev :=
  let r := recOf d (slotOf d s).rcd
  let m := modelFor d r
  let groups := ceilDiv (rows * (m.qHeads / max 1 m.kvHeads)) 64
  r.pages.foldl (fun d (p : Nat × Loc) =>
    let n := layerTiles m r l p.1
    match slotAt g (mget r.table {} p.1) with
    | some e => if n = 0 then d else chargeTier d r.client e.loc.tier (4096 * n * groups)
    | none => d) d

/-! ### One layer (R170, R175 to R183) -/

/-- What the rows of the work see in layer `l`, with the rows just staged. -/
def histOf (r : Rec) (m : Model) (w : Work) (l : Nat) (stage : List KVRow) : Hist :=
  let lk := r.kv.getD l {}
  let lk := match w.kind, w.tuning[l]? with
    | .tune, some t => { lk with masters := t.masters, tuning := t.tuning }
    | _, _ => lk
  { m := m, lk := lk, base := if w.kind = .tune then w.spanFirst else r.len, stage := stage,
    tree := w.kind == .step && decide (1 < w.rows.length), replay := w.kind == .tune }

/-- The attention entry of a kind of work (R135). -/
def attnKind (k : WKind) : Nat := match k with | .step => 1 | _ => 2

/-- The Q, K and V of a layer have arrived: the attention runs, and its output goes out; after the last layer the work waits
for its final hidden states, or is ready to commit (R206, R209). -/
def qkvLayer (d : Dev) (s : Nat) (data : List Byte) : Dev :=
  match workOf d s with
  | none => d
  | some w =>
    let r := recOf d (slotOf d s).rcd
    let m := modelFor d r
    let rc := rcpFor d r
    let n := w.rows.length
    let l := w.layer
    if !teamFits d rc (attnKind w.kind) then unitFail d s (teamUnit rc) else
    let rows := (List.range n).map (qkvRow m n data)
    let stage := rows.map (rowKv m)
    let qs := rows.map (rowQuery m)
    let out := attnLayer (entryA4 rc (attnKind w.kind)) (histOf r m w l stage) w.rows qs
    let resid := (data.drop (4 * n)).take (4 * n * hiddenOf m)
    let save : TuneSave := {
      resid := pieces (max 1 (hiddenOf m)) (f32s resid), q := qs, o := out.o, m := out.m, l := out.l }
    let last := m.layers ≤ l + 1
    let hr := if last then headRows w else 0
    let w := { w with
      stage := w.stage ++ [stage], save := if w.kind = .tune then w.save ++ [save] else w.save,
      layer := if last then l else l + 1, phase := if !last then .qkv else if hr = 0 then .ready else .hid }
    let d := setWork d s w
    let bad := (rows.zip w.rows).flatMap (fun p => (p.1.filter (fun h => h.2)).map (fun _ => p.2.pos / 256))
    let d := noteLayer d s l out.recomputes (bad ++ out.events) out.und
    let (cycles, d) := freshBelow d (2 ^ 32)
    let d := vtCharge (chargeTiles d s w.bound l n) (r.cls == 0) r.client cycles
    sendLayer d s 3 l hr 0 (posTable w.rows ++ resid ++ f32Bytes out.o.flatten)

/-- The faults that come about while the work of a slot computes a layer (R130, R176, R303, R306); if the work lives on, it goes on. -/
def underFaults (d : Dev) (n : Nat) (incidents : List Incident) (go : Dev → Dev) : Dev :=
  let d := countChecks d incidents Fd.ATN_CRC_CNT_transient Fd.ATN_CRC_CNT_lasting Fd.ATN_EVT_crc_transient Fd.ATN_EVT_crc_lasting
  match sufferWork d n incidents with
  | (d, none) => d
  | (d, some _) => match lastingTile incidents with
    | some win => tileFail d n (some win)
    | none => go d

/-- `QKV` (R210, R211, R213): a frame of a layer's Q, K and V; the last one starts the attention of the layer, in which the
faults given may come about. -/
def execQkv (frame : LxFrame) (incidents : List Incident) (s : State) : Host.Outcome State Fault Refusal :=
  lift (fun d => lxArrive d frame 2 (fun d n data => underFaults d n incidents (fun d => qkvLayer d n data))) s

/-- `HID` (R210, R255): the final hidden states; the HEADS entry waits for its team. -/
def execHid (frame : LxFrame) (s : State) : Host.Outcome State Fault Refusal :=
  lift (fun d => lxArrive d frame 4 (fun d n data =>
    match workOf d n with
    | none => d
    | some w =>
      let m := modelFor d (recOf d (slotOf d n).rcd)
      let rows := pieces (max 1 (hiddenOf m)) (f32s (data.drop (4 * headRows w)))
      queueTeam (setWork d n { w with hid := rows, phase := .heads }) n 3)) s

end Sys2Proof.Machine
end

