-- ==== Sys2Proof/Machine/Tune.lean ====
section
/-!
DEFINITION. Sys2Proof/Machine/Tune.lean: the backward pass of session tuning (06 R184, R186, R187; 07 R210): the gradients of
one layer, the frames that carry them, and the update of the tuning window.
-/

namespace Sys2Proof.Machine

/-! ### One unit for one query row (R186) -/

/-- What a unit gives to a row: its part of dQ, and by column the quantised ds and p with their scales. -/
structure BackUnit where
  dq : List F32
  ds : List Int × F32
  p : List Int × F32
  deriving DecidableEq, Repr

/-- dP of a column: dO against the column of V, dimensions ascending; a block gives one element to each dimension. -/
def backDp (a8 : Bool) (u : KUnit) (d h j : Nat) (dOq : List Int × F32) : W F32 :=
  if !a8 then
    (List.range d).foldl (fun (y : W F32) x => y.bind fun y => macBlk y [dOq.1.getD x 0] dOq.2 (unitBlk u d 1 h x) j 1) (W.pure 0)
  else match u.rows.getD j none with
    | none => W.pure 0
    | some r => macA8 0 dOq.1 dOq.2 (int8s (kvHead r.v h).codes) (kvHead r.v h).scale

/-- The dP tile `t` of a unit; masked columns are zero. -/
def dpTile (a8 : Bool) (u : KUnit) (d h : Nat) (dOq : List Int × F32) (seen : List Bool) (t : Nat) : W (List F32) :=
  W.mapM (fun j => if seen.getD j false then backDp a8 u d h j dOq else W.pure 0) ((List.range 64).map (fun c => 64 * t + c))

/-- dQ of a dimension: ds against the K of the unit, positions ascending. Each position of an A8 unit enters with its own row scale, and
its product is rounded by itself, which is the MODEL's choice (log entry 77). -/
def backDq (a8 : Bool) (u : KUnit) (d h x : Nat) (y : F32) (ds : List Int × F32) : W F32 :=
  if !a8 then
    let per := 256 / d
    (List.range d).foldl (fun (y : W F32) b => y.bind fun y =>
      macAt y ((ds.1.drop (per * b)).take per) ds.2 (unitBlk u d 0 h b) ((List.range per).map (fun k => k * d + x))) (W.pure y)
  else
    u.rows.zipIdx.foldl (fun (y : W F32) (e : Option KVRow × Nat) => y.bind fun y => match e.1 with
      | none => W.pure y
      | some r => macA8 y [ds.1.getD e.2 0] ds.2 [((kvHead r.k h).codes.getD x 0).toInt] (kvHead r.k h).scale) (W.pure y)

/-- The dQ tile `t` of a unit: its products are added to what the units before gave. -/
def dqTile (a8 : Bool) (u : KUnit) (d h : Nat) (dq : List F32) (ds : List Int × F32) (t : Nat) : W (List F32) :=
  W.mapM (fun x => backDq a8 u d h x (dq.getD x 0) ds) ((List.range 64).map (fun c => 64 * t + c))

/-- Of one column: p, and ds from its score and dP (R186). -/
def backEdge (d : Nat) (m l dd s dp : F32) : W (F32 × F32) :=
  (fAdd s (fNeg m)).bind fun e => (fExp2 e).bind fun a => (fRcp l).bind fun il => (fMul a il).bind fun p =>
    (fAdd dp (fNeg dd)).bind fun g => (fMul p g).bind fun pg => (fMul pg (softK d)).map fun ds => (p, ds)

/-- A result with the underflows and the flagged tiles of what gave it. -/
structure Tiled (α : Type) where
  v : α
  und : Nat
  hits : List Hit
  deriving DecidableEq, Repr

/-- One unit of the backward pass for one query row of KV head `h` (R186): scores as the replay computed them, from an A8 copy where a
block flags (R128). -/
def backUnit (d h : Nat) (q : HeadRow) (m l dd : F32) (dOq : List Int × F32) (dq : List F32) (x : KUnit × List Bool) : Tiled BackUnit :=
  let u := x.1
  let a8 := !u.inBlocks
  let sc := unitScores d h q u x.2
  let dps := (List.range u.tiles).map (fun t => guarded u (8 + t) (dpTile a8 u d h dOq x.2 t) (fun _ => dpTile true u d h dOq x.2 t))
  let ed := (sc.zip dps).zipIdx.map (fun (z : ((W (List F32) × List Hit) × (W (List F32) × List Hit)) × Nat) =>
    W.mapM (fun (e : (F32 × F32) × Nat) =>
      if x.2.getD (64 * z.2 + e.2) false then backEdge d m l dd e.1.1 e.1.2 else W.pure (0, 0)) ((z.1.1.1.v.zip z.1.2.1.v).zipIdx))
  let cols := ed.flatMap (fun r => r.v)
  let ds := encodeA8 (cols.map Prod.snd)
  let p := encodeA8 (cols.map Prod.fst)
  let dqs := (List.range (d / 64)).map (fun t => guarded u (16 + t) (dqTile a8 u d h dq ds.v t) (fun _ => dqTile true u d h dq ds.v t))
  { v := { dq := dqs.flatMap (fun r => r.1.v), ds := ds.v, p := p.v },
    und := outsUnd sc + outsUnd dps + tilesUnd ed + ds.und + p.und + outsUnd dqs,
    hits := outsHits sc ++ outsHits dps ++ tileHits u ed ++ edgeHit u (u.tiles - 1) ds ++ edgeHit u (u.tiles - 1) p ++ outsHits dqs }

/-- dd of a row: rsum over dimensions of dO times o, in tiles of 64 dimensions (R142, R186). -/
def backDd (dO o : List F32) : W F32 :=
  (W.mapM (fun (p : F32 × F32) => fMul p.1 p.2) (dO.zip o)).bind fun l =>
    (W.mapM rsum (pieces 64 l)).bind fun ts => W.foldl fAdd (ts.headD 0) (ts.drop 1)

/-! ### A layer -/

/-- The K or V gradient of one column gains a row's product: codes of ds or p times the row's codes (R186). -/
def backCol (y : List F32) (c : Int) (sc : F32) (row : List Int) (sr : F32) : W (List F32) :=
  W.mapM (fun (e : F32 × Int) => macA8 e.1 [c] sc [e.2] sr) (y.zip row)

/-- Gradients of a layer: dQ by row and query head; dK and dV of the stage rows and of the tuning window, by row and KV
head; underflows, recomputes and events (R127, R128). -/
structure BackOut where
  dq : List (List (List F32))
  stage : List Master
  tuning : List Master
  und : Nat
  recomputes : Nat
  events : List Nat
  deriving DecidableEq, Repr

/-- Masters of zeros. -/
def zeroMaster (m : Model) : Master :=
  { k := List.replicate m.kvHeads (List.replicate m.d 0), v := List.replicate m.kvHeads (List.replicate m.d 0) }

/-- Gradients so far: of the stage rows and of the tuning window. -/
structure Grads where
  stage : List Master
  tuning : List Master
  und : Nat := 0
  hits : List Hit := []
  deriving DecidableEq, Repr

/-- The gradients of column `k` of the stage or the tuning window gain a row's products. dO stands on the weight side of its product
and is taken in its A8 encoding, which is the MODEL's choice (log entry 77). -/
def growCol (h : Nat) (q : HeadRow) (dOq : List Int × F32) (u : KUnit) (b : BackUnit) (j : Nat) (g : Master) : Tiled Master :=
  let dk := backCol (g.k.getD h []) (b.ds.1.getD j 0) b.ds.2 (int8s q.codes) q.scale
  let dv := backCol (g.v.getD h []) (b.p.1.getD j 0) b.p.2 dOq.1 dOq.2
  { v := { k := g.k.set h dk.v, v := g.v.set h dv.v }, und := dk.und + dv.und, hits := edgeHit u (24 + j / 64) dk ++ edgeHit u (28 + j / 64) dv }

/-- A unit's columns add to the gradients they belong to: those of the tuning window, or of the stage. -/
def backAdd (base : Nat) (h : Nat) (q : HeadRow) (dOq : List Int × F32) (acc : Grads) (x : KUnit × List Bool) (b : BackUnit) : Grads :=
  let u := x.1
  if u.inBlocks then acc
  else (List.range 256).foldl (fun (a : Grads) j =>
    if !(x.2.getD j false) then a
    else if u.key = 0 then match a.tuning[j]? with
      | none => a
      | some g =>
        let r := growCol h q dOq u b j g
        { a with tuning := a.tuning.set j r.v, und := a.und + r.und, hits := a.hits ++ r.hits }
    else
      let k := 256 * u.win + j - base
      match (if 256 * u.win + j < base then none else a.stage[k]?) with
      | none => a
      | some g =>
        let r := growCol h q dOq u b j g
        { a with stage := a.stage.set k r.v, und := a.und + r.und, hits := a.hits ++ r.hits }) acc

/-- The row of dO itself, and dd, are no tile of a unit: their flags lead to an event of the row's own window (R116; log entry 80). -/
def rowHits {α : Type} (pos tile : Nat) (v : W α) : List Hit :=
  if v.flagged then [⟨2 ^ 41, tile, pos / 256, false, true⟩] else []

/-- One query row and head of the backward pass (R186): units in ascending order. -/
def backRow (x : Hist) (us : List (KUnit × List Bool)) (h pos : Nat) (q : HeadRow) (m l : F32) (o dr : List F32) (g : Grads) :
    Tiled (List F32 × Grads) :=
  let dd := backDd dr o
  let dOq := encodeA8 dr
  let r := us.foldl (fun (b : (List F32 × Grads) × Nat × List Hit) u =>
    let bu := backUnit x.m.d h q m l dd.v dOq.v b.1.1 u
    ((bu.v.dq, backAdd x.base h q dOq.v b.1.2 u bu.v), b.2.1 + bu.und, b.2.2 ++ bu.hits)) ((List.replicate x.m.d 0, g), 0, [])
  { v := r.1, und := r.2.1 + dd.und + dOq.und, hits := r.2.2 ++ rowHits pos 0 dd ++ rowHits pos 1 dOq }

/-- The backward pass of one layer (R186): rows in ascending order. -/
def backLayer (x : Hist) (rows : List WRow) (sv : TuneSave) (dO : List (List F32)) : BackOut :=
  let m := x.m
  let start : Grads := { stage := List.replicate rows.length (zeroMaster m), tuning := List.replicate x.lk.tuning.length (zeroMaster m) }
  let r := (List.range rows.length).foldl (fun (acc : List (List (List F32)) × Grads × Nat × List ((Nat × Nat) × Hit)) i =>
    let us := rowUnits x rows i
    let row := (List.range m.qHeads).foldl (fun (a : List (List F32) × Grads × Nat × List ((Nat × Nat) × Hit)) h =>
      let k := i * m.qHeads + h
      let part := fun (l : List F32) => (l.drop (h * m.d)).take m.d
      let b := backRow x us (h / groupSize m) (rows.getD i ⟨0, 0, 0, 0⟩).pos (kvHead (sv.q.getD i []) h) (sv.m.getD k 0) (sv.l.getD k 0)
        (part (sv.o.getD i [])) (part (dO.getD i [])) { a.2.1 with hits := [] }
      (a.1 ++ [b.v.1], b.v.2, a.2.2.1 + b.und, a.2.2.2 ++ (b.hits ++ b.v.2.hits).map (fun t => (rowGroup m i h, t)))) ([], acc.2)
    (acc.1 ++ [row.1], row.2)) ([], start, 0, [])
  let t := tally r.2.2.2
  { dq := r.1, stage := r.2.1.stage, tuning := r.2.1.tuning, und := r.2.1.und + r.2.2.1, recomputes := t.1, events := t.2 }

/-! ### Frames of the backward pass (R210) -/

/-- Send BWD for a layer with the gradient at its output; the layer's attention output is computed again under the saved maxima and
sums (R186). -/
def sendBwd (d : Dev) (s l : Nat) (grad : List (List F32)) : Dev :=
  match workOf d s with
  | none => d
  | some w =>
    let r := recOf d (slotOf d s).rcd
    let m := modelFor d r
    let again := layerAgain (entryA4 (rcpFor d r) 2) (histOf r m w l (w.stage.getD l [])) w.rows (w.save.getD l {})
    let sv := { w.save.getD l {} with o := again.o }
    let d := setWork d s { w with layer := l, phase := .dO, save := w.save.set l sv }
    let d := noteLayer d s l again.recomputes again.events again.und
    sendLayer d s 5 l 0 0 (posTable w.rows ++ f32Bytes sv.resid.flatten ++ f32Bytes sv.o.flatten ++ f32Bytes grad.flatten)

/-- The gradient of the attention output has arrived (R186, R210): dQ, dK and dV go out. -/
def gradOLayer (d : Dev) (n : Nat) (data : List Byte) : Dev :=
  match workOf d n with
    | none => d
    | some w =>
      let r := recOf d (slotOf d n).rcd
      let m := modelFor d r
      let rows := w.rows.length
      if !teamFits d (rcpFor d r) 4 then unitFail d n (teamUnit (rcpFor d r)) else
      let dO := pieces (max 1 (queryOf m)) (f32s ((data.drop (4 * rows)).take (4 * rows * queryOf m)))
      let bypass := data.drop (4 * rows + 4 * rows * queryOf m)
      let b := backLayer (histOf r m w w.layer (w.stage.getD w.layer [])) w.rows (w.save.getD w.layer {}) dO
      let grads := (List.range rows).flatMap (fun i =>
        let g := b.stage.getD i (zeroMaster m)
        (b.dq.getD i []).flatten ++ g.k.flatten ++ g.v.flatten)
      let d := setWork d n { w with phase := .dH, tuneGrad := b.tuning :: w.tuneGrad }
      let d := noteLayer d n w.layer b.recomputes b.events b.und
      let (cycles, d) := freshBelow d (2 ^ 32)
      let d := vtCharge d (r.cls == 0) r.client cycles
      sendLayer d n 7 w.layer 0 0 (posTable w.rows ++ f32Bytes (w.save.getD w.layer {}).resid.flatten ++ bypass ++ f32Bytes grads)

/-- `DO`: the layer's backward pass runs, in which the faults given may come about. -/
def execGradO (frame : LxFrame) (incidents : List Incident) (s : State) : Host.Outcome State Fault Refusal :=
  lift (fun d => lxArrive d frame 6 (fun d n data => underFaults d n incidents (fun d => gradOLayer d n data))) s

/-- A master after the update (R186): `sub(master, mul(rate, g))`. -/
def tuneMaster (rate : F32) (a g : Master) : W Master :=
  let f := fun (x y : List F32) => W.mapM (fun (e : F32 × F32) => (fMul rate e.2).bind fun t => fSub e.1 t) (x.zip y)
  (W.mapM (fun (e : List F32 × List F32) => f e.1 e.2) (a.k.zip g.k)).bind fun k =>
    (W.mapM (fun (e : List F32 × List F32) => f e.1 e.2) (a.v.zip g.v)).map fun v => { k := k, v := v }

/-- The layers with updated masters, encoded again. -/
def tuneLayers (w : Work) : List (W LayerKV) :=
  w.tuning.zipIdx.map (fun (t, l) =>
    (W.mapM (fun (e : Master × Master) => tuneMaster w.rate e.1 e.2) (t.masters.zip (w.tuneGrad.getD l []))).bind (withMasters t))

/-- The update of the tuning window (R186, R187): flagged rows are events of each layer, whose window is numbered 0 (log entry 80). -/
def tuneUpdate (d : Dev) (n : Nat) (w : Work) : Dev :=
  let r := recOf d (slotOf d n).rcd
  let ls := tuneLayers w
  let d := ls.zipIdx.foldl (fun d (x : W LayerKV × Nat) => noteLayer d n x.2 0 (if x.1.flagged then [0] else []) x.1.und) d
  let d := joinEdit d (slotOf d n).rcd (.tune (ls.map (fun x => x.v)))
  let (cycles, d) := freshBelow d (2 ^ 32)
  endWork (vtCharge d (r.cls == 0) r.client cycles) n stOK w.loss.toNat 0 0

/-- The gradient at a layer's input has arrived: it goes to the layer below; after layer 0 the masters are updated and the new tuning
window is pending (R186, R187, R210). -/
def gradHLayer (d : Dev) (n : Nat) (data : List Byte) : Dev :=
  match workOf d n with
  | none => d
  | some w =>
    let r := recOf d (slotOf d n).rcd
    let m := modelFor d r
    let grad := pieces (max 1 (hiddenOf m)) (f32s (data.drop (4 * w.rows.length)))
    if w.layer ≠ 0 then sendBwd d n (w.layer - 1) grad
    else if !teamFits d (rcpFor d r) 5 then unitFail d n (teamUnit (rcpFor d r))
    else tuneUpdate d n w

/-- `DH`: the faults given may come about in what it starts. -/
def execGradH (frame : LxFrame) (incidents : List Incident) (s : State) : Host.Outcome State Fault Refusal :=
  lift (fun d => lxArrive d frame 8 (fun d n data => underFaults d n incidents (fun d => gradHLayer d n data))) s

end Sys2Proof.Machine
end

