-- ==== Sys2Proof/Machine/Steps.lean ====
section
/-!
DEFINITION. Sys2Proof/Machine/Steps.lean: dispatching steps, `PREFILL` and `TUNE_STEP` (07 R203 to R208; 06 R185, R189 to
R193; 09 R252, R254), and their commit point (01 R19; 06 R172; 09 R251 to R280).
-/

namespace Sys2Proof.Machine

/-! ### The second group of checks (R63, R203, R205, R412) -/

/-- A step-group command on a session: it waits for a pause, a park or dispatched work to end; a session that was closed meanwhile
(`seen` are those it has waited for) is a conflict of state. `ok` are the state checks of its opcode; the quota check is that of
R412. -/
def stepCheck (d : Dev) (seen : List Nat) (h : Nat) (ok : Nat → Rec → Bool) : Chk :=
  let i := h % 2 ^ 24
  let r := recOf d i
  let c := ctxStateOf d i
  if r.gen ≠ h / 2 ^ 24 ∧ seen.contains h then .fail stStateConflict 0
  else if r.gen = h / 2 ^ 24 ∧ (r.state = .paused ∨ (r.state = .active ∧ (c = .running ∨ c = .saved ∨ r.pausing.isSome ∨ r.parking.isSome)))
  then .waits
  else match sessCheck d h false false (fun r c => r.state == .active && c == .opened && ok i r) with
    | .ok i =>
      let rc := rcpFor d r
      if r.cls = 0 ∧ lcQuota d rc.slice r.client < maxTeam rc then .fail stQuota 0 else .ok i
    | c => c

/-- Carry a step-group command on after its check; what it waits for is noted (R203). -/
def withStep (d : Dev) (ring : Nat) (f : Flight) (h : Nat) (c : Chk) (go : Nat → Dev) : Dev :=
  if c = .waits then updFlight d ring f.id (fun f => { f with seen := if f.seen.contains h then f.seen else h :: f.seen })
  else withSess d ring f c go

/-- Is there a current order-1 table for the recipe of a session (R233)? -/
def hasBytes (d : Dev) (r : Rec) : Bool := (byteTables d r.recipe).any (fun t => t.1 == 1)

/-- Has the colander table that a session names a current version (R266)? -/
def colanderOk (d : Dev) (r : Rec) : Bool := !r.out.cfg.colander || (colOf d r.out.cfg.table).cur.isSome

/-- State checks of a step (R171, R192, R233, R252, R266). -/
def stepOk (d : Dev) (_ : Nat) (r : Rec) : Bool :=
  r.out.pending.isSome && r.rebuildTo.isNone && hasBytes d r && colanderOk d r && decide (r.len < 2 ^ 26)

/-- Rows that a `PREFILL` of `n` bytes runs: a pending symbol goes ahead of them (R252). -/
def prefillRows (r : Rec) (n : Nat) : Nat := n + b2n r.out.pending.isSome

/-- State checks of a `PREFILL` (R171, R233, R252, R266). -/
def prefillOk (d : Dev) (n : Nat) (sample : Bool) (_ : Nat) (r : Rec) : Bool :=
  hasBytes d r && (!sample || colanderOk d r) && decide (prefillRows r n ≤ 4096) && decide (r.len + prefillRows r n ≤ 2 ^ 26)

/-- Is there a tuning window? -/
def hasTuning (r : Rec) : Bool := r.kv.any (fun l => !l.masters.isEmpty)

/-- State checks of a `TUNE_STEP` (R185, R136). -/
def tuneOk (d : Dev) (x : Desc) (_ : Nat) (r : Rec) : Bool :=
  decide (dbits x 24 0 26 + db x 28 4 ≤ r.len) && decide (db x 52 2 ≤ r.len) && (bitOf (db x 54 1) 0 || hasTuning r)
    && (entryOf (rcpFor d r) 4).isSome && (entryOf (rcpFor d r) 5).isSome

/-! ### Set-up (R168, R170, R177, R189 to R191, R296, R408) -/

/-- The outcome of set-up. -/
inductive Setup where
  | ready (d : Dev)
  | waits (d : Dev)
  | fails (d : Dev) (st res : Nat)
  deriving DecidableEq, Repr

/-- Pages of a session in T4 that no move has taken up. -/
def flashPages (d : Dev) (i : Nat) : List Nat :=
  (((recOf d i).pages).filter (fun (p : Nat × Loc) => p.2.tier == 4)).map Prod.fst

/-- Pages in T4 are brought to T2 first (R177); those already on the way move up (R297). The result of a fetch that finds no room
in T2 is not stated: 0 for the quota (R62), else a free value. -/
def fetchFlash (d : Dev) (i : Nat) : Setup :=
  let r := recOf d i
  let ks := flashPages d i
  let moving := movingPages d (.session i)
  let new := ks.filter (fun k => !moving.contains k)
  if ks.isEmpty then .ready d
  else
    let d := promote d (.session i) (ks.filter (fun k => moving.contains k)) (queueOf .urgent (r.cls == 0))
    if new.isEmpty then .waits d
    else match alloc d r.client 2 new.length with
      | .ok fs d => .waits (startGroup d .urgent (.session i) 0 0 false (r.cls == 0) 2 new fs)
      | .quota _ => .fails d stQuota 0
      | .noFit _ => let (v, d) := freshBelow d (2 ^ 32); .fails d stNoFit v
      | .waits => .waits d

/-- Reserve the near memory that work writes (R189): room is made from the client's own sessions (R190, R191). -/
def reserve (d : Dev) (ring : Nat) (f : Flight) (i bytes : Nat) : Setup :=
  let lacking := fun (d : Dev) => match lackT1 d (recOf d i).client bytes with
    | some (sh, k) => Setup.fails (raise d Fd.ATN_EVT_no_fit) (lackStatus sh) k
    | none => if heldT1 d bytes then Setup.waits d else Setup.ready d
  if (lackT1 d (recOf d i).client bytes).isNone ∧ heldT1 d bytes then .waits d
  else match makeRoom d f.spared i bytes with
  | .ok d => .ready d
  | .lacks _ _ d => lacking d
  | .waits d2 => if spillWaitOver d f then lacking d else .waits (markWait d2 ring f.id)

/-- Everything that work waits for at set-up: an emergency slate, a controller in reset, a pending generation that it needs (R168),
and moves of pages that are written in place, which move up (R296, R297). -/
def setUp (d : Dev) (ring : Nat) (f : Flight) (i bytes : Nat) : Setup :=
  -- R103: the session needs the far memory controllers for its pages in T2
  let far := unitInReset d 8 && (recLocs (recOf d i)).any (fun l => l.tier == 2)
  if d.ckp.emergency ∨ far ∨ (recOf d i).edits.any Edit.needed then .waits d
  else if inPlaceMoving d i then
    .waits (promote d (.session i) ((movingPages d (.session i)).filter (fun k => inPlaceKind (pageKind k)))
      (queueOf .urgent ((recOf d i).cls == 0)))
  else match fetchFlash d i with
    | .ready d => reserve d ring f i bytes
    | x => x

/-! ### Dispatch (R165, R193, R207, R233, R237) -/

/-- Pages in T2 and T3 are asked back to T1 for a later step (R193). -/
def prefetch (d : Dev) (i : Nat) : Dev :=
  if (recOf d i).policy ≠ 0 then d else askMoves (updRec d i (fun r => { r with prefetchDue := true })) i

/-- Charge the rows that an embedding reads (R250, R420). -/
def embedCharge (d : Dev) (c : Nat) (ts : List (Nat × Nat × TVer)) (grams : List (List Nat)) : Dev :=
  ts.foldl (fun d t =>
    let is := runIdx t.1 (t.2.2.rowsM1 + 1) grams
    ladleCharge d c t.2.2 is.dedup.length is.length is.dedup) d

/-- Does every entry that a reader of the current generation uses say what its slot implies (R176)? -/
def tableGood (d : Dev) (r : Rec) : Bool :=
  ((keys r.pages).filter (fun k => pageKind k == 1 || pageKind k == 2)).all (fun k =>
    match slotAt r.ptGen (mget r.table {} k) with
    | some e => entryGood (modelFor d r) r k e
    | none => false)

/-- Work starts: the step sequence advances, versions are bound, the rows are embedded and EMB goes out (R207, R208). `grams` are
the symbols up to each row. A table check that fails twice names its table by its order (R239). -/
def startWork (d : Dev) (i : Nat) (w : Work) (grams : List (List Nat)) (xs : List Incident) : Dev :=
  let r := recOf d i
  let s := r.slot.getD 0
  let rc := rcpFor d r
  let ts := byteTables d r.recipe
  let w := { w with
    bound := r.ptGen, disp := d.fab.orders + 1, tables := ts.map (fun t => (t.1, t.2.1, t.2.2.num)),
    colander := if r.out.cfg.colander then (colOf d r.out.cfg.table).cur.map (fun v => (r.out.cfg.table, v.num)) else none }
  let d := setRec { d with fab := { d.fab with orders := d.fab.orders + 1 } } i { r with stepSeq := r.stepSeq + 1 }
  let d := updSlot d s (fun x => { x with state := .running, work := some w })
  let kinds := match w.kind with
    | .step => [1, 3]
    | .prefill => if w.sample then [2, 3] else [2]
    | .tune => [2, 3, 4, 5]
  if kinds.any (fun k => !teamFits d rc k) then unitFail d s (teamUnit rc) else
  let damaged := ts.find? (fun t => t.2.2.damaged)
  match damaged with
  | some t =>
    let p := damagedReport d t.2.1 t.2.2
    endWork p.1 s stIntegrity p.2 0 0
  | none =>
    if r.damaged then failWork d s clsIntegrity 3 1 stIntegrity
    else if !tableGood d r then tileFail (raise (fbump d Fd.ATN_CRC_CNT_lasting) Fd.ATN_EVT_crc_lasting) s none
    else
    let d := countChecks d xs Fd.TXT_CRC_CNT_transient Fd.TXT_CRC_CNT_lasting Fd.TXT_EVT_crc_transient Fd.TXT_EVT_crc_lasting
    match sufferWork d s xs with
    | (d, none) => d
    | (d, some w) => match lastingTile xs, ts with
      | some n, t0 :: _ =>
        let t := (ts.find? (fun t => t.1 == n)).getD t0
        let p := tableDamaged d t.2.1 t.2.2
        endWork p.1 s stIntegrity p.2 0 0
      | _, _ =>
        let rows := grams.map (fun g => (embedRow (ts.map (fun t => (t.1, t.2.2))) (hiddenOf rc.model) g).v)
        let d := embedCharge d r.client ts grams
        let d := prefetch d i
        sendLayer d s 1 0 0 0 (posTable w.rows ++ f32Bytes rows.flatten)

/-- The rows of a step (R171, R182, R254): the nodes that stand in the window of the committed length. -/
def treeRows (r : Rec) (takes : Nat) (single : Bool) : List WRow :=
  let root := (r.out.pending.getD 0, 0)
  let tree := if takes = 0 ∨ single ∨ r.out.tree.isEmpty then [root] else r.out.tree
  let last := r.len / 256 * 256 + 255
  -- rows so far, and for each node its row and position
  let go := fun (acc : List WRow × List (Option (Nat × Nat))) (e : (Nat × Nat) × Nat) =>
    let here : Option (Nat × Nat) := if e.2 = 0 then some (0, r.len)
      else match acc.2.getD e.1.2 none with
        | some (row, pos) => if pos + 1 ≤ last then some (row, pos + 1) else none
        | none => none
    match here with
    | none => (acc.1, acc.2 ++ [none])
    | some (parent, pos) =>
      (acc.1 ++ [{ sym := e.1.1, pos := pos, parent := parent, node := e.2 }], acc.2 ++ [some (acc.1.length, pos)])
  (tree.zipIdx.foldl go ([], [])).1

/-- Symbols from the root down to a row, by fuel (R235). -/
def pathOf (rows : List WRow) : Nat → Nat → List Nat
  | 0, i => [(rows.getD i ⟨0, 0, 0, 0⟩).sym]
  | n + 1, i =>
    let x := rows.getD i ⟨0, 0, 0, 0⟩
    if i = 0 then [x.sym] else pathOf rows n x.parent ++ [x.sym]

/-- The symbols up to each row (R234, R235): the carry, then those of the run. -/
def treeGrams (r : Rec) (rows : List WRow) : List (List Nat) :=
  (List.range rows.length).map (fun i => r.carry ++ pathOf rows rows.length i)

/-- The rows of a run of symbols from position `p`, and the symbols up to each. -/
def runRows (p : Nat) (syms : List Nat) : List WRow :=
  syms.zipIdx.map (fun (x, k) => { sym := x, pos := p + k, parent := k - 1, node := k })
def runGrams (carry syms : List Nat) : List (List Nat) := (List.range syms.length).map (fun k => carry ++ syms.take (k + 1))

/-! ### `STEP_SUBMIT` (R204, R205) -/

/-- Entries that neither run nor have ended. -/
def openEntries (f : Flight) : List (EntryRes × Nat) := f.entries.zipIdx.filter (fun e => !e.1.started && !e.1.finished)

/-- An entry ends without having run; the length and sequence are those of its session. -/
def entryFail (d : Dev) (ring : Nat) (f : Flight) (k st res : Nat) : Dev :=
  let h := (f.entries.getD k { handle := 0, single := false }).handle
  let r := recOf d (h % 2 ^ 24)
  let mine := r.gen = h / 2 ^ 24 ∧ r.state ≠ .closed
  entryEnd d ring f.id k st res 0 0 (if mine then r.len else 0) (if mine then r.stepSeq % 2 ^ 32 else 0)

/-- A flight whose entries have all started or ended is dispatched. -/
def batchGone (d : Dev) (ring id : Nat) : Dev :=
  updFlight d ring id (fun f => if f.phase = .waiting ∧ f.entries.all (fun e => e.started || e.finished) then
    { f with phase := .dispatched, ran := true } else f)

/-- Start one entry, once its checks have passed; answers whether it must wait. -/
def startEntry (d : Dev) (ring : Nat) (f : Flight) (k i : Nat) (single : Bool) (xs : List Incident) : Dev × Bool :=
  let r := recOf d i
  let m := modelFor d r
  let rows := treeRows r m.takes single
  match setUp d ring f i (stageBytes m rows.length + growBytes m r rows.length) with
  | .waits d => (d, true)
  | .fails d st res => (entryFail d ring f k st res, false)
  | .ready d =>
    let s := r.slot.getD 0
    let d := setStr d s { strOf d s with held := 6 }
    let d := updFlight d ring f.id (fun f => { f with
      ran := true, testedAt := none, entries := setAt f.entries k (fun e => { e with started := true }) })
    let w : Work := {
      kind := .step, ring := ring, flight := f.id, entry := k, bound := 0, rows := rows, sample := true,
      reserved := stageBytes m rows.length + growBytes m r rows.length }
    (startWork d i w (treeGrams r rows) xs, false)

/-- Start the entries of a batch in list order, until one must wait. Each fault given comes about in the entry it is given for. -/
def startEntries (ring : Nat) (f : Flight) (xs : List (Nat × Incident)) : List ((EntryRes × Nat) × Chk) → Dev → Dev
  | [], d => d
  | ((e, k), c) :: rest, d =>
    match c with
    | .fail st res => startEntries ring f xs rest (entryFail d ring f k st res)
    | .waits => d
    | .ok i =>
      let p := startEntry d ring f k i e.single ((xs.filter (fun x => x.1 == k)).map Prod.snd)
      if p.2 then p.1 else startEntries ring f xs rest p.1

/-- `STEP_SUBMIT` from its second group of checks on: an entry that must wait holds the descriptor (R203), and a batch waits
for the stream records of every entry that can run (R52). -/
def stepSubmit (d : Dev) (ring : Nat) (f : Flight) (xs : List (Nat × Incident)) : Dev :=
  let es := openEntries f
  match timeGate d f.desc with
  | some (st, res) => es.foldl (fun d e => entryFail d ring f e.2 st res) d
  | none =>
    let cs := es.map (fun e => (e, stepCheck d f.seen e.1.handle (stepOk d)))
    let held := (cs.filter (fun c => c.2 == .waits)).map (fun c => c.1.1.handle)
    if held ≠ [] then updFlight d ring f.id (fun f => { f with seen := (held ++ f.seen).dedup })
    else if cs.any (fun c => match c.2 with | .ok i => !strReady d ((recOf d i).slot.getD 0) | _ => false) then d
    else batchGone (startEntries ring f xs cs d) ring f.id

/-- `STEP_SUBMIT` (R204, R205). -/
def execStepSubmit (ring : Nat) (incidents : List (Nat × Incident)) (s : State) : Host.Outcome State Fault Refusal :=
  lift (fun d => dispatch d ring 0x10 (fun d f => stepSubmit d ring f incidents)) s

/-! ### `PREFILL` (R206, R252) -/

/-- `PREFILL` from its second group of checks on. -/
def prefill (d : Dev) (ring : Nat) (f : Flight) (input : List Byte) (xs : List Incident) : Dev :=
  let n := db f.desc 36 4
  let sample := bitOf (db f.desc 40 1) 0
  withStep d ring f (dSel f.desc) (stepCheck d f.seen (dSel f.desc) (prefillOk d n sample)) (fun i =>
    let r := recOf d i
    let m := modelFor d r
    let s := r.slot.getD 0
    let syms := r.out.pending.toList ++ (input.take n).map (fun b => b.toNat)
    let rows := runRows r.len syms
    if sample ∧ !strReady d s then d
    else match setUp d ring f i (stageBytes m rows.length + growBytes m r rows.length) with
    | .waits d => d
    | .fails d st res => finish d ring f.id st res
    | .ready d =>
      let d := dispatched d ring f.id
      let d := if sample then setStr d s { strOf d s with held := 6 } else d
      let w : Work := {
        kind := .prefill, ring := ring, flight := f.id, entry := 0, bound := 0, rows := rows, sample := sample,
        reserved := stageBytes m rows.length + growBytes m r rows.length }
      startWork d i w (runGrams r.carry syms) xs)

/-- `PREFILL` (R206). -/
def execPrefill (ring : Nat) (input : List Byte) (incidents : List Incident) (s : State) : Host.Outcome State Fault Refusal :=
  lift (fun d => dispatchGated d ring 0x11 (fun d f => prefill d ring f input incidents)) s

/-! ### `TUNE_STEP` (R185 to R187, R236) -/

/-- Bytes of a `TUNE_STEP`'s save area (R189, R210): residual rows, and the maximum and sum of each row and query head. -/
def saveBytes (m : Model) (n : Nat) : Nat := m.layers * n * (4 * hiddenOf m + 8 * m.qHeads)

/-- The layers with the tuning window that a `TUNE_STEP` trains (R184): created from the history with `init`. -/
def tuningFrom (m : Model) (r : Rec) (x : Desc) : List LayerKV :=
  if bitOf (db x 54 1) 0 then r.kv.map (fun l => (initTuning m (db x 52 2) l).v) else r.kv

/-- Layers with the tuning windows of others. -/
def withTuning (kv tuning : List LayerKV) : List LayerKV :=
  (kv.zip tuning).map (fun p => { p.1 with masters := p.2.masters, tuning := p.2.tuning })

/-- `TUNE_STEP` from its second group of checks on. Its span holds one byte more than it has rows: the target of the last. -/
def tuneStep (d : Dev) (ring : Nat) (f : Flight) (span : List Byte) (xs : List Incident) : Dev :=
  let x := f.desc
  withStep d ring f (dSel x) (stepCheck d f.seen (dSel x) (tuneOk d x)) (fun i =>
    let r := recOf d i
    let m := modelFor d r
    if (recOf d i).edits.any Edit.needed then d
    else if bitOf (db x 54 1) 1 then
      let (v, d) := freshBelow (dispatched d ring f.id) (2 ^ 32)
      let d := updRec d i (fun r => { r with stepSeq := r.stepSeq + 1 })
      boundary (finish (addEdit d i (.tune (r.kv.map (fun _ => {})))) ring f.id stOK v) i
    else
      let first := dbits x 24 0 26
      let syms := (span.take (db x 28 4)).map (fun b => b.toNat)
      let rows := runRows first syms
      let tuning := tuningFrom m r x
      let pages := (missingPages m { r with kv := withTuning r.kv tuning }).length
      let bytes := stageBytes m rows.length + saveBytes m rows.length + pageSize * pages
      match setUp d ring f i bytes with
      | .waits d => d
      | .fails d st res => finish d ring f.id st res
      | .ready d =>
        let w : Work := {
          kind := .tune, ring := ring, flight := f.id, entry := 0, bound := 0, rows := rows, reserved := bytes,
          rate := BitVec.ofNat 32 (db x 48 4), spanFirst := first,
          tuning := tuning.map (fun (l : LayerKV) => ({ masters := l.masters, tuning := l.tuning } : LayerKV)) }
        startWork (dispatched d ring f.id) i w (runGrams (carryOf (r.log.take first)) syms) xs)

/-- `TUNE_STEP` (R185). -/
def execTuneStep (ring : Nat) (span : List Byte) (incidents : List Incident) (s : State) : Host.Outcome State Fault Refusal :=
  lift (fun d => dispatchGated d ring 0x12 (fun d f => tuneStep d ring f span incidents)) s

/-! ### Waiting too long for victim moves (R191) -/

/-- A step has waited for spills as long as it may (R191). -/
def spillOver (d : Dev) (ring : Nat) : Dev :=
  match (sqOf d ring).flights.find? (fun f => f.phase == .waiting && spillWaitOver d f) with
  | none => d
  | some f =>
    let lack := fun (i bytes : Nat) => lackT1 d (recOf d i).client bytes
    let h := dSel f.desc % 2 ^ 24
    if dOp f.desc = 0x10 then
      match openEntries f with
      | [] => d
      | (e, k) :: _ =>
        let r := recOf d (e.handle % 2 ^ 24)
        let m := modelFor d r
        let n := (treeRows r m.takes e.single).length
        match lack (e.handle % 2 ^ 24) (stageBytes m n + growBytes m r n) with
        | none => d
        | some (sh, kib) =>
          let d := updFlight (raise d Fd.ATN_EVT_no_fit) ring f.id (fun f => { f with testedAt := none })
          batchGone (entryFail d ring f k (lackStatus sh) kib) ring f.id
    else if dOp f.desc = 0x11 then
      let r := recOf d h
      let n := prefillRows r (db f.desc 36 4)
      match lack h (stageBytes (modelFor d r) n + growBytes (modelFor d r) r n) with
      | none => d
      | some (sh, kib) => finish (raise d Fd.ATN_EVT_no_fit) ring f.id (lackStatus sh) kib
    else if dOp f.desc = 0x12 then
      let r := recOf d h
      let m := modelFor d r
      let tuned := tuningFrom m r f.desc
      match lack h (stageBytes m (db f.desc 28 4) + saveBytes m (db f.desc 28 4)
        + pageSize * (missingPages m { r with kv := withTuning r.kv tuned }).length) with
      | none => d
      | some (sh, kib) => finish (raise d Fd.ATN_EVT_no_fit) ring f.id (lackStatus sh) kib
    else if dOp f.desc = 0x04 then
      match lack h (pageSize * (bringPages (recOf d h) (db f.desc 24 1)).length) with
      | none => d
      | some (sh, kib) => finish d ring f.id (lackStatus sh) kib
    else d

/-- `SPILL_WAIT_TIMEOUT` (R191): `ATN_SPILL_WAIT` frames have passed; the command completes with what it lacks. -/
def execSpillWaitTimeout (ring : Nat) (s : State) : Host.Outcome State Fault Refusal := lift (fun d => spillOver d ring) s

/-! ### The commit point (R19, R172, R251 to R280) -/

/-- The output state as a `PREFILL` leaves it (R252, R266, R272): held bytes are released and wait, the colander starts afresh.
Answers the replacements too. -/
def prefillOut (o : OutSt) (raw : Bool) : OutSt × Nat :=
  let u := u8Flush (u8Pass raw { out := o.ready, held := o.utf8Held, replaced := 0 } o.stopHeld)
  ({ o with pending := none, tree := [], colStr := [], stopHeld := [], utf8Held := [], ready := u.out }, u.replaced)

/-- Rows of a work that are committed: those the verdict names, or all of a `PREFILL`. -/
def commitRows (w : Work) : List Nat :=
  match w.kind with
  | .step => w.verdict.rows
  | _ => List.range w.rows.length

/-- The K and V of the committed rows in a layer. -/
def rowsKv (stage : List KVRow) (rows : List Nat) : List KVRow := rows.filterMap (fun i => stage[i]?)

/-- The history, log and length of a session after an append (R172, R231, R232): rows go in place, and folds are pending; answers
whether a window is folded. -/
def appendKv (d : Dev) (s : Nat) (w : Work) : Dev × Bool :=
  let i := (slotOf d s).rcd
  let r := recOf d i
  let m := modelFor d r
  let rows := commitRows w
  let syms := rows.map (fun k => (w.rows.getD k ⟨0, 0, 0, 0⟩).sym)
  let parts := r.kv.zipIdx.map (fun (lk, l) => (lk, rowsKv (w.stage.getD l []) rows))
  let news := parts.map (fun p => appendRows m p.1 p.2)
  let layers := news.map Prod.fst
  let folds := decide ((layers.headD {}).folded.length ≠ (r.kv.headD {}).folded.length)
  let log := r.log ++ syms
  let len := r.len + rows.length
  let r2 := { r with
    log := log, carry := carryOf log, len := len,
    rebuildTo := match r.rebuildTo with | some t => if t ≤ len then none else some t | none => none }
  let d := setWork d s { w with reserved := 0 }
  let n := rows.length * m.layers * m.kvHeads * 2 * (m.d + 4)
  let area := if r.freshSel then 2 else 1
  let tier := match look r.pages (pageKey 2 (area * m.layers * pagesA8 m)) with | some l => l.tier | none => 1
  let d := chargeTier (chargeTier d r.client 1 n) r.client tier n
  let rows := fun (d : Dev) =>
    let d := updRec d i (fun r => { r with table := tableRows m r })
    news.zipIdx.foldl (fun d (n, l) => countEncoded d i l n.2.1 n.2.2) d
  if folds then
    let d := rows (setRec d i { r2 with kv := parts.map (fun p => appendInPlace p.1 p.2) })
    let p := newPages d (foldWrites m { r2 with kv := r.kv } layers)
    (joinEdit p.2 i (.fold layers p.1), true)
  else (rows (syncPages (setRec d i { r2 with kv := layers }) i), false)

/-- Count what the output path did (R256, R264, R271, R274, R281). -/
def countOutput (d : Dev) (c : Nat) (w : Work) (replaced : Nat) : Dev :=
  let run := if w.kind = .step then w.rows.length - 1 else 0
  let acc := if w.kind = .step then w.verdict.accepted else 0
  let stop := match w.verdict.ending with | some (1, _) => true | _ => false
  let d := fbump (fbump d Fd.TXT_OUT_CNT0_takes_run run) Fd.TXT_OUT_CNT0_takes_accepted acc
  let d := if stop then raise (fbump d Fd.TXT_OUT_CNT1_stops) Fd.TXT_OUT_EVT_stop_match else d
  let d := raiseMany (fbump d Fd.TXT_OUT_CNT1_utf8_replaced replaced) Fd.TXT_OUT_EVT_utf8_replaced replaced
  updAcct d c (fun a => { a with
    takesRun := a.takesRun + run, takesAcc := a.takesAcc + acc, stops := a.stops + b2n stop, replaced := a.replaced + replaced })

/-- The commit point (R19): positions first, then the stream records, then the result record and the completion. -/
def commitWork (d : Dev) (s : Nat) (w : Work) : Dev :=
  let i := (slotOf d s).rcd
  let r0 := recOf d i
  let (d, folds) := appendKv d s w
  let v := w.verdict
  let pre := prefillOut r0.out r0.raw
  let out := if w.kind = .prefill ∧ !w.sample then pre.1 else { v.out with staged := r0.out.staged, cfg := r0.out.cfg }
  let replaced := v.replaced + (if w.kind = .prefill then pre.2 else 0)
  let d := countOutput d r0.client w replaced
  let d := updRec d i (fun r => { r with
    out := { out with tree := v.tree }, strOff := r.strOff + v.bytes.length })
  let recs := if w.sample then stepRecords v.bytes v.ending r0.strOff r0.stepSeq else []
  let d := recs.foldl (fun d b => strPutHeld d s b) d
  let stopped := match v.ending with | some (1, _) => true | _ => false
  let clipped := decide ((recOf d i).precCount ≠ r0.precCount)
  let flags := b2n stopped + 2 * b2n (v.prints.contains 256) + 4 * b2n (w.prec || clipped) + 8 * b2n folds
  endWork d s stOK (if w.kind = .prefill ∧ !w.sample then (recOf d i).len else 0) flags v.bytes.length

/-- `STEP_COMMIT` (R19): the work of a slot whose heads are through, or a `PREFILL` whose layers are. -/
def execStepCommit (slot : Nat) (s : State) : Host.Outcome State Fault Refusal :=
  lift (fun d => match workOf d slot with
    | none => d
    | some w => if w.phase = .ready ∧ w.kind ≠ .tune ∧ (slotOf d slot).state = .running then commitWork d slot w else d) s

end Sys2Proof.Machine
end

