-- ==== Sys2Proof/Machine/Sched.lean ====
section
/-!
DEFINITION. Sys2Proof/Machine/Sched.lean: teams (05 R136 to R139, R155 to R157; 15 R411 to R417): the order in which entries
start, preemption, saving and restoring, and the end of an entry with its result (09 R255, R256).
-/

namespace Sys2Proof.Machine

/-! ### Teams of a slice -/

/-- Change the team of a slot. -/
def updTeam (d : Dev) (s : Nat) (f : Team → Team) : Dev :=
  { d with fab := { d.fab with teams := d.fab.teams.map (fun t => if t.slot = s then f t else t) } }

def teamOf (d : Dev) (s : Nat) : Option Team := d.fab.teams.find? (fun t => t.slot == s)

/-- Teams of a slice that wait for a first start, by class. -/
def waitingTeams (d : Dev) (slice : Nat) (lc : Bool) : List Team :=
  d.fab.teams.filter (fun t => t.slice == slice && t.lc == lc && !t.running && !t.saving && !t.saved)

/-- Saved teams of a slice in the order of their preemption. -/
def savedTeams (d : Dev) (slice : Nat) : List Team :=
  sortBy (fun a b => decide (a.order < b.order)) (d.fab.teams.filter (fun t => t.slice == slice && t.saved))

/-- Arrays that a client's latency-critical teams hold on a slice (R411). -/
def lcHeld (d : Dev) (slice client : Nat) : Nat :=
  sumN ((d.fab.teams.filter (fun t => t.slice == slice && t.client == client && t.lc && t.running)).map (fun t => t.arrays.length))

/-- Is a latency-critical entry within its client's quota (R411)? -/
def withinQuota (d : Dev) (t : Team) : Bool := decide (lcHeld d t.slice t.client + t.size ≤ lcQuota d t.slice t.client)

/-- The first team of a group: the client with the smallest virtual time, the lower number on a tie, and its entries in the order
of dispatch (R414). -/
def firstTeam (d : Dev) (lc : Bool) (ts : List Team) : Option Team :=
  (sortBy (fun (a b : Team) =>
    let x := vtOf d lc a.client
    let y := vtOf d lc b.client
    decide (x < y) || (x == y && (decide (a.client < b.client) || (a.client == b.client && decide (a.order < b.order))))) ts).head?

/-- The latency-critical entry whose turn it is: of each client the one dispatched first, unless it is beyond the quota (R411, R414). -/
def lcNext (d : Dev) (slice : Nat) : Option Team :=
  let ts := waitingTeams d slice true
  firstTeam d true (ts.filter (fun t => withinQuota d t && ts.all (fun u => u.client != t.client || decide (t.order ≤ u.order))))

/-- Does a team find enough idle arrays? -/
def teamRoom (d : Dev) (t : Team) : Bool := decide (t.size ≤ (idleArrays d t.slice).length)

/-- The data block that the work of a slot has for its HEADS entry (R210, R255): pass 2 takes the row of the last print. -/
def headInput (w : Work) : List Byte :=
  let rows := if w.kind = .prefill then w.rows.drop (w.rows.length - 1) else w.rows
  match w.phase with
  | .heads2 =>
    let k := if w.kind = .prefill then 0 else w.verdict.last
    posTable ((rows.drop k).take 1) ++ f32Bytes (w.hid.getD k [])
  | _ => posTable rows ++ f32Bytes w.hid.flatten

/-- What an entry works on: the recipe, the entry and the pass, the data block, the symbols of its rows and the last print. The same
inputs give the same results (R26). -/
def teamKey (rc : RSlot) (kind : Nat) (w : Work) : List Nat :=
  [rc.digest.toNat, kind, b2n (w.phase == .heads2), w.verdict.pending.getD 512] ++ w.rows.flatMap (fun r => [r.sym, r.pos])
    ++ (headInput w).map BitVec.toNat

/-- What the members of a team share (R137, R140, R255). -/
def teamEnv (d : Dev) (t : Team) : ArrEnv :=
  let rc := rcpFor d (recOf d (slotOf d t.slot).rcd)
  let w := ((slotOf d t.slot).work).getD noWork
  let pass1 := w.phase == .heads
  { code := rc.code, objects := rc.objects, staticSize := rc.staticSize,
    work := 4096 * ((entryOf rc t.kind).map (fun e => e.work)).getD 1, kind := t.kind, pass := if pass1 then 1 else 2,
    rows := if pass1 then (if w.kind = .prefill then 1 else w.rows.length) else 1, takes := rc.model.takes,
    input := headInput w, key := teamKey rc t.kind w }
where
  noWork : Work := { kind := .step, ring := 0, flight := 0, entry := 0, bound := 0, rows := [], phase := .ready }

/-- A team and its run. -/
def teamRun (t : Team) : TeamRun := { cores := t.cores, out := t.out, handed := t.handed, flagged := t.flagged }
def withRun (t : Team) (r : TeamRun) : Team := { t with cores := r.cores, out := r.out, handed := r.handed, flagged := r.flagged }

/-- Run the members of a team for so many steps of their program, or until they have halted (R139, R142). -/
def runCores (d : Dev) (t : Team) (n : Nat) : Team := withRun t (teamRuns (teamEnv d t) n (teamRun t))

/-- Every member stops at a stopping point of its word (R155). -/
def stopCores (d : Dev) (t : Team) (choices : List Nat) : Team :=
  withRun t (choices.zipIdx.foldl (fun r c => stopCore (teamEnv d t) r c.2 c.1) (teamRun t))

/-- The frames of a team's members (R156); the arrays keep nothing. -/
def saveFrames (d : Dev) (t : Team) : Team :=
  { t with
    arrays := [], running := false, saving := false, saved := true, cores := [], frames := t.cores.map (frameBytes (teamEnv d t)),
    streams := t.cores.map (fun c => c.group) }

/-- The members that a team's frames hold. -/
def loadFrames (t : Team) : Team := { t with cores := (t.frames.zip t.streams).map (fun f => frameCore f.1 f.2), frames := [], streams := [] }

/-- The members of a team at the start of its entry: every working region is zeroed (R137). -/
def startCores (d : Dev) (t : Team) : Team :=
  let first := ((entryOf (rcpFor d (recOf d (slotOf d t.slot).rcd)) t.kind).map (fun e => e.first)).getD 0
  { t with cores := List.replicate t.size (startCore first) }

/-- A team takes arrays in ascending number, which gives the roles (R136). -/
def runTeam (d : Dev) (t : Team) : Dev :=
  let n := d.fab.orders + 1
  let as := (idleArrays d t.slice).take t.size
  let d := { d with fab := { d.fab with orders := n } }
  updTeam d t.slot (fun t => { t with arrays := as, running := true, saved := false, saving := false, order := n })

/-- A team starts its entry. -/
def startTeam (d : Dev) (t : Team) : Dev :=
  runTeam (updTeam d t.slot (fun _ => startCores d t)) t

/-- An entry of a stranded recipe that cannot form a team ends (R157). -/
def strandedTeam (d : Dev) (t : Team) : Bool :=
  decide ((sliceArrays d t.slice).length < t.size) || (!t.saved && (rcpFor d (recOf d (slotOf d t.slot).rcd)).bankLost)

/-- `ENTRY_START` (R413, R414): the entry whose turn it is starts, if it finds arrays for its whole team: latency-critical first,
then, once no saved entry can be restored, best-effort. -/
def execEntryStart (slice : Nat) (s : State) : Host.Outcome State Fault Refusal :=
  lift (fun d =>
    if inReset d then d else
    match d.fab.teams.find? (fun t => t.slice == slice && !t.running && !t.saving && strandedTeam d t) with
    | some t => unitFail d t.slot (teamUnit (rcpFor d (recOf d (slotOf d t.slot).rcd)))
    | none =>
      let lc := (lcNext d slice).filter (teamRoom d)
      match lc with
      | some t => startTeam d t
      | none =>
        if ((savedTeams d slice).head?.map (teamRoom d)).getD false then d
        else match (firstTeam d false (waitingTeams d slice false)).filter (teamRoom d) with
          | some t => startTeam d t
          | none => d) s

/-! ### Preemption (R155, R156, R416, R417) -/

/-- Best-effort teams that run on a slice, the one started most recently first, the higher slot on a tie. -/
def victims (d : Dev) (slice : Nat) : List Team :=
  sortBy (fun (a b : Team) => decide (b.order < a.order) || (a.order == b.order && decide (b.slot < a.slot)))
    (d.fab.teams.filter (fun t => t.slice == slice && !t.lc && t.running && !t.saving))

/-- Preempt teams until `need` arrays are covered; one whose frames find no room runs on (R156, R417). -/
def preemptBy : List Team → Nat → Dev → Dev
  | [], _, d => d
  | t :: rest, need, d =>
    if need = 0 then d
    else match lackT1 d t.client (savedBytes d t) with
      | some _ => fbump d Fd.SEQ_PREEMPT_CNT_declined
      | none =>
        if heldT1 d (savedBytes d t) then d else
        let n := d.fab.orders + 1
        let d := fbump { d with fab := { d.fab with orders := n } } Fd.SEQ_PREEMPT_CNT_preemptions
        preemptBy rest (need - t.arrays.length) (updTeam d t.slot (fun t => { t with saving := true, order := n }))

/-- Arrays that teams being saved will free. -/
def comingArrays (d : Dev) (slice : Nat) : Nat :=
  sumN ((d.fab.teams.filter (fun t => t.slice == slice && t.saving)).map (fun t => t.arrays.length))

/-- `PREEMPTION` (R416): a latency-critical entry within its quota finds too few arrays. Without a best-effort team to preempt it
waits for latency-critical ones, which is counted once (R413). -/
def execPreemption (slice : Nat) (s : State) : Host.Outcome State Fault Refusal :=
  lift (fun d =>
    match lcNext d slice with
    | none => d
    | some t =>
      if inReset d ∨ teamRoom d t then d
      else
        let have' := (idleArrays d slice).length + comingArrays d slice
        let need := t.size - have'
        let vs := victims d slice
        if vs.isEmpty ∧ comingArrays d slice = 0 then
          if t.short then d
          else updTeam (fbump d Fd.SEQ_SCHED_STAT_lc_short) t.slot (fun t => { t with short := true })
        else preemptBy vs need d) s

/-- Flagged product tiles of a HEADS entry are precision events (R128); the layer and the window that the report names for one are not
stated, and are free (log entry 80). -/
def flagEvents (d : Dev) (slot n : Nat) : Dev :=
  (List.range n).foldl (fun d _ =>
    let (layer, d) := freshBelow d 256
    let (win, d) := freshBelow d (2 ^ 18)
    precEvent d slot layer win) d

/-- As many free choices as asked. -/
def freshList : Nat → Dev → List Nat × Dev
  | 0, d => ([], d)
  | n + 1, d =>
    let (k, d) := freshBelow d (2 ^ 32)
    let (l, d) := freshList n d
    (k :: l, d)

/-- `PREEMPT_SAVE_DONE` (R155, R156, R202, R417): every member has stopped at a stopping point, the frames of the team are
saved and its arrays are free; an uncorrectable store error ends the entry. How far the members came is free (log entry 21), and so
is whether a retry was abandoned, which leaves no count. -/
def execPreemptSaveDone (slot : Nat) (storeError : Bool) (s : State) : Host.Outcome State Fault Refusal :=
  lift (fun d =>
    match teamOf d slot with
    | none => d
    | some t =>
      if !t.saving then d
      else if storeError then unitFail d slot 2
      else
        let (n, d) := freshBelow d (2 ^ 32)
        let d := vtCharge d t.lc t.client n
        let (m, d) := freshBelow d (2 ^ 32)
        let d := chargeCycles d unattributed m
        let (k, d) := freshBelow d (2 ^ 64)
        let (cs, d) := freshList t.size d
        let t := stopCores d (runCores d t k) cs
        let d := flagEvents d slot t.flagged
        let d := updTeam d slot (fun _ => saveFrames d { t with flagged := 0 })
        updSlot d slot (fun x => { x with state := .saved })) s

/-- `SAVED_RESTORE` (R156, R414, R417): the oldest saved team of its slice runs again, on any arrays, once no latency-critical
entry can start. -/
def execSavedRestore (slot : Nat) (s : State) : Host.Outcome State Fault Refusal :=
  lift (fun d =>
    match teamOf d slot with
    | none => d
    | some t =>
      let lc := (lcNext d t.slice).filter (teamRoom d)
      if inReset d ∨ !t.saved ∨ lc.isSome ∨ (savedTeams d t.slice).head?.map (fun t => t.slot) ≠ some slot ∨ !teamRoom d t then d
      else
        let (m, d) := freshBelow d (2 ^ 32)
        let d := runTeam (updTeam (chargeCycles d unattributed m) slot loadFrames) t
        updSlot d slot (fun x => { x with state := .running })) s

/-! ### The end of an entry (R139, R255 to R257, R186) -/

/-- Pass 1 is through: the output path decides (R257 to R275). A `PREFILL` has one row of logits, and its held bytes go ahead. -/
def headsFirst (d : Dev) (s : Nat) (w : Work) (result : List F32) : Dev :=
  let r := recOf d (slotOf d s).rcd
  let m := modelFor d r
  let logits := pieces 264 result
  let col := w.colander.bind (fun c => (((colOf d c.1).cur.toList) ++ (colOf d c.1).old).find? (fun v => v.num == c.2))
  let o := if w.kind = .prefill then (prefillOut r.out r.raw).1 else r.out
  let rows := if w.kind = .prefill then w.rows.drop (w.rows.length - 1) else w.rows
  let (v, forced) := decide1 o r.raw r.seed col (w.colander.getD (0, 0)) rows logits 0
  let d := raiseMany (fbump d Fd.TXT_OUT_CNT2_force_over_ban forced) Fd.TXT_OUT_EVT_force_over_ban forced
  let w := { w with verdict := v }
  if m.takes ≠ 0 ∧ v.pending.isSome then queueTeam (setWork d s { w with phase := .heads2 }) s 3
  else setWork d s { w with phase := .ready }

/-- Pass 2 is through: the next candidate tree (R256). -/
def headsSecond (d : Dev) (s : Nat) (w : Work) (result : List F32) (template : List Byte) : Dev :=
  let m := modelFor d (recOf d (slotOf d s).rcd)
  let t := nextTree (w.verdict.pending.getD 0) m.takes m.treeNodes result template
  let d := if t.2 then d else raise (fbump d Fd.TXT_OUT_CNT2_tree_invalid) Fd.TXT_OUT_EVT_tree_invalid
  setWork d s { w with phase := .ready, verdict := { w.verdict with tree := t.1 } }

/-- What `done` has handed over (R139, R255): through the output path in pass 1 the logits by row, in pass 2 the take logits and the
tree template; for a `TUNE_STEP` the mean cross-entropy, and through the exchange output the gradient rows (log entry 21). -/
def handedOver (d : Dev) (t : Team) (w : Work) : List F32 × List Byte :=
  let e := teamEnv d t
  let m := modelFor d (recOf d (slotOf d t.slot).rcd)
  match w.kind, w.phase with
  | .tune, _ => (handedF32 e t.handed 0 1 ++ handedF32 e t.handed exchangeOut (w.rows.length * hiddenOf m), [])
  | _, .heads => (handedF32 e t.handed 0 (264 * e.rows), [])
  | _, _ => (handedF32 e t.handed 0 (256 * m.takes), handedBytes e t.handed (1024 * m.takes) (2 * m.treeNodes))

/-- The work goes on with what its entry handed over. -/
def takeResult (d : Dev) (slot : Nat) (w : Work) (h : List F32 × List Byte) : Dev :=
  match w.kind, w.phase with
  | .tune, .heads =>
    let m := modelFor d (recOf d (slotOf d slot).rcd)
    let d := setWork d slot { w with loss := h.1.headD 0 }
    sendBwd d slot (m.layers - 1) (pieces (max 1 (hiddenOf m)) (h.1.drop 1))
  | _, .heads => headsFirst d slot w h.1
  | _, .heads2 => headsSecond d slot w h.1 h.2
  | _, _ => d

/-- The end of a team's entry, with what its `done` instructions handed over and the faults that came about in it (R130, R139, R255,
R415, R419). Arrays that an apply removes may have left the slice by it (R157, R368), and a recipe being unloaded may be free (R152). -/
def haltEntry (d : Dev) (t : Team) (slot cycles : Nat) (h : List F32 × List Byte) (incidents : List Incident) : Dev :=
  let d := vtCharge d t.lc t.client cycles
  let d := strandCheck { d with fab := { d.fab with teams := d.fab.teams.filter (fun t => t.slot != slot) } }
  let d := flagEvents d slot t.flagged
  let d := incidents.foldl (fun d x => match x with | .precision l win => precEvent d slot l win | _ => d) d
  let lost := incidents.any (fun x => match x with | .ckLasting _ _ => true | _ => false)
  unloadIdle (match sufferWork d slot incidents with
    | (d, none) => d
    | (d, some w) => if lost ∧ (sliceArrays d t.slice).isEmpty then unitFail d slot 2 else takeResult d slot w h)

/-- `ENTRY_HALT` (R139): every member has executed `halt`: the members run their program to the end and what their `done` instructions
left is handed over. `cycles` is the charge of R419. The event does nothing while some member cannot reach its `halt`. -/
def execEntryHalt (slot cycles : Nat) (incidents : List Incident) (s : State) : Host.Outcome State Fault Refusal :=
  lift (fun d =>
    match teamOf d slot, (slotOf d slot).work with
    | some t, some w =>
      if !t.running ∨ t.saving then d
      else
        let ended := runCores d t runBound
        if ended.cores.any (fun c => !c.halted) then d else haltEntry d ended slot cycles (handedOver d ended w) incidents
    | _, _ => d) s

end Sys2Proof.Machine
end

