-- ==== Sys2Proof/Machine/Objects.lean ====
section
/-!
DEFINITION. Sys2Proof/Machine/Objects.lean: the commands that move, place and free objects (10 R290 to R293; 11 R320), the
end of an erase (10 R309), and the flash controller's own moves (11 R318).
-/

namespace Sys2Proof.Machine

/-! ### Moving (R290, R291, R296) -/

/-- A state in which the session object commands run (R290). -/
def liveSess (r : Rec) : Bool := r.state == .active || r.state == .paused

/-- The pages of a session that an `OBJ_MOVE` names: those of its kind, for folded pages the windows named. -/
def namedPages (d : Dev) (i : Nat) (x : Desc) : List Nat :=
  let r := recOf d i
  let m := modelFor d r
  let kind := db x 24 1
  let named := fun (k : Nat) => kind != 1 || bitOf (db x 26 1) 0
    || (decide (db x 28 4 ≤ foldWindow m k) && decide (foldWindow m k < db x 28 4 + db x 32 4))
  (keys r.pages).filter (fun k => pageKind k == kind && named k)

/-- Pages of an object that lie outside a tier. -/
def outside (ps : NMap Loc) (tier : Nat) (ks : List Nat) : List Nat :=
  ks.filter (fun k => match look ps k with | some l => l.tier != tier | none => false)

/-- Reserve every destination of a move and start it (R291). -/
def moveObject (d : Dev) (ring : Nat) (f : Flight) (o : MoveOf) (tier : Nat) (ks : List Nat) : Dev :=
  if ks.isEmpty then finish d ring f.id stOK 0
  else match allocT d (objClient d o) tier ks.length with
    | (.ok fs d, _) => startGroup (dispatched d ring f.id) .objMove o ring f.id true false tier ks fs
    | (.quota k, _) => finish d ring f.id stQuota k
    | (.noFit k, d) => finish d ring f.id stNoFit k
    | (.waits, d) => d

/-- The index commands' checks on owner and state: another client's index is `SECURITY` (R320). -/
def idxForeign (d : Dev) (n c : Nat) : Bool := (idxOf d n).state != 0 && (idxOf d n).client != c

/-- The version of a table that an `OBJ_MOVE` names: 0 is the current one (R290). -/
def namedVersion (t : Tbl) (v : Nat) : Option TVer :=
  if v = 0 then t.cur else (t.cur.toList ++ t.staged.toList ++ t.old).find? (fun x => x.num == v)

/-- `OBJ_MOVE` from its second group of checks on. -/
def objMove (d : Dev) (ring : Nat) (f : Flight) : Dev :=
  let x := f.desc
  let tier := db x 25 1
  let moving := fun (o : MoveOf) (ks : List Nat) => ks.any (fun k => (movingPages d o).contains k)
  if db x 24 1 = 0x10 then
    let n := dSel x % 64
    let t := tblOf d n
    if tblForeign d n (sqClient d ring) then finish d ring f.id stSecurity 0
    else match namedVersion t (db x 36 4) with
      | none =>
        if db x 36 4 = 0 then conflictFree d ring f.id
        else finish d ring f.id stStaleVersion (match t.cur with | some v => v.num | none => 0)
      | some v =>
        if moving (.table n v.num) (keys v.pages) then d
        else moveObject d ring f (.table n v.num) tier (outside v.pages tier (keys v.pages))
  else if db x 24 1 = 0x20 then
    let n := dSel x % 256
    let b := (idxOf d n).base
    if idxForeign d n (sqClient d ring) then finish d ring f.id stSecurity 0
    else if (idxOf d n).state = 0 then finish d ring f.id stStateConflict 0
    else if moving (.index n) (keys b.pages) ∨ (idxOf d n).folding.isSome then d
    else moveObject d ring f (.index n) tier (outside b.pages tier (keys b.pages))
  else
    withSess d ring f (sessCheck d (dSel x) false false (fun r _ => liveSess r)) (fun i =>
      let ks := namedPages d i x
      if moving (.session i) ks then d
      else moveObject d ring f (.session i) tier (outside (recOf d i).pages tier ks))

/-- `OBJ_MOVE` (R290, R291). -/
def execObjMove (ring : Nat) (s : State) : Host.Outcome State Fault Refusal :=
  lift (fun d => dispatchGated d ring 0x20 (fun d f => objMove d ring f)) s

/-! ### Hints (R292) -/

/-- `OBJ_PLACE_HINT` from its second group of checks on. -/
def placeHint (d : Dev) (ring : Nat) (f : Flight) : Dev :=
  let x := f.desc
  let tier := db x 25 1
  if db x 24 1 = 0x10 then
    let n := dSel x % 64
    if tblForeign d n (sqClient d ring) then finish d ring f.id stSecurity 0
    else finish (setTbl d n { tblOf d n with hint := if tier = 0xFF then none else some tier }) ring f.id stOK 0
  else
    withSess d ring f (sessCheck d (dSel x) false false (fun r _ => liveSess r)) (fun i =>
      finish (updRec d i (fun r => { r with hint := if tier = 0xFF then none else some (tier, db x 28 4) })) ring f.id stOK 0)

/-- `OBJ_PLACE_HINT` (R292). -/
def execObjPlaceHint (ring : Nat) (s : State) : Host.Outcome State Fault Refusal :=
  lift (fun d => dispatchGated d ring 0x21 (fun d f => placeHint d ring f)) s

/-! ### Freeing (R293, R320) -/

/-- Does a dispatched command that has not ended name an index? -/
def idxNamed (d : Dev) (n ring id : Nat) : Bool :=
  (busyRings d).any (fun r => (sqOf d r).flights.any (fun f => f.phase == .dispatched && !(r == ring && f.id == id)
    && dSel f.desc % 256 == n
    && ((0x40 ≤ dOp f.desc && dOp f.desc ≤ 0x43) || (dOp f.desc == 0x20 && db f.desc 24 1 == 0x20))))

/-- Old base versions that no query binds any more are freed with the chunks no other version shares (R335). -/
def idxReap (d : Dev) (n : Nat) : Dev :=
  let i := idxOf d n
  let bound := fun (b : IBase) => (vals d.fls.search).any (fun (s : Search) => s.index == n && s.base == b.num)
  let gone := i.old.filter (fun b => !bound b)
  gone.foldl (fun d _ => raise d Fd.FLS_EVT_version_freed) (setIdx d n { i with old := i.old.filter bound })

/-- `OBJ_FREE` from its second group of checks on. -/
def objFree (d : Dev) (ring : Nat) (f : Flight) : Dev :=
  let x := f.desc
  if db x 24 1 = 0x10 then
    let n := dSel x % 64
    let t := tblOf d n
    let staged := match t.staged with | some v => v.num | none => 0
    if tblForeign d n (sqClient d ring) then finish d ring f.id stSecurity 0
    else if t.staged.isNone ∨ staged ≠ db x 36 4 then finish d ring f.id stStaleVersion staged
    else if d.dly.groups.any (fun g => g.obj == .table n staged) then d
    else finish (setTbl d n { t with staged := none }) ring f.id stOK 0
  else if db x 24 1 = 0x20 then
    let n := dSel x % 256
    if idxForeign d n (sqClient d ring) then finish d ring f.id stSecurity 0
    else if (idxOf d n).state = 0 then finish d ring f.id stStateConflict 0
    else if idxNamed d n ring f.id then d
    else finish (setIdx d n {}) ring f.id stOK 0
  else
    withSess d ring f (sessCheck d (dSel x) false false (fun r _ => liveSess r)) (fun i =>
      boundary (finish (addEdit d i (.tune ((recOf d i).kv.map (fun _ => {})))) ring f.id stOK 0) i)

/-- `OBJ_FREE` (R293, R320). -/
def execObjFree (ring : Nat) (s : State) : Host.Outcome State Fault Refusal :=
  lift (fun d => dispatchGated d ring 0x22 (fun d f => objFree d ring f)) s

/-! ### The end of an erase (R309), which restores may wait for too (Ckp.lean) -/

/-- An erase has ended; moves that waited for it are looked at again. -/
def eraseEnd (d : Dev) : Dev :=
  let d := raise { d with mem := { d.mem with erase := none } } Fd.MEM_EVT_erase_done
  (keys d.ctx.recs).foldl askMoves d

/-! ### The flash controller's own moves (R318) -/

/-- The page key of a T4 frame among some pages. -/
def keyAt (ps : NMap Loc) (f : Nat) : Option Nat := (ps.find? (fun (p : Nat × Loc) => p.2.tier == 4 && p.2.frame == f)).map Prod.fst

/-- The object and the page that a T4 frame holds. -/
def ownerAt (d : Dev) (f : Nat) : Option (MoveOf × Nat) :=
  match d.ctx.recs.findSome? (fun (e : Nat × Rec) => (keyAt e.2.pages f).map (fun k => (MoveOf.session e.1, k))) with
  | some x => some x
  | none =>
    match d.txt.tbl.findSome? (fun (e : Nat × Tbl) => (e.2.cur.toList ++ e.2.staged.toList ++ e.2.old).findSome? (fun v =>
      (keyAt v.pages f).map (fun k => (MoveOf.table e.1 v.num, k)))) with
    | some x => some x
    | none => d.fls.idx.findSome? (fun (e : Nat × Idx) => (keyAt e.2.base.pages f).map (fun k => (MoveOf.index e.1, k)))

/-- The sealed tiles of the page in a T4 frame, under a new counter. Those of a slate's copy, whose plain bytes the model does not keep,
are free (log entry 79). -/
def frameTiles (d : Dev) (f ctr : Nat) : List (List Byte) :=
  match ownerAt d f with
  | some (o, k) => sealTiles d o k ctr
  | none =>
    let at' := fun (l : Loc) => l.tier == 4 && l.frame == f
    match d.ckp.held.find? (fun h => h.locs.any at') with
    | some h => ((pieces 4120 h.data).drop (8 * h.locs.findIdx at')).take 8
    | none => (List.range 8).map (fun t => exactly 4120 (Config.layout 0x70 f [ctr, t]))

/-- Move the live pages of a block pair to other pairs, each under a new seal counter, as far as there is room. -/
def movePair (d : Dev) (pair : Nat) : Dev :=
  let live := ((usedFrames d 4).filter (fun f => pairOf f == pair)).dedup
  let q : FPair := mget d.fls.pairs {} pair
  -- the pair takes no more pages until it is erased
  let d := { d with fls := { d.fls with pairs := put d.fls.pairs pair { q with next := max q.next (Config.flashPages (pair % 32)) } } }
  publishMoved (live.foldl (fun d f =>
    if waitsErase d 4 1 then d else
    match takeT4 1 d with
    | none | some ([], _) => d
    | some (n :: _, d) =>
      let (ctr, d) := sealed d 4
      let d := nandProgram d { tier := 4, frame := n, ctr := ctr } (frameTiles d f ctr)
      let d := flsRead (charge d unattributed 0 [0, 0, 0, 0, 2 * pageSize]) { tier := 4, frame := f } 1
      mapLocs d (fun l => if l.tier = 4 ∧ l.frame = f then { l with frame := n, ctr := ctr } else l)) d)

/-- Is the flash controller at work? -/
def flsServes (d : Dev) : Bool := !inReset d && !d.sys.fatal && fbit d Fd.FLS_CTL_enable && !unitInReset d 4

/-- The controller's mover has met a tile that failed twice, in any live page of a pair (R295): the page's object is `damaged`. -/
def pairHurt (d : Dev) (pair : Nat) : Dev :=
  let live := ((usedFrames d 4).filter (fun f => pairOf f == pair)).dedup
  let (k, d) := freshBelow d live.length
  match ownerAt d (live.getD k 0) with
  | none => d
  | some (o, key) =>
    let (n, h) := objNamed d o
    (report (hurtObj d o key) {
      cls := clsIntegrity, unit := 8, action := 3, object := n, handle := h, client := some (objClient d o), status := stIntegrity }).1

/-- The live pages of a pair are moved, with the checks and the failures of R295: a lasting one leaves every page of the pair where it
is. A program that fails once retires its pair, and the page goes to another (R317). -/
def moveLive (d : Dev) (pair : Nat) (incidents : List Incident) : Dev :=
  let d := countChecks d incidents Fd.DLY_CHECK_CNT_transient Fd.DLY_CHECK_CNT_lasting Fd.DLY_EVT_check_transient
    Fd.DLY_EVT_check_lasting
  let d := suffer d incidents
  if livePages d pair = 0 then d
  else if (lastingTile incidents).isSome then pairHurt d pair
  else if incidents.contains .writeLasting then
    (report d { cls := clsUnit, unit := 8, action := 1, inst := flsChannel pair, status := stUnitFailed }).1
  else movePair d pair

/-- `FLASH_REFRESH` (R318): a pair has been read more often since its last program than `FLS_REFRESH` allows, or a read of it needed more
than half the correction (`corrected`). -/
def execFlashRefresh (pair : Nat) (corrected : Bool) (incidents : List Incident) (s : State) : Host.Outcome State Fault Refusal :=
  lift (fun d =>
    if !flsServes d ∨ livePages d pair = 0 then d
    else if corrected ∨ fget d Fd.FLS_REFRESH_reads < (mget d.fls.pairs {} pair).reads then moveLive d pair incidents
    else d) s

/-- Block pairs of a channel in use, with the erased and free ones counted against all of them. -/
def channelPairs (d : Dev) (c : Nat) : List Nat :=
  ((flsLuns d).filter (fun l => l % 32 == c)).flatMap (fun l => (List.range (pairsPerLun d l)).map (fun i => l + 1024 * i))

/-- The pair that a reclaim empties: fewer than 1 % of the channel's pairs are erased and free, and its fraction of live
pages is the smallest below the threshold. -/
def reclaimPair (d : Dev) (c : Nat) : Option Nat :=
  let all := channelPairs d c
  let free := (all.filter (fun p => pairUsable d p && livePages d p == 0)).length
  let pages := Config.flashPages c
  if all.length ≤ 100 * free then none
  else
    let ok := all.filter (fun p => livePages d p != 0
      && decide (100 * livePages d p < fget d Fd.FLS_RECLAIM_live_pct * pages))
    ok.foldl (fun (best : Option Nat) p => match best with
      | none => some p
      | some b => if livePages d p < livePages d b then some p else best) none

/-- `FLASH_RECLAIM` (R318). -/
def execFlashReclaim (channel : Nat) (incidents : List Incident) (s : State) : Host.Outcome State Fault Refusal :=
  lift (fun d =>
    if !flsServes d then d
    else match reclaimPair d channel with
      | none => d
      | some p => moveLive d p incidents) s

end Sys2Proof.Machine
end

