-- ==== Sys2Proof/Machine/Vec.lean ====
section
/-!
DEFINITION. Sys2Proof/Machine/Vec.lean: vectors, distances, the search procedure, pruning, inserting and folding (11 R321 to
R336), as functions of an index.
-/

namespace Sys2Proof.Machine

/-! ### Distances (R325) -/

/-- Integer square root by bits, from bit `n - 1` down. -/
def isqrtBy (v : Nat) : Nat → Nat → Nat
  | 0, r => r
  | n + 1, r => isqrtBy v n (if (r + 2 ^ n) * (r + 2 ^ n) ≤ v then r + 2 ^ n else r)

/-- Correctly rounded square root of an FP32 value; a negative one cannot arise. `sqrt(a * 2^-149) = sqrt(2a * 2^120) * 2^-135`,
with one more bit that tells whether the root is exact. -/
def fSqrt (x : F32) : W F32 :=
  (rd x).bind fun a =>
    let n := 2 * a.toNat * 2 ^ 120
    let r := isqrtBy n 210 0
    if r * r = n then roundTo false r 1 (-135) else roundTo false (2 * r + 1) 1 (-136)

/-- One. -/
def fOne : F32 := 0x3F800000
/-- Minus one. -/
def fMinusOne : F32 := 0xBF800000

/-- The term of one element: metric 1 is L2. -/
def idxTerm (metric : Nat) (p : F32 × F32) : F32 :=
  if metric = 1 then
    let e := (fAdd p.1 (fMul p.2 fMinusOne).v).v
    (fMul e e).v
  else (fMul p.1 p.2).v

/-- A sum of terms: a pairwise tree of each 64, added in ascending order. -/
def treeAcc (ts : List F32) : F32 := (pieces 64 ts).foldl (fun acc t => (fAdd acc (rsum t).v).v) 0

/-- The distance of a query and a decoded vector. -/
def idxDist (metric : Nat) (q v : List F32) : F32 :=
  let acc := treeAcc ((q.zip v).map (idxTerm metric))
  match metric with
  | 0 => (fMul acc fMinusOne).v
  | 1 => acc
  | _ => (fAdd fOne (fMul acc fMinusOne).v).v

/-- The squared norm of a vector. -/
def sqNorm (x : List F32) : F32 := treeAcc (x.map (fun e => (fMul e e).v))

/-- Normalise a vector under cosine. -/
def normalised (metric : Nat) (x : List F32) : List F32 :=
  if metric = 2 then
    let r := (fRcp (fSqrt (sqNorm x)).v).v
    x.map (fun e => (fMul e r).v)
  else x

/-- Why a vector is not taken: 1 a non-finite element, 2 zero norm under cosine; 0 it is taken (R326, R331). -/
def vecFault (metric : Nat) (x : List F32) : Nat :=
  if x.any nonFinite then 1 else if metric = 2 ∧ fixOf (sqNorm x) = 0 then 2 else 0

/-- Encode a vector as it is stored (R322, R116, R117). -/
def vecEncode (row dim : Nat) (x : List F32) : List Byte :=
  match row with
  | 1 => f32Bytes x
  | 2 =>
    let r := (encodeA8 x).v
    exactly (dim + 64) (r.1.map (BitVec.ofInt 8) ++ leBytes 4 r.2.toNat)
  | _ => exactly (vecRow 3 dim) ((pieces 256 (x.map fixOf)).flatMap (fun b => (encodeBlk 1 b).bytes))

/-- Decode a stored vector. -/
def vecDecode (i : Idx) (n : INode) : List F32 := (rowDecode i.row i.dim n.vec).1

/-! ### What a query sees (R334) -/

/-- A node's record if it is reachable from a base version at sequence `s`. -/
def nodeAt (i : Idx) (b : IBase) (s v : Nat) : Option INode :=
  match look b.nodes v with
  | some n => some n
  | none => match look i.ins v with
    | some t => if t ≤ s then look i.side v else none
    | none => none

/-- Has a node a tombstone at sequence `s`? -/
def tombed (i : Idx) (s v : Nat) : Bool := match look i.tombs v with | some t => decide (t ≤ s) | none => false

/-- Is a node returnable? -/
def returnable (i : Idx) (b : IBase) (s v : Nat) : Bool := (nodeAt i b s v).isSome && !tombed i s v

/-- Edges of a node in stored order, then its additions in ascending sequence. -/
def edgesAt (i : Idx) (s u : Nat) (n : INode) : List Nat :=
  n.edges ++ (i.adds.filter (fun a => a.2.1 == u && decide (a.1 ≤ s))).map (fun a => a.2.2)

/-- The entry node: that of the base version, else the first vector inserted into the empty index (R332). -/
def entryAt (i : Idx) (b : IBase) (s : Nat) : Option Nat :=
  match b.entry with
  | some e => some e
  | none =>
    ((i.ins.filter (fun (p : Nat × Nat) => p.2 ≤ s)).foldl (fun (best : Option (Nat × Nat)) p => match best with
      | none => some p
      | some q => if p.2 < q.2 then some p else best) none).map Prod.fst

/-! ### The search procedure (R328, R329) -/

/-- A node with its distance. -/
abbrev Near := Nat × F32

/-- The order of R329: distance as a number, then node. -/
def nearer (a b : Near) : Bool :=
  decide (fixOf a.2 < fixOf b.2) || (fixOf a.2 == fixOf b.2 && decide (a.1 < b.1))

/-- A search under way: candidates in order with their expansion marks, every node evaluated, expansions. -/
structure Beam where
  cand : List (Near × Bool) := []
  seen : List Near := []
  expanded : Nat := 0
  deriving DecidableEq, Repr

/-- Evaluate a node that is reachable and not yet seen. -/
def beamVisit (i : Idx) (b : IBase) (s beam : Nat) (q : List F32) (x : Beam) (v : Nat) : Beam :=
  if x.seen.any (fun p => p.1 == v) then x
  else match nodeAt i b s v with
    | none => x
    | some n =>
      let p : Near := (v, idxDist i.metric q (vecDecode i n))
      { x with
        cand := (insertBy (fun (a b : Near × Bool) => nearer a.1 b.1) (p, false) x.cand).take beam, seen := x.seen ++ [p] }

/-- Expand the best unexpanded candidate until there is none or the budget is reached, by fuel. -/
def beamRun (i : Idx) (b : IBase) (s beam budget : Nat) (q : List F32) : Nat → Beam → Beam
  | 0, x => x
  | n + 1, x =>
    match x.cand.find? (fun c => !c.2) with
    | none => x
    | some u =>
      if budget ≠ 0 ∧ budget ≤ x.expanded then x
      else
        let x := { x with
          cand := x.cand.map (fun c => if c.1.1 = u.1.1 then (c.1, true) else c), expanded := x.expanded + 1 }
        let es := match nodeAt i b s u.1.1 with | some r => edgesAt i s u.1.1 r | none => []
        beamRun i b s beam budget q n (es.foldl (beamVisit i b s beam q) x)

/-- Search an index for one query. -/
def beamSearch (i : Idx) (b : IBase) (s beam budget : Nat) (q : List F32) : Beam :=
  let start := match entryAt i b s with
    | some e => beamVisit i b s beam q {} e
    | none => {}
  beamRun i b s beam budget q (b.nodes.length + i.side.length + 1) start

/-- The `k` best returnable candidates: key, node, distance. -/
def beamResult (i : Idx) (b : IBase) (s k : Nat) (x : Beam) : List (Nat × Nat × F32) :=
  ((x.cand.filter (fun c => returnable i b s c.1.1)).take k).filterMap (fun c =>
    (nodeAt i b s c.1.1).map (fun n => (n.key, c.1.1, c.1.2)))

/-! ### Pruning and inserting (R332) -/

/-- The distance of two stored vectors. -/
def nodeDist (i : Idx) (x y : INode) : F32 := idxDist i.metric (vecDecode i x) (vecDecode i y)

/-- Keep candidates in order, while fewer than `degree` are kept and no kept one is closer to it by the factor alpha. -/
def prune (i : Idx) (n : INode) (c : List (Nat × INode)) : List (Nat × INode) :=
  c.foldl (fun kept w =>
    if i.degree ≤ kept.length then kept
    else if kept.any (fun y => fLe (fMul i.alpha (nodeDist i y.2 w.2)).v (nodeDist i n w.2)) then kept
    else kept ++ [w]) []

/-- Additions a node already has in the side list. -/
def addsOf (i : Idx) (u : Nat) : Nat := (i.adds.filter (fun a => a.2.1 == u)).length

/-- Insert one vector, normalised if the metric asks for it: the index after it, the nodes evaluated, back-links
dropped. -/
def insertVec (i : Idx) (key : Nat) (x : List F32) : Idx × List Nat × Nat :=
  let x := normalised i.metric x
  let n := i.next
  let s := i.seq + 1
  let b := beamSearch i i.base i.seq i.beam 0 x
  let c := (sortBy nearer b.seen).filter (fun p => returnable i i.base i.seq p.1)
  let node : INode := { key := key, vec := vecEncode i.row i.dim x, edges := [] }
  let kept := prune i node (c.filterMap (fun p => (nodeAt i i.base i.seq p.1).map (fun r => (p.1, r))))
  let node := { node with edges := kept.map Prod.fst }
  let i := { i with side := put i.side n node, ins := put i.ins n s, next := n + 1, seq := s }
  let r := kept.foldl (fun (acc : Idx × Nat) v =>
    if 16 ≤ addsOf acc.1 v.1 then (acc.1, acc.2 + 1)
    else ({ acc.1 with adds := acc.1.adds ++ [(s, v.1, n)] }, acc.2)) (i, 0)
  ({ r.1 with dropped := r.1.dropped + r.2 }, b.seen.map Prod.fst, r.2)

/-- Vectors of an index that are not deleted (R323). -/
def liveVectors (i : Idx) : Nat := i.base.nodes.length + i.side.length - i.tombs.length

/-! ### The parameter block (R321) -/

/-- Does a block keep to R321? -/
def paramsOk (p : List Byte) : Bool :=
  let dim := leAt p 2 2
  let row := leAt p 5 1
  let degree := leAt p 6 1
  let alpha : F32 := BitVec.ofNat 32 (leAt p 12 4)
  let shards := leAt p 10 1
  leAt p 0 2 == 1 && 64 ≤ dim && dim ≤ 4096 && dim % (if row == 3 then 256 else 64) == 0
    && leAt p 4 1 ≤ 2 && 1 ≤ row && row ≤ 3 && 8 ≤ degree && degree ≤ 64 && (leAt p 7 1 == 2 || leAt p 7 1 == 4)
    && degree ≤ leAt p 8 2 && leAt p 8 2 ≤ 1024 && 1 ≤ shards && shards ≤ 64 && leAt p 11 1 < shards
    && !nonFinite alpha && fLe fOne alpha && (leAt p 4 1 != 0 || alpha == fOne)
    && (List.range 40).all (fun k => leAt p (24 + k) 1 == 0)
    && (List.range 64).all (fun k => leAt p (64 + 8 * k + 3) 5 == 0 && (k < shards || leAt p (64 + 8 * k) 8 == 0))

/-- The index that a block describes, in state BUILDING; `num` is the number of its first base version, which the spec does
not give (a free value). -/
def newIdx (p : List Byte) (client name num : Nat) : Idx :=
  { state := 1, client := client, name := name, dim := leAt p 2 2, metric := leAt p 4 1, row := leAt p 5 1, degree := leAt p 6 1,
    tier := leAt p 7 1, beam := leAt p 8 2, shards := leAt p 10 1, shard := leAt p 11 1, alpha := BitVec.ofNat 32 (leAt p 12 4),
    group := leAt p 16 8,
    list := (List.range (leAt p 10 1)).map (fun k => (leAt p (64 + 8 * k) 2, leAt p (66 + 8 * k) 1)), base := { num := num } }

/-! ### Folding (R335) -/

/-- The record of a node after a fold at sequence `f`. -/
def foldNode (i : Idx) (f u : Nat) (n : INode) : INode :=
  let a := edgesAt i f u n
  if a.any (tombed i f) ∨ i.degree < a.length then
    let far := (a.filter (tombed i f)).flatMap (fun v => match nodeAt i i.base f v with | some r => r.edges | none => [])
    let c := (((a ++ far).filter (fun v => returnable i i.base f v && v != u)).dedup).filterMap (fun v =>
      (nodeAt i i.base f v).map (fun r => (v, r)))
    let c := sortBy (fun (x y : Nat × INode) => nearer (x.1, nodeDist i n x.2) (y.1, nodeDist i n y.2)) c
    { n with edges := (prune i n c).map Prod.fst }
  else { n with edges := a }

/-- The nodes returnable at a sequence, ascending, with their records. -/
def liveNodes (i : Idx) (f : Nat) : List (Nat × INode) :=
  let side := i.side.filter (fun (p : Nat × INode) => (match look i.ins p.1 with | some t => decide (t ≤ f) | none => false))
  let all := side.foldl (fun (m : NMap INode) p => put m p.1 p.2) i.base.nodes
  all.filter (fun p => !tombed i f p.1)

/-- The base version that a fold at the current sequence builds, with no pages yet. -/
def foldBase (i : Idx) : IBase :=
  let live := liveNodes i i.seq
  let entry := match entryAt i i.base i.seq with
    | some e => if returnable i i.base i.seq e then some e else (live.head?).map Prod.fst
    | none => none
  { num := (i.base.num + 1) % 2 ^ 32, fold := i.seq, entry := entry, nodes := live.map (fun p => (p.1, foldNode i i.seq p.1 p.2)) }

/-- Chunks of a base version that hold a record. -/
def chunksOf (b : IBase) : List Nat := ((keys b.nodes).map (fun n => n / 4096)).dedup

/-- Records of a chunk. -/
def chunkNodes (b : IBase) (c : Nat) : NMap INode := b.nodes.filter (fun (p : Nat × INode) => p.1 / 4096 == c)

/-- Page keys that a fold writes anew, and those it shares. -/
def foldChunks (i : Idx) (b : IBase) : List Nat × List Nat :=
  let pages := fun (c : Nat) => (List.range (chunkPages i)).map (idxKey c)
  let same := fun (c : Nat) => chunkNodes b c == chunkNodes i.base c && (pages c).all (fun k => (look i.base.pages k).isSome)
  (((chunksOf b).filter (fun c => !same c)).flatMap pages, ((chunksOf b).filter same).flatMap pages)

/-- The side list after a fold at `f` has published. -/
def dropFolded (i : Idx) (f : Nat) : Idx :=
  let later := fun (n : Nat) => match look i.ins n with | some t => decide (f < t) | none => false
  { i with
    side := i.side.filter (fun (p : Nat × INode) => later p.1), ins := i.ins.filter (fun (p : Nat × Nat) => f < p.2),
    adds := i.adds.filter (fun a => f < a.1), tombs := i.tombs.filter (fun (p : Nat × Nat) => f < p.2) }

end Sys2Proof.Machine
end

