-- ==== Sys2Proof/Machine/Search.lean ====
section
/-!
DEFINITION. Sys2Proof/Machine/Search.lean: the commands of vector search (11 R326 to R339): searches with their shard traffic,
inserts, deletes, folds, and the write of `FLS_IDX_STATE`.
-/

namespace Sys2Proof.Machine

/-! ### Checks -/

/-- A damaged index (R336): the command ends with `INTEGRITY`. -/
def idxDamaged (d : Dev) (ring id n : Nat) : Dev :=
  let i := idxOf d n
  let r := report d {
    cls := clsIntegrity, unit := 8, action := 1, object := i.name, client := some i.client, status := stIntegrity }
  finish r.1 ring id stIntegrity r.2

/-- A lasting check failure marks the index (R336). -/
def idxHurt (d : Dev) (n : Nat) : Dev × Nat :=
  let i := idxOf d n
  report (setIdx d n { i with damaged := true }) {
    cls := clsIntegrity, unit := 8, action := 3, object := i.name, client := some i.client, status := stIntegrity }

/-- Tiles and tier of a node's record: in the base chunks, or in the side list (T1). -/
def nodeBytesRead (i : Idx) (b : IBase) (v : Nat) : Nat × Nat :=
  match look b.nodes v with
  | some _ =>
    (match look b.pages (idxKey (v / 4096) (nodeTile i v / 8)) with | some l => l.tier | none => i.tier,
      4096 * max 1 (ceilDiv (nodeSize i) 4096))
  | none => (1, nodeSize i)

/-- Charge the records that a search or an insert evaluated (R420; log entry 18), and count the reads of flash pairs. -/
def chargeNodes (d : Dev) (c n : Nat) (b : IBase) (vs : List Nat) : Dev :=
  let i := idxOf d n
  vs.foldl (fun d v =>
    let x := nodeBytesRead i b v
    let d := chargeTier d c x.1 x.2
    match look b.pages (idxKey (v / 4096) (nodeTile i v / 8)) with
    | some l => flsRead d l 1
    | none => d) d

/-- Queries in flight (R330). -/
def queriesInFlight (d : Dev) : Nat := sumN ((vals d.fls.search).map (fun (s : Search) => s.vecs.length))

/-! ### Shard frames (R338) -/

/-- A shard message. -/
def shardFrame (typ flags origin query group index shard metric dim k beam budget status base seq count : Nat) (payload : List Byte) :
    List Byte :=
  padTo 64 (fields [(typ, 1), (flags, 1), (origin, 2), (query, 4), (group, 8), (index, 1), (shard, 1), (metric, 1), (0, 1), (dim, 2),
    (k, 2), (beam, 2), (0, 2), (budget, 4), (crc32c payload, 4), (status, 1), (0, 3), (base, 4), (seq, 8), (count, 2)]) ++ payload

/-- One entry of an output or a reply (R327): key, node, shard, distance. -/
def entryBytes (shard : Nat) (e : Nat × Nat × F32) : List Byte :=
  fields [(e.1, 8), (e.2.1, 5), (shard, 1), (0, 2), (e.2.2.toNat, 4), (0, 4)]

/-! ### SEARCH (R326 to R330, R337 to R339) -/

/-- The query vectors of a `SEARCH`. -/
def queryVecs (x : Desc) (bytes : List Byte) : List (List F32) :=
  (List.range (db x 58 1)).map (fun q => f32s ((bytes.drop (4 * db x 56 2 * q)).take (4 * db x 56 2)))

/-- `SEARCH` from its second group of checks on: the queries run on the index as it stands at dispatch, and go out to the
other shards. -/
def searchGo (d : Dev) (ring : Nat) (f : Flight) (bytes : List Byte) : Dev :=
  let x := f.desc
  let n := dSel x % 256
  let i := idxOf d n
  let c := sqClient d ring
  let nq := db x 58 1
  if idxForeign d n c then finish d ring f.id stSecurity 0
  else if i.state = 0 then finish d ring f.id stStateConflict 0
  else if i.state = 4 then finish d ring f.id stBusyRetry (fget d Fd.FLS_SHARD_TIMEOUT_retry_after)
  else if i.damaged then idxDamaged d ring f.id n
  else if i.dim ≠ db x 56 2 then finish d ring f.id stStateConflict i.state
  else
    let qs := queryVecs x bytes
    if qs.any (fun q => vecFault i.metric q != 0) then finish d ring f.id stInvalidField 24
    else if 2048 < queriesInFlight d + nq then d
    else
      let qs := qs.map (normalised i.metric)
      let found := qs.map (beamSearch i i.base i.seq (db x 54 2) (db x 60 4))
      let own := found.map (fun b => (b.expanded, beamResult i i.base i.seq (db x 52 2) b))
      let flags := db x 59 1
      let asked := if bitOf flags 0 then (List.range i.shards).filter (fun s => s != i.shard) else []
      let id := d.fls.nextSearch
      let d := dispatched d ring f.id
      let d := chargeNodes d c n i.base (found.flatMap (fun b => b.seen.map Prod.fst))
      let s : Search := {
        ring := ring, flight := f.id, index := n, base := i.base.num, seq := i.seq, k := db x 52 2, flags := flags, vecs := qs,
        own := own, asked := asked, sentAt := up d }
      let d := { d with fls := { d.fls with search := put d.fls.search id s, nextSearch := (id + 1) % 2 ^ 26 } }
      asked.foldl (fun d sh => qs.zipIdx.foldl (fun d q =>
        let to' := i.list.getD sh (0, 0)
        sendFrame d 5 0x50 to'.1 (some c) (shardFrame 1 (b2n (bitOf flags 2)) (ownDevice d) (64 * id + q.2) i.group to'.2 sh i.metric
          i.dim (db x 52 2) (db x 54 2) (db x 60 4) 0 0 0 0 (f32Bytes q.1))) d) d

/-- `SEARCH` (R326). -/
def execSearch (ring : Nat) (queries : List Byte) (s : State) : Host.Outcome State Fault Refusal :=
  lift (fun d => dispatchGated d ring 0x40 (fun d f => searchGo d ring f queries)) s

/-- The reply of a shard to a query: what arrived, or status 0xFF once it is missing. -/
def replyOf (s : Search) (shard q : Nat) : Option ShardRep := look s.replies (shard * 64 + q)

/-- Every shard has replied to every query, or is missing. -/
def searchReady (s : Search) : Bool :=
  s.asked.all (fun sh => (List.range s.vecs.length).all (fun q => (replyOf s sh q).isSome))

/-- Entries of one query, merged in the order of R329 across shards. -/
def mergeQuery (s : Search) (ownShard q : Nat) : List (Nat × Nat × Nat × F32) :=
  let own := (s.own.getD q (0, [])).2.map (fun e => (ownShard, e))
  let others := s.asked.flatMap (fun sh => match replyOf s sh q with
    | some r => if r.status = 0 then r.entries.map (fun e => (sh, e)) else []
    | none => [])
  (sortBy (fun (a b : Nat × Nat × Nat × F32) =>
    decide (fixOf a.2.2.2 < fixOf b.2.2.2) || (fixOf a.2.2.2 == fixOf b.2.2.2
      && (decide (a.1 < b.1) || (a.1 == b.1 && decide (a.2.2.1 < b.2.2.1))))) (own ++ others)).take s.k

/-- What the shard table shows of a shard: the first reply that is not OK, else the reply to the first query. -/
def shardShown (s : Search) (sh : Nat) : ShardRep :=
  let rs := (List.range s.vecs.length).filterMap (replyOf s sh)
  match rs.find? (fun r => r.status != 0) with
  | some r => r
  | none => rs.headD { status := 0xFF, base := 0, seq := 0, entries := [] }

/-- The output of a search (R327). -/
def searchOut (s : Search) (i : Idx) : List Byte :=
  let sharded := bitOf s.flags 0
  let shown := fun (k : Nat) => if k = i.shard then { status := 0, base := s.base, seq := s.seq, entries := [] } else shardShown s k
  let asked := if sharded then List.range i.shards else []
  let answered := asked.filter (fun k => (shown k).status == 0)
  let header := padTo 64 (fields [(1, 2), (s.vecs.length, 2), (s.k, 2), (asked.length, 1), (answered.length, 1), (s.seq, 8), (s.base, 4), (0, 4),
    (maskOf 64 asked, 8), (maskOf 64 answered, 8)])
  let table := if sharded then (List.range 64).flatMap (fun k =>
      if asked.contains k then fields [(k, 1), ((shown k).status, 1), (0, 2), ((shown k).base, 4), ((shown k).seq, 8)]
      else fields [(k, 1), (0xFE, 1), (0, 14)]) else []
  header ++ table ++ (List.range s.vecs.length).flatMap (fun q =>
    let es := mergeQuery s i.shard q
    padTo (16 + 24 * s.k) (fields [(es.length, 2), (0, 2), ((s.own.getD q (0, [])).1, 4), (0, 8)]
      ++ es.flatMap (fun e => entryBytes e.1 e.2)))

/-- A search leaves flight: base versions that it alone bound are freed (R335). -/
def dropSearch (d : Dev) (id : Nat) (s : Search) : Dev :=
  idxReap { d with fls := { d.fls with search := del d.fls.search id, queries := d.fls.queries + s.vecs.length } } s.index

/-- A search has every answer (R327, R339). -/
def searchEnd (d : Dev) (id : Nat) (s : Search) : Dev :=
  let i := idxOf d s.index
  let missing := sumN (s.asked.map (fun sh => ((List.range s.vecs.length).filter (fun q =>
    match replyOf s sh q with | some r => r.status != 0 | none => true)).length))
  let d := if missing = 0 then d
    else raiseMany (fbump (updAcct d i.client (fun a => { a with shards := a.shards + missing })) Fd.FLS_SEARCH_CNT_shard_missing missing)
      Fd.FLS_EVT_shard_missing missing
  match flightOf d s.ring s.flight with
  | none => dropSearch d id s
  | some f =>
    if bitOf s.flags 1 ∧ missing ≠ 0 then
      finish (dropSearch d id s) s.ring s.flight stBusyRetry (fget d Fd.FLS_SHARD_TIMEOUT_retry_after)
    else
      let n := sumN ((List.range s.vecs.length).map (fun q => (mergeQuery s i.shard q).length))
      finish (dropSearch (hostWrite d s.ring (db f.desc 40 8) (searchOut s i)) id s) s.ring s.flight stOK n

/-- `SEARCH_COMPLETE` (R327, R336, R339): a search in flight has its results; the faults met on the way act here. -/
def execSearchComplete (query : Nat) (incidents : List Incident) (s : State) : Host.Outcome State Fault Refusal :=
  lift (fun d => match look d.fls.search query with
    | none => d
    | some x =>
      if !searchReady x ∨ inReset d then d
      else
        let d := countChecks d incidents Fd.FLS_CHECK_CNT_transient Fd.FLS_CHECK_CNT_lasting Fd.FLS_EVT_check_transient
          Fd.FLS_EVT_check_lasting
        let d := suffer d incidents
        match look d.fls.search query with
        | none => d
        | some x =>
          if (lastingTile incidents).isSome then
            let r := idxHurt d x.index
            finish (dropSearch r.1 query x) x.ring x.flight stIntegrity r.2
          else if (idxOf d x.index).damaged then
            idxDamaged (dropSearch d query x) x.ring x.flight x.index
          else searchEnd d query x) s

/-! ### Shard messages -/

/-- Faults met as the chunks of an index are read (R176, R336): the checks are counted, and a lasting failure marks the index. -/
def chunkFaults (d : Dev) (n : Nat) (xs : List Incident) : Dev :=
  let d := countChecks d xs Fd.FLS_CHECK_CNT_transient Fd.FLS_CHECK_CNT_lasting Fd.FLS_EVT_check_transient Fd.FLS_EVT_check_lasting
  let d := suffer d xs
  if (lastingTile xs).isSome ∧ (idxOf d n).state ≠ 0 ∧ !(idxOf d n).damaged then (idxHurt d n).1 else d

/-- `SHARD_QUERY` (R338): the shard runs the query at once under the account of the index's owner and replies. A damaged index
is not served. -/
def execShardQuery (src query group index shard metric dim k beam budget : Nat) (test : Bool) (vector : List F32) (incidents : List Incident)
    (s : State) : Host.Outcome State Fault Refusal :=
  lift (fun d =>
    if inReset d ∨ d.sys.fatal ∨ d.lnk.fenced.contains src then d else
    let d := if (idxOf d index).state = 0 then d else chunkFaults d index incidents
    let i := idxOf d index
    let serves := fbit d Fd.FLS_CTL_enable && !unitInReset d 4 && (i.state == 2 || (i.state == 3 && test)) && !i.damaged
    let status := if !serves then 1
      else if i.group ≠ group ∨ i.dim ≠ dim ∨ i.metric ≠ metric then 2
      else if 2048 ≤ queriesInFlight d then 3 else 0
    let b := beamSearch i i.base i.seq beam budget ((vector ++ List.replicate (dim - vector.length) 0).take dim)
    let es := if status = 0 then beamResult i i.base i.seq k b else []
    let d := if status = 0 then
        let d := chargeNodes d i.client index i.base (b.seen.map Prod.fst)
        { d with fls := { d.fls with queries := d.fls.queries + 1 } }
      else d
    sendFrame d 5 0x50 src (if i.state = 0 then none else some i.client)
      (shardFrame 2 (b2n test) src query group index shard metric dim k beam budget status (if i.state = 0 then 0 else i.base.num)
        (if i.state = 0 then 0 else i.seq) es.length (es.flatMap (entryBytes shard)))) s

/-- `SHARD_REPLY` (R339): kept if its query still waits for it. -/
def execShardReply (src query shard status base sequence : Nat) (entries : List (Nat × Nat × F32)) (s : State) :
    Host.Outcome State Fault Refusal :=
  lift (fun d =>
    match look d.fls.search (query / 64) with
    | none => d
    | some x =>
      let home := ((idxOf d x.index).list.getD shard (0, 0)).1
      if !x.asked.contains shard ∨ x.vecs.length ≤ query % 64 ∨ (replyOf x shard (query % 64)).isSome ∨ home ≠ src
          ∨ d.lnk.fenced.contains src then d
      else
        let r : ShardRep := { status := status, base := base, seq := sequence, entries := entries }
        { d with fls := { d.fls with
            search := put d.fls.search (query / 64) { x with replies := put x.replies (shard * 64 + query % 64) r } } }) s

/-- A shard asked by a search has not answered in time (R339). -/
def shardOverdue (d : Dev) (query shard : Nat) : Dev :=
  match look d.fls.search (query / 64) with
  | none => d
  | some x =>
    if !x.asked.contains shard ∨ x.vecs.length ≤ query % 64 ∨ (replyOf x shard (query % 64)).isSome
        ∨ up d < x.sentAt + fget d Fd.FLS_SHARD_TIMEOUT_frames * 65536 then d
    else
      let r : ShardRep := { status := 0xFF, base := 0, seq := 0, entries := [] }
      { d with fls := { d.fls with
          search := put d.fls.search (query / 64) { x with replies := put x.replies (shard * 64 + query % 64) r } } }

/-- `SHARD_TIMEOUT` (R339): a reply has not arrived in time, and its shard is missing. -/
def execShardTimeout (query shard : Nat) (s : State) : Host.Outcome State Fault Refusal := lift (fun d => shardOverdue d query shard) s

/-! ### Inserts (R331, R332, R323) -/

/-- Insert the vectors of a command in input order: the index, the status words, the nodes evaluated, back-links dropped;
`free` numbers the node bits of rejected vectors, which the spec leaves open. -/
def insertAll (i : Idx) (dim free : Nat) : List (List Byte) → Idx × List Nat × List Nat × Nat
  | [] => (i, [], [], 0)
  | v :: vs =>
    let x := f32s ((v.drop 8).take (4 * dim))
    let bad := vecFault i.metric x
    if bad ≠ 0 then
      let r := insertAll { i with rejected := i.rejected + 1 } dim (free + 1) vs
      (r.1, (Config.free free % 2 ^ 36 + bad * 2 ^ 56) :: r.2.1, r.2.2.1, r.2.2.2)
    else
      let s := insertVec i (leAt v 0 8) x
      let r := insertAll s.1 dim free vs
      (r.1, i.next :: r.2.1, s.2.1 ++ r.2.2.1, s.2.2 + r.2.2.2)

/-- Vectors of a command that are taken. -/
def goodVectors (metric dim : Nat) (vs : List (List Byte)) : Nat :=
  (vs.filter (fun v => vecFault metric (f32s ((v.drop 8).take (4 * dim))) == 0)).length

/-- `VEC_INSERT` on an index that exists by now; `d0` is the device before a create. -/
def insertInto (d0 d : Dev) (ring : Nat) (f : Flight) (vectors : List Byte) (incidents : List Incident) : Dev :=
  let x := f.desc
  let n := dSel x % 256
  let i := idxOf d n
  let c := sqClient d ring
  let count := db x 60 2
  let vs := (List.range count).map (fun k => (vectors.drop (k * (8 + 4 * i.dim))).take (8 + 4 * i.dim))
  match lackT1 d c (count * (nodeSize i + 8 * i.degree)) with
  | some (true, _) => finish d0 ring f.id stQuota 0
  | some (false, _) => let (v, d0) := freshBelow d0 (2 ^ 32); finish d0 ring f.id stNoFit v
  | none =>
    if heldT1 d (count * (nodeSize i + 8 * i.degree)) then d0 else
    let good := goodVectors i.metric i.dim vs
    let live := sumN ((vals d.fls.idx).map liveVectors)
    if 2 ^ 36 < i.next + good ∨ 2 ^ 36 < live + good then
      let (v, d0) := freshBelow d0 (2 ^ 32)
      finish d0 ring f.id stNoFit v
    else
      let d := chunkFaults d n incidents
      if (idxOf d n).damaged then idxDamaged d ring f.id n else
      let r := insertAll i i.dim d.fresh vs
      let d := { d with fresh := d.fresh + (count - good) }
      let d := chargeNodes d c n i.base r.2.2.1
      let d := setIdx d n r.1
      let d := if r.2.2.2 = 0 then d
        else raiseMany (updAcct d c (fun a => { a with backlinks := a.backlinks + r.2.2.2 })) Fd.FLS_EVT_backlink_dropped r.2.2.2
      let d := chargeTier d c 1 (good * nodeSize i)
      let d := if db x 48 8 = 0 then d else hostWrite d ring (db x 48 8) (r.2.1.flatMap (leBytes 8))
      finish d ring f.id stOK (good + 2 ^ 16 * (count - good))

/-- `VEC_INSERT` from its second group of checks on. -/
def vecInsert (d : Dev) (ring : Nat) (f : Flight) (vectors params : List Byte) (incidents : List Incident) : Dev :=
  let x := f.desc
  let n := dSel x % 256
  let i := idxOf d n
  let c := sqClient d ring
  if idxForeign d n c then finish d ring f.id stSecurity 0
  else if db x 40 8 ≠ 0 then
    if i.state ≠ 0 then finish d ring f.id stStateConflict i.state
    else if !paramsOk params ∨ leAt params 2 2 ≠ db x 62 2 then finish d ring f.id stInvalidField 40
    else
      let (num, d1) := freshBelow d (2 ^ 32)
      let d1 := setIdx d1 n (newIdx params c (ownDevice d * 2 ^ 48 + d.mem.nextSerial) num)
      insertInto d { d1 with mem := { d1.mem with nextSerial := d.mem.nextSerial + 1 } } ring f vectors incidents
  else if i.state = 0 then finish d ring f.id stStateConflict 0
  else if i.damaged then idxDamaged d ring f.id n
  else if i.dim ≠ db x 62 2 then finish d ring f.id stStateConflict i.state
  else insertInto d d ring f vectors incidents

/-- `VEC_INSERT` (R331, R332). -/
def execVecInsert (ring : Nat) (vectors params : List Byte) (incidents : List Incident) (s : State) : Host.Outcome State Fault Refusal :=
  lift (fun d => dispatchGated d ring 0x41 (fun d f => vecInsert d ring f vectors params incidents)) s

/-! ### Deletes (R333) -/

/-- Tombstones for the nodes named, in order; each node answers whether it was found. -/
def deleteAll (i : Idx) : List Nat → Idx × List Bool
  | [] => (i, [])
  | v :: vs =>
    if returnable i i.base i.seq v then
      let r := deleteAll { i with tombs := put i.tombs v (i.seq + 1), seq := i.seq + 1 } vs
      (r.1, true :: r.2)
    else
      let r := deleteAll i vs
      (r.1, false :: r.2)

/-- `VEC_DELETE` from its second group of checks on. -/
def vecDelete (d : Dev) (ring : Nat) (f : Flight) (nodes : List Byte) : Dev :=
  let x := f.desc
  let n := dSel x % 256
  let i := idxOf d n
  if idxForeign d n (sqClient d ring) then finish d ring f.id stSecurity 0
  else if i.state = 0 then finish d ring f.id stStateConflict 0
  else if i.damaged then idxDamaged d ring f.id n
  else
    let vs := (List.range (db x 40 2)).map (fun k => leAt nodes (8 * k) 8 % 2 ^ 36)
    let r := deleteAll i vs
    let found := (r.2.filter id).length
    let d := setIdx d n r.1
    let d := if db x 48 8 = 0 then d else hostWrite d ring (db x 48 8) (r.2.map (fun b => if b then 0 else 1))
    finish d ring f.id stOK (found + 2 ^ 16 * (db x 40 2 - found))

/-- `VEC_DELETE` (R333). -/
def execVecDelete (ring : Nat) (nodes : List Byte) (s : State) : Host.Outcome State Fault Refusal :=
  lift (fun d => dispatchGated d ring 0x42 (fun d f => vecDelete d ring f nodes)) s

/-! ### Folds (R335) -/

/-- `INDEX_FOLD` from its second group of checks on: the new base version is formed from the state at dispatch, and its new
chunks take pages; the fold publishes later. It waits for another fold and for a move of the index. -/
def indexFold (d : Dev) (ring : Nat) (f : Flight) : Dev :=
  let n := dSel f.desc % 256
  let i := idxOf d n
  let c := sqClient d ring
  if idxForeign d n c then finish d ring f.id stSecurity 0
  else if i.state = 0 then finish d ring f.id stStateConflict 0
  else if i.damaged then idxDamaged d ring f.id n
  else if i.folding.isSome ∨ d.dly.groups.any (fun g => g.obj == .index n) then d
  else
    let b := foldBase i
    let t := if db f.desc 24 1 = 0 then i.tier else db f.desc 24 1
    let (fresh, shared) := foldChunks i b
    match alloc d c t fresh.length with
    | .quota _ => finish d ring f.id stQuota 0
    | .noFit _ => let (v, d) := freshBelow d (2 ^ 32); finish d ring f.id stNoFit v
    | .waits => d
    | .ok fs d =>
      let (ls, d) := locsAt d t fs
      let ps := (fresh.zip ls).foldl (fun (m : NMap Loc) kl => put m kl.1 kl.2)
        (shared.foldl (fun (m : NMap Loc) k => match look i.base.pages k with | some l => put m k l | none => m) [])
      let d := chargeNodes d c n i.base (keys (liveNodes i i.seq))
      let d := chargeTier d c t (pageSize * fresh.length)
      setIdx (dispatched d ring f.id) n { i with folding := some (ring, f.id, { b with pages := ps }) }

/-- `INDEX_FOLD` (R335). -/
def execIndexFold (ring : Nat) (s : State) : Host.Outcome State Fault Refusal :=
  lift (fun d => dispatchGated d ring 0x43 (fun d f => indexFold d ring f)) s

/-- A fold publishes: at one instant its base version becomes current and the changes it took in leave the side list. -/
def foldPublish (d : Dev) (n : Nat) : Dev :=
  let i := idxOf d n
  match i.folding with
  | none => d
  | some (ring, id, b) =>
    let i' := dropFolded { i with base := b, old := i.base :: i.old, folding := none } b.fold
    let d := raise (setIdx d n i') Fd.FLS_EVT_fold_done
    let d := programAt d (.index n) ((keys b.pages).filter (fun k => look b.pages k != look i.base.pages k))
    finish (idxReap d n) ring id stOK b.num

/-- `INDEX_FOLD_PUBLISH` (R335, R336): a fold that met a lasting failure publishes nothing. -/
def execIndexFoldPublish (index : Nat) (incidents : List Incident) (s : State) : Host.Outcome State Fault Refusal :=
  lift (fun d =>
    if (idxOf d index).folding.isNone ∨ inReset d then d
    else
      let d := countChecks d incidents Fd.FLS_CHECK_CNT_transient Fd.FLS_CHECK_CNT_lasting Fd.FLS_EVT_check_transient
        Fd.FLS_EVT_check_lasting
      let d := suffer d incidents
      match (idxOf d index).folding with
      | none => d
      | some (ring, id, _) =>
        let stop := fun (d : Dev) => setIdx d index { idxOf d index with folding := none }
        if (lastingTile incidents).isSome then
          let r := idxHurt (stop d) index
          finish r.1 ring id stIntegrity r.2
        else if incidents.contains .writeLasting then
          let r := report (stop d) {
            cls := clsUnit, unit := 8, action := 1, object := (idxOf d index).name, client := some (idxOf d index).client,
            status := stUnitFailed }
          finish r.1 ring id stUnitFailed r.2
        else if (idxOf d index).damaged then idxDamaged (stop d) ring id index
        else foldPublish d index) s

/-! ### FLS_IDX_STATE (R337, R340) -/

/-- A write to `FLS_IDX_STATE`: BUILDING, SERVING or TEST, for an index that exists. -/
def idxStateWrite (d : Dev) (v : Nat) : Dev :=
  let n := fget d Fd.FLS_IDX_SEL_index
  let st := v % 8
  if (st = 1 ∨ st = 2 ∨ st = 3) ∧ (idxOf d n).state ≠ 0 then
    setIdx (fset d Fd.FLS_IDX_STATE_state st) n { idxOf d n with state := st }
  else cfgIgnored d Rg.FLS_IDX_STATE

/-- `FLS_IDX_STATE_WRITE` (R337). -/
def execFlsIdxStateWrite (value : BitVec 32) (s : State) : Host.Outcome State Fault Refusal :=
  lift (fun d => if d.sys.portUp then idxStateWrite d value.toNat else d) s

end Sys2Proof.Machine
end

