-- ==== Sys2Proof/Machine/Loans.lean ====
section
/-!
DEFINITION. Sys2Proof/Machine/Loans.lean: neighbour-tier loans, lender's and borrower's side (12 R359 to R361; 10 R307), and
the disabling of ports (12 R365).
-/

namespace Sys2Proof.Machine

/-- Are the links at work? -/
def linksServe (d : Dev) : Bool := !inReset d && !d.sys.fatal && fbit d Fd.LNK_CTL_enable

/-- A loan message to another device. -/
def loanSend (d : Dev) (dst : Nat) (bytes : List Byte) : Dev := sendFrame d 3 0x30 dst none bytes

/-! ### The lender (R360, R361) -/

/-- Pages lent of a tier. -/
def lentPages (d : Dev) (t : Nat) : Nat :=
  sumN (((vals d.lnk.loans).filter (fun l => l.tier == t)).map (fun l => l.frames.length - l.freed.length))

/-- Pages of a tier that may still be lent; none while an erase runs over it (R309). -/
def lendRoom (d : Dev) (t : Nat) : Nat :=
  let most := 32 * (if t = 1 then fget d Fd.LNK_LEND_t1_mib else fget d Fd.LNK_LEND_t2_mib)
  min (most - lentPages d t) (min (freeBytes d t / pageSize) (openPages d t))

/-- Free frames of a tier for a loan. -/
def lendFrames (d : Dev) (t n : Nat) : List Nat × Dev :=
  if t = 2 then takeFar n (usedFrames d 2) d
  else
    let us := openUnits d t
    let used := ((usedFrames d t).filterMap (fun f => virtOf us f 0)).foldl (fun l f => insertN f l) []
    let (ps, d) := pickFree n (sumN (us.map (fun u => u.2))) used d
    (ps.map (frameOf us), d)

/-- Grant a loan of at most `pages` pages of a tier. -/
def lend (d : Dev) (src t pages : Nat) : Dev :=
  let n := min pages (lendRoom d t)
  let (fs, d) := lendFrames d t n
  let id := d.lnk.nextLoan
  let l : Loan := { borrower := src, tier := t, frames := fs }
  let d := { d with lnk := { d.lnk with loans := put d.lnk.loans id l, nextLoan := id + 1 } }
  loanSend d src (loanFrame 2 0 t 0 id 0 n (fget d Fd.LNK_RECALL_DEADLINE_frames) [])

/-- `LOAN_REQUEST` (R360): a grant from T1 first, then from T2, up to the room left; a device that leaves its domain, has
no room, or has recalled a loan of this borrower that is not closed (R361), refuses. -/
def execLoanRequest (src pages : Nat) (s : State) : Host.Outcome State Fault Refusal :=
  lift (fun d =>
    if !linksServe d ∨ d.lnk.fenced.contains src then d
    else if pages = 0 ∨ d.map.leaving ∨ (vals d.lnk.loans).any (fun l => l.borrower == src && l.recalled.isSome)
        ∨ (lendRoom d 1 = 0 ∧ lendRoom d 2 = 0) then
      loanSend d src (loanFrame 2 1 0 0 0 0 0 0 [])
    else lend d src (if lendRoom d 1 = 0 then 2 else 1) pages) s

/-- A loan to a device, and the page, if it is granted and not freed. -/
def loanPage (d : Dev) (src loan page : Nat) : Option Loan :=
  match look d.lnk.loans loan with
  | none => none
  | some l => if l.borrower = src ∧ page < l.frames.length ∧ !l.freed.contains page then some l else none

def setLoan (d : Dev) (loan : Nat) (l : Loan) : Dev := { d with lnk := { d.lnk with loans := put d.lnk.loans loan l } }

/-- `LOAN_PUT` (R359, R361): the sealed tiles are stored as they came. -/
def execLoanPut (src loan page : Nat) (mask : BitVec 8) (tiles : List Byte) (s : State) : Host.Outcome State Fault Refusal :=
  lift (fun d =>
    if !linksServe d ∨ d.lnk.fenced.contains src then d
    else match loanPage d src loan page with
      | none => d
      | some l =>
        let ts := (maskBits mask.toNat 8).zipIdx.foldl (fun (m : NMap (List Byte)) x =>
          put m (page * 8 + x.1) ((tiles.drop (4120 * x.2)).take 4120)) l.tiles
        let d := chargeTier (setLoan d loan { l with tiles := ts }) unattributed l.tier (4096 * (maskBits mask.toNat 8).length)
        loanSend d src (loanFrame 4 0 0 mask.toNat loan page 0 0 [])) s

/-- `LOAN_GET` (R359, R361): the tiles asked for, or GONE. -/
def execLoanGet (src loan page : Nat) (mask : BitVec 8) (s : State) : Host.Outcome State Fault Refusal :=
  lift (fun d =>
    if !linksServe d ∨ d.lnk.fenced.contains src then d
    else match loanPage d src loan page with
      | none => loanSend d src (loanFrame 6 2 0 0 loan page 0 0 [])
      | some l =>
        let have' := (maskBits mask.toNat 8).filter (fun t => (look l.tiles (page * 8 + t)).isSome)
        if have' ≠ maskBits mask.toNat 8 then loanSend d src (loanFrame 6 2 0 0 loan page 0 0 [])
        else
          let d := chargeTier d unattributed l.tier (4096 * have'.length)
          loanSend d src (loanFrame 6 0 0 mask.toNat loan page 0 0 (have'.flatMap (fun t => mget l.tiles [] (page * 8 + t))))) s

/-- `LOAN_FREE` (R359). -/
def execLoanFree (src loan page : Nat) (s : State) : Host.Outcome State Fault Refusal :=
  lift (fun d =>
    if !linksServe d ∨ d.lnk.fenced.contains src then d
    else match loanPage d src loan page with
      | none => d
      | some l => setLoan d loan { l with
          freed := insertN page l.freed, tiles := l.tiles.filter (fun (t : Nat × List Byte) => t.1 / 8 != page) }) s

/-- The named objects homed here with the epochs of their entries (R284, R285, R375): sessions under their own name and those of their
objects (log entry 20), table versions, indexes and snapshot objects. -/
def homedNames (d : Dev) : List (Nat × Nat) :=
  ((vals d.ctx.recs).filter (fun r => r.state != .closed && r.state != .expired && !r.inbound)).flatMap (fun r =>
      (List.range 7).map (fun k => (objName r k, r.epoch)))
    ++ (vals d.txt.tbl).flatMap (fun t => (t.cur.toList ++ t.staged.toList ++ t.old).map (fun v => (v.name, 0)))
    ++ ((vals d.fls.idx).filter (fun i => i.state != 0)).map (fun i => (i.name, i.epoch))
    ++ (if d.ckp.copies.isEmpty then [] else (vals d.ckp.snaps).map (fun n => (ownDevice d * 2 ^ 48 + n, 0)))

/-- How many named objects are homed here, items held for other devices included. -/
def homedCount (d : Dev) : Nat := (homedNames d).length + ((d.ckp.held.map (fun h => (h.origin, h.name))).dedup).length

/-- The map entry of a name that this device holds (R375): one noted as registrar, or that of an object homed here. -/
def mapEntry (d : Dev) (name : Nat) : Option RegEnt :=
  match look d.map.reg name with
  | some e => some e
  | none => ((homedNames d).find? (fun e => e.1 == name)).map (fun e => { home := ownDevice d, epoch := e.2 })

/-- Names whose entries this device holds as registrar. -/
def registeredCount (d : Dev) : Nat :=
  d.map.reg.length + ((homedNames d).filter (fun e => registrarOf d e.1 == ownDevice d && (look d.map.reg e.1).isNone)).length

/-- The member that orders changes of membership: the lowest; what concerns the steward itself goes to the next (R369). -/
def stewardFor (d : Dev) (dev : Option Nat) : Nat := (d.map.members.filter (fun m => some m != dev)).headD (ownDevice d)

/-- Bits [63:0] of the configuration digest (R384). -/
def digestPre (d : Dev) : Nat := d.map.digest.toNat % 2 ^ 64

/-- The 64-byte header of a handoff or map message (R379). -/
def mapBytes (d : Dev) (typ reason handoff name epoch device client recipeId version pages handle : Nat) : List Byte :=
  fields [(typ, 1), (reason, 1), (0, 2), (handoff, 4), (name, 8), (epoch, 4), (device, 2), (client, 2), (recipeId, 8), (version, 4),
    (pages, 4), (handle, 4), (d.map.domEpoch, 4), (fget d Fd.MAP_CFG_compat, 8), (digestPre d, 8)]

/-- Send a message of the map on TC0 under protocol 0x01; one to the device itself leaves no port. -/
def mapSend (d : Dev) (dst : Nat) (bytes : List Byte) : Dev :=
  if dst = ownDevice d then send d (.frame 0 1 dst bytes) else sendFrame d 0 1 dst none bytes

/-- A leave that waits goes out once no loan of its own remains and the device is home to no object (R374). -/
def leaveTry (d : Dev) : Dev :=
  if d.map.leaving ∧ d.lnk.loans.isEmpty ∧ homedCount d = 0 then
    mapSend { d with map := { d.map with leaving := false } } (stewardFor d none)
      (mapBytes d 0x22 0 0 0 d.map.domEpoch (ownDevice d) 0 0 0 0 0)
  else d

/-- `LOAN_RETURN` (R359): the loan is closed. -/
def execLoanReturn (src loan : Nat) (s : State) : Host.Outcome State Fault Refusal :=
  lift (fun d =>
    if !linksServe d ∨ d.lnk.fenced.contains src then d
    else match look d.lnk.loans loan with
      | none => d
      | some l => if l.borrower = src then leaveTry { d with lnk := { d.lnk with loans := del d.lnk.loans loan } } else d) s

/-- Recall one loan (R361). -/
def recallLoan (d : Dev) (loan : Nat) : Dev :=
  match look d.lnk.loans loan with
  | none => d
  | some l =>
    if l.recalled.isSome then d
    else
      let n := fget d Fd.LNK_RECALL_DEADLINE_frames
      loanSend (setLoan d loan { l with recalled := some (up d, n) }) l.borrower (loanFrame 8 0 0 0 loan 0 0 n [])

/-- Recall every loan (R361). -/
def recallAll (d : Dev) : Dev := (keys d.lnk.loans).foldl recallLoan d

/-- A write to `LNK_RECALL` (R361, R364). -/
def lnkRecall (d : Dev) (v : Nat) : Dev := if v = 0xFFFFFFFF then recallAll d else recallLoan d v

/-- `LNK_RECALL` (R361). -/
def execLnkRecall (loan : BitVec 32) (s : State) : Host.Outcome State Fault Refusal :=
  lift (fun d => if d.sys.portUp then lnkRecall d loan.toNat else d) s

/-! ### The borrower (R307, R360, R361) -/

/-- Key of a loan taken. -/
def loanKey (lender loan : Nat) : Nat := lender * 2 ^ 32 + loan

/-- `LOAN_GRANT` (R360): the answer of the lender that was asked. -/
def execLoanGrant (src loan tier pages deadline : Nat) (refused : Bool) (s : State) : Host.Outcome State Fault Refusal :=
  lift (fun d =>
    let _ := deadline
    if inReset d ∨ d.lnk.fenced.contains src ∨ !d.lnk.asked.contains src then d
    else
      let d := { d with lnk := { d.lnk with asked := d.lnk.asked.erase src } }
      if refused ∨ pages = 0 then { d with lnk := { d.lnk with refused := src :: d.lnk.refused } }
      else
        let b : Borrow := { tier := tier, pages := pages }
        { d with lnk := { d.lnk with borrows := put d.lnk.borrows (loanKey src loan) b, refused := [] } }) s

/-- The mover that waits for a page of a loan: with `get`, for the page's tiles; otherwise for the acknowledgement. -/
def loanMover (d : Dev) (key page : Nat) (get : Bool) : Option (Nat × QPage) :=
  d.dly.movers.find? (fun (m : Nat × QPage) =>
    let src := match grpOf d m.2.group with | some g => look (objPages d g.obj) m.2.page | none => none
    let here := fun (l : Loc) => l.tier == 3 && t3Key l == key && t3Page l == page
    if get then m.2.await == 1 && (match src with | some l => here l | none => false) else m.2.await == 2 && here m.2.dest)

/-- A mover goes on. -/
def moverNext (d : Dev) (n : Nat) (p : QPage) (await : Nat) : Dev :=
  { d with dly := { d.dly with movers := put d.dly.movers n { p with await := await } } }

/-- `LOAN_PUT_ACK` (R359): the lender has stored the page. -/
def execLoanPutAck (src loan page : Nat) (s : State) : Host.Outcome State Fault Refusal :=
  lift (fun d =>
    if d.lnk.fenced.contains src then d
    else match loanMover d (loanKey src loan) page false with
      | none => d
      | some (n, p) => moverNext d n p 0) s

/-- Pages on loan that satisfy `p` are lost (R307): every session concerned suffers a pool loss (R227). -/
def loseLoan (d : Dev) (p : Loc → Bool) : Dev := loseLocs d (fun l => l.tier == 3 && p l) 7

/-- `LOAN_DATA` (R359, R361): the tiles of a page asked for have come; a page bound for another lender goes on to it. A page that
is GONE is lost. -/
def execLoanData (src loan page : Nat) (gone : Bool) (tiles : List Byte) (s : State) : Host.Outcome State Fault Refusal :=
  lift (fun d =>
    let _ := tiles
    if d.lnk.fenced.contains src then d
    else match loanMover d (loanKey src loan) page true with
      | none => d
      | some (n, p) =>
        if gone then loseLoan d (fun l => t3Key l == loanKey src loan && t3Page l == page)
        else if p.dest.tier = 3 then
          match grpOf d p.group with
          | none => d
          | some g => putFrame (moverNext d n p 2) (objClient d g.obj) (usedTiles d g.obj p.page) p.dest (sealPage d g.obj p.page p.dest.ctr)
        else moverNext d n p 0) s

/-- `LOAN_RECALL` (R307, R361): every page of the loan is queued to come home. -/
def execLoanRecall (src loan deadline : Nat) (s : State) : Host.Outcome State Fault Refusal :=
  lift (fun d =>
    let key := loanKey src loan
    if d.lnk.fenced.contains src then d
    else match look d.lnk.borrows key with
      | none => d
      | some b =>
        let d := { d with lnk := { d.lnk with borrows := put d.lnk.borrows key { b with recalled := some (up d, deadline) } } }
        let d := raise d Fd.LNK_EVT_recall_received
        let queued := (keys d.ctx.recs).filter (fun i => (recLocs (recOf d i)).any (fun l => l.tier == 3 && t3Key l == key))
        let d := queued.foldl (fun d i =>
          promote d (.session i) (((recOf d i).pages.filter (fun (p : Nat × Loc) => p.2.tier == 3 && t3Key p.2 == key)).map Prod.fst) 3) d
        queued.foldl bringHome d) s

/-- Has a recall's deadline passed? -/
def recallOver (d : Dev) (r : Option (Nat × Nat)) : Bool :=
  match r with
  | some (t, n) => decide (t + n * 65536 ≤ up d)
  | none => false

/-- The deadline of a recalled loan has passed, at the lender or at the borrower (R361). -/
def recallOverdue (d : Dev) (src loan : Nat) (lent : Bool) : Dev :=
  if lent then
    match look d.lnk.loans loan with
    | some l => if recallOver d l.recalled then leaveTry { d with lnk := { d.lnk with loans := del d.lnk.loans loan } } else d
    | none => d
  else
    let key := loanKey src loan
    match look d.lnk.borrows key with
    | none => d
    | some b =>
      if !recallOver d b.recalled then d
      else
        let held := (heldLocs d).any (fun p => p.2.tier == 3 && t3Key p.2 == key)
        let d := if held then raise d Fd.DLY_EVT_recall_missed else d
        let d := loseLoan d (fun l => t3Key l == key)
        { d with lnk := { d.lnk with borrows := del d.lnk.borrows key } }

/-- `LOAN_RECALL_DEADLINE` (R307, R361): the lender frees the loan; a page the borrower still has on it is lost. -/
def execLoanRecallDeadline (src loan : Nat) (lent : Bool) (s : State) : Host.Outcome State Fault Refusal := lift (fun d => recallOverdue d src loan lent) s

/-! ### Disabling ports (R365) -/

/-- A matched `LNK_PORT_DISABLE` write: the ports named start no new frame, and leave service once what they have started is
through. -/
def portDisable (d : Dev) (v : Nat) : Dev :=
  let d := unguard d Rg.LNK_PORT_DISABLE_A
  let ps := (maskBits v 16).filter (fun p => (portOf d p).up && !(portOf d p).disabling)
  if d.sys.stage < 7 ∨ d.sys.stage = 15 ∨ ps.isEmpty then cfgIgnored d Rg.LNK_PORT_DISABLE_A
  else ps.foldl (fun d p =>
    let d := setPort d p { portOf d p with disabling := true }
    if (portOf d p).inflight.isEmpty then retirePort d p else d) d

/-- `LNK_PORT_DISABLE` (R365). -/
def execLnkPortDisable (value : BitVec 32) (s : State) : Host.Outcome State Fault Refusal :=
  lift (fun d => if d.sys.portUp then portDisable d value.toNat else d) s

end Sys2Proof.Machine
end

