-- ==== Sys2Proof/Machine/Ends.lean ====
section
/-!
DEFINITION. Sys2Proof/Machine/Ends.lean: operations that end before they are done: cuts at ERROR (02 R44) and isolation (13
R373), a unit that does not drain (03 R103), erased keys (16 R446); the discarding of slates (14 R392, R409).
-/

namespace Sys2Proof.Machine

/-! ### Slates (R392, R395, R409) -/

/-- Does a slate refer to a copy? -/
def slateRefers (s : Slate) (k : Nat) : Bool :=
  s.own.any (fun c => s.num * 2 ^ 32 + c == k) || s.shards.any (fun h =>
    h.pages.any (fun p => p.slate * 2 ^ 32 + p.copy == k) || h.image.any (fun c => c.1 * 2 ^ 32 + c.2 == k))

/-- Free every page copy that no retained slate and no open slate refers to (R395). -/
def sweepCopies (d : Dev) : Dev :=
  let all := d.ckp.kept ++ (d.ckp.openSlate.map (fun o => o.slate)).toList
  { d with ckp := { d.ckp with copies := d.ckp.copies.filter (fun (c : Nat × Loc) => all.any (fun s => slateRefers s c.1)) } }

/-- Tell the buddy that a slate is discarded (R401). -/
def buddyForget (d : Dev) (n : Nat) : Dev :=
  if fbit d Fd.CKP_CFG_buddy_valid then
    sendFrame d 4 0x40 (ownBuddy d) none (buddyBytes 3 0 n (ownDevice d) 0 0 0 [])
  else d

/-- The open slate is abandoned (R392); `release` if the buddy's copies are freed too (R101). -/
def abandonSlate (d : Dev) (release : Bool) : Dev :=
  match d.ckp.openSlate with
  | none => d
  | some o =>
    let d := sweepCopies { d with ckp := { d.ckp with openSlate := none, emergency := false } }
    let d := if release then buddyForget d o.slate.num else d
    raise (fbump d Fd.CKP_SLATE_CNT_abandoned) Fd.CKP_EVT_slate_abandoned

/-- Discard a committed slate with the copies that only it refers to (R400, R409). -/
def discardSlate (d : Dev) (n : Nat) : Dev :=
  buddyForget (sweepCopies { d with ckp := { d.ckp with kept := d.ckp.kept.filter (fun s => s.num != n) } }) n

/-- Discard every retained slate. -/
def discardAll (d : Dev) : Dev := (d.ckp.kept.map (fun s => s.num)).foldl discardSlate d

/-! ### Dispatched operations -/

/-- The work in a slot ends with a status and commits nothing; with `drops`, as a cut does it, the layer engines are told (R224). -/
def stopSlot (d : Dev) (s st res : Nat) (drops : Bool) : Dev :=
  match (slotOf d s).work with
  | none => d
  | some w => endWork (if drops then sendDrops d s w else d) s st res 0 0

/-- All work in contexts ends. -/
def stopWork (d : Dev) (st res : Nat) (drops : Bool) : Dev := (keys d.ctx.slots).foldl (fun d s => stopSlot d s st res drops) d

/-- The move groups that satisfy `p` end without publishing; edits that waited for their movers publish. -/
def stopMoves (d : Dev) (p : MoveGrp → Bool) (st res : Nat) : Dev :=
  let d := (d.dly.groups.filter p).foldl (fun d g => match grpOf d g.id with | some g => endGroup d g st res | none => d) d
  (keys d.ctx.recs).foldl publishEdits d

/-- The commands that wait for a session's work to end (a pause, a park, a trim) end with a status. -/
def stopWaiters (d : Dev) (i st res : Nat) : Dev :=
  let r := recOf d i
  let cmds := r.pausing.toList ++ r.parking.toList
    ++ r.edits.filterMap (fun e => match e with | .trim _ a b => some (a, b) | _ => none)
  if cmds.isEmpty then d
  else
    let d := updRec d i (fun r => { r with
      pausing := none, parking := none, edits := r.edits.filter (fun e => match e with | .trim _ _ _ => false | _ => true) })
    cmds.foldl (fun d c => finish d c.1 c.2 st res) d

/-- All searches and folds end. -/
def stopSearches (d : Dev) (st res : Nat) : Dev :=
  let d := d.fls.search.foldl (fun d (x : Nat × Search) => finish (dropSearch d x.1 x.2) x.2.ring x.2.flight st res) d
  (keys d.fls.idx).foldl (fun d n => match (idxOf d n).folding with
    | some (ring, id, _) => finish (setIdx d n { idxOf d n with folding := none }) ring id st res
    | none => d) d

/-- The restores that commands wait for end; their sessions are as they were. A restore after a pool loss goes on. -/
def stopRestores (d : Dev) (st res : Nat) : Dev :=
  let d := d.ckp.restores.foldl (fun d (x : Nat × Restore) =>
    if x.2.answers then
      let d := dropRestore d x.1
      finish (updRec d x.1 (fun r => { r with state := x.2.before, restoring := false })) x.2.ring x.2.flight st res
    else d) d
  match d.ckp.devRestore with
  | some v => finish { d with ckp := { d.ckp with devRestore := none } } v.ring v.flight st res
  | none => d

/-- Every descriptor that satisfies `p` and has not ended ends with a status. -/
def endFlights (d : Dev) (p : Desc → Bool) (st res : Nat) : Dev :=
  settle ((busyRings d).foldl (fun d r =>
    let q := sqOf d r
    setSq d r { q with flights := q.flights.map (fun f =>
      if f.phase ≠ .done ∧ p f.desc then { f with phase := .done, status := st, result := res } else f) }) d)

/-- Every dispatched operation is cut, which commits nothing. -/
def cutAll (d : Dev) (st res : Nat) : Dev :=
  let d := stopWork d st res true
  let d := (keys d.ctx.recs).foldl (fun d i => stopWaiters d i st res) d
  stopRestores (stopSearches (stopMoves d (fun g => g.answers) st res) st res) st res

/-- Close every ring: descriptors that have not been delivered are gone. -/
def closeRings (d : Dev) : Dev :=
  let d := ((List.range 512).filter (sqOpenBit d)).foldl (fun d n => fset d Fd.SEQ_SQ_CFG_open 0 n) d
  let d := ((List.range 512).filter (cqOpenBit d)).foldl (fun d n => fset d Fd.SEQ_CQ_CFG_open 0 n) d
  let d := ((List.range 4096).filter (strOpenBit d)).foldl (fun d n => fset d Fd.SEQ_STR_CFG_open 0 n) d
  let d := fset d Fd.FLT_LOG_CFG_open 0
  let d := clients.foldl (fun d c => fset d Fd.FLT_CLIENT_CFG_open 0 c) d
  { d with seq := { d.seq with sq := [], cq := [], str := [] } }

/-! ### Units that do not drain (R101, R103) -/

/-- Does a session have pages in T2? -/
def usesFar (d : Dev) (i : Nat) : Bool := (recLocs (recOf d i)).any (fun l => l.tier == 2)

/-- Does a move group go from or to a tier? -/
def groupUses (d : Dev) (tier : Nat) (g : MoveGrp) : Bool :=
  (destLocs d).any (fun e => e.1 == g.id && e.2.tier == tier)
    || g.left.any (fun k => match look (objPages d g.obj) k with | some l => l.tier == tier | none => false)

/-- Slots whose work needs a unit. -/
def slotsOn (d : Dev) (u : Nat) : List Nat :=
  (d.ctx.slots.filter (fun (x : Nat × Slot) => x.2.work.isSome && (decide (u ≤ 2) || (u == 8 && usesFar d x.2.rcd)))).map Prod.fst

/-- Move groups that need a unit. -/
def groupOn (d : Dev) (u : Nat) (g : MoveGrp) : Bool :=
  u == 3 || (u == 4 && groupUses d 4 g) || (u == 8 && groupUses d 2 g)

/-- Is an operation in flight on a unit? -/
def unitBusy (d : Dev) (u : Nat) : Bool :=
  !(slotsOn d u).isEmpty || d.dly.groups.any (groupOn d u)
    || (u == 4 && (!d.fls.search.isEmpty || (vals d.fls.idx).any (fun i => i.folding.isSome)))
    || (u == 5 && (d.ckp.openSlate.isSome || !d.ckp.restores.isEmpty || d.ckp.devRestore.isSome))

/-- The source unit of fault records of a resettable unit (R101, R472). -/
def faultUnit (u : Nat) : Nat := [3, 9, 10, 7, 8, 13, 14, 16, 6].getD u 0

/-- The report of an operation on an object of a client that a unit ends: the completion carries the client-view sequence (R62, R476). -/
def endReport (d : Dev) (cls unit name handle client : Nat) : Dev × Nat :=
  report d { cls := cls, unit := unit, action := 1, object := name, handle := handle, client := some client, status := stUnitFailed }

/-- The same for an object that moves. -/
def endReportOf (d : Dev) (cls unit : Nat) (o : MoveOf) : Dev × Nat :=
  match o with
  | .session i | .restore i => endReport d cls unit (recOf d i).name (handleOf d i) (recOf d i).client
  | .table n v => endReport d cls unit (match verOf d n v with | some x => x.name | none => 0) 0 (objClient d o)
  | .index n => endReport d cls unit (idxOf d n).name 0 (idxOf d n).client

/-- The work in a slot ends with `UNIT_FAILED`, with a report of its own. -/
def failSlot (d : Dev) (cls unit s : Nat) : Dev :=
  if (slotOf d s).work.isNone then d
  else
    let (d, n) := endReportOf d cls unit (.session (slotOf d s).rcd)
    stopSlot d s stUnitFailed n false

/-- The searches and folds of the indexes that satisfy `p` end with `UNIT_FAILED`, each with a report of its own. -/
def failSearches (d : Dev) (cls unit : Nat) (p : Idx → Bool) : Dev :=
  let d := (d.fls.search.filter (fun (x : Nat × Search) => p (idxOf d x.2.index))).foldl (fun d (x : Nat × Search) =>
    let (d, n) := endReportOf d cls unit (.index x.2.index)
    finish (dropSearch d x.1 x.2) x.2.ring x.2.flight stUnitFailed n) d
  ((keys d.fls.idx).filter (fun k => p (idxOf d k))).foldl (fun d k => match (idxOf d k).folding with
    | some (ring, id, _) =>
      let (d, n) := endReportOf d cls unit (.index k)
      finish (setIdx d k { idxOf d k with folding := none }) ring id stUnitFailed n
    | none => d) d

/-- The moves that satisfy `p` end with `UNIT_FAILED`, each with a report of its own. -/
def failMoves (d : Dev) (cls unit : Nat) (p : MoveGrp → Bool) : Dev :=
  (d.dly.groups.filter p).foldl (fun d g => match grpOf d g.id with
    | some g =>
      let (d, n) := endReportOf d cls unit g.obj
      endGroup d g stUnitFailed n
    | none => d) d

/-- A restore in device mode ends with `UNIT_FAILED`. -/
def failDevRestore (d : Dev) (cls unit : Nat) : Dev :=
  match d.ckp.devRestore with
  | some v =>
    let (d, n) := report { d with ckp := { d.ckp with devRestore := none } } {
      cls := cls, unit := unit, action := 1, client := some (sqClient d v.ring), status := stUnitFailed }
    finish d v.ring v.flight stUnitFailed n
  | none => d

/-- The restores that commands wait for end with `UNIT_FAILED`; their sessions are as they were. -/
def failRestores (d : Dev) (cls unit : Nat) : Dev :=
  d.ckp.restores.foldl (fun d (x : Nat × Restore) =>
    if x.2.answers then
      let (d, n) := endReportOf d cls unit (.session x.1)
      let d := dropRestore d x.1
      finish (updRec d x.1 (fun r => { r with state := x.2.before, restoring := false })) x.2.ring x.2.flight stUnitFailed n
    else d) d

/-- Every operation in flight on a unit ends with `UNIT_FAILED` and commits nothing. -/
def endUnit (d : Dev) (u : Nat) : Dev :=
  let f := faultUnit u
  let d := (slotsOn d u).foldl (fun d s => failSlot d clsUnit f s) d
  let d := failMoves d clsUnit f (groupOn d u)
  let d := (keys d.ctx.recs).foldl publishEdits d
  let d := if u = 4 then failSearches d clsUnit f (fun _ => true) else d
  if u = 5 then failDevRestore (failRestores d clsUnit f) clsUnit f else d

/-! ### Zeroisation (R446) -/

/-- Announce the link KEM key to the other members (R433). -/
def announceKey (d : Dev) : Dev :=
  match d.sec.linkKem with
  | none => d
  | some k => (d.map.members.filter (fun m => m != ownDevice d)).foldl (fun d m =>
      sendFrame d 7 0x70 m none (padTo 8 [0x30] ++ d.sec.statement ++ d.sec.attCert ++ d.sec.kemCert ++ linkPublic k)) d

/-- A record expires because its key is erased: its client is told, and its work and waiting commands end with `UNIT_FAILED`, with
the sequence of that notice (R476). -/
def zeroRecord (d : Dev) (i : Nat) : Dev :=
  let r := recOf d i
  if r.state = .closed then d
  else
    let (d, n) := report d { cls := clsKeys, unit := 14, action := 0, object := r.name, handle := handleOf d i, client := some r.client }
    let d := match r.slot with | some s => stopSlot d s stUnitFailed n false | none => d
    let d := endWaiters d i stUnitFailed n
    let d := match look d.ckp.restores i with
      | some x =>
        let d := endStopped (dropRestore d i) i stUnitFailed n x.ends
        if x.answers then finish d x.ring x.flight stUnitFailed n else d
      | none => d
    let d := if r.state = .expired then d else fbump (expireRec d i false) Fd.CTX_CNT_expired
    updRec d i (fun r => { r with key := 0, restoring := false, group := none })

/-- Group 0: session storage keys. -/
def zeroSessions (d : Dev) : Dev :=
  let d := failDevRestore ((keys d.ctx.recs).foldl zeroRecord d) clsKeys 14
  discardAll (abandonSlate { d with map := { d.map with inb := [] } } false)

/-- Group 1: weight keys. What lay in T0 is erased with them. -/
def zeroWeights (d : Dev) : Dev :=
  let d := (keys d.ctx.slots).foldl (fun d s => failSlot d clsKeys 14 s) d
  let d := (keys d.fab.rcp).foldl (fun d n =>
    let u := (rcpOf d n).unloader
    let d := setRcp d n { gen := (rcpOf d n).gen }
    -- its entries have ended: a recipe that was being unloaded is free (R152)
    match u with | some (ring, id) => finish d ring id stOK 0 | none => d) d
  let d := { d with sec := { d.sec with weight := [] } }
  let keep := fun (v : TVer) => !v.wrapped
  let d := (keys d.txt.tbl).foldl (fun d n =>
    let t := tblOf d n
    let moving := d.dly.groups.filter (fun g => match g.obj with | .table m v => m == n && (match verOf d n v with | some x => x.wrapped | none => true) | _ => false)
    let d := moving.foldl (fun d g =>
      let (d, k) := endReportOf d clsKeys 14 g.obj
      endGroup d g stUnitFailed k) d
    setTbl d n { t with cur := t.cur.filter keep, staged := t.staged.filter keep, old := t.old.filter keep }) d
  redigest (loseLocs d (fun l => l.tier == 0) 14)

/-- Group 2: storage and checkpoint keys. What reads or writes tables and indexes outside the package, or slates, ends. -/
def zeroStorage (d : Dev) : Dev :=
  let out := fun (l : Loc) => decide (2 ≤ l.tier)
  let d := failSearches d clsKeys 14 (fun i => (idxLocs i).any out)
  let d := failMoves d clsKeys 14 (fun g => (match g.obj with | .table _ _ | .index _ => true | _ => false)
    && (groupUses d 2 g || groupUses d 4 g))
  let d := discardAll (abandonSlate (failRestores d clsKeys 14) false)
  let (sto, d) := draw d
  let (ck, d) := draw d
  let d := { d with sec := { d.sec with storageKey := sto, ckptKey := ck } }
  let d := hurtTables d (fun _ v => (vals v.pages).any out)
  let d := { d with fls := { d.fls with idx := d.fls.idx.map (fun (e : Nat × Idx) => (e.1,
    if (idxLocs e.2).any out then { e.2 with damaged := true } else e.2)) } }
  ((d.ctx.recs.filter (fun (e : Nat × Rec) => (recLocs e.2).any (fun l => l.tier == 4))).map Prod.fst).foldl (fun d i => poolLoss d i 14) d

/-- A zeroisation of groups begins: it is counted, and its effects are complete at `ZEROISE_DONE`. -/
def zeroMark (d : Dev) (groups : Nat) : Dev :=
  let d := fset (fbump d Fd.SEC_ZERO_STAT_count) Fd.SEC_ZERO_STAT_last groups
  { d with sec := { d.sec with zeroing := some ((d.sec.zeroing.getD 0) ||| groups), zeroAt := up d } }

/-! ### The interface in ERROR (R44) -/

/-- The interface enters ERROR: dispatched operations are cut, and nothing more is written to the host. -/
def errorEntry (d : Dev) : Dev :=
  let d := cutAll (raise { d with hst := { d.hst with tdisp := .error } } Fd.HST_EVT_tdisp_error) stCut 0
  endFlights d (fun _ => true) stCut 0

/-- The interface enters ERROR, and groups 0 and 1 are zeroised. -/
def enterError (d : Dev) : Dev :=
  if d.hst.tdisp = .error then d else zeroWeights (zeroSessions (zeroMark (errorEntry d) 3))

end Sys2Proof.Machine
end

