-- ==== Sys2Proof/Machine/Slices.lean ====
section
/-!
DEFINITION. Sys2Proof/Machine/Slices.lean: the composition of slices (13 R366 to R368) and the retirement of an array by
software (04 R134).
-/

namespace Sys2Proof.Machine

def sliceOf (d : Dev) (s : Nat) : Slice := mget d.fab.slice {} s
def setSlice (d : Dev) (s : Nat) (x : Slice) : Dev := { d with fab := { d.fab with slice := mset d.fab.slice {} s x } }

/-- The staged composition of a slice: arrays and banks (R366). -/
def stagedArrays (d : Dev) (s : Nat) : List Nat :=
  maskBits (fget d Fd.MAP_SLICE_ARR0_arrays s + fget d Fd.MAP_SLICE_ARR1_arrays s * 2 ^ 64 + fget d Fd.MAP_SLICE_ARR2_arrays s * 2 ^ 128) 144
def stagedBanks (d : Dev) (s : Nat) : List Nat := maskBits (fget d Fd.MAP_SLICE_BANKS_banks s) 48

/-- Does another slice hold one of these arrays or banks, one that it is about to take or give up included? -/
def overlaps (d : Dev) (s : Nat) (arrays banks : List Nat) : Bool :=
  d.fab.slice.any (fun (x : Nat × Slice) =>
    let held := x.2.next.getD ([], [])
    x.1 != s && (arrays.any (fun a => x.2.arrays.contains a || held.1.contains a)
      || banks.any (fun b => x.2.banks.contains b || held.2.contains b)))

/-- The result of an apply (R367): 0 OK, 1 STAGE, 2 OVERLAP, 3 RETIRED, 4 FOOTPRINT, 5 EMPTY. -/
def applyResult (d : Dev) (s : Nat) (arrays banks : List Nat) : Nat :=
  let held := (sliceRecipes d s).flatMap (fun r => r.banks)
  if d.sys.stage ≠ 8 then 1
  else if overlaps d s arrays banks then 2
  else if arrays.any (arrRetired d) ∨ banks.any (bankRetired d) then 3
  else if held.any (fun b => (sliceOf d s).banks.contains b && !banks.contains b) then 4
  else if arrays.isEmpty ∧ !(sliceRecipes d s).isEmpty then 5
  else 0

/-- A write to `MAP_SLICE_APPLY` (R366 to R368): removed arrays and banks take nothing new from here; the new composition is in
force at `SLICE_APPLY_DONE`. -/
def sliceApply (d : Dev) : Dev :=
  let s := fget d Fd.MAP_SLICE_SEL_slice
  let x := sliceOf d s
  if x.next.isSome then cfgIgnored d Rg.MAP_SLICE_APPLY
  else
    let arrays := stagedArrays d s
    let banks := stagedBanks d s
    let res := applyResult d s arrays banks
    if res ≠ 0 then setSlice d s { x with result := res }
    else setSlice d s { x with next := some (arrays, banks), result := 0 }

/-- `MAP_SLICE_APPLY` (R366, R367). -/
def execMapSliceApply (s : State) : Host.Outcome State Fault Refusal :=
  lift (fun d => if d.sys.portUp then sliceApply d else d) s

/-- The end of an apply (R368): no entry runs on a removed array any more, and the run-time pages of removed banks have moved and their
new places are published (R286); until then, and with no room for them yet, it goes on. -/
def sliceApplied (d : Dev) (s : Nat) : Dev :=
  let x := sliceOf d s
  match x.next with
  | none => d
  | some (arrays, banks) =>
    let gone := x.arrays.filter (fun a => !arrays.contains a)
    if d.fab.teams.any (fun t => t.arrays.any (fun a => gone.contains a)) then d
    else match vacate d (x.banks.filter (fun b => !banks.contains b)) with
      | none => d
      | some d =>
        let d := publishMoved d
        if bankHeld d (x.banks.filter (fun b => !banks.contains b)) then d
        else strandCheck (setSlice d s { x with arrays := arrays, banks := banks, next := none })

/-- `SLICE_APPLY_DONE` (R368). -/
def execSliceApplyDone (slice : Nat) (s : State) : Host.Outcome State Fault Refusal :=
  lift (fun d => if inReset d then d else sliceApplied d slice) s

/-- A matched `ARR_RETIRE` write (R134): refused for an array retired already, above 143, or before stage REPAIRED. -/
def arrRetire (d : Dev) (v : Nat) : Dev :=
  let d := unguard d Rg.ARR_RETIRE_A
  let a := v % 256
  if 143 < a ∨ arrRetired d a ∨ d.sys.stage < 3 ∨ d.sys.stage = 15 then cfgIgnored d Rg.ARR_RETIRE_A
  else retireArray d a 4

/-- `ARR_RETIRE` (R134). -/
def execArrRetire (value : BitVec 32) (s : State) : Host.Outcome State Fault Refusal :=
  lift (fun d => if d.sys.portUp then arrRetire d value.toNat else d) s

end Sys2Proof.Machine
end

