-- ==== Sys2Proof/Machine/Timecode.lean ====
section
/-!
DEFINITION. Sys2Proof/Machine/Timecode.lean: house timecode (12 R362, R363; 17 R466, R467, R503). Stamps are
in 1/64 subframe: 1 ns is 4.194304 of them.
-/

namespace Sys2Proof.Machine

def setTc (d : Dev) (t : Tc) : Dev := { d with tc := t }

/-- Stage TIME sets the counter (R503): spans of frames that began before move with the step. -/
def tcLoad (d : Dev) (t : Tc) : Dev :=
  let e := setTc d { t with loaded := true, slew := 0, state := 1 }
  setTc e { e.tc with step := (now e : Int) - up d }

/-- The role: 1 master (R466). -/
def tcMaster (d : Dev) : Bool := fbit d Fd.MTR_TC_CFG_role

/-- The timecode service runs (R468): `MTR_CTL.enable` (log entry 10). -/
def tcServes (d : Dev) : Bool := !d.sys.resetLow && fbit d Fd.MTR_CTL_enable

/-- Nanoseconds in units of 1/64 subframe, rounded down. -/
def nsUnits (ns : Int) : Int := ns * 4194304 / 1000000

/-- Stage TIME is running (R94). -/
def timeStage (d : Dev) : Bool := d.sys.stageCmd == some 6

/-- Timecode is locked (R467); with the first lock a tenant period begins (R424), and the minutes that are apportioned (R421). -/
def tcLock (d : Dev) (hops : Nat) : Dev :=
  let m := max 1 (fget d Fd.SEQ_SCHED_CFG_acct_minutes)
  let from' := if d.tc.acquired then d.seq.periodFrom else some (minuteOf d / m * m)
  { d with tc := { d.tc with state := 2, acquired := true, hops := hops }, seq := { d.seq with
    periodFrom := from', energyFrom := if d.tc.acquired then d.seq.energyFrom else some (minuteOf d) } }

/-- Hop count the device advertises (R362, R467). -/
def tcAdvert (d : Dev) : Nat :=
  if tcMaster d then (if d.tc.state = 2 ∨ d.tc.state = 3 then 0 else 15)
  else if d.tc.state = 2 then d.tc.hops else 15

/-- The minute of the second boundary nearest to the counter, if it is a minute boundary. -/
def onMinute (d : Dev) : Bool := (frame d + 500) / 1000 % 60 == 0

/-- A `TC_PPS` edge at a master (R466, R467): the first after target 6 loads `MTR_TC_INIT`; then two in a row within
20 ns lock the counter, and each disciplines it by slewing. `dev` is how many ns the edge falls after the counter's
second boundary. -/
def ppsEdge (d : Dev) (dev : Int) (marker : Bool) : Dev :=
  if !tcServes d ∨ !tcMaster d then d else
  if timeStage d ∧ !d.tc.loaded then
    let target : Int := 64 * 65536 * fget d Fd.MTR_TC_INIT_frame
    tcLoad d { d.tc with adj := target - 64 * d.tc.up, good := 0, bad := 0, lastEdge := up d }
  else if !d.tc.loaded then d
  else
    let good := if dev.natAbs ≤ 20 then d.tc.good + 1 else 0
    let bad := if 1000 < dev.natAbs then d.tc.bad + 1 else 0
    let d := if d.tc.state = 3 ∧ bad = 0 then setTc d { d.tc with heldFrom := up d } else d
    let d := setTc d { d.tc with good := good, bad := bad, lastEdge := up d, slew := -nsUnits dev, ofs := -nsUnits dev }
    let d := if marker ∧ !onMinute d then raise d Fd.MTR_EVT_minute_mismatch else d
    if 2 ≤ good ∧ d.tc.state ≠ 2 then tcLock d 0 else d

/-- `TC_PPS_EDGE` (R466). -/
def execTcPpsEdge (deviationNs : Int) (minuteMarker : Bool) (s : State) : Host.Outcome State Fault Refusal :=
  lift (fun d => ppsEdge d deviationNs minuteMarker) s

/-- An exchange starts (R362). -/
def tcExchange (d : Dev) : Dev :=
  if !tcServes d ∨ tcMaster d ∨ d.tc.state = 0 ∧ !d.tc.acquired then d else
  let d := setTc d { d.tc with exchAt := up d }
  ((List.range 16).filter (fun p => (portOf d p).trained && !(portOf d p).retired)).foldl (fun d p =>
    send (setPort d p { portOf d p with reqAt := some (up d) }) (.tcReq p (stamp d))) d

/-- `TC_EXCHANGE` (R362): a follower sends TC_REQ on each trained port (log entry 11). -/
def execTcExchange (s : State) : Host.Outcome State Fault Refusal := lift tcExchange s

/-- `TC_REQ` (R362): the peer's request arrives; t2 and t3 are this device's stamps. -/
def execTcReq (port t1 t2 t3 : Nat) (s : State) : Host.Outcome State Fault Refusal :=
  lift (fun d => if tcServes d ∧ (portOf d port).trained then send d (.tcResp port t1 t2 t3 (tcAdvert d)) else d) s

/-- The port with the fewest hops to the master, ties to the lower peer number; none without a locked peer (R362). -/
def tcBest (d : Dev) : Option Nat :=
  (((List.range 16).filter (fun p => (portOf d p).trained && !(portOf d p).retired && (portOf d p).hops < 15))).foldl
    (fun b p => match b with
      | none => some p
      | some q =>
        if (portOf d p).hops < (portOf d q).hops
          ∨ ((portOf d p).hops = (portOf d q).hops ∧ (portOf d p).peer < (portOf d q).peer) then some p else b) none

/-- Half of a number; the half of an odd one is a free value (log entry 12). -/
def halfOf (v : Int) : Int := if v % 2 = 0 then v / 2 else Config.half v

/-- Offset and delay of an exchange, in 1/64 subframe (R362). -/
def tcOffset (t1 t2 t3 t4 asym : Int) : Int := halfOf ((t2 - t1) - (t4 - t3)) - asym
def tcDelay (t1 t2 t3 t4 : Int) : Int := halfOf ((t4 - t1) - (t3 - t2))

/-- A 16-bit field as a signed number. -/
def signed16 (v : Nat) : Int := if v < 32768 then v else (v : Int) - 65536

/-- A response at a follower (R362, R363, R466, R467): the first exchange of stage TIME sets the counter; later ones
slew it; within 50 ns of the chosen port it is locked. -/
def tcResponse (d : Dev) (p : Nat) (t1 t2 t3 t4 : Nat) (hops : Nat) : Dev :=
  let q := portOf d p
  match q.reqAt with
  | none => d
  | some at' =>
    if !tcServes d ∨ tcMaster d ∨ at' + 65536 < up d then d else
    let ofs := tcOffset t1 t2 t3 t4 (signed16 (fget d Fd.LNK_TC_ASYM_asym p))
    let d := setPort d p { q with
      reqAt := none, hops := min hops 15, ofs := ofs, delay := tcDelay t1 t2 t3 t4 }
    if tcBest d ≠ some p then d else
    let own := min 15 (hops + 1)
    if timeStage d ∧ !d.tc.loaded then
      tcLoad d { d.tc with adj := d.tc.adj + ofs, ofs := ofs, hops := own }
    else if !d.tc.loaded then d
    else
      let d := if d.tc.state = 3 then setTc d { d.tc with heldFrom := up d } else d
      let d := setTc d { d.tc with slew := ofs, ofs := ofs, hops := own }
      if (ofs.natAbs : Int) ≤ nsUnits 50 then tcLock d own else d

/-- `TC_RESP` (R362). -/
def execTcResp (port t1 t2 t3 t4 hops : Nat) (s : State) : Host.Outcome State Fault Refusal :=
  lift (fun d => tcResponse d port t1 t2 t3 t4 hops) s

/-- After one frame without a response an exchange is abandoned (R363). -/
def tcGiveUp (d : Dev) (port : Nat) : Dev :=
  match (portOf d port).reqAt with
  | some t => if t + 65536 ≤ up d then setPort d port { portOf d port with reqAt := none } else d
  | none => d

/-- `TC_RESP_TIMEOUT` (R363). -/
def execTcRespTimeout (port : Nat) (s : State) : Host.Outcome State Fault Refusal := lift (fun d => tcGiveUp d port) s

/-- Has the reference been lost (R467)? A master: no edge within 1.5 s, or three edges in a row more than 1 µs off. A
follower: no port of a locked peer left. -/
def tcLost (d : Dev) : Bool :=
  if tcMaster d then decide (d.tc.lastEdge + 98304000 ≤ up d) || decide (3 ≤ d.tc.bad) else (tcBest d).isNone

/-- A locked counter that has lost its reference goes into holdover (R467). -/
def tcHold (d : Dev) : Dev :=
  if d.tc.state = 2 ∧ tcLost d then
    raise (setTc d { d.tc with state := 3, heldFrom := up d, slew := 0, good := 0 }) Fd.MTR_EVT_tc_holdover
  else d

/-- `TC_HOLDOVER_ENTRY` (R467). -/
def execTcHoldoverEntry (s : State) : Host.Outcome State Fault Refusal := lift tcHold s

/-- A counter in holdover is unlocked once `holdover` frames have passed without a reference (R467). -/
def tcFree (d : Dev) : Dev :=
  if d.tc.state = 3 ∧ d.tc.heldFrom + fget d Fd.MTR_TC_CFG_holdover * 65536 ≤ up d then
    raise (setTc d { d.tc with state := 0 }) Fd.MTR_EVT_tc_unlocked
  else d

/-- `TC_UNLOCK` (R467). -/
def execTcUnlock (s : State) : Host.Outcome State Fault Refusal := lift tcFree s

end Sys2Proof.Machine
end

