-- ==== Sys2Proof/Machine/Map.lean ====
section
/-!
DEFINITION. Sys2Proof/Machine/Map.lean: the map domain (13 R369 to R377, R385; 16 R433): membership, heartbeats, isolation,
fencing, registrars. A message that the device sends to itself, as its own steward or registrar, comes back as the command of
its row (log entry 40).
-/

namespace Sys2Proof.Machine

/-- The map is in service (R373, R386, R470). -/
def mapServes (d : Dev) : Bool := !inReset d && !d.sys.fatal && !d.map.evicted && fbit d Fd.MAP_CTL_enable

def peerOf (d : Dev) (n : Nat) : MapPeer := mget d.map.peers {} n
def setPeer (d : Dev) (n : Nat) (p : MapPeer) : Dev := { d with map := { d.map with peers := mset d.map.peers {} n p } }

/-- Is this device the steward? -/
def isSteward (d : Dev) : Bool := d.map.member && stewardFor d none == ownDevice d

/-- Frames after which silence counts (R372, R373), in subframes. -/
def missSpan (d : Dev) : Nat := fget d Fd.MAP_HB_period * fget d Fd.MAP_HB_miss * 65536

/-- A message about a device. -/
def mapNote (d : Dev) (typ dev : Nat) : List Byte := mapBytes d typ 0 0 0 d.map.domEpoch dev 0 0 0 0 0

/-! ### Configuration digests (R385) -/

/-- The digest prefix that a message carries is noted; between members of one compatibility class and domain epoch a difference
marks the peer, and agreement clears the mark. -/
def noteDigest (d : Dev) (src compat epoch digest : Nat) : Dev :=
  let p := peerOf d src
  let d := setPeer d src { p with digest := some digest }
  if !d.map.members.contains src ∨ compat ≠ fget d Fd.MAP_CFG_compat ∨ epoch ≠ d.map.domEpoch then d
  else if digest = digestPre d then
    if p.diverged then raise (setPeer d src { peerOf d src with diverged := false }) Fd.MAP_EVT_config_agreed else d
  else if p.diverged then d
  else
    let d := setPeer d src { peerOf d src with diverged := true }
    raise (fbump { d with map := { d.map with lastDiverged := src } } Fd.MAP_DIV_count) Fd.MAP_EVT_config_diverged

/-- The fields of a received message that R385 looks at. -/
def noteMsg (d : Dev) (m : MapMsg) : Dev := noteDigest d m.src m.compat m.domainEpoch m.digest

/-! ### Registrars (R375 to R377) -/

/-- Publish a claim of home (R376): the registrar is told, and told again until it confirms. -/
def publishClaim (d : Dev) (name : Nat) (c : Claim) : Dev :=
  let d := { d with map := { d.map with claims := put d.map.claims name { c with sentAt := up d } } }
  mapSend d (registrarOf d name) (mapBytes d 0x10 0 0 name c.epoch (ownDevice d) 0 0 0 0 0)

/-- The registrar answers a PUBLISH with the home and epoch it now holds. The reason of a CONFIRM of a reclaim is not stated: a
free value. -/
def confirmTo (d : Dev) (dst name : Nat) (reclaim : Bool) : Dev :=
  match mapEntry d name with
  | none => d
  | some e =>
    let (v, d) := if reclaim then freshBelow d 256 else (0, d)
    mapSend d dst (mapBytes d 0x11 v 0 name e.epoch e.home 0 0 0 0 0)

/-- The registrar takes a PUBLISH: accepted if its entry holds an epoch one lower, or if it holds none (R376, R377). -/
def registrarTakes (d : Dev) (src name home epoch : Nat) : Dev :=
  match mapEntry d name with
  | some e =>
    if e.epoch + 1 = epoch then
      confirmTo { d with map := { d.map with reg := put d.map.reg name { home := home, epoch := epoch } } } src name (e.home == home)
    else confirmTo d src name false
  | none => confirmTo { d with map := { d.map with reg := put d.map.reg name { home := home, epoch := epoch } } } src name false

/-- Does the registrar still wait for REGISTERs (R377)? -/
def regWaits (d : Dev) : Bool :=
  match d.map.regWait with
  | some t => decide (up d < t + 2 * fget d Fd.MAP_HB_fail_wait * 65536)
  | none => false

/-- `PUBLISH` (R376, R377): one for a name whose REGISTER may still come is held. -/
def execPublish (msg : MapMsg) (s : State) : Host.Outcome State Fault Refusal :=
  lift (fun d =>
    let m := msg
    if !mapServes d ∨ d.lnk.fenced.contains m.src then d
    else
      let d := noteMsg d m
      if regWaits d ∧ (mapEntry d m.name).isNone then
        let h := (m.src, m.name, m.device, m.epoch)
        if d.map.regHeld.contains h then d else { d with map := { d.map with regHeld := d.map.regHeld ++ [h] } }
      else registrarTakes d m.src m.name m.device m.epoch) s

/-- The held messages of a name are applied in the order of their arrival. -/
def applyHeld (d : Dev) (name : Nat) : Dev :=
  let mine := d.map.regHeld.filter (fun h => h.2.1 == name)
  let d := { d with map := { d.map with regHeld := d.map.regHeld.filter (fun h => h.2.1 != name) } }
  mine.foldl (fun d h => registrarTakes d h.1 h.2.1 h.2.2.1 h.2.2.2) d

/-- `REGISTER` (R377): the entry with the highest epoch is kept. -/
def execRegister (msg : MapMsg) (s : State) : Host.Outcome State Fault Refusal :=
  lift (fun d =>
    let m := msg
    if !mapServes d ∨ d.lnk.fenced.contains m.src then d
    else
      let d := noteMsg d m
      let newer : Bool := match mapEntry d m.name with | some e => decide (e.epoch < m.epoch) | none => true
      let d := if newer then { d with map := { d.map with reg := put d.map.reg m.name { home := m.device, epoch := m.epoch } } } else d
      applyHeld d m.name) s

/-- The wait for REGISTER messages is over: what was held is answered (R377). -/
def registerOver (d : Dev) (name : Nat) : Dev :=
  if regWaits d ∨ !mapServes d then d else applyHeld d name

/-- `REGISTER_WAIT_EXPIRE` (R377). -/
def execRegisterWaitExpire (name : Nat) (s : State) : Host.Outcome State Fault Refusal := lift (fun d => registerOver d name) s

/-- A PUBLISH that is not confirmed goes out again after 4 frames (R376). -/
def publishAgain (d : Dev) (name : Nat) : Dev :=
  match look d.map.claims name with
  | none => d
  | some c => if mapServes d ∧ c.sentAt + 4 * 65536 ≤ up d then publishClaim d name c else d

/-- `PUBLISH_REPEAT` (R376): every 4 frames until a CONFIRM comes. -/
def execPublishRepeat (name : Nat) (s : State) : Host.Outcome State Fault Refusal := lift (fun d => publishAgain d name) s

/-! ### Changes of membership (R369, R370, R372, R374) -/

/-- Loans from a device are gone (R307). -/
def lenderGone (d : Dev) (dev : Nat) : Dev :=
  let d := { d with lnk := { d.lnk with asked := d.lnk.asked.erase dev } }
  let d := loseLoan d (fun l => t3Lender (t3Key l) == dev)
  { d with lnk := { d.lnk with borrows := d.lnk.borrows.filter (fun (b : Nat × Borrow) => t3Lender b.1 != dev) } }

/-- A MEMBER message takes effect (R369, R370, R372, R377, R433): the domain epoch changes; a failed or departed device loses its
place as home, lender and registrar. -/
def memberChange (d : Dev) (dev epoch : Nat) (joined failed : Bool) : Dev :=
  let before := d
  let ms := if joined then insertN dev d.map.members else d.map.members.filter (fun m => m != dev)
  let d := raise (redigest { d with map := { d.map with domEpoch := epoch, members := ms } }) Fd.MAP_EVT_member_change
  if joined then
    let d := { d with lnk := { d.lnk with fenced := d.lnk.fenced.filter (fun f => f != dev) } }
    -- a device that was alone counts the silence of its domain from here
    let d := if before.map.members.length < 2 then { d with map := { d.map with anyAt := up d } } else d
    setPeer d dev { heard := some (up d) }
  else
    let d := { d with sec := { d.sec with peers := del d.sec.peers dev } }
    let d := { d with map := { d.map with
      peers := del d.map.peers dev, suspects := del d.map.suspects dev, fencedAt := del d.map.fencedAt dev, regWait := some (up d) } }
    let d := if failed then raise d Fd.MAP_EVT_peer_failed else d
    let d := if failed then
        ((d.map.reg.filter (fun (e : Nat × RegEnt) => e.2.home == dev)).map Prod.fst).foldl (fun d n =>
          (report d { cls := clsMember, unit := 12, action := 0, object := n }).1) (lenderGone d dev)
      else d
    let d := ((homedNames d).filter (fun n => registrarOf before n.1 == dev)).foldl (fun d n =>
      mapSend d (registrarOf d n.1) (mapBytes d 0x12 0 0 n.1 n.2 (ownDevice d) 0 0 0 0 0)) d
    if dev = ownDevice d then { d with map := { d.map with member := false, leaving := false, members := [] } } else d

/-- The steward changes the membership: the new epoch goes to every member, and takes effect here. What the message says of the
device beyond the header is in a body whose layout is not stated. -/
def stewardChange (d : Dev) (dev : Nat) (joined failed : Bool) : Dev :=
  let e := d.map.domEpoch + 1
  let tell := (insertN dev d.map.members).filter (fun m => m != ownDevice d && !(failed && m == dev))
  let d0 := { d with map := { d.map with domEpoch := e } }
  let body := Config.layout 0x23 0 [b2n joined, b2n failed]
  let d := tell.foldl (fun x m => mapSend x m (mapBytes d0 0x23 0 0 0 e dev 0 0 0 0 0 ++ body)) d
  memberChange d dev e joined failed

/-- `MEMBER` (R369). -/
def execMember (msg : MapMsg) (joined failed departed : Bool) (s : State) : Host.Outcome State Fault Refusal :=
  lift (fun d =>
    let m := msg
    if !mapServes d ∨ !d.map.member ∨ d.lnk.fenced.contains m.src ∨ !(joined || failed || departed) ∨ m.domainEpoch ≤ d.map.domEpoch then d
    else memberChange d m.device m.domainEpoch joined failed) s

/-- The membership bitmap: bit `d` for device `d`. -/
def memberBitmap (ms : List Nat) : List Byte :=
  (List.range 8192).map (fun k => BitVec.ofNat 8 (sumN ((ms.filter (fun m => m / 8 == k)).map (fun m => 2 ^ (m % 8)))))

/-- The steward decides a JOIN (R370). -/
def stewardJoin (d : Dev) (device : Nat) : Dev :=
  if 65536 ≤ d.map.members.length ∨ d.map.members.contains device
      ∨ (keys d.map.reg ++ (homedNames d).map Prod.fst).any (fun n => n / 2 ^ 48 % 65536 == device) then
    mapSend d device (mapBytes d 0x03 0 0 0 d.map.domEpoch device 0 0 0 0 0)
  else
    let ms := insertN device d.map.members
    let d0 := { d with map := { d.map with domEpoch := d.map.domEpoch + 1 } }
    let d := { d with lnk := { d.lnk with fenced := d.lnk.fenced.filter (fun f => f != device) } }
    let d := mapSend d device (mapBytes d0 0x21 0 0 0 (d.map.domEpoch + 1) device 0 0 0 0 0 ++ memberBitmap ms)
    stewardChange d device true false

/-- `JOIN` (R370): a member of the domain relays it to the steward, who decides. -/
def execJoin (src device domain : Nat) (s : State) : Host.Outcome State Fault Refusal :=
  lift (fun d =>
    let _ := src
    if !mapServes d ∨ !d.map.member ∨ domain ≠ fget d Fd.MAP_DOM_domain then d
    else if isSteward d then stewardJoin d device
    else mapSend d (stewardFor d none) (mapNote d 0x20 device ++ leBytes 8 domain)) s

/-- `JOIN_ACK` (R370, R433): the device is a member, and announces its link KEM key. -/
def execJoinAck (msg : MapMsg) (members : List Nat) (s : State) : Host.Outcome State Fault Refusal :=
  lift (fun d =>
    let m := msg
    if !mapServes d ∨ d.map.member ∨ d.sys.stageCmd ≠ some 7 ∨ fbit d Fd.MAP_CFG_found then d
    else
      let ms := (ownDevice d :: members).foldl (fun l x => insertN x l) []
      let d := redigest { d with map := { d.map with member := true, members := ms, domEpoch := m.domainEpoch, anyAt := up d } }
      let d := ms.foldl (fun d x => if x = ownDevice d then d else setPeer d x { heard := some (up d) }) d
      announceKey d) s

/-- `LEAVE` (R374), at the steward. -/
def execLeave (msg : MapMsg) (s : State) : Host.Outcome State Fault Refusal :=
  lift (fun d =>
    if mapServes d ∧ isSteward d ∧ d.map.members.contains msg.device ∧ !d.lnk.fenced.contains msg.src then
      stewardChange (noteMsg d msg) msg.device false false
    else d) s

/-- `MAP_LEAVE`: a write of `leave` to `MAP_CTL` (R374): the loans are recalled. -/
def mapLeave (d : Dev) : Dev :=
  let d := fset d Fd.MAP_CTL_leave 1
  if !mapServes d ∨ !d.map.member then d
  else leaveTry (recallAll { d with map := { d.map with leaving := true } })

def execMapLeave (s : State) : Host.Outcome State Fault Refusal := lift (fun d => if d.sys.portUp then mapLeave d else d) s

/-! ### Failure (R372) -/

/-- Nothing more goes to a device, or through here for it. -/
def fence (d : Dev) (dev : Nat) : Dev :=
  if d.lnk.fenced.contains dev then d else purge { d with lnk := { d.lnk with fenced := dev :: d.lnk.fenced } } dev

/-- The steward has decided that a device failed: it fences it. -/
def stewardFence (d : Dev) (dev : Nat) : Dev :=
  if (look d.map.fencedAt dev).isSome then d
  else
    let d := (d.map.members.filter (fun m => m != ownDevice d && m != dev)).foldl (fun d m => mapSend d m (mapNote d 0x26 dev)) d
    fence { d with map := { d.map with fencedAt := put d.map.fencedAt dev (up d) } } dev

/-- A SUSPECT reaches the steward: with those of every member that the device listed as a peer, it has failed. -/
def suspected (d : Dev) (src dev : Nat) : Dev :=
  if !d.map.members.contains dev ∨ dev = ownDevice d then d
  else
    let (t, who) := mget d.map.suspects (up d, []) dev
    let who := insertN src who
    let d := { d with map := { d.map with suspects := put d.map.suspects dev (t, who) } }
    let wanted := (peerOf d dev).peers.filter (fun p => d.map.members.contains p && p != dev)
    if !wanted.isEmpty ∧ wanted.all (fun p => who.contains p) then stewardFence d dev else d

/-- `SUSPECT` (R372). -/
def execSuspect (msg : MapMsg) (s : State) : Host.Outcome State Fault Refusal :=
  lift (fun d =>
    if mapServes d ∧ d.map.member ∧ stewardFor d (some msg.device) = ownDevice d ∧ !d.lnk.fenced.contains msg.src then
      suspected (noteMsg d msg) msg.src msg.device
    else d) s

/-- A member has been silent for too long (R371, R372). -/
def missed (d : Dev) (device : Nat) : Dev :=
  let p := peerOf d device
  let silent : Bool := match p.heard with | some t => decide (t + missSpan d ≤ up d) | none => false
  if !mapServes d ∨ !d.map.member ∨ !d.map.members.contains device ∨ device = ownDevice d ∨ p.suspected ∨ !silent then d
  else
    let d := setPeer d device { p with suspected := true }
    if stewardFor d (some device) = ownDevice d then suspected d (ownDevice d) device
    else mapSend d (stewardFor d (some device)) (mapNote d 0x24 device)

/-- `HEARTBEAT_MISS` (R372): `miss` periods without a heartbeat of a member. -/
def execHeartbeatMiss (device : Nat) (s : State) : Host.Outcome State Fault Refusal := lift (fun d => missed d device) s

/-- The wait of the steward for a second SUSPECT is over (R372). -/
def stewardWait (d : Dev) (device : Nat) : Dev :=
  match look d.map.suspects device with
  | none => d
  | some (t, _) =>
    if mapServes d ∧ t + fget d Fd.MAP_HB_fail_wait * 65536 ≤ up d then stewardFence d device else d

/-- `STEWARD_FAIL_WAIT` (R372): `fail_wait` frames after the first SUSPECT. -/
def execStewardFailWait (device : Nat) (s : State) : Host.Outcome State Fault Refusal := lift (fun d => stewardWait d device) s

/-- `FENCE` (R372). -/
def execFence (msg : MapMsg) (s : State) : Host.Outcome State Fault Refusal :=
  lift (fun d => if mapServes d ∧ d.map.member ∧ msg.device ≠ ownDevice d ∧ !d.lnk.fenced.contains msg.src then
    fence (noteMsg d msg) msg.device else d) s

/-- A fenced member is declared failed (R372). -/
def memberFail (d : Dev) (device : Nat) : Dev :=
  match look d.map.fencedAt device with
  | none => d
  | some t =>
    if mapServes d ∧ d.map.members.contains device ∧ t + missSpan d + 65536 ≤ up d then stewardChange d device false true else d

/-- `MEMBER_FAIL_DECLARE` (R372): `period` × `miss` + 1 frames after FENCE. -/
def execMemberFailDeclare (device : Nat) (s : State) : Host.Outcome State Fault Refusal := lift (fun d => memberFail d device) s

/-! ### Heartbeats, isolation, eviction (R371, R373) -/

/-- The 72-byte payload of a heartbeat (R371). -/
def heartbeatBytes (d : Dev) : List Byte :=
  fields ([(ownDevice d, 2), (fget d Fd.MAP_CFG_compat, 2), (d.map.domEpoch, 4), (fget d Fd.MAP_DOM_domain, 8), (digestPre d, 8),
    (b2n d.map.isolated + 2 * b2n (isSteward d), 1), (tcAdvert d, 1), (0, 6)]
    ++ (List.range 16).map (fun p => ((portOf d p).peer, 2))
    ++ [(maskOf 16 (servingPorts d), 2), (0, 6)])

/-- A heartbeat is due (R371). -/
def beat (d : Dev) : Dev :=
  if !mapServes d ∨ !d.map.member ∨ up d < d.map.sentAt + fget d Fd.MAP_HB_period * 65536 then d
  else
    let bytes := heartbeatBytes d
    let d := { d with map := { d.map with sentAt := up d } }
    (servingPorts d).foldl (fun d p => sendOnPort d p 0x02 bytes) d

/-- `HEARTBEAT_SEND` (R371): on every port in service, every `period` frames. -/
def execHeartbeatSend (s : State) : Host.Outcome State Fault Refusal := lift beat s

/-- Send EVICT past the fence. -/
def sendEvict (d : Dev) (dev : Nat) : Dev :=
  let f := d.lnk.fenced
  let d := mapSend { d with lnk := { d.lnk with fenced := f.erase dev } } dev (mapNote d 0x25 dev)
  { d with lnk := { d.lnk with fenced := f } }

/-- `HEARTBEAT` (R371 to R373, R385): of the own domain. A device that was declared failed is told so. -/
def execHeartbeat (src compat domainEpoch domain digest hops : Nat) (isolated : Bool) (peers : List Nat) (s : State) :
    Host.Outcome State Fault Refusal :=
  lift (fun d =>
    if !mapServes d ∨ !d.map.member ∨ domain ≠ fget d Fd.MAP_DOM_domain then d
    else if d.lnk.fenced.contains src then (if d.map.members.contains src then d else sendEvict d src)
    else
      let d := { d with map := { d.map with anyAt := up d } }
      let d := if d.map.members.contains src then
          setPeer d src { peerOf d src with
            heard := some (up d), epoch := domainEpoch, compat := compat, hops := hops, isolated := isolated, peers := peers,
            suspected := false }
        else d
      let d := noteDigest d src compat domainEpoch digest
      if d.map.isolated ∧ domainEpoch = d.map.domEpoch then { d with map := { d.map with isolated := false } } else d) s

/-- No heartbeat of the own domain has come on any port (R373). -/
def isolate (d : Dev) : Dev :=
  if !mapServes d ∨ !d.map.member ∨ d.map.isolated ∨ d.map.members.length < 2 ∨ up d < d.map.anyAt + missSpan d then d
  else
    let n := fget d Fd.MAP_HB_period * fget d Fd.MAP_HB_miss
    let d := raise { d with map := { d.map with isolated := true } } Fd.MAP_EVT_isolated
    endFlights (cutAll d stBusyRetry n) gatedGroup stBusyRetry n

/-- `ISOLATION` (R373): `miss` periods without a heartbeat of the own domain on any port. A domain of one device has none to
miss. -/
def execIsolation (s : State) : Host.Outcome State Fault Refusal := lift isolate s

/-- Free every object of the device (R373). -/
def freeEverything (d : Dev) : Dev :=
  let d := (keys d.ctx.recs).foldl (fun d i => if (recOf d i).state = .closed then d else closeRec d i) d
  let d := d.dly.groups.foldl (fun d g => dropGroup d g.id) d
  { d with
    txt := { d.txt with tbl := [], col := [] }, fls := { d.fls with idx := [], search := [] },
    ckp := { d.ckp with
      openSlate := none, kept := [], copies := [], snaps := [], held := [], heldDone := [], restores := [], devRestore := none,
      emergency := false },
    map := { d.map with inb := [], claims := [] } }

/-- `EVICT` (R373): every object is freed and every ring closed, until RESET_N. -/
def execEvict (msg : MapMsg) (s : State) : Host.Outcome State Fault Refusal :=
  lift (fun d =>
    if !mapServes d ∨ msg.device ≠ ownDevice d ∨ !d.map.member then d
    else
      let d := endFlights (cutAll d stUnitFailed 0) (fun _ => true) stUnitFailed 0
      let d := closeRings (freeEverything d)
      { d with map := { d.map with evicted := true, leaving := false } }) s

/-! ### Peer keys (R433) -/

/-- The number of a public key given as bytes, for verification. -/
def keyNumber (bytes : List Byte) : Nat := 2 ^ 700 + ofLe bytes

/-- Does an announcement verify (R433)? Each certificate must verify under the key that the item before certifies, and the link KEM
certificate must name the source device and the key. -/
def announcementOk (src : Nat) (statement attCert kemCert kemKey : List Byte) : Bool :=
  Config.xmssVerify 3 statement
    && Config.xmssVerify (keyNumber ((statement.drop 14).take 68)) attCert
    && Config.xmssVerify (keyNumber ((attCert.drop 32).take 32)) kemCert
    && leAt attCert 6 1 == 1 && leAt kemCert 6 1 == 3 && leAt kemCert 24 2 == src
    && (kemCert.drop 32).take 32 == b256 (Config.shake256 kemKey)

/-- `KEY_ANNOUNCEMENT` (R433). -/
def execKeyAnnouncement (src device : Nat) (statement attCert kemCert kemKey : List Byte) (s : State) :
    Host.Outcome State Fault Refusal :=
  lift (fun d =>
    if inReset d ∨ d.lnk.fenced.contains src then d
    else if device = src ∧ announcementOk src statement attCert kemCert kemKey then
      { d with sec := { d.sec with peers := put d.sec.peers src { kem := kemKey } } }
    else raise d Fd.SEC_EVT_peer_rejected) s

end Sys2Proof.Machine
end

