-- ==== Sys2Proof/Machine/Slates.lean ====
section
/-!
DEFINITION. Sys2Proof/Machine/Slates.lean: slates (14 R387 to R402, R408, R409; 16 R443 to R445): marks, capture, page copies,
shard images, manifests, commit records, and both sides of the buddy traffic. A capture is atomic at its mark, so no commit
point has to wait for it (R391).
-/

namespace Sys2Proof.Machine

/-- The checkpoint engine works: it is in service and not in reset. -/
def ckpServes (d : Dev) : Bool := !inReset d && !d.sys.fatal && fbit d Fd.CKP_CTL_enable && !unitInReset d 5

/-- `CKP_STAT.state` (R410). -/
def ckpState (d : Dev) : Nat :=
  match d.ckp.openSlate with
  | some o => if o.slate.emergency then 3 else 2
  | none =>
    if d.ckp.emergency then 3
    else if !d.ckp.restores.isEmpty || d.ckp.devRestore.isSome then 4
    else if d.ckp.schedule.isSome then 1 else 0

/-! ### Marking (R388) -/

/-- `SLATE_MARK` from its second group of checks on. -/
def slateMark (d : Dev) (ring : Nat) (f : Flight) : Dev :=
  let x := f.desc
  if sqClient d ring ≠ fget d Fd.CKP_CFG_client then finish d ring f.id stSecurity 0
  else if bitOf (db x 40 1) 0 then finish { d with ckp := { d.ckp with schedule := none } } ring f.id stOK 0
  else if db x 24 6 ≤ frame d then finish d ring f.id stStateConflict (ckpState d)
  else
    let plan := (db x 24 6, db x 32 4, dbits x 36 0 17, dbits x 36 17 1 == 1)
    finish { d with ckp := { d.ckp with schedule := some plan } } ring f.id stOK d.ckp.nextNum

/-- `SLATE_MARK` (R388). -/
def execSlateMark (ring : Nat) (s : State) : Host.Outcome State Fault Refusal :=
  lift (fun d => dispatchGated d ring 0x50 (fun d f => slateMark d ring f)) s

/-! ### Copies (R394, R395) -/

/-- A capture under way: the device, the slate's number, whether a copy found no room, pages copied, items sent. -/
structure Capt where
  d : Dev
  num : Nat
  full : Bool := false
  copied : Nat := 0
  items : List BItem := []
  deriving DecidableEq, Repr

/-- Pages of the snapshot tier; snapshot objects belong to no client. -/
def slateFrames (d : Dev) (n : Nat) : Option (List Loc × Dev) :=
  let t := fget d Fd.CKP_CFG_tier
  let got : Option (List Nat × Dev) :=
    if t = 4 then takeT4 n d
    else if freeBytes d 2 < pageSize * n ∨ freeBytes d 1 < 8 * n then none
    else some (takeFar n (usedFrames d 2) d)
  got.bind (fun r => if r.1.length < n then none else some (locsAt r.2 t r.1))

/-- The snapshot object of an object (R394), named when its first page is copied. -/
def snapName (d : Dev) (name : Nat) : Nat × Dev :=
  match look d.ckp.snaps name with
  | some n => (ownDevice d * 2 ^ 48 + n, d)
  | none =>
    let n := d.mem.nextSerial
    (ownDevice d * 2 ^ 48 + n, { d with mem := { d.mem with nextSerial := n + 1 }, ckp := { d.ckp with snaps := put d.ckp.snaps name n } })

/-- The sealed tiles of a copy (R298, R394): under the checkpoint key, named by the snapshot object and the copy index. -/
def sealCopy (d : Dev) (snap copy ctr tiles : Nat) (bytes : List Byte) : List (List Byte) :=
  ((tilesOf (page32k bytes)).take tiles).zipIdx.map (fun t => sealTile d d.sec.ckptKey snap copy 0 ctr t.2 t.1)

/-- Write one copy locally and send it to the buddy (R400). `name` is the object slated, or 0 for the manifest. -/
def copyOut (c : Capt) (name tiles : Nat) (bytes : List Byte) : Capt × Nat :=
  let k := c.d.ckp.nextCopy
  let (snap, d) := snapName { c.d with ckp := { c.d.ckp with nextCopy := k + 1 } } name
  match slateFrames d 1 with
  | none | some ([], _) => ({ c with d := d, full := true }, k)
  | some (l :: _, d) =>
    let d := nandProgram d l (sealCopy d snap k l.ctr tiles bytes)
    let d := { d with ckp := { d.ckp with copies := put d.ckp.copies (c.num * 2 ^ 32 + k) l } }
    let d := chargeTier d unattributed l.tier (4096 * tiles)
    if fbit d Fd.CKP_CFG_buddy_valid then
      let d := sendFrame d 4 0x40 (ownBuddy d) none
        (buddyBytes 1 0 c.num (ownDevice d) name k (2 ^ tiles - 1) (sealCopy d snap k l.ctr tiles bytes).flatten)
      ({ c with d := d, items := c.items ++ [{ name := name, copy := k }] }, k)
    else ({ c with d := d }, k)

/-- Write an image or a manifest as copies of 32 KiB: their indices. -/
def imageOut (c : Capt) (name : Nat) (bytes : List Byte) : Capt × List Nat :=
  (pieces 32768 bytes).foldl (fun (s : Capt × List Nat) p =>
    let r := copyOut s.1 name (ceilDiv p.length 4096) p
    (r.1, s.2 ++ [r.2])) (c, [])

/-! ### What an object's pages hold (R387, R390, R393) -/

/-- A page to capture: kind and index (R285), format, tiles in use (none: a layout that is not stated), plaintext, tier. -/
structure PageSrc where
  kind : Nat
  index : Nat
  fmt : Nat := 0
  tiles : Option Nat := none
  bytes : List Byte
  tier : Nat
  deriving DecidableEq, Repr

/-- A K and V row of zeros. -/
def zeroKv (m : Model) : KVRow :=
  let h : List HeadRow := List.replicate m.kvHeads { codes := List.replicate m.d 0, scale := 0 }
  { k := h, v := h }

/-- The fresh window of a layer in block format (R393), positions not yet written being zero; the pools overflowed and the groups
clipped. -/
def foldWinWith (m : Model) (lk : LayerKV) : WinBlk × Nat × Nat :=
  foldRows m (lk.fresh ++ List.replicate (256 - lk.fresh.length) (zeroKv m))

/-- The fresh window of a layer in block format. -/
def foldWin (m : Model) (lk : LayerKV) : WinBlk := (foldWinWith m lk).1

/-- Encoding the fresh windows of a session into a slate is counted as every encoding is (R117, R133). -/
def countFolds (d : Dev) (i : Nat) (m : Model) (r : Rec) : Dev :=
  r.kv.zipIdx.foldl (fun d (lk, l) =>
    let f := foldWinWith m lk
    countEncoded d i l f.2.1 (List.replicate f.2.2 lk.folded.length)) d

/-- A session as a slate with `CKPT_FOLD` leaves it (R393): its fresh window is read back from the block format, and it has no
retained copy. -/
def foldedCapture (m : Model) (r : Rec) : Rec :=
  { r with
    folded := true
    kv := r.kv.map (fun (lk : LayerKV) => ({ lk with
      retained := [],
      fresh := ((rowsToA8 (decodeWindow (foldWin m lk) m.d m.kvHeads)).v).take lk.fresh.length } : LayerKV)) }

/-- One page of a session to capture; none where the narrowed format leaves it out. -/
def sessSrc (m : Model) (r : Rec) (fold : Bool) (e : Nat × Loc) : Option PageSrc :=
  let kind := pageKind e.1
  let index := pageIndex e.1
  let plain : PageSrc := { kind := kind, index := index, bytes := sessPage m r e.1, tier := e.2.tier }
  if kind = 1 then
    let fmt := pageFmt m r e.1
    some { plain with fmt := fmt, tiles := some (blockTiles fmt (2 * m.kvHeads * m.d) (index % max 1 (pagesFold m m.kvFormat))) }
  else if kind = 2 then
    let sa := max 1 (pagesA8 m)
    let area := areaKind r.freshSel (index / sa / max 1 m.layers)
    let page := index % sa
    if fold ∧ area ≠ 3 then
      let total := 2 * m.kvHeads * m.d
      if area ≠ 1 ∨ pagesFold m m.kvFormat ≤ page then none
      else
        let w := foldWin m (r.kv.getD (index / sa % max 1 m.layers) {})
        let n := blocksPerPage w.fmt
        some { plain with
          fmt := w.fmt
          tiles := some (blockTiles w.fmt total page)
          bytes := page32k (packBlocks w.fmt ((w.blocks.drop (n * page)).take n)) }
    else some { plain with tiles := some (min 8 (2 * m.kvHeads * (m.d / 16 + 1) - 8 * page)) }
  else if kind = 4 then some { plain with tiles := some (max 1 (ceilDiv (2 * min 16384 (r.log.length - 16384 * index)) 4096)) }
  else some plain

/-- The pages of a session: the record image (R396), then its objects in order of kind. -/
def sessSrcs (m : Model) (r : Rec) (fold : Bool) : List PageSrc :=
  { kind := 0, index := 0, bytes := sessPage m r 0, tier := 1 } :: r.pages.filterMap (sessSrc m r fold)

/-- What the header, the directory and the side list of an index stand for. -/
def idxNums (i : Idx) : List Nat :=
  [i.client, i.dim, i.metric, i.row, i.degree, i.tier, i.beam, i.shards, i.shard, i.alpha.toNat, i.group, i.seq, i.next, i.base.num,
    i.base.fold, i.dropped, i.rejected] ++ (match i.base.entry with | none => [0] | some e => [1, e])
    ++ counted (i.list.flatMap (fun l => [l.1, l.2])) ++ counted (keys i.base.pages)
    ++ counted (i.side.flatMap (fun n => n.1 :: nums (nodeBytes i n.2))) ++ counted (i.ins.flatMap (fun e => [e.1, e.2]))
    ++ counted (i.adds.flatMap (fun a => [a.1, a.2.1, a.2.2])) ++ counted (i.tombs.flatMap (fun e => [e.1, e.2]))

/-- Pages of the header, directory and side list of an index; their layout is not stated. -/
def idxHeadPages (i : Idx) : Nat := 1 + ceilDiv (sideBytes i + 8 * i.base.pages.length) pageSize

/-- The pages of an index: header, directory and side list, then its chunks. -/
def idxSrcs (i : Idx) : List PageSrc :=
  let n := idxHeadPages i
  (List.range n).map (fun k => ({ kind := 0x20, index := k, bytes := page32k (Config.layout 0x20 k (idxNums i)), tier := 1 } : PageSrc))
    ++ i.base.pages.zipIdx.map (fun (e : (Nat × Loc) × Nat) => ({
        kind := 0x20, index := n + e.2, tiles := some (min 8 (chunkTiles i - 8 * (e.1.1 % 2 ^ 16))), bytes := idxPage i i.base e.1.1,
        tier := e.1.2.tier } : PageSrc))

/-! ### Shards (R395, R396, R398) -/

/-- Capture one page: a copy that the newest committed slate refers to serves if the page has not changed since. -/
def capturePage (c : Capt) (name : Nat) (prev : Option Shard) (s : PageSrc) : Capt × SPage :=
  let old := (prev.map (fun h => h.pages)).getD [] |>.find? (fun p => p.kind == s.kind && p.index == s.index && p.fmt == s.fmt)
  let (tiles, d) : Nat × Dev := match s.tiles, old with
    | some n, _ => (n, c.d)
    | none, some p => (p.tiles, c.d)
    | none, none => (8, c.d)
  let digest := pageDigest (s.bytes.take (4096 * tiles))
  let page : SPage := { kind := s.kind, index := s.index, fmt := s.fmt, tiles := tiles, slate := c.num, copy := 0, digest := digest }
  match old with
  | some p =>
    if p.tiles = tiles ∧ p.digest = digest ∧ (look d.ckp.copies (p.slate * 2 ^ 32 + p.copy)).isSome then ({ c with d := d }, p)
    else write { c with d := d } page
  | none => write { c with d := d } page
where
  /-- The page is read from its tier, and copied. -/
  write (c : Capt) (page : SPage) : Capt × SPage :=
    let r := copyOut { c with d := chargeTier c.d unattributed s.tier (4096 * page.tiles), copied := c.copied + 1 } name page.tiles s.bytes
    (r.1, { page with copy := r.2 })

/-- Capture the pages of an object. -/
def capturePages (c : Capt) (name : Nat) (prev : Option Shard) (l : List PageSrc) : Capt × List SPage :=
  l.foldl (fun (s : Capt × List SPage) x =>
    let r := capturePage s.1 name prev x
    (r.1, s.2 ++ [r.2])) (c, [])

/-- A shard image (R396). -/
def shardImage (h : Shard) : List Byte :=
  let kinds := (h.pages.map (fun p => p.kind)).dedup
  let (len, seq, off, tail) : Nat × Nat × Nat × Nat := match h.sess, h.index with
    | some r, _ => (r.len, r.stepSeq, r.strOff, r.strEpoch)
    | none, some i => (0, i.seq, 0, i.base.num)
    | none, none => (0, 0, 0, 0)
  fields [(1, 2), (h.kind, 1), (b2n h.folded + 2 * b2n h.carried + 4 * b2n h.rewound, 1), (kinds.length, 2), (0, 2), (h.name, 8), (h.epoch, 4),
      (h.client, 1), (0, 3), (h.recipeId, 8), (h.version, 4), (len, 4), (seq, 8), (off, 8), (tail, 4), (h.pages.length, 4)]
    ++ kinds.flatMap (fun k => fields [(k, 1), (0, 3), ((h.pages.filter (fun p => p.kind == k)).length, 4),
        (if h.kind = 1 then h.name + k else h.name, 8)])
    ++ h.pages.flatMap (fun p =>
        fields [(p.index, 4), (p.fmt, 1), (p.tiles, 1), (0, 2), (p.slate, 4), (p.copy, 4)] ++ b256 p.digest)

/-- Write a shard's image. -/
def shardOut (c : Capt) (h : Shard) : Capt × Shard :=
  let bytes := shardImage h
  let r := imageOut c h.name bytes
  (r.1, { h with image := r.2.map (fun k => (c.num, k)), digest := Config.shake256 bytes })

/-- A session's record as a slate holds it: without slot, work, edits and waiting commands. -/
def atRest (r : Rec) : Rec :=
  { r with
    state := .parked, slot := none, edits := [], pausing := none, parking := none, group := none, before := .closed, pausedAt := none,
    releasedAt := none, ttlFrom := none }

/-- A session as a slate takes it: a tuning window that a completed command has left pending is in it (R28), in pages of T1. -/
def withPending (d : Dev) (r : Rec) : Rec :=
  let r' := (r.edits.filter (fun e => match e with | .tune _ => true | _ => false)).foldl (editRec d) r
  { r' with pages := (missingPages (modelFor d r') r').foldl (fun (p : NMap Loc) k => put p k { tier := 1, frame := 0 }) r'.pages }

/-- The shard of the session of record `i`. -/
def captureSess (c : Capt) (prev : Option Shard) (i : Nat) (r : Rec) : Capt × Shard :=
  let r := if r.edits.any (fun e => match e with | .tune _ => true | _ => false) then withPending c.d r else r
  let m := modelFor c.d r
  let rc := rcpFor c.d r
  let fold := fbit c.d Fd.CKP_CFG_ckpt_fold
  let c := if fold then { c with d := countFolds c.d i m r } else c
  let p := capturePages c r.name prev (sessSrcs m r fold)
  shardOut p.1 {
    name := r.name, kind := 1, epoch := r.epoch, client := r.client, folded := fold, carried := false, rewound := r.rewound,
    recipeId := rc.recipeId, version := rc.version, sess := some (atRest (if fold then foldedCapture m r else r)), index := none,
    pages := p.2, image := [], digest := 0 }

/-- The shard of an index. -/
def captureIdx (c : Capt) (prev : Option Shard) (i : Idx) : Capt × Shard :=
  let p := capturePages c i.name prev (idxSrcs i)
  shardOut p.1 {
    name := i.name, kind := 2, epoch := i.epoch, client := i.client, folded := false, carried := false, rewound := false,
    recipeId := 0, version := 0, sess := none, index := some { i with folding := none, old := [] }, pages := p.2, image := [], digest := 0 }

/-- A shard whose capture fails: the newest committed slate's shard is carried, or the object is left out (R398). -/
def carryShard (c : Capt) (prev : Option Shard) : Capt × List Shard :=
  let d := raise (fbump c.d Fd.CKP_SHARD_CNT_shard_failed) Fd.CKP_EVT_shard_failed
  ({ c with d := d }, (prev.map (fun (h : Shard) => ({ h with carried := true } : Shard))).toList)

/-- Is a session in the slate (R387)? -/
def slated (r : Rec) : Bool :=
  r.state == .active || r.state == .paused || r.state == .parked || (r.state == .moving && !r.inbound && !r.restoring)

/-- A session's capture fails on a page (R176, R398): the session is damaged. -/
def captureHurt (c : Capt) (i : Nat) : Capt :=
  let r := recOf c.d i
  { c with d := (report (updRec c.d i (fun r => hurtRec r none)) {
      cls := clsIntegrity, unit := 13, action := 3, object := r.name, handle := handleOf c.d i, client := some r.client,
      status := stIntegrity }).1 }

/-- An index's capture fails on a page (R336, R398). -/
def captureHurtIdx (c : Capt) (n : Nat) : Capt :=
  let i := idxOf c.d n
  { c with d := (report (setIdx c.d n { i with damaged := true }) {
      cls := clsIntegrity, unit := 13, action := 3, object := i.name, client := some i.client, status := stIntegrity }).1 }

/-- Capture every object in the order of R390: sessions with work, the other sessions, indexes, by ascending name. A page of the objects
at the places `bad` in that order fails twice (R398). -/
def captureAll (c : Capt) (newest : Option Slate) (bad : List Nat) : Capt × List Shard :=
  let d := c.d
  let byName := fun (l : List (Nat × Nat)) => sortBy (fun (a b : Nat × Nat) => decide (a.1 < b.1)) l
  let prev := fun (n : Nat) => newest.bind (fun s => shardOf s n)
  let ss := (d.ctx.recs.filter (fun (e : Nat × Rec) => slated e.2)).map (fun e => (e.2.name, e.1))
  let busy := fun (e : Nat × Nat) => (sessWork d e.2).isSome
  let order := byName (ss.filter busy) ++ byName (ss.filter (fun e => !busy e))
  let s := order.zipIdx.foldl (fun (s : Capt × List Shard) (e, k) =>
    let r := recOf d e.2
    if r.damaged ∨ k ∈ bad then
      let x := carryShard (if r.damaged then s.1 else captureHurt s.1 e.2) (prev r.name)
      (x.1, s.2 ++ x.2)
    else
      let x := captureSess s.1 (prev r.name) e.2 r
      (x.1, s.2 ++ [x.2])) (c, [])
  let is := byName ((d.fls.idx.filter (fun (e : Nat × Idx) => e.2.state != 0 && e.2.state != 4)).map (fun e => (e.2.name, e.1)))
  (is.zipIdx order.length).foldl (fun (s : Capt × List Shard) (e, k) =>
    let i := idxOf d e.2
    if i.damaged ∨ k ∈ bad then
      let x := carryShard (if i.damaged then s.1 else captureHurtIdx s.1 e.2) (prev i.name)
      (x.1, s.2 ++ x.2)
    else
      let x := captureIdx s.1 (prev i.name) i
      (x.1, s.2 ++ [x.2])) s

/-! ### Manifest and commit record (R397, R399, R445) -/

/-- One entry of the key block: the checkpoint key wrapped for a recipient. -/
def keyEntry (d : Dev) (num device : Nat) (kem : List Byte) : List Byte × Dev :=
  let r := Config.kemEncap kem d.fresh
  let key := Config.kmac256 r.2 (fields [(num, 4), (d.sec.bootId, 8)]) (label "CYP-SLATE-KEY")
  (fields [(device, 2), (0, 6)] ++ exactly 1568 r.1
      ++ exactly 48 (Config.gcmSeal key (List.replicate 12 0) [] (b256 d.sec.ckptKey)), { d with fresh := d.fresh + 1 })

/-- The key block: each valid recipient whose link KEM key the device holds, but not the buddy. -/
def keyBlock (d : Dev) (num : Nat) : List (List Byte) × Dev :=
  let who := (List.range 4).filterMap (fun e =>
    let dev := fget d Fd.SEC_RCPT_device e
    if !fbit d Fd.SEC_RCPT_valid e || (fbit d Fd.CKP_CFG_buddy_valid && dev == ownBuddy d) then none
    else (look d.sec.peers dev).map (fun p => (dev, p.kem)))
  who.foldl (fun (s : List (List Byte) × Dev) w =>
    let r := keyEntry s.2 num w.1 w.2
    (s.1 ++ [r.1], r.2)) ([], d)

/-- The manifest of a slate. -/
def manifestOf (d : Dev) (s : Slate) : List Byte × Dev :=
  let (keys', d) := keyBlock d s.num
  let table := sortBy (fun (a b : Shard) => decide (a.name < b.name)) s.shards
  let body := fields [(0x534C4154, 4), (1, 2), (ownDevice d, 2), (d.sys.uid, 8), (d.sec.bootId, 8), (fget d Fd.MAP_DOM_domain, 8), (s.num, 4),
      (s.prev, 4), (s.mark, 8), (s.domEpoch, 4), (s.shards.length, 4), (b2n s.emergency + 2 * b2n s.fold, 1), (keys'.length, 1), (0, 6)]
    ++ b256 s.digest ++ List.replicate 32 0
    ++ table.flatMap (fun h => fields [(h.name, 8), (h.epoch, 4), (h.kind, 1), (0, 3)] ++ b256 h.digest) ++ keys'.flatten
  let key := Config.kmac256 d.sec.ckptKey [] (label "CYP-MANIFEST")
  (body ++ b256 (Config.kmac256 key body (label "CYP-SLATE")), d)

/-- Every copy and image is written and acknowledged: the manifest is written and sent (R400). -/
def manifestOut (d : Dev) : Dev :=
  match d.ckp.openSlate with
  | none => d
  | some o =>
    if !o.waiting.isEmpty ∨ o.manifest.isSome ∨ o.full then d
    else
      let (bytes, d) := manifestOf d o.slate
      let r := imageOut { d := d, num := o.slate.num } 0 bytes
      let d := r.1.d
      { d with ckp := { d.ckp with openSlate := some { o with
        slate := { o.slate with own := r.2 }, manifest := some bytes, sentAt := up d,
        waiting := if o.buddy then r.1.items else [], full := r.1.full } } }

/-- A commit record. -/
def commitRecord (d : Dev) (s : Slate) (manifest : List Byte) : List Byte :=
  fields [(0x434F4D54, 4), (s.num, 4), (d.sec.bootId, 8), (manifest.length, 4), (b2n s.buddy + 2 * b2n s.emergency, 1), (0, 3)]
    ++ b256 (Config.shake256 manifest) ++ leBytes 8 (now d)

/-! ### The mark (R389, R390, R408) -/

/-- A slate starts. `bad` as in `captureAll`. -/
def startSlate (d : Dev) (emergency : Bool) (bad : List Nat) : Dev :=
  let num := d.ckp.nextNum
  let newest := d.ckp.kept.head?
  let d := { d with ckp := { d.ckp with nextNum := (num + 1) % 2 ^ 32, nextCopy := 0 } }
  let c := captureAll { d := d, num := num } newest bad
  let d := c.1.d
  let buddy := fbit d Fd.CKP_CFG_buddy_valid
  let s : Slate := {
    num := num, prev := (newest.map (fun x => x.num)).getD 0, mark := frame d, emergency := emergency,
    fold := fbit d Fd.CKP_CFG_ckpt_fold, domEpoch := d.map.domEpoch, digest := d.map.digest, shards := c.2, own := [], buddy := buddy }
  let o : Slating := {
    slate := s, startedAt := up d, sentAt := up d, waiting := c.1.items, buddy := buddy,
    notify := d.ckp.schedule.bind (fun p => if p.2.2.2 then some p.2.2.1 else none), copied := c.1.copied, full := c.1.full }
  manifestOut { d with ckp := { d.ckp with openSlate := some o } }

/-- The schedule moves on to its next mark. -/
def nextMark (d : Dev) : Dev :=
  { d with ckp := { d.ckp with schedule := d.ckp.schedule.bind (fun p => if p.2.1 = 0 then none else some (p.1 + p.2.1, p.2)) } }

/-- Is a slate to be marked (R389, R408): a mark of the schedule, or an emergency slate at the frame boundary after its warning? It
waits for an erase that runs over the snapshot tier (R309). -/
def markDue (d : Dev) : Bool :=
  ckpServes d && !waitsErase d (fget d Fd.CKP_CFG_tier) 1
    && ((d.ckp.emergency && d.ckp.openSlate.isNone && decide (d.ckp.emergencyAt ≤ frame d))
      || d.ckp.schedule.any (fun p => decide (p.1 ≤ frame d)))

/-- The places named by tiles that failed twice. -/
def lastingTiles (xs : List Incident) : List Nat := xs.filterMap (fun x => match x with | .tileLasting w => some w | _ => none)

/-- A slate starts and captures. The faults are those of the capture; a tile that failed twice names the place of its object in the
order of R390. -/
def takeSlate (d : Dev) (emergency : Bool) (xs : List Incident) : Dev :=
  let d := suffer d xs
  if ckpServes d then startSlate d emergency (lastingTiles xs) else d

/-- A mark (R389, R408): the emergency slate first; a mark that falls due while a slate is open is skipped. -/
def markFire (d : Dev) (xs : List Incident) : Dev :=
  if !markDue d then d
  else if d.ckp.emergency ∧ d.ckp.openSlate.isNone ∧ d.ckp.emergencyAt ≤ frame d then takeSlate d true xs
  else if d.ckp.openSlate.isSome ∨ d.ckp.emergency then
    raise (fbump (nextMark d) Fd.CKP_SLATE_CNT_skipped) Fd.CKP_EVT_slate_skipped
  else nextMark (takeSlate d false xs)

/-! ### Acknowledgement, commit and abandonment (R392, R400) -/

/-- `BUDDY_PUT_ACK`: a refused item stays unacknowledged. -/
def execBuddyPutAck (src slate name copy : Nat) (refused : Bool) (s : State) : Host.Outcome State Fault Refusal :=
  lift (fun d =>
    match d.ckp.openSlate with
    | none => d
    | some o =>
      if !ckpServes d ∨ d.lnk.fenced.contains src ∨ src ≠ ownBuddy d ∨ slate ≠ o.slate.num ∨ refused then d
      else
        let left := o.waiting.filter (fun i => !(i.name == name && i.copy == copy))
        manifestOut { d with ckp := { d.ckp with openSlate := some { o with waiting := left } } }) s

/-- The buddy has not acknowledged in time (R399). -/
def buddyOver (d : Dev) : Dev :=
  match d.ckp.openSlate with
  | none => d
  | some o =>
    if !ckpServes d ∨ !o.buddy ∨ o.waiting.isEmpty ∨ up d < o.sentAt + fget d Fd.CKP_CFG_buddy_wait * 65536 then d
    else
      let d := { d with ckp := { d.ckp with openSlate := some { o with
        buddy := false, waiting := [], slate := { o.slate with buddy := false } } } }
      manifestOut (raise d Fd.CKP_EVT_buddy_missing)

/-- `BUDDY_WAIT_EXPIRE`: the slate completes without its buddy. -/
def execBuddyWaitExpire (s : State) : Host.Outcome State Fault Refusal := lift buddyOver s

/-- Is a restore reading a slate? -/
def slateRead (d : Dev) (n : Nat) : Bool := d.ckp.restores.any (fun (e : Nat × Restore) => e.2.slate == n)

/-- Committed slates older than the two newest are discarded; one that a restore reads stays until the restore ends. -/
def trimKept (d : Dev) : Dev :=
  ((d.ckp.kept.drop 2).map (fun s => s.num)).foldl (fun d n => if slateRead d n then d else discardSlate d n) d

/-- The slate commits (P6, R400): its local commit record is written, and goes to the buddy. -/
def slateCommit (d : Dev) : Dev :=
  match d.ckp.openSlate with
  | none => d
  | some o =>
    match o.manifest with
    | none => d
    | some m =>
      if !ckpServes d ∨ !o.waiting.isEmpty ∨ o.full then d
      else
        let s := o.slate
        let rcd := commitRecord d s m
        let d := { d with ckp := { d.ckp with
          openSlate := none, kept := s :: d.ckp.kept, emergency := false, lastShards := s.shards.length, lastCopied := o.copied } }
        let d := if s.buddy then
            sendFrame d 4 0x40 (ownBuddy d) none (buddyBytes 1 0 s.num (ownDevice d) 0 (2 ^ 32 - 1) 0 rcd)
          else d
        let d := trimKept (raise (fbump d Fd.CKP_SLATE_CNT_committed) Fd.CKP_EVT_slate_committed)
        match o.notify with
        | none => d
        | some obj => settle (syncApply d (fget d Fd.CKP_CFG_client) obj 2 s.num false)

/-- `SLATE_COMMIT` (R400). -/
def execSlateCommit (s : State) : Host.Outcome State Fault Refusal := lift slateCommit s

/-- A slate has not been committed in time (R392): `max_frames` frames after its mark. -/
def slateOver (d : Dev) : Dev :=
  match d.ckp.openSlate with
  | none => d
  | some o =>
    if inReset d ∨ up d < o.startedAt + fget d Fd.CKP_CFG_max_frames * 65536 then d else abandonSlate d false

/-- `SLATE_ABANDON` (R392). -/
def execSlateAbandon (s : State) : Host.Outcome State Fault Refusal := lift slateOver s

/-- An emergency slate is wanted (R408): an open slate becomes it. -/
def emergencySlate (d : Dev) : Dev :=
  if !fbit d Fd.CKP_CTL_enable ∨ d.ckp.emergency then d
  else
    raise { d with ckp := { d.ckp with
      emergency := true
      emergencyAt := frame d + 1
      openSlate := d.ckp.openSlate.map (fun (o : Slating) => ({ o with slate := { o.slate with emergency := true } } : Slating)) } }
      Fd.CKP_EVT_emergency

/-! ### Discarding (R409) -/

/-- A matched `CKP_DISCARD` write. -/
def ckpDiscard (d : Dev) (n : Nat) : Dev :=
  let d := unguard d Rg.CKP_DISCARD_A
  if !d.ckp.kept.any (fun s => s.num == n) ∨ slateRead d n ∨ ckpState d = 3 then cfgIgnored d Rg.CKP_DISCARD_A
  else discardSlate d n

/-- `CKP_DISCARD` (R409). -/
def execCkpDiscard (slate : Nat) (s : State) : Host.Outcome State Fault Refusal :=
  lift (fun d => if d.sys.portUp then ckpDiscard d slate else d) s

/-! ### The buddy (R401, R402) -/

/-- Space held for other devices, in bytes. -/
def heldBytes (d : Dev) : Nat := pageSize * sumN (d.ckp.held.map (fun h => h.locs.length))

/-- Held items of a slate that is discarded: which of them later slates still need the buddy cannot see in the items, so what
it frees is a free value. -/
def forgetHeld (d : Dev) (origin slate : Nat) : Dev :=
  let s := d.ckp.held.foldl (fun (s : List Held × Dev) h =>
    if h.origin = origin ∧ h.slate = slate then
      let r := freshBelow s.2 2
      if r.1 = 0 then (s.1, r.2) else (s.1 ++ [h], r.2)
    else (s.1 ++ [h], s.2)) ([], d)
  let d := s.2
  { d with ckp := { d.ckp with held := s.1, heldDone := d.ckp.heldDone.filter (fun e => e != (origin, slate)) } }

/-- A commit record arrives: uncommitted older slates go, and committed slates but the two newest. -/
def heldCommit (d : Dev) (origin slate : Nat) : Dev :=
  let done := (origin, slate) :: d.ckp.heldDone.filter (fun e => e != (origin, slate))
  let mine := sortBy (fun (a b : Nat) => decide (b < a)) ((done.filter (fun e => e.1 == origin)).map Prod.snd)
  let d := { d with ckp := { d.ckp with
    heldDone := done
    held := d.ckp.held.filter (fun h => h.origin != origin || decide (slate ≤ h.slate) || mine.contains h.slate) } }
  (mine.drop 2).foldl (fun d n => forgetHeld d origin n) d

/-- `BUDDY_PUT` (R402): the item is stored as it came, or refused. -/
def execBuddyPut (src slate name copy : Nat) (tiles : List Byte) (s : State) : Host.Outcome State Fault Refusal :=
  lift (fun d =>
    if !ckpServes d ∨ d.lnk.fenced.contains src then d
    else
      let answer := fun (d : Dev) (st : Nat) => sendFrame d 4 0x40 src none (buddyBytes 2 st slate src name copy 0 [])
      let d1 := { d with ckp := { d.ckp with held := d.ckp.held.filter (fun h =>
        !(h.origin == src && h.slate == slate && h.name == name && h.copy == copy)) } }
      let n := ceilDiv (tiles.length / 4120 * 4096) pageSize
      let n := max 1 n
      if fget d Fd.CKP_BUDDY_LIM_mib * 2 ^ 20 < heldBytes d1 + pageSize * n then answer d 1
      else
        match slateFrames d1 n with
        | none => answer d 1
        | some (ls, d) =>
          let d := ls.zipIdx.foldl (fun d l =>
            chargeTier (nandProgram d l.1 (((pieces 4120 tiles).drop (8 * l.2)).take 8)) unattributed l.1.tier tiles.length) d
          let h : Held := { origin := src, slate := slate, name := name, copy := copy, data := tiles, locs := ls }
          let d := { d with ckp := { d.ckp with held := d.ckp.held ++ [h] } }
          answer (if leAt tiles 0 4 = 0x434F4D54 ∧ tiles.length = 64 then heldCommit d src slate else d) 0) s

/-- `BUDDY_RELEASE`: a slate of the sender is discarded, or a restorer has done with the slates of a device that failed. -/
def execBuddyRelease (src origin slate : Nat) (s : State) : Host.Outcome State Fault Refusal :=
  lift (fun d =>
    if !ckpServes d ∨ d.lnk.fenced.contains src then d
    else if origin = src then forgetHeld d origin slate
    else if d.map.members.contains origin then d
    else { d with ckp := { d.ckp with
      held := d.ckp.held.filter (fun h => h.origin != origin), heldDone := d.ckp.heldDone.filter (fun e => e.1 != origin) } }) s

/-- `BUDDY_FETCH`: the item, or GONE. Slate 0 asks for the newest committed slate. -/
def execBuddyFetch (src origin slate name copy : Nat) (s : State) : Host.Outcome State Fault Refusal :=
  lift (fun d =>
    if !ckpServes d ∨ d.lnk.fenced.contains src then d
    else
      let n := if slate = 0 then ((d.ckp.heldDone.filter (fun e => e.1 == origin)).map Prod.snd).foldl max 0 else slate
      match d.ckp.held.find? (fun h => h.origin == origin && h.slate == n && h.name == name && h.copy == copy) with
      | none => sendFrame d 4 0x40 src none (buddyBytes 5 2 n origin name copy 0 [])
      | some h =>
        let d := h.locs.foldl (fun d l => chargeTier (flsRead d l 1) unattributed l.tier h.data.length) d
        sendFrame d 4 0x40 src none (buddyBytes 5 0 n origin name copy (2 ^ (h.data.length / 4120) - 1) h.data)) s

end Sys2Proof.Machine
end

