-- ==== Sys2Proof/Machine/Ckp.lean ====
section
/-!
DEFINITION. Sys2Proof/Machine/Ckp.lean: restores (14 R403 to R407; 07 R227): of one session by command or after a pool loss, and
of a failed device's sessions and indexes from its buddy.
-/

namespace Sys2Proof.Machine

/-! ### Room for restored objects (R405) -/

/-- The outcome of finding room for the pages of restored objects. -/
inductive Place where
  | ok (pages : NMap Loc) (d : Dev)
  | none
  | waits
  deriving DecidableEq, Repr

/-- Locations for pages, in the order of their keys. -/
def placeAt (d : Dev) (t : Nat) (ks fs : List Nat) : Place :=
  let r := locsAt d t fs
  .ok ((ks.zip r.1).foldl (fun (p : NMap Loc) kl => put p kl.1 kl.2) []) r.2

/-- Place pages in T2, or in T4 if T2 or the client's share of it lacks room. -/
def placeT2T4 (d : Dev) (c : Nat) (ks : List Nat) : Place :=
  match alloc d c 2 ks.length with
  | .ok fs d => placeAt d 2 ks fs
  | .waits => .waits
  | _ => match alloc d c 4 ks.length with
    | .ok fs d => placeAt d 4 ks fs
    | .waits => .waits
    | _ => .none

/-- Must pages that are to be placed wait for an erase (R309)? -/
def placeWaits (d : Dev) (c n : Nat) : Bool :=
  match alloc d c 2 n with
  | .ok _ _ => false
  | .waits => true
  | _ => match alloc d c 4 n with
    | .waits => true
    | _ => false

/-! ### One session (R227, R405) -/

/-- The record that a restore leaves: that of the shard, PARKED and `rewound`, under the handle, client, recipe and map epoch it
has now; its stream epoch advances. -/
def restoredRec (d : Dev) (r cap : Rec) (slate : Nat) (folded : Bool) (pages : NMap Loc) : Rec :=
  { cap with
    state := .parked, gen := r.gen, client := r.client, recipe := r.recipe, epoch := r.epoch, key := r.key, name := r.name, slot := none,
    rewound := true, damaged := false, lost := false, restoring := false, folded := cap.folded || folded, group := none, edits := [],
    pages := pages, ptGen := r.ptGen + 1, table := [], hintDue := false, prefetchDue := false, strEpoch := (r.strEpoch + 1) % 2 ^ 32, rewindSlate := slate, rewindOff := cap.strOff,
    releasedAt := some (frame d), ttlFrom := some (frame d) }

/-- The shard of a restore under way. -/
def restoreShard (d : Dev) (x : Restore) : Option (Slate × Shard) :=
  (d.ckp.kept.find? (fun s => s.num == x.slate)).bind (fun s => (shardOf s x.name).map (fun h => (s, h)))

/-- Pages that the restored session needs. -/
def restorePages (d : Dev) (i : Nat) (cap : Rec) : List Nat := wantPages (modelFor d (recOf d i)) cap

/-- The session gives up its slot behind a rewind record, which the command that restores it waits for (R52, R278, R405). -/
def rewindSlot (d : Dev) (i : Nat) (cap : Rec) (x : Restore) : Dev :=
  let r := recOf d i
  match r.slot with
  | none => d
  | some s => releaseSlot (strSpecial d s {
      bytes := rewindRecord cap.strOff cap.len ((r.strEpoch + 1) % 2 ^ 32) x.slate, ring := if x.answers then x.ring else noRing,
      id := x.flight, status := stOK, result := 0, gate := true }) i

/-- Put a restore under way. -/
def setRestore (d : Dev) (i : Nat) (x : Restore) : Dev := { d with ckp := { d.ckp with restores := put d.ckp.restores i x } }

/-- `RESTORE` in session mode, from its second group of checks on. -/
def restoreSession (d : Dev) (ring : Nat) (f : Flight) (i : Nat) : Dev :=
  let r := recOf d i
  if !(sessGroups d i).isEmpty then d
  else match bestSlate d r.name (db f.desc 24 4) with
  | none => finish d ring f.id stRestoreIncomplete 0
  | some (sl, sh, here) =>
    match sh.sess with
    | none => finish d ring f.id stRestoreIncomplete 0
    | some cap =>
      let x : Restore := {
        slate := sl.num, name := r.name, only := db f.desc 24 4, ring := ring, flight := f.id, answers := true, fetching := !here,
        before := r.state }
      if here then
        match placeT2T4 d r.client (restorePages d i cap) with
        | .waits => d
        | .none => let (v, d) := freshBelow d (2 ^ 32); finish d ring f.id stNoFit v
        | .ok pages d =>
          setRestore (updRec (dispatched d ring f.id) i (fun r => { r with state := .moving, restoring := true })) i
            { x with reserved := true, pages := pages }
      else
        let miss := missingCopies d sl sh
        let d := fetchCopies (dispatched d ring f.id) r.name miss
        setRestore (updRec d i (fun r => { r with state := .moving, restoring := true })) i { x with await := miss }

/-- Is a ring's next descriptor a `RESTORE` in device mode? -/
def deviceMode (d : Dev) (ring : Nat) : Bool :=
  match stageThree d ring with
  | some (f, _) => bitOf (db f.desc 28 1) 0
  | none => false

/-- `RESTORE` (R405): of a record ACTIVE, PAUSED or PARKED with no work dispatched. -/
def execRestore (ring : Nat) (s : State) : Host.Outcome State Fault Refusal :=
  lift (fun d => if deviceMode d ring then d else dispatchGated d ring 0x51 (fun d f =>
    withSess d ring f (sessCheck d (dSel f.desc) false false (fun r c =>
      (r.state == .active || r.state == .paused || r.state == .parked) && c != .running && c != .saved)) (fun i =>
      restoreSession d ring f i))) s

/-- A restore cannot be carried out: a command ends and its record is as it was; a session that lost its pool is lost. -/
def restoreFails (d : Dev) (i : Nat) (x : Restore) (st res : Nat) : Dev :=
  let d := dropRestore d i
  if x.answers then finish (updRec d i (fun r => { r with state := x.before, restoring := false })) x.ring x.flight st res
  else loseSession d i x.unit x.ends

/-- Every copy that a restore waited for has come: room is reserved. -/
def restoreGo (d : Dev) (i : Nat) (x : Restore) : Dev :=
  match restoreShard d x with
  | some (sl, { sess := some cap, .. }) =>
    if !x.answers then
      setRestore ((shardOf sl x.name).elim d (fun sh => rewindTo d i sl.num sh x.ends)) i { x with fetching := false, ends := [] }
    else if x.reserved then setRestore d i { x with fetching := false }
    else match placeT2T4 d (recOf d i).client (restorePages d i cap) with
      | .waits => d
      | .none =>
        let (v, d) := freshBelow d (2 ^ 32)
        restoreFails d i x stNoFit v
      | .ok pages d => setRestore d i { x with fetching := false, reserved := true, pages := pages }
  | _ => restoreFails d i x stRestoreIncomplete 0

/-- A copy does not verify: the next older slate is tried (R404), and needs room of its own. -/
def restoreOlder (d : Dev) (i : Nat) (x : Restore) : Dev :=
  let d := releaseLocs d (some (recOf d i).client) (vals x.pages)
  let x := { x with reserved := false, pages := [] }
  let older := (d.ckp.kept.filter (fun s => s.num != x.slate)).filter (fun s =>
    (d.ckp.kept.map (fun k => k.num)).idxOf x.slate < (d.ckp.kept.map (fun k => k.num)).idxOf s.num)
  match if x.only = 0 then servingSlate d older x.name else none with
  | none => restoreFails d i x stRestoreIncomplete 0
  | some (sl, sh, here) =>
    let x := { x with slate := sl.num, fetching := !here, await := if here then [] else missingCopies d sl sh }
    if here then restoreGo (setRestore d i x) i x else fetchCopies (setRestore d i x) x.name x.await

/-- A copy of one of this device's slates arrives from the buddy. -/
def copyArrives (d : Dev) (slate name copy : Nat) (ok : Bool) : Dev :=
  match d.ckp.restores.find? (fun e => e.2.fetching && e.2.name == name && e.2.await.contains (slate, copy)) with
  | none => d
  | some (i, x) =>
    if !ok then restoreOlder d i x
    else
      let x := { x with await := x.await.erase (slate, copy) }
      let d := setRestore d i x
      if x.await.isEmpty then restoreGo d i x else d

/-- A restore ends (R227, R405): the record is PARKED and `rewound`. -/
def restoreEnd (d : Dev) (i : Nat) (x : Restore) (cap : Rec) (folded : Bool) (pages : NMap Loc) : Dev :=
  let d := rewindSlot d i cap x
  let r := recOf d i
  let old := recLocs r
  let d := syncTable (setRec d i (restoredRec d r cap x.slate folded pages)) i r.ptGen
  let d := releaseLocs d (some r.client) old
  let d := if x.answers then programAt d (.session i) (keys pages) else d
  let d := dropRestore d i
  let d := trimKept (raise (fbump d Fd.CKP_SHARD_CNT_restored) Fd.CKP_EVT_restore_done)
  if x.answers then endHeld d x.ring x.flight stOK x.slate
  else
    let d := raise (fbump d Fd.CTX_CNT_rewound) Fd.CTX_EVT_rewound
    (report d {
      cls := clsPoolLoss, unit := x.unit, action := 5, object := x.name, handle := handleOf d i, client := some r.client,
      detailA := x.slate, detailB := cap.strOff % 2 ^ 32 }).1

/-- The pages of a restore after a pool loss are queued to the dolly, in RECALL (R297). -/
def restoreQueue (d : Dev) (i : Nat) (x : Restore) (pages : NMap Loc) : Dev :=
  let d := setRestore d i { x with reserved := true, pages := pages }
  let id := d.dly.nextGroup
  let d := queueGroup d .recall (.restore i) 0 0 false false 2 (keys pages) ((vals pages).map (fun l => l.frame))
  -- each page has its own place, with the seal counter it was given
  { d with dly := { d.dly with queues := d.dly.queues.map (fun (q : Nat × List QPage) => (q.1, q.2.map (fun p =>
    if p.group = id then { p with dest := (look pages p.page).getD p.dest } else p))) } }

/-- The copies of a restore by command are read (R404, R405): the restore ends, unless one that is here fails its check; then the
buddy's serves. -/
def restoreRead (d : Dev) (i : Nat) (xs : List Incident) : Dev :=
  let d := suffer d xs
  match look d.ckp.restores i with
  | none => d
  | some x =>
    match restoreShard d x with
    | some (sl, sh) =>
      let bad := ((lastingTile xs).bind (fun k => (shardCopies sl sh)[k]?)).filter (fun c => (look d.ckp.copies (c.1 * 2 ^ 32 + c.2)).isSome)
      match bad, sh.sess with
      | some c, _ => copyFails d i x c
      | none, some cap => restoreEnd d i x cap sh.folded x.pages
      | none, none => d
    | none => restoreOlder d i x

/-- `RESTORE_COMPLETE` (R227, R405): the session's objects are replaced. After a pool loss the pages that were left are freed
first, the restore waits for room, and the dolly brings its pages. A restore whose buddy can no longer help takes an older slate. The
faults are those of the copies that a restore by command reads; a tile that failed twice names the copy's place among them. -/
def execRestoreComplete (handle : BitVec 32) (incidents : List Incident) (s : State) : Host.Outcome State Fault Refusal :=
  lift (fun d =>
    let i := handle.toNat % 2 ^ 24
    match look d.ckp.restores i with
    | none => d
    | some x =>
      if handleOf d i ≠ handle.toNat ∨ !ckpServes d then d
      else if x.fetching then
        if x.await.isEmpty then restoreGo d i x
        else if (restoreShard d x).any (fun p => buddyHelps d p.1) then d else restoreOlder d i x
      else match restoreShard d x with
        | some (_, { sess := some cap, folded := folded, .. }) =>
          if x.reserved ∧ x.answers then restoreRead d i incidents
          else if x.reserved ∧ x.copied then restoreEnd d i x cap folded x.pages
          else if d.dly.groups.any (fun g => g.obj == .restore i) then d
          else if x.reserved then restoreQueue d i x x.pages
          else
            let r := recOf d i
            let d' := releaseLocs (updRec d i (fun r => { r with pages := [] })) (some r.client) (recLocs r)
            match placeT2T4 d' r.client (restorePages d' i cap) with
            | .ok pages d => restoreQueue d i x pages
            | _ => d
        | _ => restoreOlder d i x) s

/-! ### A device (R406) -/

/-- The record of a received image: PARKED (a restore or a handoff sets the rest). -/
def recOfImage (m : SessImage) (gen recipe epoch : Nat) (pages : NMap Loc) : Rec :=
  { state := .parked, gen := gen, client := m.client, recipe := recipe, cls := m.cls, policy := m.policy, hold := m.hold,
    parkAfter := m.parkAfter, parkTier := m.parkTier, ttl := m.ttl, seed := m.seed, raw := m.raw, stepSeq := m.stepSeq,
    strOff := m.strOff, strEpoch := m.strEpoch, rebuildTo := m.rebuildTo, folded := m.folded, hint := m.hint, epoch := epoch,
    key := m.key, name := m.name, len := m.len, ptGen := m.ptGen, freshSel := m.freshSel, kv := m.kv, pages := pages, log := m.log, carry := m.carry,
    out := m.out, lastStep := m.lastStep, precCount := m.precCount, underflow := m.underflow }

/-- The lowest LOADED recipe slot that holds a recipe at a version. -/
def loadedRecipe (d : Dev) (id version : Nat) : Option Nat :=
  (keys d.fab.rcp).find? (fun n => (rcpOf d n).state == .loaded && (rcpOf d n).recipeId == id && (rcpOf d n).version == version)

/-- A free session record, whichever; none if the table is full. -/
def freeRecord (d : Dev) : Option (Nat × Dev) :=
  match d.ctx.tableLog2 with
  | none => none
  | some n =>
    let used := usedRecords d
    if 2 ^ n ≤ used.length then none
    else
      let (k, d) := freshBelow d (2 ^ n - used.length)
      some (nthFree used k, d)

/-- May a client hold one more record? -/
def recordQuota (d : Dev) (c : Nat) : Bool := decide (recordsOf d c < fget d Fd.CTX_CLIENT_LIM_max_records c)

/-- The lowest free index number. -/
def freeIndex (d : Dev) : Option Nat := (List.range 256).find? (fun n => (idxOf d n).state == 0)

/-- Restore a session: its handle, or none for want of room or quota. -/
def restoreImage (d : Dev) (slate epoch : Nat) (m : SessImage) : Option (Nat × Dev) :=
  match loadedRecipe d m.recipeId m.version with
  | none => none
  | some n =>
    if !recordQuota d m.client then none
    else match freeRecord d with
      | none => none
      | some (i, d) =>
        match placeT2T4 d m.client (m.pages.map Prod.fst) with
        | .ok pages d =>
          let gen := (recOf d i).gen
          let r := recOfImage m gen (rcpHandle n (rcpOf d n)) epoch pages
          let d := syncTable (setRec d i { r with
            rewound := true, strEpoch := (m.strEpoch + 1) % 2 ^ 32, rewindSlate := slate, rewindOff := m.strOff,
            releasedAt := some (frame d), ttlFrom := some (frame d) }) i m.ptGen
          some (handleOf d i, fbump (programAt d (.session i) (keys pages)) Fd.CKP_SHARD_CNT_restored)
        | _ => none

/-- Restore an index: its number, in RECOVERING, or none for want of room. -/
def restoreIndex (d : Dev) (epoch : Nat) (m : IdxImage) : Option (Nat × Dev) :=
  match freeIndex d with
  | none => none
  | some n =>
    match placeT2T4 d m.client m.basePages with
    | .ok pages d =>
      let i : Idx := {
        state := 4, client := m.client, name := m.name, dim := m.dim, metric := m.metric, row := m.row, degree := m.degree,
        tier := m.tier, beam := m.beam, shards := m.shards, shard := m.shard, alpha := m.alpha, group := m.group, list := m.list,
        seq := m.seq, next := m.next, base := { num := m.baseNum, fold := m.baseFold, entry := m.baseEntry, nodes := m.baseNodes, pages := pages },
        side := m.side, ins := m.ins, adds := m.adds, tombs := m.tombs, dropped := m.dropped, rejected := m.rejected, epoch := epoch }
      if (lackT1 d m.client (sideBytes i + headBytes i)).isSome then none
      else some (n, fbump (programAt (setIdx d n i) (.index n) (keys pages)) Fd.CKP_SHARD_CNT_restored)
    | _ => none

/-- Change the entry of a name in the restore list. -/
def updEntry (v : DevRestore) (name : Nat) (f : REnt → REnt) : DevRestore :=
  { v with entries := v.entries.map (fun e => if e.name = name then f e else e) }

def setDev (d : Dev) (v : Option DevRestore) : Dev := { d with ckp := { d.ckp with devRestore := v } }

/-- The restore list (R406). -/
def restoreList (l : List REnt) : List Byte :=
  l.flatMap (fun e => fields [(e.name, 8), (e.handle, 4), (e.kind, 1), (e.status, 1), (e.slate, 4), (0, 6)])

/-- A device-mode restore ends. -/
def devEnd (d : Dev) (v : DevRestore) : Dev :=
  match flightOf d v.ring v.flight with
  | none => setDev d none
  | some f =>
    let d := raise (setDev d none) Fd.CKP_EVT_restore_done
    let bound := db f.desc 48 4
    let bytes := restoreList v.entries
    if v.entries.all (fun e => e.status == 2) then finish d v.ring v.flight stRestoreIncomplete 0
    else
      let d := hostWrite d v.ring (db f.desc 40 8) (bytes.take bound)
      if bound < bytes.length then finish d v.ring v.flight stTruncated bytes.length
      else
        let d := sendFrame d 4 0x40 v.buddy none (buddyBytes 3 0 v.want v.failed 0 0 0 [])
        finish d v.ring v.flight stOK ((v.entries.filter (fun e => e.status == 0)).length)

/-- Go on with the next object of a device-mode restore, by fuel: its image is fetched from the newest slate that may serve. -/
def devNextBy : Nat → Dev → Dev
  | 0, d => d
  | n + 1, d =>
    match d.ckp.devRestore with
    | none => d
    | some v =>
      match v.entries.find? (fun e => e.phase != 3) with
      | none => devEnd d v
      | some e =>
        if e.phase ≠ 0 then d
        else match e.tries with
          | [] => devNextBy n (setDev d (some (updEntry v e.name (fun e => { e with phase := 3, status := 2 }))))
          | (sl, _) :: _ =>
            let d := setDev d (some (updEntry v e.name (fun e => { e with phase := 1 })))
            sendFrame d 4 0x40 v.buddy none (buddyBytes 4 0 sl v.failed e.name 0 0 [])

/-- Each object is decided once. -/
def devNext (d : Dev) : Dev :=
  match d.ckp.devRestore with
  | none => d
  | some v => devNextBy (v.entries.length + 1) d

/-- An object of the list is decided. -/
def devDecide (d : Dev) (v : DevRestore) (name status : Nat) : Dev :=
  devNext (setDev d (some (updEntry v name (fun e => { e with phase := 3, status := status, sess := none, index := none }))))

/-- `RESTORE` in device mode, from its second group of checks on. -/
def restoreDevice (d : Dev) (ring : Nat) (f : Flight) : Dev :=
  let x := f.desc
  let failed := db x 30 2
  if sqClient d ring ≠ fget d Fd.CKP_CFG_client then finish d ring f.id stSecurity 0
  else if d.map.members.contains failed ∨ !(ckpState d = 0 ∨ ckpState d = 1) then finish d ring f.id stStateConflict 0
  else
    let v : DevRestore := { ring := ring, flight := f.id, failed := failed, buddy := db x 32 2, want := db x 24 4 }
    let d := setDev (dispatched d ring f.id) (some v)
    sendFrame d 4 0x40 v.buddy none (buddyBytes 4 0 v.want failed 0 0 0 [])

/-- `RESTORE_DEVICE` (R406). -/
def execRestoreDevice (ring : Nat) (s : State) : Host.Outcome State Fault Refusal :=
  lift (fun d => if deviceMode d ring then dispatchGated d ring 0x51 (restoreDevice · ring ·) else d) s

/-- The manifests of the failed device arrive: they name the objects to restore. -/
def devManifests (d : Dev) (v : DevRestore) (l : List ManifestInfo) : Dev :=
  let l := if v.want = 0 then l else l.filter (fun m => m.slate == v.want)
  match l with
  | [] => finish (raise (setDev d none) Fd.CKP_EVT_restore_done) v.ring v.flight stRestoreIncomplete 0
  | m :: _ =>
    if !m.wrapped then finish (raise (setDev d none) Fd.CKP_EVT_restore_done) v.ring v.flight stSecurity 0
    else
      let l := l.filter (fun m => m.wrapped)
      let names := (l.flatMap (fun m => m.shards.map Prod.fst)).foldl (fun l n => insertN n l) []
      let entry := fun (n : Nat) =>
        let has := l.flatMap (fun m => (m.shards.filter (fun h => h.1 == n)).map (fun h => (m.slate, h.2)))
        ({ name := n, kind := (has.head?.map (fun h => h.2.2)).getD 1, tries := has.map (fun h => (h.1, h.2.1)) } : REnt)
      devNext (setDev d (some { v with listed := true, entries := names.map entry }))

/-- Claim a fetched object in the map (R376, R406). -/
def devClaim (d : Dev) (v : DevRestore) (name epoch : Nat) : Dev :=
  publishClaim (setDev d (some (updEntry v name (fun e => { e with phase := 2, epoch := epoch })))) name
    { epoch := epoch, sentAt := up d, why := .restore }

/-- A session's image verifies: it needs a recipe, and room, before it is claimed; it waits for an erase (R309). -/
def devSession (d : Dev) (v : DevRestore) (e : REnt) (slate epoch : Nat) (m : SessImage) : Dev :=
  if (loadedRecipe d m.recipeId m.version).isNone then devDecide d v e.name 4
  else if placeWaits d m.client m.pages.length then
    setDev d (some (updEntry v e.name (fun e => { e with slate := slate, epoch := epoch, sess := some m })))
  else match restoreImage d slate epoch m with
    | none => devDecide d v e.name 3
    | some _ => devClaim d (updEntry v e.name (fun e => { e with slate := slate, sess := some m })) e.name (epoch + 1)

/-- An index's image verifies. -/
def devIndex (d : Dev) (v : DevRestore) (e : REnt) (slate epoch : Nat) (m : IdxImage) : Dev :=
  if erasing d 1 ∨ placeWaits d m.client m.basePages.length then
    setDev d (some (updEntry v e.name (fun e => { e with slate := slate, epoch := epoch, index := some m })))
  else match restoreIndex d epoch m with
  | none => devDecide d v e.name 3
  | some _ => devClaim d (updEntry v e.name (fun e => { e with slate := slate, index := some m })) e.name (epoch + 1)

/-- `BUDDY_DATA` (R401, R404, R406). -/
def execBuddyData (src origin slate name copy : Nat) (gone verifies : Bool) (item : BuddyItem) (s : State) :
    Host.Outcome State Fault Refusal :=
  lift (fun d =>
    if !ckpServes d ∨ d.lnk.fenced.contains src then d
    else if origin = ownDevice d then
      if src = ownBuddy d then copyArrives d slate name copy (!gone && verifies && (match item with | .page => true | _ => false)) else d
    else match d.ckp.devRestore with
      | none => d
      | some v =>
        if src ≠ v.buddy ∨ origin ≠ v.failed then d
        else if !v.listed then
          devManifests d v (match item with | .manifests l => if gone ∨ !verifies then [] else l | _ => [])
        else match v.entries.find? (fun e => e.phase == 1 && e.name == name) with
          | none => d
          | some e =>
            match e.tries with
            | [] => d
            | (sl, ep) :: rest =>
              if slate ≠ sl then d
              else
                let older := devNext (setDev d (some (updEntry v name (fun e => { e with phase := 0, tries := rest }))))
                if gone ∨ !verifies then older
                else match item with
                  | .session m => if m.name = name then devSession d v e sl ep m else older
                  | .index m => if m.name = name then devIndex d v e sl ep m else older
                  | _ => older) s

/-- The registrar has answered a claim of a device-mode restore (R376, R406). -/
def devConfirm (d : Dev) (name home epoch : Nat) : Dev :=
  match d.ckp.devRestore with
  | none => d
  | some v =>
    match v.entries.find? (fun e => e.phase == 2 && e.name == name) with
    | none => d
    | some e =>
      let room := match e.sess, e.index with
        | some m, _ => !placeWaits d m.client m.pages.length
        | none, some m => !erasing d 1 && !placeWaits d m.client m.basePages.length
        | none, none => true
      if home = ownDevice d ∧ !room then setDev d (some (updEntry v name (fun e => { e with epoch := epoch, roomless := true })))
      else if home = ownDevice d then
        let got := match e.sess, e.index with
          | some m, _ => restoreImage d e.slate epoch m
          | none, some m => restoreIndex d epoch m
          | none, none => none
        match got with
        | none => devDecide d v name 3
        | some (h, d) => devDecide d (updEntry v name (fun e => { e with handle := h })) name 0
      else if home = v.failed ∧ e.epoch ≤ epoch then devClaim d v name (epoch + 1)
      else devDecide d v name 1

/-- A device-mode restore that waited for an erase goes on (R309). -/
def devErased (d : Dev) : Dev :=
  match d.ckp.devRestore with
  | none => d
  | some v => match v.entries.find? (fun e => (e.phase == 1 && (e.sess.isSome || e.index.isSome)) || (e.phase == 2 && e.roomless)) with
    | none => d
    | some e =>
      if e.phase = 2 then devConfirm d e.name (ownDevice d) e.epoch
      else match e.sess, e.index with
        | some m, _ => devSession d v e e.slate e.epoch m
        | none, some m => devIndex d v e e.slate e.epoch m
        | none, none => d

/-- `ERASE_DONE` (R309). -/
def execEraseDone (s : State) : Host.Outcome State Fault Refusal :=
  lift (fun d => if d.mem.erase.isNone then d else devErased (eraseEnd d)) s

end Sys2Proof.Machine
end

