-- ==== Sys2Proof/Machine/Handoff.lean ====
section
/-!
DEFINITION. Sys2Proof/Machine/Handoff.lean: handoffs of sessions between devices (13 R378 to R383; 16 R444).
-/

namespace Sys2Proof.Machine

/-! ### Entries of the sender -/

def hoOf (d : Dev) (e : Nat) : HoOut := mget d.map.out {} e
def setHo (d : Dev) (e : Nat) (h : HoOut) : Dev := { d with map := { d.map with out := mset d.map.out {} e h } }

/-- Is an entry in OFFERED, ACCEPTED or COMMITTED? -/
def hoOpen (h : HoOut) : Bool := 1 ≤ h.state && h.state ≤ 3

/-- The open entry that a message of a receiver answers. -/
def hoFor (d : Dev) (src id : Nat) : Option Nat :=
  (keys d.map.out).find? (fun e => hoOpen (hoOf d e) && (hoOf d e).dest == src && (hoOf d e).id == id)

/-- An entry reaches a final state. -/
def hoEnd (d : Dev) (e state reason newHandle : Nat) : Dev :=
  let h := hoOf d e
  let d := raise (setHo d e { h with state := state, reason := reason, newHandle := newHandle, reclaiming := false }) Fd.MAP_EVT_handoff_done
  match state with
  | 4 => fbump d Fd.MAP_HO_CNT_out
  | 7 => raise (fbump d Fd.MAP_HO_FAIL_reclaimed) Fd.MAP_EVT_reclaimed
  | _ => fbump d Fd.MAP_HO_FAIL_refused

/-- Is the record still the session of the handoff? -/
def hoHolds (d : Dev) (h : HoOut) : Bool := (recOf d h.rcd).state == .moving && (recOf d h.rcd).name == h.name

/-- The sender's record returns to its earlier state, at an epoch; its time to live goes on with what remained. -/
def hoBack (d : Dev) (h : HoOut) (epoch : Nat) : Dev :=
  if hoHolds d h then
    updRec d h.rcd (fun r => { r with state := h.before, epoch := epoch, ttlFrom := some (frame d - h.ran) })
  else d

/-- The record and everything of it go; the registrar's entry stays (R382). -/
def hoFree (d : Dev) (i : Nat) : Dev :=
  let d := freeObjects d i
  setRec d i { gen := ((recOf d i).gen + 1) % 256 }

/-- The receiver is home: the sender's copy is freed and its record closed. -/
def hoDone (d : Dev) (e newHandle : Nat) : Dev :=
  let h := hoOf d e
  let d := if hoHolds d h then hoFree d h.rcd else d
  let d := { d with map := { d.map with claims := if h.reclaiming then del d.map.claims h.name else d.map.claims } }
  leaveTry (hoEnd d e 4 0 newHandle)

/-! ### The offer (R378 to R380, R444) -/

/-- The checks of GO, in order: 0 if all pass. -/
def hoCheck (d : Dev) (e : Nat) : Nat :=
  let h := fget d Fd.MAP_HO_REQ_handle e
  let dest := fget d Fd.MAP_HO_REQ_dest e
  let i := h % 2 ^ 24
  let r := recOf d i
  let still := r.state == .parked || (r.state == .paused && r.slot.isNone)
  if r.state = .closed ∨ handleOf d i ≠ h then 0x10
  else if !still ∨ r.rewound ∨ (sessWork d i).isSome then 0x11
  else if !d.map.members.contains dest ∨ dest = ownDevice d ∨ (look d.sec.peers dest).isNone then 0x12
  else if 2 ^ 32 - 1 ≤ r.epoch then 0x13
  else if (peerOf d dest).diverged ∨ (peerOf d dest).digest ≠ some (digestPre d) then 1
  else 0

/-- The body of an OFFER: the session storage key wrapped for the receiver. -/
def hoBody (d : Dev) (dest id : Nat) (r : Rec) : List Byte × Dev :=
  match look d.sec.peers dest with
  | none => ([], d)
  | some p =>
    let k := Config.kemEncap p.kem d.fresh
    let key := Config.kmac256 k.2 (fields [(id, 4), (r.name, 8)]) (label "CYP-HANDOFF")
    (exactly 1568 k.1 ++ exactly 48 (Config.gcmSeal key (List.replicate 12 0) [] (b256 r.key)) ++ leBytes 8 d.sec.bootId,
      { d with fresh := d.fresh + 1 })

/-- One page is sent: a page at a lender is asked for first. -/
def hoPage (id dest i client : Nat) (d : Dev) (k : Nat) : Dev :=
  let r := recOf d i
  let kind := pageKind k
  let (ctr, d) := sealed d 4
  let tiles := sessTiles (modelFor d r) r k
  let d := match look r.pages k with
    | some l => chargeTier (if l.tier = 3 then getFrame d r.client tiles l else flsRead d l 1) r.client l.tier (4096 * tiles)
    | none => d
  let count := (r.pages.filter (fun (p : Nat × Loc) => pageKind p.1 == kind)).length
  let head := exactly 32 (Config.layout 0x60 0 [id, objName r kind, kind, 2 ^ tiles - 1, pageIndex k, count])
  sendFrame d 6 0x60 dest (some client) (head ++ ((sealSess d r k ctr).take tiles).flatten)

/-- Every check has passed: the record is MOVING, and OFFER and the session's objects go out, the record image and the page
table first. -/
def hoOffer (d : Dev) (e : Nat) : Dev :=
  let i := fget d Fd.MAP_HO_REQ_handle e % 2 ^ 24
  let dest := fget d Fd.MAP_HO_REQ_dest e
  let client := fget d Fd.MAP_HO_REQ_client e
  let r := recOf d i
  let rc := rcpFor d r
  let id := d.map.nextId
  let ks := keys r.pages
  let order := 0 :: ks.filter (fun k => pageKind k == 3) ++ ks.filter (fun k => pageKind k != 3)
  let d := { d with map := { d.map with nextId := (id + 1) % 2 ^ 32 } }
  let d := setHo d e {
    state := 1, id := id, rcd := i, name := r.name, dest := dest, epoch := r.epoch, since := up d, before := r.state,
    ran := match r.ttlFrom with | some t => frame d - t | none => 0 }
  let d := updRec d i (fun r => { r with state := .moving, ttlFrom := none })
  let (body, d) := hoBody d dest id r
  let d := mapSend d dest (mapBytes d 1 0 id r.name r.epoch dest client rc.recipeId rc.version ks.length 0 ++ body)
  order.foldl (hoPage id dest i r.client) d

/-- GO for an entry: its checks are made. -/
def hoStart (d : Dev) (e : Nat) : Dev :=
  let why := hoCheck d e
  if why ≠ 0 then hoEnd (setHo d e { dest := fget d Fd.MAP_HO_REQ_dest e }) e 5 why 0 else hoOffer d e

/-- A write of `MAP_HO_GO`; the handoff waits while the security unit is in reset (R435). -/
def hoGo (d : Dev) : Dev :=
  let e := fget d Fd.MAP_HO_SEL_entry
  if hoOpen (hoOf d e) ∨ d.map.isolated then cfgIgnored d Rg.MAP_HO_GO
  else if !mapServes d then d
  else if unitInReset d 6 then { d with map := { d.map with goHeld := insertN e d.map.goHeld } }
  else hoStart d e

/-- `MAP_HO_GO` (R378). -/
def execMapHoGo (s : State) : Host.Outcome State Fault Refusal := lift (fun d => if d.sys.portUp then hoGo d else d) s

/-! ### The receiver (R380, R381) -/

/-- Refuse a handoff. -/
def hoRefuse (d : Dev) (dst id name epoch reason : Nat) : Dev := mapSend d dst (mapBytes d 3 reason id name epoch 0 0 0 0 0 0)

/-- The session storage key of an OFFER; none if it does not open. -/
def hoUnwrap (d : Dev) (id name : Nat) (body : List Byte) : Option (BitVec 256) :=
  match d.sec.linkKem with
  | none => none
  | some k =>
    let ss := Config.kemDecap k.toNat (body.take 1568)
    let key := Config.kmac256 ss (fields [(id, 4), (name, 8)]) (label "CYP-HANDOFF")
    (Config.gcmOpen key (List.replicate 12 0) [] ((body.drop 1568).take 48)).map (fun p => BitVec.ofNat 256 (ofLe p))

/-- The conditions of R381 that an OFFER shows, in order: 0 if none holds. -/
def offerReason (d : Dev) (m : MapMsg) (body : List Byte) : Nat :=
  if (peerOf d m.src).diverged ∨ m.digest ≠ digestPre d then 1
  else if m.compat ≠ fget d Fd.MAP_CFG_compat then 2
  else if (loadedRecipe d m.recipeId m.recipeVersion).isNone then 3
  else if !recordQuota d m.client then 4
  else if (freeRecord d).isNone then 5
  else if 64 ≤ d.map.inb.length then 6
  else if (hoUnwrap d m.handoff m.name body).isNone then 8
  else 0

/-- An OFFER arrives (R379, R381); it waits while the security unit is in reset (R435). -/
def offerIn (d : Dev) (m : MapMsg) (wrappedKey : List Byte) : Dev :=
  if !mapServes d ∨ !d.map.members.contains m.src ∨ d.lnk.fenced.contains m.src
      ∨ d.map.inb.any (fun h => h.src == m.src && h.id == m.handoff) then d
  else if unitInReset d 6 then { d with map := { d.map with offersHeld := d.map.offersHeld ++ [(m, wrappedKey)] } }
  else
    let d := noteMsg d m
    let why := offerReason d m wrappedKey
    if why ≠ 0 then hoRefuse d m.src m.handoff m.name m.epoch why
    else match hoUnwrap d m.handoff m.name wrappedKey with
      | none => d
      | some key => { d with map := { d.map with inb := d.map.inb ++ [{
          src := m.src, id := m.handoff, name := m.name, epoch := m.epoch, client := m.client, recipeId := m.recipeId,
          version := m.recipeVersion, pages := m.pages, key := key }] } }

/-- `OFFER` (R379, R381). -/
def execOffer (msg : MapMsg) (wrappedKey : List Byte) (s : State) : Host.Outcome State Fault Refusal :=
  lift (fun d => offerIn d msg wrappedKey) s

/-- The security unit is out of its reset (R435): the handoffs and offers that waited for it go on. -/
def securityBack (d : Dev) : Dev :=
  let gos := d.map.goHeld
  let offers := d.map.offersHeld
  let d := { d with map := { d.map with goHeld := [], offersHeld := [] } }
  let d := gos.foldl (fun d e => if hoOpen (hoOf d e) then d else hoStart d e) d
  offers.foldl (fun d o => offerIn d o.1 o.2) d

/-- The tier that a page of the sender takes here (R380). -/
def hoTier (t : Nat) : Nat := match t with | 0 => 1 | 3 => 2 | n => n

/-- Room for the pages of an image, tier by tier: the pages, or the reason for refusing; none while an erase runs. -/
def hoPlace (d : Dev) (c : Nat) (pages : List (Nat × Nat)) : Option (Except Nat (NMap Loc × Dev)) :=
  [1, 2, 4].foldl (fun acc t => match acc with
    | some (.ok (ps, d)) =>
      let ks := (pages.filter (fun p => hoTier p.2 == t)).map Prod.fst
      match alloc d c t ks.length with
      | .ok fs d =>
        let r := locsAt d t fs
        some (.ok ((ks.zip r.1).foldl (fun (p : NMap Loc) kl => put p kl.1 kl.2) ps, r.2))
      | .quota _ => some (.error 4)
      | .noFit _ => some (.error 5)
      | .waits => none
    | x => x) (some (.ok ([], d)))

def dropIn (d : Dev) (src id : Nat) : Dev :=
  { d with map := { d.map with inb := d.map.inb.filter (fun h => !(h.src == src && h.id == id)) } }

def updIn (d : Dev) (src id : Nat) (f : HoIn → HoIn) : Dev :=
  { d with map := { d.map with inb := d.map.inb.map (fun h => if h.src = src ∧ h.id = id then f h else h) } }

def inFor (d : Dev) (src id : Nat) : Option HoIn := d.map.inb.find? (fun h => h.src == src && h.id == id)

/-- `OBJECT_TRANSFER` (R380, R381): every page of a session has arrived; it is placed, and accepted. -/
def execObjectTransfer (src handoff : Nat) (image : SessImage) (incidents : List Incident) (s : State) :
    Host.Outcome State Fault Refusal :=
  lift (fun d =>
    match inFor d src handoff with
    | none => d
    | some h =>
      if !mapServes d ∨ h.rcd.isSome ∨ image.name ≠ h.name ∨ d.lnk.fenced.contains src then d
      else
        let d := countChecks d incidents Fd.DLY_CHECK_CNT_transient Fd.DLY_CHECK_CNT_lasting Fd.DLY_EVT_check_transient
          Fd.DLY_EVT_check_lasting
        let refuse := fun (d : Dev) (why : Nat) => hoRefuse (dropIn d src handoff) src handoff h.name h.epoch why
        match loadedRecipe d h.recipeId h.version, recordQuota d h.client, freeRecord d with
          | none, _, _ => refuse d 3
          | _, false, _ => refuse d 4
          | _, _, none => refuse d 5
          | some n, true, some (i, d1) =>
            match hoPlace d1 h.client image.pages with
            | none => d
            | some (.error why) => refuse d why
            | some (.ok (pages, d2)) =>
              if (lastingTile incidents).isSome then refuse d 8 else
              let d := d2
              let r := recOfImage { image with client := h.client, key := h.key } (recOf d i).gen (rcpHandle n (rcpOf d n)) h.epoch pages
              let d := pages.foldl (fun d (p : Nat × Loc) => chargeTier d h.client p.2.tier pageSize) d
              let d := syncTable (setRec d i { r with state := .moving, inbound := true }) i r.ptGen
              let d := programAt d (.session i) (keys pages)
              let d := updIn d src handoff (fun h => { h with
                rcd := some i, since := up d, target := if image.wasPaused then .paused else .parked, ttlLeft := image.ttlLeft })
              mapSend d src (mapBytes d 2 0 handoff h.name h.epoch 0 0 0 0 0 (handleOf d i))) s

/-! ### Commitment (R382, R383) -/

/-- `ACCEPT`: the sender commits, or abandons a handoff that it no longer holds open. -/
def execAccept (msg : MapMsg) (s : State) : Host.Outcome State Fault Refusal :=
  lift (fun d =>
    let m := msg
    if !mapServes d ∨ d.lnk.fenced.contains m.src then d
    else
      let d := noteMsg d m
      let abort := fun (d : Dev) => mapSend d m.src (mapBytes d 6 0 m.handoff m.name m.epoch 0 0 0 0 0 0)
      match hoFor d m.src m.handoff with
      | none => abort d
      | some e =>
        let h := hoOf d e
        if h.state ≠ 1 then d
        else if !hoHolds d h then hoEnd (abort d) e 6 0 0
        else
          let d := setHo d e { h with state := 3, newHandle := m.handle, since := up d }
          mapSend d m.src (mapBytes d 4 0 h.id h.name (h.epoch + 1) h.dest 0 0 0 0 0)) s

/-- `HANDOFF_REFUSE`: the receiver will not take the session. -/
def execHandoffRefuse (msg : MapMsg) (s : State) : Host.Outcome State Fault Refusal :=
  lift (fun d =>
    let m := msg
    if !mapServes d ∨ d.lnk.fenced.contains m.src then d
    else
      let d := noteMsg d m
      match hoFor d m.src m.handoff with
      | none => d
      | some e => if (hoOf d e).state = 1 then hoEnd (hoBack d (hoOf d e) (hoOf d e).epoch) e 5 m.reason 0 else d) s

/-- `COMMIT`: the receiver claims the session; one that it no longer holds is refused. -/
def execCommit (msg : MapMsg) (s : State) : Host.Outcome State Fault Refusal :=
  lift (fun d =>
    let m := msg
    if !mapServes d ∨ d.lnk.fenced.contains m.src then d
    else
      let d := noteMsg d m
      match inFor d m.src m.handoff with
      | some h =>
        if h.rcd.isSome then
          publishClaim (updIn d m.src m.handoff (fun h => { h with published := true })) h.name
            { epoch := m.epoch, sentAt := up d, why := .inbound m.src m.handoff }
        else unheld d m
      | none => unheld d m) s
where
  /-- The reason of such a REFUSE is not stated: a free value. -/
  unheld (d : Dev) (m : MapMsg) : Dev :=
    let (v, d) := freshBelow d 256
    hoRefuse d m.src m.handoff m.name m.epoch v

/-- An inbound handoff is freed, with its bytes and its record. -/
def hoDrop (d : Dev) (h : HoIn) : Dev :=
  let d := match h.rcd with | some i => if (recOf d i).inbound ∧ (recOf d i).name = h.name then hoFree d i else d | none => d
  dropIn d h.src h.id

/-- `ABORT`: the receiver frees what it holds, unless it has published; an ABORT of a handoff it does not hold is refused. -/
def execAbort (msg : MapMsg) (s : State) : Host.Outcome State Fault Refusal :=
  lift (fun d =>
    let m := msg
    if !mapServes d ∨ d.lnk.fenced.contains m.src then d
    else
      let d := noteMsg d m
      match inFor d m.src m.handoff with
      | some h => if h.published then d else hoDrop d h
      | none =>
        let (v, d) := freshBelow d 256
        hoRefuse d m.src m.handoff m.name m.epoch v) s

/-- The receiver is home: its record takes the state that the sender's had, and its time to live goes on. -/
def hoArrive (d : Dev) (h : HoIn) (epoch : Nat) : Dev :=
  match h.rcd with
  | none => d
  | some i =>
    let d := updRec d i (fun r => { r with
      state := h.target, inbound := false, epoch := epoch, releasedAt := some (frame d), ttlFrom := some (frame d - (r.ttl - h.ttlLeft)) })
    let d := dropIn d h.src h.id
    let d := mapSend d h.src (mapBytes d 5 0 h.id h.name epoch (ownDevice d) 0 0 0 0 (handleOf d i))
    raise (fbump d Fd.MAP_HO_CNT_in) Fd.MAP_EVT_handoff_in

/-- `CONFIRM` (R376, R382, R383, R406): the registrar names the home and the epoch. -/
def execConfirm (msg : MapMsg) (s : State) : Host.Outcome State Fault Refusal :=
  lift (fun d =>
    let m := msg
    if !mapServes d ∨ d.lnk.fenced.contains m.src then d
    else
      let d := noteMsg d m
      match look d.map.claims m.name with
      | none => d
      | some c =>
        let d := { d with map := { d.map with claims := del d.map.claims m.name } }
        let mine := m.device = ownDevice d
        match c.why with
        | .inbound src id => match inFor d src id with
          | some h => if mine then hoArrive d h m.epoch else hoDrop d h
          | none => d
        | .reclaim e =>
          let h := hoOf d e
          if mine then hoEnd (hoBack d h m.epoch) e 7 0 0 else hoDone d e h.newHandle
        | .restore => devConfirm d m.name m.device m.epoch) s

/-- `HANDOFF_RELEASE`: the receiver is home. -/
def execHandoffRelease (msg : MapMsg) (s : State) : Host.Outcome State Fault Refusal :=
  lift (fun d =>
    let m := msg
    if !mapServes d ∨ d.lnk.fenced.contains m.src then d
    else
      let d := noteMsg d m
      match hoFor d m.src m.handoff with
      | none => d
      | some e => if (hoOf d e).state = 3 then hoDone d e (hoOf d e).newHandle else d) s

/-! ### Timeouts (R383) -/

/-- Does some transfer frame of an entry still wait for its policer or its port? -/
def transferWaits (d : Dev) (h : HoOut) : Bool :=
  let mine := fun (f : GFrame) => f.cls == 6 && f.dst == h.dest && leAt f.bytes 5 1 == 0x60
  ((vals d.lnk.clientQ).flatten ++ ((vals d.lnk.ports).flatMap (fun q => vals q.queues)).flatten).any mine

/-- The accept timeout counts from the last transfer frame (R383): while one waits it has not begun. -/
def transferSince (d : Dev) (e : Nat) : Dev :=
  if (hoOf d e).state = 1 ∧ transferWaits d (hoOf d e) then setHo d e { hoOf d e with since := up d } else d

/-- Has no ACCEPT come since the last transfer frame of an entry? -/
def acceptDue (d : Dev) (e : Nat) : Bool :=
  !inReset d && (hoOf d e).state == 1 && !transferWaits d (hoOf d e) && decide ((hoOf d e).since + fget d Fd.MAP_HO_TIMEOUT_accept * 65536 ≤ up d)

/-- The accept timeout of an entry: the offer is aborted. -/
def acceptOver (d : Dev) (e : Nat) : Dev :=
  if acceptDue d e then
    let h := hoOf d e
    let d := mapSend d h.dest (mapBytes d 6 0 h.id h.name h.epoch 0 0 0 0 0 0)
    hoEnd (hoBack d h h.epoch) e 6 7 0
  else d

/-- Has the receiver had no COMMIT since its ACCEPT? -/
def commitDue (d : Dev) (h : HoIn) : Bool :=
  !inReset d && h.rcd.isSome && !h.published && decide (h.since + fget d Fd.MAP_HO_TIMEOUT_commit * 65536 ≤ up d)

/-- The commit timeout of an inbound handoff: it is dropped. -/
def commitOver (d : Dev) (src handoff : Nat) : Dev :=
  match inFor d src handoff with
  | none => d
  | some h => if commitDue d h then hoDrop d h else d

/-- Has the sender had no RELEASE since its COMMIT? -/
def releaseDue (d : Dev) (e : Nat) : Bool :=
  !inReset d && (hoOf d e).state == 3 && !(hoOf d e).reclaiming
    && decide ((hoOf d e).since + fget d Fd.MAP_HO_TIMEOUT_release * 65536 ≤ up d)

/-- The release timeout of an entry: the sender claims the session back. -/
def releaseOver (d : Dev) (e : Nat) : Dev :=
  if releaseDue d e then
    let h := hoOf d e
    publishClaim (setHo d e { h with reclaiming := true }) h.name { epoch := h.epoch + 1, sentAt := up d, why := .reclaim e }
  else d

end Sys2Proof.Machine
end

