-- ==== Sys2Proof/Machine/Meter.lean ====
section
/-!
DEFINITION. Sys2Proof/Machine/Meter.lean: the meter domain (17 R450 to R460, 19 R498): calibration, minutes, supply
events, the signed log and MTR_TX. It has its own rail and runs through a reset of the S-die (R97).
-/

namespace Sys2Proof.Machine

def setMeter (d : Dev) (m : Meter) : Dev := { d with meter := m }

/-- Bytes of a calibration record (R454). -/
def calBytes : Nat := 14988

/-- The fields of a calibration record that the meter checks (R454). -/
def calFieldsOk (r : List Byte) : Bool :=
  let mode := leAt r 6 1
  let nom := leAt r 28 2
  leAt r 0 4 == 0x4C41434D && leAt r 4 2 == 1 && (1 ≤ mode && mode ≤ 3) && leAt r 7 1 == 0
    && (if mode == 3 then nom == 0 else nom == 50 || nom == 60) && leAt r 30 2 == 0
    && (List.range 7).all (fun c => leAt r (32 + 16 * c + 12) 4 == 0)
    && (leAt r 144 1 == 1 || leAt r 144 1 == 2) && leAt r 145 15 == 0 && leAt r 160 4 == calBytes

/-- Declared supply voltage in mV, and uid, of the calibration in force. -/
def calUdin (m : Meter) : Nat := leAt (m.cal.getD []) 24 4
def calUid (m : Meter) : Nat := leAt (m.cal.getD []) 8 8

/-- Digest of the calibration in force, zero without one. -/
def calDigestOf (m : Meter) : BitVec 256 := match m.cal with | some r => Config.shake256 r | none => 0

/-- The next output of the meter's own entropy source (R427). -/
def meterDraw (d : Dev) : BitVec 256 × Dev := (Config.meterEntropy d.fresh, { d with fresh := d.fresh + 1 })

/-- The 192-byte body of a log record (R457): bytes 32 to 119 are `mid`, bytes 120 to 151 `digest`. -/
def logBody (m : Meter) (typ flags : Nat) (mid : List Byte) (digest : BitVec 256) : List Byte :=
  fields [(0x4D52544D, 4), (1, 2), (typ, 1), (flags + (if m.cal.isNone then 4 else 0), 1), (calUid m, 8),
    (m.bootId, 8), (m.seq, 8)] ++ exactly 88 mid ++ b256 digest ++ b256 m.prev ++ List.replicate 8 0

/-- Write one signed record (R457, R458): it takes the next sequence and leaf, names its predecessor, and joins the
queue of MTR_TX, displacing the oldest of 16 (R498), and the feed (R451). `extra` follows the body (type 4). -/
def meterEmit (d : Dev) (typ flags : Nat) (mid : List Byte) (digest : BitVec 256) (extra : List Byte)
    (ended : Option Nat := none) : Dev :=
  let m := d.meter
  let m := if m.keyUsed = leaves then
      match m.keyNext with
      | some k => { m with key := k, keyUsed := 0, keySucc := m.keySucc + 1, keyNext := none }
      | none => m
    else m
  let body := logBody m typ flags mid digest ++ extra
  let rcd := body ++ exactly 4963 (Config.xmssSign m.key.toNat m.keyUsed body)
  let q := if 16 ≤ m.txq.length then m.txq.drop 1 else m.txq
  setMeter d { m with
    keyUsed := m.keyUsed + 1, seq := m.seq + 1, prev := Config.shake256 rcd, txq := q ++ [rcd], feed := m.feed ++ [(rcd, ended)] }

/-- With 1,024 leaves left the successor key is formed and certified, and a type 4 record names it (R429, R458). -/
def meterRoll (d : Dev) : Dev :=
  if d.meter.keyNext.isNone ∧ leaves ≤ d.meter.keyUsed + 1024 then
    let (k, d) := meterDraw d
    let d := setMeter d { d.meter with keyNext := some k }
    let d := meterEmit d 4 0 [] (calDigestOf d.meter) (meterPublic k)
    if d.sys.rom then
      let (c, d) := idCertify d 2 (d.meter.keySucc + 1) d.meter.bootId (meterPublic k)
      { d with sec := { d.sec with meterCert := c } }
    else d
  else d

/-- The bytes of a minute record from 32 on (R457). -/
def minuteMid (m : Meter) (cycles : Nat) : List Byte :=
  let c := m.cur
  let mean := fun i => quot (c.rms.getD i 0) (max 1 c.cycles)
  fields ([(m.minute, 8), (cycles, 8), (c.importMj, 8), (c.exportMj, 8), (m.importCum, 8), (m.exportCum, 8)]
    ++ (List.range 7).map (fun i => (mean i, 4))
    ++ [(quot c.freq (max 1 c.cycles), 2), (c.cycles, 2), (c.sags, 2), (c.swells, 1), (c.ints, 1), (0, 4)])

/-- The longest minute on the crystal: 60.5 s of 16.384 MHz (R456). -/
def freeRunCycles : Nat := 991232000

/-- The timecode minute that ends at a minute marker, which falls on or near a minute boundary of the counter (R458, R466). -/
def markerMinute (d : Dev) : Nat := (frame d + 30000) / 60000 - 1

/-- A meter minute closes (R455 to R458): its record is signed, a waiting calibration takes effect and is logged, and
the MTR_TX rate takes effect (R450). How many crystal cycles a marked minute has is a free value. -/
def minuteClose (d : Dev) (freeRun : Bool) : Dev :=
  if !d.meter.rail then d else
  let (c, d) := freshBelow d freeRunCycles
  let cycles := if freeRun then freeRunCycles else c
  let m := d.meter
  let m := { m with importCum := m.importCum + m.cur.importMj, exportCum := m.exportCum + m.cur.exportMj }
  let flags := b2n freeRun + 2 * b2n m.cur.fault
  let ended := if freeRun then none else some (markerMinute d)
  let d := meterEmit (setMeter d m) 1 flags (minuteMid m cycles) (calDigestOf m) [] ended
  let m := d.meter
  let d := setMeter d { m with
    minute := m.minute + 1, clock := m.clock + cycles, cur := { fault := !m.stuck.isEmpty }, rate := m.rateNext }
  let d := match d.meter.calNext with
    | none => d
    | some r =>
      let d := setMeter d { d.meter with cal := some r, calNext := none }
      meterEmit d 3 0 [] (Config.shake256 r) []
  meterRoll d

/-- `MINUTE_MARKER` (R456). -/
def execMinuteMarker (s : State) : Host.Outcome State Fault Refusal := lift (fun d => minuteClose d false) s

/-- `METER_FREE_RUN_CLOSE` (R456). -/
def execMeterFreeRunClose (s : State) : Host.Outcome State Fault Refusal := lift (fun d => minuteClose d true) s

/-- `METER_POWER_UP` (R427, R457): the rail comes up; boot identifier and key are drawn and a start record written. -/
def execMeterPowerUp (s : State) : Host.Outcome State Fault Refusal :=
  lift (fun d =>
    if d.meter.rail then d else
    let (b, d) := meterDraw d
    let (k, d) := meterDraw d
    let d := setMeter d { rail := true, bootId := b.toNat % 2 ^ 64, key := k }
    certifyMeter (meterEmit d 5 0 [] Config.meterFirmware [])) s

/-- `METER_RAIL_LOSS` (19 R490): the meter domain stops and loses its state. -/
def execMeterRailLoss (s : State) : Host.Outcome State Fault Refusal := lift (fun d => setMeter d {}) s

/-- `MAINS_CYCLE_END` (R452, R453): a cycle or window is accumulated. A meter without a calibration in force measures
nothing (R455); a channel whose bitstream holds one level contributes zero until it toggles. -/
def execMainsCycleEnd (importMj exportMj : Nat) (rms : List Nat) (freqMhz : Nat) (s : State) :
    Host.Outcome State Fault Refusal :=
  lift (fun d =>
    let m := d.meter
    if !m.rail ∨ m.cal.isNone then d else
    let c := m.cur
    let stuck := m.stuck.filter (fun i => rms.getD i 0 = 0)
    let sums := (List.range 7).map (fun i => c.rms.getD i 0 + rms.getD i 0)
    setMeter d { m with stuck := stuck, cur := { c with
      cycles := c.cycles + 1, importMj := c.importMj + importMj, exportMj := c.exportMj + exportMj, rms := sums,
      freq := c.freq + freqMhz } }) s

/-- `SENSE_FAULT` (R452). -/
def execSenseFault (channel : Nat) (s : State) : Host.Outcome State Fault Refusal :=
  lift (fun d =>
    let m := d.meter
    if !m.rail ∨ 7 ≤ channel then d else
    let hit := fun (e : SupplyEvt) => { e with fault := true }
    setMeter d { m with
      sag := m.sag.map hit, swell := m.swell.map hit, intr := m.intr.map hit,
      stuck := if m.stuck.contains channel then m.stuck else m.stuck ++ [channel], cur := { m.cur with fault := true } }) s

/-! ### Supply events (R460) -/

/-- Mask of the phases that satisfy a condition. -/
def phaseMask (phases : List Nat) (p : Nat → Bool) : Nat :=
  sumN (phases.zipIdx.map (fun (v, i) => if p v then 2 ^ i else 0))

/-- The signed type 2 record of an event that has ended (R457). -/
def eventRecord (d : Dev) (cls : Nat) (e : SupplyEvt) : Dev :=
  meterEmit d 2 (2 * b2n (e.fault || !d.meter.stuck.isEmpty))
    (fields [(e.start, 8), (cls, 1), (e.mask, 1), (0, 6), (e.dur, 4), (e.extreme, 4), (0, 8)])
    (calDigestOf d.meter) []

/-- One class of events over one half-cycle: whether it starts, and whether it has ended. Answers the new event. -/
def evtStep (d : Dev) (cls : Nat) (cur : Option SupplyEvt) (starts ends : Bool) (mask extreme : Nat)
    (worse : Nat → Nat → Nat) : Dev × Option SupplyEvt :=
  match cur with
  | none =>
    if starts then
      let (o, d) := freshBelow d freeRunCycles
      (send d (.notice cls true), some ⟨d.meter.clock + o, mask, 1, extreme, !d.meter.stuck.isEmpty⟩)
    else (d, none)
  | some e =>
    if ends then (eventRecord (send d (.notice cls false)) cls e, none)
    else (d, some { e with mask := e.mask ||| mask, dur := e.dur + 1, extreme := worse e.extreme extreme })

/-- A half-cycle or DC window is classified (R460). An interruption replaces the sag that led into it. A voltage channel that is not
zero has toggled (R452). -/
def halfCycle (d : Dev) (phases : List Nat) : Dev :=
  let m := d.meter
  if !m.rail ∨ m.cal.isNone ∨ phases = [] then d else
  let d := setMeter d { m with stuck := m.stuck.filter (fun i => phases.getD i 0 = 0) }
  let u := calUdin m
  let low := fun (pct v : Nat) => decide (v * 100 < pct * u)
  let lo := phases.foldl min (phases.headD 0)
  let hi := phases.foldl max 0
  let started := m.intr.isNone
  let (d, intr) := evtStep d 3 m.intr (phases.all (low 5)) (phases.any (fun v => !low 7 v))
    (phaseMask phases (low 5)) lo min
  let d := if started ∧ intr.isSome then
      setMeter d { d.meter with intr := intr, sag := none, cur := { d.meter.cur with ints := d.meter.cur.ints + 1 } }
    else setMeter d { d.meter with intr := intr }
  let d := if intr.isSome then d else
    let was := d.meter.sag
    let (d, sag) := evtStep d 1 was (phases.any (low 90)) (phases.all (fun v => !low 92 v))
      (phaseMask phases (low 90)) lo min
    setMeter d { d.meter with
      sag := sag, cur := { d.meter.cur with sags := d.meter.cur.sags + b2n (was.isNone && sag.isSome) } }
  let was := d.meter.swell
  let (d, swell) := evtStep d 2 was (phases.any (fun v => decide (110 * u < v * 100)))
    (phases.all (fun v => decide (v * 100 ≤ 108 * u))) (phaseMask phases (fun v => decide (110 * u < v * 100))) hi max
  setMeter d { d.meter with
    swell := swell, cur := { d.meter.cur with swells := d.meter.cur.swells + b2n (was.isNone && swell.isSome) } }

/-- `HALF_CYCLE_END` (R460). -/
def execHalfCycleEnd (phaseMv : List Nat) (s : State) : Host.Outcome State Fault Refusal :=
  lift (fun d => meterRoll (halfCycle d phaseMv)) s

/-! ### Rate and output (R450, R498) -/

/-- A write to `MTR_TX_CFG` (R10, R81, R450). How long `busy` stays, up to 2 µs, is free. -/
def txCfgWrite (d : Dev) (word : Nat) : Dev :=
  if up d < d.mtr.busyUntil then postedOverrun d Rg.MTR_TX_CFG else
  let (b, d) := freshBelow d 132
  let d := { d with mtr := { d.mtr with busyUntil := up d + b } }
  setMeter (fset d Fd.MTR_TX_CFG_rate word) { d.meter with rateNext := word % 4 }

/-- `MTR_TX_CFG_WRITE` (R450). -/
def execMtrTxCfgWrite (value : Word) (s : State) : Host.Outcome State Fault Refusal :=
  lift (fun d => if d.sys.portUp then txCfgWrite d value.toNat else d) s

/-- `MTR_TX_SEND` (R498): the next queued record starts as a frame. -/
def execMtrTxSend (s : State) : Host.Outcome State Fault Refusal :=
  lift (fun d =>
    match d.meter.txq with
    | [] => d
    | r :: rest =>
      let body := leBytes 2 r.length ++ r
      send (setMeter d { d.meter with txq := rest }) (.mtrTx ([0xA5, 0x5A] ++ body ++ leBytes 4 (crc32c body)))) s

end Sys2Proof.Machine
end

