-- ==== Sys2Proof/Machine/Power.lean ====
section
/-!
DEFINITION. Sys2Proof/Machine/Power.lean: the S-die's side of the meter feed (17 R458, R459), the power envelope (R462 to
R465) and heat (19 R495).
-/

namespace Sys2Proof.Machine

def setMtr (d : Dev) (m : Mtr) : Dev := { d with mtr := m }

/-- Envelope and meter feed are in service (R468; log entry 10). -/
def mtrServes (d : Dev) : Bool := tcServes d

/-! ### The schedule (R462) -/

/-- The valid entry with the latest minute at or before `m`, the lowest index among equals. -/
def envEntry (d : Dev) (m : Nat) : Option Nat :=
  (List.range 64).foldl (fun best e =>
    let mi := fget d Fd.MTR_ENV_ENT_minute e
    if fbit d Fd.MTR_ENV_ENT_valid e ∧ mi ≤ m then
      match best with
      | none => some e
      | some b => if fget d Fd.MTR_ENV_ENT_minute b < mi then some e else best
    else best) none

/-- The cap of a minute, in W: above 550 read as 550, below 150 as 150. -/
def capOf (d : Dev) (m : Nat) : Nat :=
  let raw := match envEntry d m with
    | some e => fget d Fd.MTR_ENV_ENT_cap e
    | none => fget d Fd.MTR_ENV_DEFAULT_cap
  max 150 (min 550 raw)

/-- The cap in force. -/
def capNow (d : Dev) : Nat := capOf d (minuteOf d)

/-- A write to `MTR_ENV_ENT` (R462): ignored and reported if it would change the entry in force, or clear it. -/
def envWrite (d : Dev) (word : Nat) (addr : Nat := Rg.MTR_ENV_ENT) : Dev :=
  let e := fget d Fd.MTR_ENV_SEL_entry
  let d' := fset (fset (fset d Fd.MTR_ENV_ENT_minute word e) Fd.MTR_ENV_ENT_cap (word / 2 ^ 32) e)
    Fd.MTR_ENV_ENT_valid (word / 2 ^ 48) e
  match envEntry d (minuteOf d) with
  | none => d'
  | some i =>
    let same := envEntry d' (minuteOf d) == some i
      && fget d Fd.MTR_ENV_ENT_minute i == fget d' Fd.MTR_ENV_ENT_minute i
      && fget d Fd.MTR_ENV_ENT_cap i == fget d' Fd.MTR_ENV_ENT_cap i
    if same then d' else cfgIgnored d addr

/-- `ENV_ENTRY_WRITE` (R462). -/
def execEnvEntryWrite (value : Word) (s : State) : Host.Outcome State Fault Refusal :=
  lift (fun d => if d.sys.portUp then envWrite d value.toNat else d) s

/-- Has a minute boundary of the envelope passed (R462)? -/
def minuteDue (d : Dev) : Bool := mtrServes d && minuteOf d != d.mtr.envMinute

/-- A minute boundary (R462): the cap of the minute that ended is kept for R464, and valid entries earlier than the one in force are
cleared. -/
def envMinute (d : Dev) : Dev :=
  if !minuteDue d then d else
  let m := minuteOf d
  let d := setMtr d { d.mtr with capBefore := capOf d (m - 1), envMinute := m }
  match envEntry d m with
  | none => d
  | some i =>
    let mi := fget d Fd.MTR_ENV_ENT_minute i
    (List.range 64).foldl (fun d e =>
      if fbit d Fd.MTR_ENV_ENT_valid e ∧ fget d Fd.MTR_ENV_ENT_minute e < mi then fset d Fd.MTR_ENV_ENT_valid 0 e
      else d) d

/-! ### Throttling (R463 to R465, R495) -/

/-- The new level by rules 1 to 3 of R464, for mean power `m` and cap `c`. -/
def throttleRule (L m c before : Nat) (newMinute : Bool) : Nat :=
  if newMinute ∧ c < before ∧ c < m then min 14 (L + ceilDiv (16 * (m - c)) m)
  else if c < m then min 14 (L + 1)
  else if m * 100 < 97 * c ∧ 0 < L then L - 1
  else L

/-- The ACLK cycles of an aligned group of 16 that level `L` blocks (R463). -/
def throttleBlocks (L : Nat) : List Nat := [0, 8, 4, 12, 2, 10, 6, 14, 1, 9, 5, 13, 3, 11, 7, 15].take L

/-- `THROTTLE_STEP` (R464): once in a frame whose number is a multiple of 4; a change of cap comes first (R24). -/
def execThrottleStep (meanPower : Nat) (s : State) : Host.Outcome State Fault Refusal :=
  lift (fun d =>
    if !mtrServes d ∨ frame d % 4 ≠ 0 ∨ d.mtr.stepAt = some (frame d) then d else
    let d := envMinute d
    let t := d.mtr
    let c := capNow d
    let L := throttleRule t.throttle meanPower c t.capBefore (frame d % 60000 == 0)
    let L := if t.warning ∨ d.sys.alert then 14 else L
    let hot := if c < meanPower ∧ L = 14 then t.overSteps + 1 else 0
    let unmet := if meanPower ≤ c then false else t.unmet || decide (16 ≤ hot)
    let d := setMtr d { t with throttle := L, stepAt := some (frame d), overSteps := hot, unmet := unmet }
    if unmet ∧ !t.unmet then raise d Fd.MTR_EVT_env_unmet else d) s

/-- `RAIL_SAMPLE` (R465, `MTR_POWER`): ten samples in a row above 650 W set level 14 at once. -/
def execRailSample (watts : Nat) (s : State) : Host.Outcome State Fault Refusal :=
  lift (fun d =>
    if !mtrServes d then d else
    let t := d.mtr
    let t := if t.smpFrame = frame d then t else
      { t with
        frameMean := quot t.smpSum (max 1 t.smpCount), framePeak := t.smpPeak, smpFrame := frame d, smpCount := 0,
        smpSum := 0, smpPeak := 0 }
    let hot := if 650 < watts then t.over650 + 1 else 0
    let t := { t with
      smpCount := t.smpCount + 1, smpSum := t.smpSum + watts, smpPeak := max t.smpPeak watts,
      over650 := if hot = 10 then 0 else hot }
    if hot = 10 then raise (setMtr d { t with throttle := 14 }) Fd.MTR_EVT_fast_limit else setMtr d t) s

/-- Record a sensor reading (R499). -/
def temperature (d : Dev) (temp sensor : Nat) : Dev :=
  { d with sys := { d.sys with hottest := temp, sensor := sensor, peak := max d.sys.peak temp } }

/-- `THERM_ALERT` (R495): `DBG_CTL.enable` lets `DBG_EVT` record thermal events (R499). -/
def execThermAlert (temp sensor : Nat) (s : State) : Host.Outcome State Fault Refusal :=
  lift (fun d =>
    if d.sys.resetLow ∨ temp < 100 then d else
    let d := temperature d temp sensor
    let first := !d.sys.alert
    let d := setMtr { d with sys := { d.sys with alert := true } } { d.mtr with throttle := 14 }
    if first ∧ fbit d Fd.DBG_CTL_enable then raise d Fd.DBG_EVT_therm_alert else d) s

/-- `THERM_CLEAR` (R495): the throttle rule resumes from 14. -/
def execThermClear (temp sensor : Nat) (s : State) : Host.Outcome State Fault Refusal :=
  lift (fun d =>
    if d.sys.resetLow ∨ 95 ≤ temp then d else
    let d := temperature d temp sensor
    if !d.sys.alert then d else
    let d := { d with sys := { d.sys with alert := false } }
    if fbit d Fd.DBG_CTL_enable then raise d Fd.DBG_EVT_therm_clear else d) s

/-! ### The feed (R458, R459) -/

/-- Timecode minute label of a record that arrives now: the last minute to end before it (R458). -/
def recordLabel (d : Dev) : Nat := minuteOf d - 1

/-- Write a record into the host log ring (R459): an 8 KiB entry with the label behind the record. -/
def logRing (d : Dev) (r : List Byte) (labelMin : Nat) : Dev :=
  if !fbit d Fd.MTR_LOG_BASE_log_en then d else
  let n := 2 ^ fget d Fd.MTR_LOG_CFG_size_log2
  let t := d.mtr
  let d := hostWrite d 0 (fget d Fd.MTR_LOG_BASE_base * 4096 + 8192 * (t.written % n))
    (exactly 8192 (r ++ leBytes 5 labelMin))
  setMtr d { t with
    written := t.written + 1, unread := min n (t.unread + 1),
    lapped := if t.unread = n then sat32 (t.lapped + 1) else t.lapped }

/-- A record has arrived (R458, R459, R421): a minute record's label and energy are kept for the apportioning. -/
def takeRecord (d : Dev) (record : List Byte) (l : Nat) : Dev :=
  let d := setMtr d { d.mtr with feedAt := up d, lost := false }
  let d := if leAt record 6 1 = 1 then
      let e := leAt record 48 8
      let d := setMtr d { d.mtr with recMin := l % 2 ^ 32, recSeq := leAt record 24 4, recE := e }
      { d with seq := { d.seq with minuteE := put d.seq.minuteE l e } }
    else d
  logRing d record l

/-- `METER_RECORD_RECEIVED` (R451, R458, R459): the first record on the feed arrives, and is lost where the feed is out of service. The
label of a minute that a marker closed is the timecode minute that ended there. -/
def execMeterRecordReceived (record : List Byte) (s : State) : Host.Outcome State Fault Refusal :=
  lift (fun d =>
    match d.meter.feed with
    | [] => d
    | (r, ended) :: rest =>
      if r ≠ record then d else
      let d := setMeter d { d.meter with feed := rest }
      if mtrServes d then takeRecord d r (ended.getD (recordLabel d)) else d) s

/-- The meter feed has been silent for 2 minutes (R459). -/
def feedSilent (d : Dev) : Dev :=
  if mtrServes d ∧ !d.mtr.lost ∧ d.mtr.feedAt + 120000 * 65536 ≤ up d then
    raise (setMtr d { d.mtr with lost := true }) Fd.MTR_EVT_meter_lost
  else d

/-- `METER_FEED_SILENT` (R459): two minutes of silence in service. -/
def execMeterFeedSilent (s : State) : Host.Outcome State Fault Refusal := lift feedSilent s

/-- The supply warning clears (R461). -/
def supplyClear (d : Dev) : Dev :=
  if d.mtr.warning ∧ d.mtr.active = [] ∧ d.mtr.quietFrom + fget d Fd.MTR_SUPPLY_CFG_clear_frames * 65536 ≤ up d then
    raise (setMtr d { d.mtr with warning := false }) Fd.MTR_EVT_supply_clear
  else d

/-- `SUPPLY_CLEAR` (R461): `clear_frames` frames have passed without an event on any phase. -/
def execSupplyClear (s : State) : Host.Outcome State Fault Refusal := lift supplyClear s

end Sys2Proof.Machine
end

