-- ==== Sys2Proof/Machine/Supply.lean ====
section
/-!
DEFINITION. Sys2Proof/Machine/Supply.lean: supply notices and the supply warning (17 R460, R461; 14 R408).
-/

namespace Sys2Proof.Machine

/-- The event and the counter of a class of supply events (R460: 1 sag, 2 swell, 3 interruption). -/
def supplyStart (d : Dev) (cls : Nat) : Dev :=
  match cls with
  | 1 => raise (fbump d Fd.MTR_CNT_sags) Fd.MTR_EVT_sag
  | 2 => raise (fbump d Fd.MTR_CNT_swells) Fd.MTR_EVT_swell
  | 3 => raise (fbump d Fd.MTR_CNT_interruptions) Fd.MTR_EVT_interruption
  | _ => d

/-- Does an event of this class, `n` half-cycles old, raise the warning (R461)? -/
def warns (d : Dev) (cls n : Nat) : Bool :=
  let long := decide (max 1 (fget d Fd.MTR_SUPPLY_CFG_sag_cycles) ≤ n)
  cls == 3 || (cls == 1 && long) || (cls == 2 && fbit d Fd.MTR_SUPPLY_CFG_warn_on_swell && long)

/-- The supply warning is raised: throttle level 14, and an emergency slate. -/
def supplyWarn (d : Dev) : Dev :=
  if d.mtr.warning then d
  else emergencySlate (fbump (raise (setMtr d { d.mtr with warning := true, throttle := 14 }) Fd.MTR_EVT_supply_warning) Fd.MTR_CNT_warnings)

/-- The events in progress after a notice: an interruption replaces the sag that led into it (R460). -/
def supplyActive (active : List Nat) (cls : Nat) : List Nat :=
  (if active.contains cls then active else active ++ [cls]).filter (fun c => !(cls == 3 && c == 1))

/-- `METER_NOTICE` (R461): an event of a class has begun or ended, or has lasted `halfCycles`. -/
def execMeterNotice (cls : Nat) (start : Bool) (halfCycles : Nat) (s : State) : Host.Outcome State Fault Refusal :=
  lift (fun d =>
    if !mtrServes d ∨ cls = 0 ∨ 3 < cls then d
    else
      let d := setMtr d { d.mtr with feedAt := up d, lost := false }
      let active := d.mtr.active
      if start then
        let d := setMtr d { d.mtr with active := supplyActive active cls }
        let d := if active.contains cls then d else supplyStart d cls
        if warns d cls halfCycles then supplyWarn d else d
      else
        let left := active.filter (fun c => c != cls)
        setMtr d { d.mtr with active := left, quietFrom := if left = [] ∧ active ≠ [] then up d else d.mtr.quietFrom }) s

end Sys2Proof.Machine
end

