-- ==== Sys2Proof/Machine/Boot.lean ====
section
/-!
DEFINITION. Sys2Proof/Machine/Boot.lean: reset (03 R97, 19 R490 to R495), the host port (02 R39 to R44), loads and bring-up (03
R85 to R96), firmware update (R98 to R100), partial unit resets (R101 to R104), and the retraining of link ports (12 R342, R343).
-/

namespace Sys2Proof.Machine

def setSys (d : Dev) (y : Sys) : Dev := { d with sys := y }

/-! ### Reset, rails, heat (R97, R491, R493, R495) -/

/-- The device in reset: everything returns to its reset value but the meter domain, which has its own rail, the latched
`THERM_TRIP_N` (R495), and `debug_exposed`, which stays until power-off (R447). -/
def resetDev (d : Dev) (hold : Bool) : Dev :=
  { meter := d.meter, fresh := d.fresh, out := d.out
    sys := { resetLow := true, railHold := hold, debugExposed := d.sys.debugExposed, trip := d.sys.trip } }

/-- `RESET_N_ASSERT` (R97). -/
def execResetNAssert (s : State) : Host.Outcome State Fault Refusal := lift (fun d => resetDev d false) s

/-- The rails that the device monitors, numbered in the order of R489; `VDD_MTR` is not one of them. -/
def railMonitored (rail : Nat) : Bool := rail < 9

/-- Power is removed (R97, R447): the reset also ends what lasts until power-off. -/
def powerOff (d : Dev) : Dev :=
  let d := resetDev d true
  { d with sys := { d.sys with debugExposed := false, trip := false } }

/-- `RAIL_UNDERVOLTAGE` (R97, R491): the device stays in reset until the board asserts and releases `RESET_N`; `removed` if power is
removed altogether. -/
def execRailUndervoltage (rail : Nat) (removed : Bool) (s : State) : Host.Outcome State Fault Refusal :=
  lift (fun d => if railMonitored rail then (if removed then powerOff d else resetDev d true) else d) s

/-- `THERM_TRIP` (R495): `THERM_TRIP_N` is latched low, and the device acts as on a rail fault. -/
def execThermTrip (temp sensor : Nat) (s : State) : Host.Outcome State Fault Refusal :=
  lift (fun d =>
    let _ := sensor
    if temp < 110 then d else resetDev (setSys d { d.sys with trip := true }) true) s

/-- The device enters stage FAILED (R87). -/
def stageFail (d : Dev) (reason : Nat) : Dev :=
  raise (setSys d { d.sys with stage := 15, failReason := reason, stageCmd := none }) Fd.GLB_EVT_stage_failed

/-- A stage is complete (R86). -/
def stageDone (d : Dev) (n : Nat) : Dev :=
  raise (setSys d { d.sys with stage := n, stageCmd := none }) Fd.GLB_EVT_stage_done

/-- `RESET_N_RELEASE` (R85, R88, R426, R427): stage ROM runs: self-test, `uid` and the keys of this boot. -/
def execResetNRelease (selfTestOk : Bool) (s : State) : Host.Outcome State Fault Refusal :=
  lift (fun d =>
    if !d.sys.resetLow ∨ d.sys.railHold then d
    else
      let d := setSys d { d.sys with resetLow := false, rom := true, stage := 0, uid := uidOf }
      if selfTestOk then romKeys d else stageFail d 1) s

/-! ### The host port (R39 to R44) -/

/-- The modules of one link that it uses: the largest set of 4, 2 or 1 that work, in ascending order (R41). -/
def linkSet (works : Nat → Bool) (link : Nat) : List Nat :=
  let ms := ((List.range 4).map (fun i => 4 * link + i)).filter works
  ms.take (if 4 ≤ ms.length then 4 else if 2 ≤ ms.length then 2 else ms.length)

/-- The modules in use follow from those that are not retired. -/
def relink (d : Dev) : Dev :=
  let works := fun m => !maskBit d.hst.moduleRetired.toNat m
  let h := { d.hst with moduleUp := BitVec.ofNat 8 (maskOf 8 (linkSet works 0 ++ linkSet works 1)) }
  let d := { d with hst := h }
  let links := (List.range 2).filter (linkUp d)
  { d with hst := { h with ideActive := !links.isEmpty && links.all (mget d.sec.ideLinks false) } }

/-- A module is retired until the next power-up (R41, R469). -/
def retireModule (d : Dev) (m : Nat) : Dev :=
  let d := { d with hst := { d.hst with moduleRetired := d.hst.moduleRetired ||| BitVec.ofNat 8 (2 ^ m) } }
  (report (raise d Fd.HST_EVT_module_retired) { cls := clsUnit, unit := 0, action := 2, inst := m }).1

/-- A module has failed once and has come back (R41). -/
def retrainModule (d : Dev) (m : Nat) : Dev :=
  raise { d with hst := { d.hst with failedOnce := d.hst.failedOnce ||| BitVec.ofNat 8 (2 ^ m) } } Fd.HST_EVT_module_retrain

/-- `UCIE_TRAINING_DONE` (R41, R85): modules that failed the first try, and those that failed the retry too. -/
def execUcieTrainingDone (failFirst failRetry : BitVec 8) (s : State) : Host.Outcome State Fault Refusal :=
  lift (fun d =>
    if !d.sys.rom ∨ d.sys.stage ≠ 0 ∨ d.sys.portUp then d
    else
      let twice := (failFirst &&& failRetry).toNat
      let once := (failFirst &&& ~~~failRetry).toNat
      let d := (maskBits twice 8).foldl retireModule d
      let d := relink ((maskBits once 8).foldl retrainModule d)
      if d.hst.moduleUp = 0 then d else stageDone (setSys d { d.sys with portUp := true }) 1) s

/-- `UCIE_MODULE_FAILURE` (R41): the host port is lost with its last module (R470). -/
def execUcieModuleFailure (module : Nat) (comesBack : Bool) (s : State) : Host.Outcome State Fault Refusal :=
  lift (fun d =>
    if !d.sys.portUp ∨ 8 ≤ module ∨ maskBit d.hst.moduleRetired.toNat module then d
    else if comesBack ∧ !maskBit d.hst.failedOnce.toNat module then retrainModule d module
    else
      let d := relink (retireModule d module)
      if d.hst.moduleUp = 0 then reap (fatalFault (setSys d { d.sys with portUp := false }) 0) else d) s

/-- Does some link that is up carry keyed traffic (R42)? -/
def ideKeyed (d : Dev) : Bool := (List.range 2).any (fun l => linkUp d l && mget d.sec.ideLinks false l)

/-- `IDE_INTEGRITY_FAIL` (R42): an IDE check or key refresh fails on a keyed link. -/
def execIdeIntegrityFail (s : State) : Host.Outcome State Fault Refusal :=
  lift (fun d => if d.sys.portUp ∧ ideKeyed d then enterError (raise d Fd.HST_EVT_ide_fail) else d) s

/-- `LOCK_INTERFACE` (R42, R43). -/
def execLockInterface (s : State) : Host.Outcome State Fault Refusal :=
  lift (fun d =>
    if d.sys.portUp ∧ d.hst.tdisp = .configUnlocked then { d with hst := { d.hst with tdisp := .configLocked } } else d) s

/-- `START_INTERFACE` (R42): a device that has been exposed to debug does not reach RUN (R447). -/
def execStartInterface (s : State) : Host.Outcome State Fault Refusal :=
  lift (fun d =>
    if d.sys.portUp ∧ d.hst.tdisp = .configLocked ∧ !d.sys.debugExposed then { d with hst := { d.hst with tdisp := .run } }
    else d) s

/-- `STOP_INTERFACE` (R44): CONFIG_UNLOCKED, and every ring closes. -/
def execStopInterface (s : State) : Host.Outcome State Fault Refusal :=
  lift (fun d => if d.sys.portUp then closeRings { d with hst := { d.hst with tdisp := .configUnlocked } } else d) s

/-! ### Loads (R89 to R93) -/

/-- A signature ends every load (R90). -/
def loadSig : Nat := 14824

/-- The length that an image states for itself, by load type; none if the field lies outside it (R89). -/
def ownLength (typ length : Nat) (img : List Byte) : Option Nat :=
  let pos := if typ = 1 then 12 else if typ = 2 then 64 + 8 * leAt img 6 2 else 160
  if length < pos + 4 ∨ (typ = 2 ∧ length < 8) then none else some (leAt img pos 4)

/-- The fields of a firmware image (R91). -/
def firmwareOk (length : Nat) (img : List Byte) : Bool :=
  decide (64 + loadSig ≤ length) && leAt img 0 4 == 0x57465943 && leAt img 4 2 == 1 && leAt img 6 2 == 0 && leAt img 16 48 == 0

/-- One repair entry (R92). -/
def repairEntryOk (e : Nat) : Bool := decide (1 ≤ e % 256) && decide (e % 256 ≤ 5) && e / 2 ^ 56 == 0

/-- The repair entries of a record. -/
def repairEntries (img : List Byte) : List Nat := (List.range (leAt img 6 2)).map (fun i => leAt img (64 + 8 * i) 8)

/-- The fields of a defect and repair record (R92, R93). -/
def repairOk (length : Nat) (img : List Byte) : Bool :=
  let harvest := leAt img 24 20
  length == 68 + 8 * leAt img 6 2 + loadSig && leAt img 0 4 == 0x44505943 && leAt img 4 2 == 1
    && decide (leAt img 6 2 ≤ 16384) && harvest / 2 ^ 152 == 0 && (maskBits harvest 152).length == 144 && leAt img 44 20 == 0
    && (repairEntries img).all repairEntryOk

/-- The stages in which a load type is accepted (R85, R98). -/
def loadStage (typ stage : Nat) : Bool :=
  match typ with | 1 => stage == 1 || stage == 8 | 2 => stage == 2 | 3 => stage == 4 | _ => false

/-- The checks of a load in their order (R89): the first that fails gives the result. The fields of a calibration record are
checked by the meter (R454). -/
def loadCheck (d : Dev) (typ length : Nat) (img : List Byte) : Nat :=
  if !loadStage typ d.sys.stage then 4
  else if length = 0 ∨ 2 ^ 22 < length ∨ ownLength typ length img ≠ some length then 5
  else if length < loadSig ∨ !Config.xmssVerify (10 + typ) img then 1
  else if typ ≠ 1 ∧ leAt img 8 8 ≠ d.sys.uid then 2
  else if (typ = 1 ∧ !firmwareOk length img) ∨ (typ = 2 ∧ !repairOk length img) then 3
  else 0

/-- The image of a load. -/
def loadImage (d : Dev) (length : Nat) : List Byte := getBytes d.sys.aperture 0 (min length (2 ^ 22))

/-- A write of `GLB_LOAD` (R81, R89, R504): the load begins; a calibration record that passes its checks goes to the meter. -/
def glbLoad (d : Dev) (typ length : Nat) : Dev :=
  if !d.sys.portUp then d
  else if d.sys.load.isSome then postedOverrun d Rg.GLB_LOAD
  else
    let d := fset (fset d Fd.GLB_LOAD_type typ) Fd.GLB_LOAD_length length
    let result := loadCheck d typ length (loadImage d length)
    setSys d { d.sys with load := some {
      typ := typ, length := length, result := result, tries := b2n (typ == 3 && result == 0), sentAt := up d } }

/-- `LOAD_FIRMWARE`, `LOAD_REPAIR_RECORD`, `LOAD_METER_CAL`, `LOAD_RESERVED_TYPE` (R89): a length has 23 bits. -/
def execLoadFirmware (length : Nat) (s : State) : Host.Outcome State Fault Refusal := lift (fun d => glbLoad d 1 (length % 2 ^ 23)) s
def execLoadRepairRecord (length : Nat) (s : State) : Host.Outcome State Fault Refusal := lift (fun d => glbLoad d 2 (length % 2 ^ 23)) s
def execLoadMeterCal (length : Nat) (s : State) : Host.Outcome State Fault Refusal := lift (fun d => glbLoad d 3 (length % 2 ^ 23)) s
def execLoadReservedType (length : Nat) (s : State) : Host.Outcome State Fault Refusal := lift (fun d => glbLoad d 0 (length % 2 ^ 23)) s

/-- A load ends (R84). -/
def loadEnd (d : Dev) (result : Nat) : Dev :=
  raise (setSys d { d.sys with load := none, loadResult := result }) Fd.GLB_EVT_load_done

/-- A verified firmware image runs, or is staged (R91, R98). -/
def applyFirmware (d : Dev) (img : List Byte) : Dev :=
  let version := leAt img 8 4
  let meas := Config.shake256 img
  if d.sys.stage = 8 then loadEnd (setSys d { d.sys with fwStaged := some (version, meas) }) 0
  else stageDone (loadEnd (setSys d { d.sys with fwRunning := version, fwRunningMeas := meas }) 0) 2

/-- A verified repair record is applied (R92, R93): a link lane is replaced by its port's spare (R342). -/
def applyRepair (d : Dev) (img : List Byte) : Dev :=
  let es := repairEntries img
  let d := setSys d { d.sys with repair := some {
    serial := leAt img 16 8, digest := Config.shake256 img, harvest := leAt img 24 20, entries := es } }
  let d := (es.filter (fun e => e % 256 == 5)).foldl (fun d e =>
    let p := e / 256 % 256
    if p < 16 then setPort d p { portOf d p with spare := true } else d) d
  stageDone (loadEnd d 0) 3

/-- `LOAD_COMPLETE` (R86, R88 to R90): `uncovered` if self-test, rerun once, found a defect that the record does not repair. -/
def execLoadComplete (uncovered : Bool) (s : State) : Host.Outcome State Fault Refusal :=
  lift (fun d =>
    match d.sys.load with
    | none => d
    | some j =>
      let img := loadImage d j.length
      if j.result ≠ 0 then loadEnd d j.result
      else match j.typ with
        | 1 => applyFirmware d img
        | 2 => if uncovered then stageFail (loadEnd d 8) 0x10 else applyRepair d img
        | _ => d) s

/-- 50 ms of silence after a delivery to the meter (R454). -/
def calSilent (d : Dev) : Dev :=
  match d.sys.load with
  | none => d
  | some j =>
    if j.tries = 0 ∨ up d < j.sentAt + 50 * 65536 then d
    else if j.tries = 1 then setSys d { d.sys with load := some { j with tries := 2, sentAt := up d } }
    else stageFail (loadEnd d 7) 0x30

/-- `CAL_DELIVERY_TIMEOUT` (R454). -/
def execCalDeliveryTimeout (s : State) : Host.Outcome State Fault Refusal := lift calSilent s

/-- `METER_CAL_ANSWER` (R454, R455): the meter checks every field; a record identical to the one in force changes nothing. -/
def execMeterCalAnswer (accept : Bool) (s : State) : Host.Outcome State Fault Refusal :=
  lift (fun d =>
    match d.sys.load with
    | none => d
    | some j =>
      let img := loadImage d j.length
      if j.tries = 0 ∨ !d.meter.rail ∨ accept ≠ calFieldsOk img then d
      else if !accept then loadEnd d 3
      else
        let same := d.meter.cal = some img
        let d := setMeter d { d.meter with calNext := if same then none else some img }
        stageDone (loadEnd (setSys d { d.sys with calDigest := some (Config.shake256 img) }) 0) 5) s

/-! ### Stage commands (R86, R94, R95) -/

/-- A write of `GLB_BOOT_CMD` (R81, R86, R504): `go` carries the stage out if the target follows the stage reached. -/
def bootCmd (d : Dev) (target before : Nat) (refused : Bool) (go : Dev → Dev) : Dev :=
  if !d.sys.portUp then d
  else if d.sys.stageCmd.isSome then postedOverrun d Rg.GLB_BOOT_CMD
  else
    let d := fset d Fd.GLB_BOOT_CMD_target target
    if d.sys.stage ≠ before ∨ refused then cfgIgnored d Rg.GLB_BOOT_CMD
    else go (setSys d { d.sys with stageCmd := some target })

/-- Fitted parts. -/
def farFitted (d : Dev) : Nat := fget d Fd.MEM_FAR_POP_fitted
def flashFitted (d : Dev) : Nat := fget d Fd.FLS_POP_fitted
def portsFitted (d : Dev) : Nat := fget d Fd.LNK_PORT_POP_fitted

/-- A flash channel is initialised (R311, R312): over SDR up to the choice of NV-LPDDR4, then at speed. -/
def flashInit (d : Dev) (c : Nat) : Dev :=
  [OnfiCmd.reset, .readParameterPage false, .setInterface (fget d Fd.FLS_CFG_rate), .zqCalibration, .dutyCycleTraining, .dqTraining,
    .readParameterPage true].foldl (fun d x => send d (.onfi c x)) d

/-- A far channel trains (R305). -/
def farTrain (d : Dev) (c : Nat) : Dev :=
  [FarStep.powerUp, .zqCalibration, .caTraining, .writeClock, .dataTraining, .enableEcc, .testRows].foldl (fun d x => send d (.far c x)) d

/-- Parts of a mask train, in parallel: the order of their messages is the model's (log entry 82). -/
def trainAll (train : Dev → Nat → Dev) (parts : BitVec 32) (d : Dev) : Dev := (maskBits parts.toNat 32).foldl train d

/-- Stage MEM begins: every fitted far and flash channel trains (R94, R305, R312); what trained shows when the stage ends. -/
def bootMem (d : Dev) : Dev :=
  bootCmd d 4 3 false (fun d => trainAll flashInit (BitVec.ofNat 32 (flashFitted d)) (trainAll farTrain (BitVec.ofNat 32 (farFitted d)) d))

/-- Stage TIME begins (R94, R343, R467): the physical layer of every fitted port trains, and each end sends its device number. -/
def bootTime (d : Dev) : Dev :=
  bootCmd d 6 5 (fbit d Fd.MTR_TC_CFG_role && fget d Fd.MTR_TC_INIT_frame % 1000 != 0) (fun d =>
    (maskBits (portsFitted d) 16).foldl (fun d p =>
      send (setPort d p { portOf d p with trained := true }) (.linkId p (ownDevice d))) (setTc d { d.tc with state := 1 }))

/-- A device that founds its domain, or has no port, is its only member (R94, R370). -/
def foundDomain (d : Dev) : Dev :=
  redigest { d with map := { d.map with member := true, members := [ownDevice d], domEpoch := 1, anyAt := up d } }

/-- JOIN goes out on every port in service (R370). -/
def sendJoin (d : Dev) : Dev :=
  ((List.range 16).filter (fun p => (portOf d p).trained && !(portOf d p).retired)).foldl (fun d p =>
    sendOnPort d p 0x01 (mapNote d 0x20 (ownDevice d) ++ leBytes 8 (fget d Fd.MAP_DOM_domain))) d

/-- Stage LINKS begins (R94, R343, R370, R432): trained ports enter traffic service, and the device joins its domain. -/
def bootLinks (d : Dev) : Dev :=
  bootCmd d 7 6 (!d.sec.stmtLoaded) (fun d =>
    let ports := (List.range 16).filter (fun p => (portOf d p).trained && !(portOf d p).retired)
    let d := ports.foldl (fun d p => setPort d p { portOf d p with up := true }) d
    let d := setSys d { d.sys with joinRetried := false }
    if fbit d Fd.MAP_CFG_found ∨ portsFitted d = 0 then foundDomain d else sendJoin d)

/-- Stage READY: the command completes as soon as it is accepted (R94). -/
def bootReady (d : Dev) : Dev := bootCmd d 8 7 false (fun d => stageDone d 8)

/-- `BOOT_CMD_MEM`, `BOOT_CMD_TIME`, `BOOT_CMD_LINKS`, `BOOT_CMD_READY` (R94). -/
def execBootCmdMem (s : State) : Host.Outcome State Fault Refusal := lift bootMem s
def execBootCmdTime (s : State) : Host.Outcome State Fault Refusal := lift bootTime s
def execBootCmdLinks (s : State) : Host.Outcome State Fault Refusal := lift bootLinks s
def execBootCmdReady (s : State) : Host.Outcome State Fault Refusal := lift bootReady s

/-- A part that failed to train twice is retired (R87, R88, R469). -/
def partRetired (ev : Fd) (unit : Nat) (d : Dev) (n : Nat) : Dev :=
  (report (raise d ev) { cls := clsUnit, unit := unit, action := 2, inst := n }).1

/-- Stage MEM ends (R87, R88, R94, R312): near stacks, far channels, flash channels. -/
def memDone (d : Dev) (o : StageOutcome) : Dev :=
  let nearBad := o.near1 &&& o.near2
  let far := BitVec.ofNat 32 (farFitted d)
  let farBad := o.far1 &&& o.far2 &&& far
  let fls := BitVec.ofNat 32 (flashFitted d)
  let flsBad := o.flash1 &&& o.flash2 &&& fls
  if (maskBits nearBad.toNat 8).length > 2 then stageFail d 0x20
  else
    let d := { d with mem := { d.mem with nearUp := ~~~nearBad, nearRetired := nearBad } }
    let d := (maskBits nearBad.toNat 8).foldl (partRetired Fd.MEM_EVT_stack_retired 5) d
    -- a channel that failed has trained once more (R87)
    let d := trainAll flashInit (fls &&& o.flash1) (trainAll farTrain (far &&& o.far1) d)
    if far ≠ 0 ∧ farBad = far then stageFail d 0x21
    else
      let d := { d with mem := { d.mem with farUp := far &&& ~~~farBad, farRetired := farBad, farRetried := far &&& o.far1 &&& ~~~farBad } }
      let d := (maskBits farBad.toNat 32).foldl (partRetired Fd.MEM_EVT_channel_retired 6) d
      if fls ≠ 0 ∧ flsBad = fls then stageFail d 0x22
      else
        let d := { d with fls := { d.fls with up := fls &&& ~~~flsBad, retired := flsBad, retried := fls &&& o.flash1 &&& ~~~flsBad } }
        stageDone ((maskBits flsBad.toNat 32).foldl (partRetired Fd.FLS_EVT_channel_retired 8) d) 4

/-- A port is retired by a lasting fault (R342, R469). -/
def portFault (d : Dev) (p : Nat) : Dev := (report (retirePort d p) { cls := clsUnit, unit := 11, action := 2, inst := p }).1

/-- Stage TIME ends: timecode is locked (R467); a fitted port of which no lane trained is retired, and peers are known. -/
def timeDone (d : Dev) (o : StageOutcome) : Dev :=
  if d.tc.state ≠ 2 then d
  else
    let d := (maskBits (portsFitted d) 16).foldl (fun d p =>
      if maskBit o.ports.toNat p then portFault (setPort d p { portOf d p with trained := false, lanes := 0 }) p
      else setPort d p { portOf d p with peer := o.peers.getD p 0 }) d
    stageDone d 6

/-- Stage LINKS ends: the device is a member of its domain. A join that is refused is sent once more, and a second refusal is
`MAP_REFUSED` (R87, R88). -/
def linksDone (d : Dev) (o : StageOutcome) : Dev :=
  if d.map.member then stageDone d 7
  else if !o.refused then d
  else if d.sys.joinRetried then stageFail d 0x40
  else
    let d := sendJoin (setSys d { d.sys with joinRetried := true })
    if o.refused2 then stageFail d 0x40 else d

/-- `STAGE_COMPLETE` (R86, R87). -/
def execStageComplete (outcome : StageOutcome) (s : State) : Host.Outcome State Fault Refusal :=
  lift (fun d =>
    match d.sys.stageCmd with
    | some 4 => memDone d outcome
    | some 6 => timeDone d outcome
    | some 7 => linksDone d outcome
    | _ => d) s

/-! ### Firmware update (R98 to R100) -/

/-- May a staged image be activated (R99)? -/
def quiescent (d : Dev) : Bool :=
  (List.range 512).all (fun n => !sqOpenBit d n && !(sqOf d n).draining) && !fbit d Fd.SEQ_CTL_enable && d.sys.unitRst.isEmpty

/-- A matched `GLB_FW_ACTIVATE` write. -/
def fwActivate (d : Dev) (key : Nat) : Dev :=
  let d := unguard d Rg.GLB_FW_ACTIVATE_A
  if key ≠ 1 then d
  else if d.sys.fwStaged.isSome ∧ quiescent d then setSys d { d.sys with fwActivating := true }
  else
    let d := cfgIgnored d Rg.GLB_FW_ACTIVATE_A
    raise (setSys d { d.sys with loadResult := 6 }) Fd.GLB_EVT_load_done

/-- `FW_ACTIVATE` (R99). -/
def execFwActivate (key : BitVec 32) (s : State) : Host.Outcome State Fault Refusal :=
  lift (fun d => if d.sys.portUp then fwActivate d key.toNat else d) s

/-- `FW_ACTIVATE_DONE` (R99, R100, R384): version, measurement and configuration digest switch at one instant. -/
def execFwActivateDone (s : State) : Host.Outcome State Fault Refusal :=
  lift (fun d =>
    match d.sys.fwActivating, d.sys.fwStaged with
    | true, some (version, meas) =>
      let d := setSys d { d.sys with fwRunning := version, fwRunningMeas := meas, fwStaged := none, fwActivating := false }
      raise (redigest d) Fd.GLB_EVT_fw_activated
    | _, _ => d) s

/-! ### Partial unit resets (R101 to R104) -/

/-- Replace one bit of a mask. -/
def withBit (m : BitVec 16) (n : Nat) (b : Bool) : BitVec 16 :=
  if b then m ||| BitVec.ofNat 16 (2 ^ n) else m &&& ~~~BitVec.ofNat 16 (2 ^ n)

/-- A unit's reset starts: no new operation reaches it, and what it runs drains (R103). `drain_failed` tells of the unit's last
reset from then on (DESIGN CHOICE, log entry 77). -/
def unitStart (d : Dev) (u : Nat) : Dev :=
  setSys d { d.sys with
    unitRst := put d.sys.unitRst u { start := up d, draining := unitBusy d u }
    drainFailed := withBit d.sys.drainFailed u false }

/-- A matched `GLB_UNIT_RESET` write (R102). -/
def glbUnitReset (d : Dev) (units : Nat) : Dev :=
  let d := unguard d Rg.GLB_UNIT_RESET_A
  if d.sys.stage ≠ 8 then cfgIgnored d Rg.GLB_UNIT_RESET_A
  else ((maskBits units 9).filter (fun u => !unitInReset d u)).foldl unitStart d

/-- `UNIT_RESET` (R102, R103). -/
def execUnitReset (units : BitVec 32) (s : State) : Host.Outcome State Fault Refusal :=
  lift (fun d => if d.sys.portUp then glbUnitReset d units.toNat else d) s

/-- The drain of a unit is over; the checkpoint engine abandons the open slate (R101). -/
def unitDrained (d : Dev) (u : Nat) (r : UnitRst) : Dev :=
  let d := if u = 5 then abandonSlate d true else d
  setSys d { d.sys with unitRst := put d.sys.unitRst u { r with draining := false } }

/-- 16 frames of a unit's drain have passed (R103): what is still in flight ends with `UNIT_FAILED`, and a fault record is written,
of the objects whose operations end or, where none is a client's, of the unit alone. -/
def drainOver (d : Dev) (unit : Nat) : Dev :=
  match look d.sys.unitRst unit with
  | none => d
  | some r =>
    if !r.draining ∨ up d < r.start + 16 * 65536 then d
    else if !unitBusy d unit then unitDrained d unit r
    else
      let before := fget d Fd.FLT_CNT_reports
      let d := unitDrained (endUnit d unit) unit r
      let d := setSys d { d.sys with drainFailed := withBit d.sys.drainFailed unit true }
      if fget d Fd.FLT_CNT_reports = before then
        (report d { cls := clsUnit, unit := faultUnit unit, action := 1, status := stUnitFailed }).1
      else d

/-- `UNIT_RESET_DRAIN_TIMEOUT` (R103). -/
def execUnitResetDrainTimeout (unit : Nat) (s : State) : Host.Outcome State Fault Refusal := lift (fun d => drainOver d unit) s

/-- What the reset of a unit does besides (R101): flash and far channels in service train again, and one that fails twice is
retired (R87, R312); a security unit whose self-test fails twice is fatal (R470). -/
def unitRetrain (d : Dev) (u : Nat) (o : ResetOutcome) : Dev :=
  let twice := o.first &&& o.second
  if u = 4 then
    let on := d.fls.up &&& ~~~d.fls.retired
    let d := trainAll flashInit (on &&& o.first) (trainAll flashInit on d)
    let d := { d with fls := { d.fls with retried := d.fls.retried ||| (on &&& o.first &&& ~~~o.second) } }
    (maskBits (on &&& twice).toNat 32).foldl retireFlash d
  else if u = 8 then
    let on := d.mem.farUp &&& ~~~d.mem.farRetired
    let d := trainAll farTrain (on &&& o.first) (trainAll farTrain on d)
    let d := { d with mem := { d.mem with farRetried := d.mem.farRetried ||| (on &&& o.first &&& ~~~o.second) } }
    (maskBits (on &&& twice).toNat 32).foldl retireFar d
  else if u = 6 ∧ maskBit twice.toNat 0 then reap (fatalFault d 14)
  else d

/-- `UNIT_RESET_END` (R101, R103): the drain has ended, and so has the reset; what waited for the unit is dispatched. -/
def execUnitResetEnd (unit : Nat) (outcome : ResetOutcome) (s : State) : Host.Outcome State Fault Refusal :=
  lift (fun d =>
    match look d.sys.unitRst unit with
    | none => d
    | some r =>
      if r.draining ∧ unitBusy d unit then d
      else
        let d := unitRetrain (unitDrained d unit r) unit outcome
        let d := raise (setSys d { d.sys with unitRst := del d.sys.unitRst unit }) Fd.GLB_EVT_unit_reset_done
        if unit = 6 then securityBack d else d) s

/-! ### Ports that have been retrained (12 R342, R343) -/

/-- `PORT_RETRAIN_DONE` (R342, R343, R345, R350, R469): lanes that did not come back are retired; a port with no working lane or
a new peer is retired; otherwise replay resumes. -/
def execPortRetrainDone (port : Nat) (lanes : BitVec 4) (peer : Nat) (s : State) : Host.Outcome State Fault Refusal :=
  lift (fun d =>
    let q := portOf d port
    if !q.retraining then d else
    let back := q.lanes &&& lanes.toNat
    if back = 0 ∨ peer ≠ q.peer then portFault (setPort d port { q with lanes := back, failed := 0 }) port
    else
      let d := setPort d port { q with lanes := back, failed := 0, retraining := false, lastNak := none }
      let d := if back = q.lanes then fbump d Fd.LNK_PORT_CNT_retrains 1 port
        else (report d { cls := clsUnit, unit := 11, action := 2, inst := port }).1
      let d := raise d Fd.LNK_EVT_retrain
      egress (replayAll d port) port) s

end Sys2Proof.Machine
end

