-- ==== Sys2Proof/Machine/Cvu.lean ====
section
/-!
DEFINITION. Sys2Proof/Machine/Cvu.lean: the check-value units (18 R480 to R486).
-/

namespace Sys2Proof.Machine

def cvuOf (d : Dev) (u : Nat) : CvuUnit := mget d.cvu {} u
def setCvu (d : Dev) (u : Nat) (c : CvuUnit) : Dev := { d with cvu := mset d.cvu {} u c }

/-- The selected unit. -/
def cvuSel (d : Dev) : Nat := fget d Fd.CVU_SEL_unit

/-- The width and xorout of an algorithm. -/
def cvuWidth (alg : Nat) : Nat := match crcAlg alg with | some c => c.width | none => 0
def cvuInit (alg : Nat) : Nat := match crcAlg alg with | some c => c.init | none => 0
def cvuXor (alg : Nat) : Nat := match crcAlg alg with | some c => c.xorout | none => 0

/-- Running value after feeding bytes. -/
def cvuFeedRun (alg run : Nat) (bs : List Byte) : Nat := match crcAlg alg with | some c => crcRun c run bs | none => run

/-- Is a descriptor for the unit waiting or running (R486)? -/
def cvuBusy (d : Dev) (u : Nat) : Bool :=
  (vals d.seq.sq).any (fun q => q.flights.any (fun f =>
    f.phase != .done && dOp f.desc == 0x80 && dbits f.desc 4 0 4 == u))

/-- Load `init` into the running value (R484, R486). -/
def cvuLoadInit (d : Dev) (u : Nat) : Dev :=
  setCvu d u { cvuOf d u with run := BitVec.ofNat 64 (cvuInit (cvuOf d u).alg) }

/-- A write to `CVU_UNIT_CFG` (R486): a change of `reg_mode` of a busy unit, and a reserved algorithm, are ignored. -/
def cvuCfgWrite (d : Dev) (word : Nat) : Dev :=
  let u := cvuSel d
  let mode := bitOf word 0
  let alg := bitsOf word 8 8
  if (mode ≠ (cvuOf d u).regMode ∧ cvuBusy d u) ∨ crcAlg alg = none then cfgIgnored d Rg.CVU_UNIT_CFG
  else cvuLoadInit (setCvu d u { cvuOf d u with regMode := mode, alg := alg }) u

/-- A feed of `n` little-endian bytes at a feed register (R484): ignored and reported for a unit that is not in
register mode or is in reset. -/
def cvuFeed (d : Dev) (addr n value : Nat) : Dev :=
  let u := cvuSel d
  let c := cvuOf d u
  if !c.regMode || unitInReset d 7 then cfgIgnored d addr
  else setCvu d u { c with
    run := BitVec.ofNat 64 (cvuFeedRun c.alg c.run.toNat (leBytes n value)), bytes := (c.bytes + n) % 2 ^ 64 }

/-- A write to `CVU_RUN` (R484, R486): bits above the width are ignored. -/
def cvuRunStore (d : Dev) (value : Nat) : Dev :=
  let u := cvuSel d
  setCvu d u { cvuOf d u with run := BitVec.ofNat 64 (value % 2 ^ (8 * cvuWidth (cvuOf d u).alg)) }

/-- `CVU_INIT` (R484). -/
def execCvuInit (s : State) : Host.Outcome State Fault Refusal :=
  lift (fun d => if d.sys.portUp then cvuLoadInit d (cvuSel d) else d) s

/-- `CVU_FEED_B` (R484). -/
def execCvuFeedB (value : Word) (s : State) : Host.Outcome State Fault Refusal :=
  lift (fun d => if d.sys.portUp then cvuFeed d Rg.CVU_FEED_B 1 value.toNat else d) s

/-- `CVU_FEED_H` (R484). -/
def execCvuFeedH (value : Word) (s : State) : Host.Outcome State Fault Refusal :=
  lift (fun d => if d.sys.portUp then cvuFeed d Rg.CVU_FEED_H 2 value.toNat else d) s

/-- `CVU_FEED_W` (R484, R486): bits [31:0]. -/
def execCvuFeedW (value : Word) (s : State) : Host.Outcome State Fault Refusal :=
  lift (fun d => if d.sys.portUp then cvuFeed d Rg.CVU_FEED_W 4 value.toNat else d) s

/-- `CVU_RUN_WRITE` (R484). -/
def execCvuRunWrite (value : Word) (s : State) : Host.Outcome State Fault Refusal :=
  lift (fun d => if d.sys.portUp then cvuRunStore d value.toNat else d) s

/-- `CVU_UNIT_CFG_WRITE` (R486). -/
def execCvuUnitCfgWrite (value : Word) (s : State) : Host.Outcome State Fault Refusal :=
  lift (fun d => if d.sys.portUp then cvuCfgWrite d value.toNat else d) s

/-- The fields of a `CHECK_VALUE` (R481). -/
structure CheckOp where
  length : Nat
  out : Nat
  alg : Nat
  mode : Nat
  chain : Bool
  part : Bool
  runIn : Nat
  deriving DecidableEq, Repr

def checkOp (x : Desc) : CheckOp :=
  ⟨db x 36 4, db x 40 8, db x 52 1, dbits x 53 0 2, dbits x 53 2 1 == 1, dbits x 53 3 1 == 1, db x 56 8⟩

/-- What a `CHECK_VALUE` writes, its result, and whether a STRIP found a mismatch (R482). -/
def checkResult (o : CheckOp) (input : List Byte) : List Byte × Nat × Bool :=
  let start := if o.chain then o.runIn else cvuInit o.alg
  let w := cvuWidth o.alg
  if o.mode = 0 then
    let r := cvuFeedRun o.alg start input
    let check := r ^^^ cvuXor o.alg
    if o.part then (leBytes 8 0 ++ leBytes 8 r, r % 2 ^ 32, false)
    else (leBytes 8 check ++ leBytes 8 r, check % 2 ^ 32, false)
  else if o.mode = 1 then
    let check := cvuFeedRun o.alg start input ^^^ cvuXor o.alg
    (input ++ leBytes w check, check % 2 ^ 32, false)
  else
    let data := input.take (input.length - w)
    let check := cvuFeedRun o.alg start data ^^^ cvuXor o.alg
    let bad := ofLe (input.drop (input.length - w)) != check
    (data, b2n bad, bad)

/-- `CHECK_VALUE` (R481, R482): the unit reads `length` bytes of the host buffer (the operand; bytes it does not hold
read 0). -/
def execCheckValue (ring : Nat) (input : List Byte) (s : State) : Host.Outcome State Fault Refusal :=
  lift (fun d => dispatch d ring 0x80 (fun d f =>
    let u := dbits f.desc 4 0 4
    if (cvuOf d u).regMode then finish d ring f.id stStateConflict 1 else
    let o := checkOp f.desc
    let bs := padTo o.length (input.take o.length)
    let (out, res, bad) := checkResult o bs
    let d := hostWrite (dispatched d ring f.id) ring o.out out
    let d := setCvu d u { cvuOf d u with bytes := ((cvuOf d u).bytes + bs.length) % 2 ^ 64 }
    let d := if bad then raise d Fd.CVU_EVT_strip_mismatch else d
    finish d ring f.id stOK res)) s

end Sys2Proof.Machine
end

