-- ==== Sys2Proof/Machine/Secure.lean ====
section
/-!
DEFINITION. Sys2Proof/Machine/Secure.lean: SPDM requests (16 R431 to R438), zeroisation (R446) and the debug gate (R447). An
answer is sent as its SPDM 1.3 version and response code, and what this spec says it carries (log entry 41).
-/

namespace Sys2Proof.Machine

/-! ### SPDM (R434, R435) -/

/-- Send an answer. -/
def spdmSend (d : Dev) (code : Nat) (body : List Byte) : Dev := send d (.spdm (fields [(0x13, 1), (code, 1), (0, 2)] ++ body))

/-- Answer with ERROR and an error code. -/
def spdmError (d : Dev) (code : Nat) (ext : List Byte) : Dev :=
  send d (.spdm (fields [(0x13, 1), (0x7F, 1), (code, 1), (0, 1)] ++ ext))

/-- Answer a request: while the security unit is in reset, ERROR with status 0x60 and a time to retry after, in frames (R435),
whose value is free. -/
def spdm (d : Dev) (f : Dev → Dev) : Dev :=
  if !d.sys.portUp then d
  else if unitInReset d 6 then
    let (v, d) := freshBelow d (2 ^ 16)
    spdmError d 0xFF (fields [(0x60, 1), (v, 2)])
  else f d

/-- Does an identity statement pass the checks of R431? Its fields are packed in the order that R431 names (log entry 42). -/
def statementOk (d : Dev) (st : List Byte) : Bool :=
  Config.xmssVerify 3 st && leAt st 6 8 == d.sys.uid && (st.drop 14).take 68 == idPublic && (st.drop 82).take 1568 == modelPublic

/-- `SET_ID_STATEMENT` (R431). -/
def execSetIdStatement (statement : List Byte) (s : State) : Host.Outcome State Fault Refusal :=
  lift (fun d => spdm d (fun d =>
    let d := if statementOk d statement then { d with sec := { d.sec with stmtLoaded := true, statement := statement } }
      else raise d Fd.SEC_EVT_stmt_rejected
    spdmSend d 0x7E [])) s

/-- Arrays in service: logical arrays that are not retired, once the harvest map is known (R84, R93). -/
def arraysEnabled (d : Dev) : Nat := if d.sys.repair.isNone then 0 else 144 - ((vals d.fab.arr).filter (fun a => a.retired)).length

/-- The number of a TDISP state (R42). -/
def tdispNum (t : Tdisp) : Nat := match t with | .configUnlocked => 0 | .configLocked => 1 | .run => 2 | .error => 3

/-- Units in reset, as `GLB_UNIT_STAT.in_reset` shows them. -/
def unitsInReset (d : Dev) : Nat := maskOf 16 (keys d.sys.unitRst)

/-- Measurement block 3: serial and digest of the repair record (R436). -/
def repairBlock (d : Dev) : List Byte :=
  match d.sys.repair with | some r => leBytes 8 r.serial ++ b256 r.digest | none => List.replicate 40 0

/-- The publisher key set digest (R436). -/
def publisherDigest (d : Dev) : BitVec 256 :=
  Config.shake256 (((List.range 16).filter (fun e => fbit d Fd.SEC_PUB_CFG_valid e)).flatMap (publisherBytes d))

/-- Bytes 64 to 71 of a report (R437). -/
def reportFlags (d : Dev) : List Byte :=
  let rst := unitsInReset d
  fields [(d.sys.stage, 1),
    (b2n d.sys.fwStaged.isSome + 2 * b2n d.sys.debugExposed + 4 * b2n (rst != 0) + 8 * b2n d.hst.ideActive
      + 16 * b2n d.sec.stmtLoaded, 1),
    (tdispNum d.hst.tdisp, 1), (0, 1), (rst, 2), (arraysEnabled d, 1), ((d.mem.nearUp &&& ~~~d.mem.nearRetired).toNat, 1)]

/-- The body of an attestation report (R437), from one instant (R438). -/
def reportBody (d : Dev) (nonce : BitVec 256) : List Byte :=
  let rs := configRecipes d
  let kem := match d.sec.linkKem with | some k => Config.shake256 (linkPublic k) | none => 0
  fields [(0x54504552, 4), (1, 2), (320 + 48 * rs.length, 2), (d.sys.uid, 8), (d.sec.bootId, 8)] ++ b256 nonce
    ++ fields [(if d.tc.acquired then now d else 0, 6), (0, 2)] ++ reportFlags d
    ++ fields [(d.sys.fwRunning, 4), (match d.sys.fwStaged with | some v => v.1 | none => 0, 4)]
    ++ b256 d.sys.fwRunningMeas ++ repairBlock d ++ b256 (d.sys.calDigest.getD 0) ++ b256 d.map.digest ++ b256 (publisherDigest d)
    ++ b256 kem ++ b256 (Config.shake256 modelPublic) ++ fields [(rs.length, 2), (0, 6)] ++ recipeList rs

/-- Answer with a signed body. -/
def spdmSigned (d : Dev) (code : Nat) (body : List Byte) : Dev :=
  let (sig, d) := attSign d body
  spdmSend d code (body ++ sig)

/-- `GET_REPORT` (R437). -/
def execGetReport (nonce : BitVec 256) (s : State) : Host.Outcome State Fault Refusal :=
  lift (fun d => spdm d (fun d => spdmSigned d 0x7E (reportBody d nonce))) s

/-- `GET_KEY_CERTS` (R434): the meter and link KEM certificates. -/
def execGetKeyCerts (s : State) : Host.Outcome State Fault Refusal :=
  lift (fun d => spdm d (fun d => spdmSend d 0x7E (d.sec.meterCert ++ d.sec.kemCert))) s

/-- A measurement block (R436). -/
def measurement (d : Dev) (index : Nat) : Option (List Byte) :=
  match index with
  | 1 => some (b256 Config.romMeasurement)
  | 2 => some (b256 d.sys.fwRunningMeas)
  | 3 => some (repairBlock d)
  | 4 => some (b256 (d.sys.calDigest.getD 0))
  | 5 => some (b256 d.map.digest)
  | 6 => some (b256 (publisherDigest d))
  | 7 => some (reportFlags d)
  | 0xF0 => some (reportBody d 0)
  | _ => none

/-- `GET_MEASUREMENTS` (R434, R436): one block, signed; index 0xFF asks for every block. -/
def execGetMeasurements (index : Nat) (s : State) : Host.Outcome State Fault Refusal :=
  lift (fun d => spdm d (fun d =>
    let blocks := if index = 0xFF then ([1, 2, 3, 4, 5, 6, 7, 0xF0].filterMap (measurement d)) else (measurement d index).toList
    if blocks = [] then spdmError d 1 [] else spdmSigned d 0x60 blocks.flatten)) s

/-- Certificate slot 0 (R434). -/
def certSlot (d : Dev) : List Byte := d.sec.attCert ++ idPublic

/-- `GET_CERTIFICATE` (R434): there is one slot. -/
def execGetCertificate (slot : Nat) (s : State) : Host.Outcome State Fault Refusal :=
  lift (fun d => spdm d (fun d => if slot = 0 then spdmSend d 0x02 (certSlot d) else spdmError d 1 [])) s

/-- `CHALLENGE` (R434): signed over the nonce and the certificate slot. -/
def execChallenge (nonce : BitVec 256) (s : State) : Host.Outcome State Fault Refusal :=
  lift (fun d => spdm d (fun d =>
    let (sig, d) := attSign d (b256 nonce ++ certSlot d)
    spdmSend d 0x03 sig)) s

/-- `KEY_EXCHANGE` (R434): a secured session is established; what the answer carries is free. -/
def execKeyExchange (clientKey : BitVec 256) (s : State) : Host.Outcome State Fault Refusal :=
  lift (fun d => spdm d (fun d =>
    let body := exactly 1568 (Config.layout 0x64 d.fresh [clientKey.toNat])
    let d := { d with sec := { d.sec with session := true }, fresh := d.fresh + 1 }
    spdmSigned d 0x64 body)) s

/-- `IDE_KM_KEY_PROG` (R42, R434): inside the secured session a link gets its keys; IDE is active once every link that is up has
them. -/
def execIdeKmKeyProg (link : Nat) (s : State) : Host.Outcome State Fault Refusal :=
  lift (fun d => spdm d (fun d =>
    if !d.sec.session ∨ 2 ≤ link then d else relink { d with sec := { d.sec with ideLinks := put d.sec.ideLinks link true } })) s

/-! ### Zeroisation (R446) -/

/-- Group 3: the interface enters ERROR, which erases groups 0 and 1 too; a new link KEM key is made and announced. -/
def zeroLinks (d : Dev) : Dev :=
  let d := if d.hst.tdisp = .error then d else zeroWeights (zeroSessions (errorEntry d))
  let (k, d) := draw d
  let d := { d with sec := { d.sec with ideLinks := [], linkKem := some k, kemSucc := d.sec.kemSucc + 1 } }
  announceKey (certifyKem { d with hst := { d.hst with ideActive := false } })

/-- A matched `SEC_ZEROISE` write. -/
def secZeroise (d : Dev) (value : Nat) : Dev :=
  let d := unguard d Rg.SEC_ZEROISE_A
  let g := value % 16
  if g = 0 ∨ d.sys.stage < 2 then cfgIgnored d Rg.SEC_ZEROISE_A
  else
    let d := zeroMark d g
    let d := if bitOf g 0 then zeroSessions d else d
    let d := if bitOf g 1 then zeroWeights d else d
    let d := if bitOf g 2 then zeroStorage d else d
    if bitOf g 3 then zeroLinks d else d

/-- `ZEROISE_SESSION_KEYS`, `ZEROISE_WEIGHT_KEYS`, `ZEROISE_STORAGE_KEYS`, `ZEROISE_LINK_KEYS` (R446). -/
def execZeroiseSessionKeys (s : State) : Host.Outcome State Fault Refusal := lift (fun d => if d.sys.portUp then secZeroise d 1 else d) s
def execZeroiseWeightKeys (s : State) : Host.Outcome State Fault Refusal := lift (fun d => if d.sys.portUp then secZeroise d 2 else d) s
def execZeroiseStorageKeys (s : State) : Host.Outcome State Fault Refusal := lift (fun d => if d.sys.portUp then secZeroise d 4 else d) s
def execZeroiseLinkKeys (s : State) : Host.Outcome State Fault Refusal := lift (fun d => if d.sys.portUp then secZeroise d 8 else d) s

/-- Every effect of a zeroisation is complete (R446, R447); the observation pins come live if they were asked for. -/
def zeroDone (d : Dev) : Dev :=
  if d.sec.zeroing.isNone then d
  else
    let live := d.sys.obsLive || d.sec.obsPending
    let d := { d with sec := { d.sec with zeroing := none, obsPending := false }, sys := { d.sys with obsLive := live } }
    raise d Fd.SEC_EVT_zeroised

/-- It is so 8 frames after the write at the latest. -/
def zeroOver (d : Dev) : Dev := if d.sec.zeroAt + 8 * 65536 ≤ up d then zeroDone d else d

/-- `ZEROISE_DONE` (R446). -/
def execZeroiseDone (s : State) : Host.Outcome State Fault Refusal := lift zeroDone s

/-! ### The debug gate (R447) -/

/-- The load buffer is erased, and what lay in it: a staged image, and a load whose checks then fail. -/
def eraseBuffer (d : Dev) : Dev :=
  let d := setSys d { d.sys with aperture := [], fwStaged := if d.sys.fwActivating then d.sys.fwStaged else none }
  setSys d { d.sys with load := d.sys.load.map (fun j => { j with result := loadCheck d j.typ j.length (loadImage d j.length), tries := 0 }) }

/-- A matched write of 1 to `DBG_OBS_EN`. -/
def obsEnable (d : Dev) : Dev :=
  let d := unguard d Rg.DBG_OBS_EN_A
  let d := setSys d { d.sys with debugExposed := true }
  let d := if d.hst.tdisp = .error then zeroWeights (zeroSessions (zeroMark d 3)) else enterError d
  let d := eraseBuffer (raise d Fd.SEC_EVT_debug_enabled)
  { d with sec := { d.sec with obsPending := true } }

/-- `OBS_ENABLE` (R447): free T0 and T1 frames are erased, which no register shows. -/
def execObsEnable (s : State) : Host.Outcome State Fault Refusal := lift (fun d => if d.sys.portUp then obsEnable d else d) s

/-- A matched write of 0 to `DBG_OBS_EN`. -/
def obsDisable (d : Dev) : Dev :=
  let d := unguard d Rg.DBG_OBS_EN_A
  { d with sys := { d.sys with obsLive := false }, sec := { d.sec with obsPending := false } }

/-- `OBS_DISABLE` (R447). -/
def execObsDisable (s : State) : Host.Outcome State Fault Refusal := lift (fun d => if d.sys.portUp then obsDisable d else d) s

end Sys2Proof.Machine
end

