-- ==== Sys2Proof/Machine/Regs.lean ====
section
/-!
DEFINITION. Sys2Proof/Machine/Regs.lean: writes to the register window (00 R5 to R11; 02 R43, R54; 03 R74 to R83, R504): which
accesses are valid, how a write reaches its register, and guarded pairs. A register whose write has a row of its own is
written by the operation of that row.
-/

namespace Sys2Proof.Machine

/-! ### The window (R74 to R76, R79) -/

def windowSize : Nat := 2 ^ 26
def doorbellLo : Nat := 0x2000000
def doorbellHi : Nat := 0x2200000
def apertureLo : Nat := 0x3000000
def apertureHi : Nat := 0x3400000

def inDoorbells (off : Nat) : Bool := doorbellLo ≤ off && off < doorbellHi
def inAperture (off : Nat) : Bool := apertureLo ≤ off && off < apertureHi

/-- 4 or 8 bytes, naturally aligned (R75). -/
def aligned (off size : Nat) : Bool := (size == 4 || size == 8) && off % size == 0

/-- Does an access reach a defined register (R75)? -/
def reachesReg (off size : Nat) : Bool := aligned off size && (regAt (off / 8 * 8)).isSome

/-- Is an access to a doorbell page valid (R75)? -/
def doorbellOk (off size : Nat) : Bool := size == 4 && off % 4096 == 0

/-- Is a write into the aperture valid, by its offset in it (R79)? -/
def apertureOk (off len : Nat) : Bool :=
  decide (4 ≤ len) && decide (len ≤ 256) && off / 256 == (off + len - 1) / 256 && decide (off + len ≤ 2 ^ 22)

/-- Is a write valid (R75, R79)? -/
def writeValid (off size : Nat) : Bool :=
  if inDoorbells off then doorbellOk off size
  else if inAperture off then apertureOk (off - apertureLo) size
  else reachesReg off size

/-- Is a read valid (R75, R79)? -/
def readValid (off size : Nat) : Bool :=
  if inDoorbells off then doorbellOk off size else if inAperture off then aligned off size else reachesReg off size

/-- `INVALID_ACCESS` (R76): a write is dropped, a read returns zero. -/
def execInvalidAccess (write : Bool) (offset size : Nat) (s : State) : Host.Outcome State Fault Refusal :=
  lift (fun d =>
    if !d.sys.portUp ∨ windowSize ≤ offset ∨ (if write then writeValid offset size else readValid offset size) then d
    else accessInvalid d offset) s

/-- A write into the load aperture (R79, R81): dropped while a load is busy. -/
def aperturePut (d : Dev) (off : Nat) (data : List Byte) : Dev :=
  if !apertureOk off data.length then accessInvalid d (apertureLo + off)
  else if d.sys.load.isSome then postedOverrun d (apertureLo + off)
  else setSys d { d.sys with aperture := setBytes d.sys.aperture off data }

/-- `APERTURE_WRITE` (R79): the offset is counted from the start of the aperture. -/
def execApertureWrite (offset : Nat) (data : List Byte) (s : State) : Host.Outcome State Fault Refusal :=
  lift (fun d => if d.sys.portUp ∧ offset < 2 ^ 22 then aperturePut d offset data else d) s

/-! ### Event registers (R9) -/

/-- Is there an event register at an offset? -/
def isEvt (off : Nat) : Bool :=
  match regAt off with | some (r, _) => r.flds.all (fun f => decide (f.acc = .ws)) | none => false

/-- `EVENT_WRITE_BACK` (R9, R43, R80). -/
def execEventWriteBack (offset : Nat) (value : BitVec 16) (s : State) : Host.Outcome State Fault Refusal :=
  lift (fun d => if d.sys.portUp ∧ isEvt offset then evWriteBack d offset value else d) s

/-! ### Guarded pairs (R11, R82, R83) -/

/-- The `*_A` registers of the device (R82). -/
def guardRegs : List Nat :=
  [Rg.DBG_OBS_EN_A, Rg.SEC_ZEROISE_A, Rg.GLB_UNIT_RESET_A, Rg.GLB_FW_ACTIVATE_A, Rg.ARR_RETIRE_A, Rg.MEM_ERASE_A,
    Rg.LNK_PORT_DISABLE_A, Rg.CKP_DISCARD_A]

/-- A matched `MEM_ERASE` write by its target (R309): reserved targets are refused. -/
def memErase (d : Dev) (v : Nat) : Dev :=
  if v = 1 ∨ v = 2 ∨ v = 3 then eraseStart d v 0
  else if v % 256 = 4 ∧ v / 2 ^ 13 = 0 then eraseStart d 4 (v / 256)
  else cfgIgnored (unguard d Rg.MEM_ERASE_A) Rg.MEM_ERASE_A

/-- A matched `DBG_OBS_EN` write (R447, R499). -/
def obsWrite (d : Dev) (v : Nat) : Dev :=
  if v = 1 then obsEnable d else if v = 0 then obsDisable d else cfgIgnored (unguard d Rg.DBG_OBS_EN_A) Rg.DBG_OBS_EN_A

/-- The effect of a matched guarded write (R82). -/
def guardEffect (d : Dev) (a v : Nat) : Dev :=
  if a = Rg.DBG_OBS_EN_A then obsWrite d v
  else if a = Rg.SEC_ZEROISE_A then secZeroise d v
  else if a = Rg.GLB_UNIT_RESET_A then glbUnitReset d v
  else if a = Rg.GLB_FW_ACTIVATE_A then fwActivate d v
  else if a = Rg.ARR_RETIRE_A then arrRetire d v
  else if a = Rg.MEM_ERASE_A then memErase d v
  else if a = Rg.LNK_PORT_DISABLE_A then portDisable d v
  else ckpDiscard d v

/-- A window closes `age` subframes or more after its write (R11): its value is discarded. -/
def guardClose (d : Dev) (age a : Nat) : Dev :=
  match look d.sys.guards a with
  | some (_, t) => if t + age ≤ up d then guardFail (unguard d a) a else d
  | none => d

/-- A write of 32 bits to `*_A`: the value is pending, and an earlier one is discarded (R11). -/
def guardFirst (d : Dev) (a v : Nat) : Dev :=
  let d := guardClose d 15 a
  setSys d { d.sys with guards := put d.sys.guards a (v, up d) }

/-- A write of 32 bits to `*_B` (R11): the complement of the pending value takes effect; anything else is reported. The window of
256 cycles is 13.98 subframes: a write 15 or more subframes after that to `*_A` finds it closed (log entry 78). -/
def guardSecond (d : Dev) (a v : Nat) : Dev :=
  let d := guardClose d 15 a
  match look d.sys.guards a with
  | none => guardFail d (a + 8)
  | some (w, _) => if w + v = 2 ^ 32 - 1 then guardEffect d a w else guardFail (unguard d a) (a + 8)

/-- `GUARD_WINDOW_EXPIRE` (R11): the window closes after cycle 256, 13 to 15 subframes after the write as the counter shows them
(log entry 78). -/
def execGuardWindowExpire (offset : Nat) (s : State) : Host.Outcome State Fault Refusal := lift (fun d => guardClose d 13 offset) s

/-! ### Banked registers and governing enables (R7, R54) -/

/-- The bank of a register: its copy, or the entry that its selector names. -/
def bankOf (d : Dev) (off n : Nat) : Nat :=
  if off = Rg.CTX_CLIENT_LIM then fget d Fd.CTX_CLIENT_SEL_client
  else if off = Rg.MEM_CLIENT_SHARE then fget d Fd.MEM_CLIENT_SEL_client
  else if off = Rg.SEQ_LC_QUOTA then lcBank (fget d Fd.SEQ_LC_SEL_slice) (fget d Fd.SEQ_LC_SEL_client)
  else if off = Rg.TXT_TBL_CNT then fget d Fd.TXT_TBL_SEL_table
  else if off = Rg.LNK_PORT_CNT ∨ off = Rg.LNK_TC_ASYM then fget d Fd.LNK_PORT_SEL_port
  else if off = Rg.LNK_ROUTE then fget d Fd.LNK_ROUTE_SEL_device
  else if off = Rg.LNK_GATE_ENT then fget d Fd.LNK_GATE_SEL_list * 64 + fget d Fd.LNK_GATE_SEL_entry
  else if off = Rg.LNK_POL_RATE ∨ off = Rg.LNK_POL_BURST then fget d Fd.LNK_POL_SEL_client * 8 + fget d Fd.LNK_POL_SEL_class
  else if off = Rg.LNK_LE_POOL then fget d Fd.LNK_LE_SEL_pool
  else if off = Rg.LNK_LE_ENT then fget d Fd.LNK_LE_SEL_pool * 64 + fget d Fd.LNK_LE_SEL_entry
  else if off = Rg.LNK_LENDER then fget d Fd.LNK_LENDER_SEL_entry
  else if off = Rg.MAP_HO_REQ then fget d Fd.MAP_HO_SEL_entry
  else if Rg.MAP_SLICE_ARR0 ≤ off ∧ off ≤ Rg.MAP_SLICE_BANKS then fget d Fd.MAP_SLICE_SEL_slice
  else if Rg.SEC_PUB_KEY0 ≤ off ∧ off ≤ Rg.SEC_PUB_CFG then fget d Fd.SEC_PUB_SEL_entry
  else if off = Rg.SEC_RCPT then fget d Fd.SEC_RCPT_SEL_entry
  else if off = Rg.MTR_ENV_ENT then fget d Fd.MTR_ENV_SEL_entry
  else if Rg.FLT_CLIENT_BASE ≤ off ∧ off ≤ Rg.FLT_CLIENT_SHADOW then fget d Fd.FLT_CLIENT_SEL_client
  else n

/-- The `open` field that governs the WD fields of a ring group (R54, R485). -/
def groupOpen (off : Nat) : Option Fd :=
  if off = Rg.SEQ_SQ_BASE then some Fd.SEQ_SQ_CFG_open
  else if off = Rg.SEQ_CQ_BASE ∨ off = Rg.SEQ_CQ_SHADOW then some Fd.SEQ_CQ_CFG_open
  else if off = Rg.SEQ_STR_BASE ∨ off = Rg.SEQ_STR_SHADOW then some Fd.SEQ_STR_CFG_open
  else if off = Rg.FLT_LOG_BASE ∨ off = Rg.FLT_LOG_SHADOW then some Fd.FLT_LOG_CFG_open
  else if off = Rg.FLT_CLIENT_BASE ∨ off = Rg.FLT_CLIENT_SHADOW then some Fd.FLT_CLIENT_CFG_open
  else none

/-- The `*_CTL` register of the block of a register (R74). -/
def blockCtl (off : Nat) : Nat :=
  [0xe00000, 0x1000000, 0x1400000, 0x1600000, 0x1800000, 0x1a00000, 0xa00000, 0x800000, 0xc00000, 0x600000, 0x200000].foldl
    (fun b c => if c ≤ off ∧ off < c + (if c = 0x1000000 then 0x400000 else 0x200000) then c else b) (off / 0x100000 * 0x100000)

/-- May WD fields of a register not change (R7, R54)? Those of a submission ring also stay while it drains (R56). -/
def governed (d : Dev) (off bank : Nat) : Bool :=
  match groupOpen off with
  | some f => fbit d f bank || (off == Rg.SEQ_SQ_BASE && (sqOf d bank).draining)
  | none => fbit d ⟨blockCtl off, 0, 1, 0⟩

/-! ### The plain write (R5, R7, R8) -/

/-- The copy of a register as a register of its own, where the copies share a bank selector. -/
def copyDef (r : RegDef) (n : Nat) : RegDef := if r.off = Rg.SEC_PUB_KEY0 then { r with off := r.off + 8 * n } else r

/-- A write under the access codes alone. -/
def plainWrite (d : Dev) (r : RegDef) (n addr word : Nat) : Dev :=
  let bank := bankOf d r.off n
  regWrite d (copyDef r n) bank addr word (governed d r.off bank)

/-- A write to a block's `*_CTL` that may not set `enable` under its present settings: `enable` stays clear. -/
def gatedEnable (d : Dev) (r : RegDef) (word : Nat) (ok : Bool) : Dev :=
  if bitOf word 0 ∧ !fbit d ⟨r.off, 0, 1, 0⟩ ∧ !ok then cfgIgnored (plainWrite d r 0 r.off (withBits word 0 1 0)) r.off
  else plainWrite d r 0 r.off word

/-- A write to `MTR_CTL` (R459, R468): silence of the feed counts from the moment it enters service. -/
def mtrCtlWrite (d : Dev) (r : RegDef) (word : Nat) : Dev :=
  let was := fbit d Fd.MTR_CTL_enable
  let d := gatedEnable d r word (4 ≤ fget d Fd.MTR_LOG_CFG_size_log2 ∧ fget d Fd.MTR_LOG_CFG_size_log2 ≤ 12)
  if fbit d Fd.MTR_CTL_enable ∧ !was then { d with mtr := { d.mtr with feedAt := up d, lost := false } } else d

/-- A write to `MTR_LOG_BASE` (R459, R502): an area that would wrap leaves `log_en` clear. -/
def logBaseWrite (d : Dev) (r : RegDef) (addr word : Nat) : Dev :=
  let fixed := governed d r.off 0
  let d := plainWrite d r 0 addr word
  if !fixed ∧ fbit d Fd.MTR_LOG_BASE_log_en
      ∧ (areaWraps (fget d Fd.MTR_LOG_BASE_base * 4096) (8192 * 2 ^ fget d Fd.MTR_LOG_CFG_size_log2)
        || areaWraps (fget d Fd.MTR_LOG_SHADOW_shadow * 8) 8) then
    cfgIgnored (fset d Fd.MTR_LOG_BASE_log_en 0) addr
  else d

/-- A write to a gate entry (R356): the active list does not change. -/
def gateEntWrite (d : Dev) (r : RegDef) (addr word : Nat) : Dev :=
  if fget d Fd.LNK_GATE_SEL_list = d.lnk.gateList then cfgIgnored d addr else plainWrite d r 0 addr word

/-- A write to `LNK_GATE_CFG` (R356): the length of the active list does not change. -/
def gateCfgWrite (d : Dev) (r : RegDef) (addr word : Nat) : Dev :=
  let f := if d.lnk.gateList = 0 then Fd.LNK_GATE_CFG_len_a_m1 else Fd.LNK_GATE_CFG_len_b_m1
  let kept := fget d f
  let w := regStore d r 0 (withBits word f.lo f.width kept) (governed d r.off 0)
  if bitsOf word f.lo f.width = kept ∧ !w.2 then w.1 else cfgIgnored w.1 addr

/-- A write to `LNK_GATE_SWITCH` (R356, R365). -/
def gateSwitchWrite (d : Dev) (r : RegDef) (addr word : Nat) : Dev :=
  if bitOf word 48 then gateArm d (word % 2 ^ 48) addr else plainWrite d r 0 addr word

/-- A write to `LNK_CTL`: coming into service, the active list stands at the entry of the present time (R355). -/
def lnkCtlWrite (d : Dev) (r : RegDef) (word : Nat) : Dev :=
  let was := fbit d Fd.LNK_CTL_enable
  let d := plainWrite d r 0 r.off word
  if fbit d Fd.LNK_CTL_enable ∧ !was then gateEnter d (gatePos d).1 else d

/-- A write to `MAP_CTL` (R374): `leave` starts the leaving. -/
def mapCtlWrite (d : Dev) (r : RegDef) (word : Nat) : Dev :=
  let was := fbit d Fd.MAP_CTL_leave
  let d := plainWrite d r 0 r.off word
  if bitOf word 1 ∧ !was then mapLeave d else d

/-- A write to `MAP_HO_REQ` (R378): an open entry does not change. -/
def hoReqWrite (d : Dev) (r : RegDef) (addr word : Nat) : Dev :=
  if hoOpen (hoOf d (fget d Fd.MAP_HO_SEL_entry)) then cfgIgnored d addr else plainWrite d r 0 addr word

/-- A write whose field holds no more than `top`. -/
def clampWrite (d : Dev) (r : RegDef) (word width top : Nat) : Dev :=
  plainWrite d r 0 r.off (withBits word 0 width (min top (bitsOf word 0 width)))

/-! ### A write that reaches a register (R43, R75) -/

/-- The fields of a register that a write of 8 bytes, or of the half at `addr`, reaches (R75). -/
def reached (r : RegDef) (addr size : Nat) : List FldDef :=
  r.flds.filter (fun f => size == 8 || (if addr % 8 = 4 then decide (32 < f.lo + f.width) else decide (f.lo < 32)))

/-- Are fields that a write reaches frozen while the interface is locked (R43): RW or WD in `HST`, WD in `SEC`? -/
def frozen (d : Dev) (r : RegDef) (addr size : Nat) : Bool :=
  let wd := (reached r addr size).any (fun f => decide (f.acc = .wd))
  let rw := (reached r addr size).any (fun f => decide (f.acc = .rw))
  (d.hst.tdisp == .configLocked || d.hst.tdisp == .run)
    && ((blockCtl r.off == 0x100000 && (rw || wd)) || (blockCtl r.off == 0x1800000 && wd))

/-- Writes that act when they reach bits [31:0] (R504, R11, R9): posted, guarded, event and command registers. The other half of
such a register holds nothing that a write changes, but for `GLB_LOAD.length`. Answers none for every other register. -/
def actWrite (d : Dev) (r : RegDef) (n addr : Nat) (lo hi : Option Nat) : Option Dev :=
  let off := r.off
  let low := fun (f : Nat → Dev) => some (match lo with | some v => f v | none => d)
  let go := fun (f : Dev → Dev) => low (fun v => if bitOf v 0 then f d else d)
  if isEvt off then low (fun v => evWriteBack d off (BitVec.ofNat 16 v))
  else if guardRegs.contains off then low (guardFirst d off)
  else if guardRegs.contains (off - 8) ∧ 8 ≤ off then low (guardSecond d (off - 8))
  else if off = Rg.GLB_LOAD then
    let length := match hi with | some v => v % 2 ^ 23 | none => fget d Fd.GLB_LOAD_length
    some (match lo with
      | some v => glbLoad d (v % 4) length
      | none => if d.sys.load.isSome then postedOverrun d addr else fset d Fd.GLB_LOAD_length length)
  else if off = Rg.GLB_BOOT_CMD then
    some (match lo with
      | some v => match v % 16 with
        | 4 => bootMem d
        | 6 => bootTime d
        | 7 => bootLinks d
        | 8 => bootReady d
        | t => bootCmd d t 0 true id
      | none => if d.sys.stageCmd.isSome then postedOverrun d addr else d)
  else if off = Rg.SYN_INIT then low (synInitWrite d)
  else if off = Rg.MTR_TX_CFG then low (txCfgWrite d)
  else if off = Rg.SEQ_SQ_CMD then go (fun d => if (sqOf d n).stalled then settle (setSq d n { sqOf d n with stalled := false }) else d)
  else if off = Rg.LNK_RECALL then low (lnkRecall d)
  else if off = Rg.MAP_HO_GO then go hoGo
  else if off = Rg.MAP_SLICE_APPLY then go sliceApply
  else if off = Rg.CVU_INIT then go (fun d => cvuLoadInit d (cvuSel d))
  else if off = Rg.CVU_FEED_B then low (cvuFeed d off 1)
  else if off = Rg.CVU_FEED_H then low (cvuFeed d off 2)
  else if off = Rg.CVU_FEED_W then low (cvuFeed d off 4)
  else if off = Rg.CVU_UNIT_CFG then low (cvuCfgWrite d)
  else if off = Rg.FLS_IDX_STATE then low (fun v => idxStateWrite d (v % 8))
  else none

/-- A write of a whole register, the half that was not written being as it was. -/
def wordWrite (d : Dev) (r : RegDef) (n addr word : Nat) : Dev :=
  let off := r.off
  if off = Rg.SEQ_CTL then seqCtlWrite d word
  else if off = Rg.CTX_CTL then ctxCtlWrite d word
  else if off = Rg.MTR_CTL then mtrCtlWrite d r word
  else if off = Rg.CKP_CTL then gatedEnable d r word (fget d Fd.CKP_CFG_tier = 2 ∨ fget d Fd.CKP_CFG_tier = 4)
  else if off = Rg.LNK_CTL then lnkCtlWrite d r word
  else if off = Rg.MAP_CTL then mapCtlWrite d r word
  else if off = Rg.SEQ_CLIENT_SYNC then clientSyncWrite d n word addr
  else if off = Rg.SEQ_CLIENT_MIRROR then clientMirrorWrite d n word addr
  else if off = Rg.SEQ_CLIENT_ACCT then clientAcctWrite d n word addr
  else if off = Rg.SEQ_SQ_CFG then sqCfgWrite d n word addr
  else if off = Rg.SEQ_CQ_CFG then cqCfgWrite d n word addr
  else if off = Rg.SEQ_STR_CFG then strCfgWrite d n word addr
  else if off = Rg.FLT_LOG_CFG then fltCfgWrite d true word addr
  else if off = Rg.FLT_CLIENT_CFG then fltCfgWrite d false word addr
  else if off = Rg.SEQ_LC_QUOTA then lcQuotaWrite d word addr
  else if off = Rg.MEM_CLIENT_SHARE then shareWrite d word addr
  else if off = Rg.LNK_POL_RATE then policerWrite d false word
  else if off = Rg.LNK_POL_BURST then policerWrite d true word
  else if off = Rg.LNK_GATE_ENT then gateEntWrite d r addr word
  else if off = Rg.LNK_GATE_CFG then gateCfgWrite d r addr word
  else if off = Rg.LNK_GATE_SWITCH then gateSwitchWrite d r addr word
  else if off = Rg.MAP_HO_REQ then hoReqWrite d r addr word
  else if off = Rg.MTR_ENV_ENT then envWrite d word addr
  else if off = Rg.MTR_LOG_BASE then logBaseWrite d r addr word
  else if off = Rg.FLS_RECLAIM then clampWrite d r word 7 99
  else if off = Rg.FLS_PREFETCH then clampWrite d r word 4 8
  else if off = Rg.CVU_RUN then cvuRunStore d word
  else plainWrite d r n addr word

/-- What the other half of a register holds, for a write of one half. -/
def wordOf (d : Dev) (r : RegDef) (n : Nat) : Nat :=
  if r.off = Rg.CVU_RUN then (cvuOf d (cvuSel d)).run.toNat else rawWord d (copyDef r n) (bankOf d r.off n)

/-- A valid write to a register (R5, R43, R75): 8 bytes, or one half. A half that holds reserved bits alone takes the write without
effect. -/
def regWriteAt (d : Dev) (r : RegDef) (n addr size value : Nat) : Dev :=
  if (reached r addr size).isEmpty then d
  else if frozen d r addr size then enterError d
  else
    let high := addr % 8 = 4
    let lo := if size = 8 ∨ !high then some (value % 2 ^ 32) else none
    let hi := if size = 8 then some (value / 2 ^ 32) else if high then some (value % 2 ^ 32) else none
    match actWrite d r n addr lo hi with
    | some d => d
    | none =>
      let old := wordOf d r n
      wordWrite d r n addr (lo.getD (old % 2 ^ 32) + 2 ^ 32 * hi.getD (old / 2 ^ 32))

/-- A write to the window (R74 to R79). -/
def windowWrite (d : Dev) (off size value : Nat) : Dev :=
  if !writeValid off size then accessInvalid d off
  else if inDoorbells off then doorbellWrite d ((off - doorbellLo) / 4096) value
  else if inAperture off then aperturePut d (off - apertureLo) (leBytes size value)
  else match regAt (off / 8 * 8) with
    | some (r, n) => regWriteAt d r n off size value
    | none => d

/-- `REGISTER_WRITE` (R5 to R8, R43, R54, R75 to R78, R504). -/
def execRegisterWrite (offset size : Nat) (value : Word) (s : State) : Host.Outcome State Fault Refusal :=
  lift (fun d => if d.sys.portUp ∧ offset < windowSize then windowWrite d offset size (value.toNat % 2 ^ (8 * size)) else d) s

end Sys2Proof.Machine
end

