-- ==== Sys2Proof/Machine/Timers.lean ====
section
/-!
DEFINITION. Sys2Proof/Machine/Timers.lean: events that local time brings due (01 R23, R24): their order, the rows that stand for
them, and what passes with one subframe (log entry 2).
-/

namespace Sys2Proof.Machine

/-- A due event: the object name, session handle or number it concerns, and its effect. -/
abbrev Timed := Nat × (Dev → Dev)

/-- Events of one kind in ascending order of what they concern (R24). -/
def inOrder (l : List Timed) : List Timed := sortBy (fun a b => decide (a.1 < b.1)) l

/-- Events one after another. -/
def fire (d : Dev) (l : List Timed) : Dev := l.foldl (fun d e => e.2 d) d

/-- One event for each record that satisfies `due`, by session handle. -/
def recEvents (d : Dev) (due : Dev → Nat → Bool) (f : Dev → Nat → Dev) : List Timed :=
  inOrder (((keys d.ctx.recs).filter (due d)).map (fun i => (handleOf d i, fun d => f d i)))

/-- The handoff timeouts that are due, by object name (R383). -/
def handoffEvents (d : Dev) : List Timed :=
  inOrder (((keys d.map.out).filter (acceptDue d)).map (fun e => ((hoOf d e).name, fun d => acceptOver d e))
    ++ ((keys d.map.out).filter (releaseDue d)).map (fun e => ((hoOf d e).name, fun d => releaseOver d e))
    ++ (d.map.inb.filter (commitDue d)).map (fun h => (h.name, fun d => commitOver d h.src h.id)))

/-- The events of a kind that are due, kinds as R24 numbers them from 0: minute boundary, gate changes, handoff timeouts, expiries,
hold, park_after, slate marks, fault windows (by source unit and class, R475). -/
def dueOf (d : Dev) (kind : Nat) : List Timed :=
  match kind with
  | 0 => if minuteDue d then [(0, envMinute)] else []
  | 1 => (if switchDue d then [(0, gateSwitch)] else [])
      ++ (if fbit d Fd.LNK_CTL_enable && (gatePos d).1 != d.lnk.gateIdx then [(1, gateChange)] else [])
  | 2 => handoffEvents d
  | 3 => recEvents d ttlDue ttlExpire
  | 4 => recEvents d holdDue holdPass
  | 5 => recEvents d parkDue parkPass
  | 6 => if markDue d then [(0, fun d => markFire d [])] else []
  | 7 => inOrder ((dueWindows d).map (fun w => (w.1 * 256 + w.2, fun d => fltWindowClose d w.1 w.2)))
  | _ => []

/-- The due events of the kinds before `kind`, in the order of R24. -/
def fireKinds (d : Dev) (kind : Nat) : Dev := (List.range kind).foldl (fun d k => fire d (dueOf d k)) d

/-- The due events that R24 puts before the one of `kind` that concerns `name`. -/
def precede (d : Dev) (kind name : Nat) : Dev :=
  let d := fireKinds d kind
  fire d ((dueOf d kind).filter (fun e => decide (e.1 < name)))

/-! ### Rows of the events of R24 -/

/-- `ENVELOPE_MINUTE_BOUNDARY` (R462). -/
def execEnvelopeMinuteBoundary (s : State) : Host.Outcome State Fault Refusal := lift envMinute s

/-- `GATE_LIST_SWITCH` (R356). -/
def execGateListSwitch (s : State) : Host.Outcome State Fault Refusal := lift (fun d => gateSwitch (precede d 1 0)) s

/-- `GATE_ENTRY_CHANGE` (R355). -/
def execGateEntryChange (s : State) : Host.Outcome State Fault Refusal := lift (fun d => gateChange (precede d 1 1)) s

/-- `HANDOFF_ACCEPT_TIMEOUT` (R383): no ACCEPT has come since the last transfer frame. -/
def execHandoffAcceptTimeout (entry : Nat) (s : State) : Host.Outcome State Fault Refusal :=
  lift (fun d => acceptOver (precede d 2 (hoOf d entry).name) entry) s

/-- `HANDOFF_COMMIT_TIMEOUT` (R383): the receiver has had no COMMIT since its ACCEPT. -/
def execHandoffCommitTimeout (src handoff : Nat) (s : State) : Host.Outcome State Fault Refusal :=
  lift (fun d => match inFor d src handoff with
    | none => d
    | some h => commitOver (precede d 2 h.name) src handoff) s

/-- `HANDOFF_RELEASE_TIMEOUT` (R383): the sender claims the session back. -/
def execHandoffReleaseTimeout (entry : Nat) (s : State) : Host.Outcome State Fault Refusal :=
  lift (fun d => releaseOver (precede d 2 (hoOf d entry).name) entry) s

/-- `TTL_EXPIRY` (R220). -/
def execTtlExpiry (record : Nat) (s : State) : Host.Outcome State Fault Refusal :=
  lift (fun d => ttlExpire (precede d 3 (handleOf d record)) record) s

/-- `HOLD_THRESHOLD` (R216). -/
def execHoldThreshold (record : Nat) (s : State) : Host.Outcome State Fault Refusal :=
  lift (fun d => holdPass (precede d 4 (handleOf d record)) record) s

/-- `PARK_AFTER_THRESHOLD` (R217). -/
def execParkAfterThreshold (record : Nat) (s : State) : Host.Outcome State Fault Refusal :=
  lift (fun d => parkPass (precede d 5 (handleOf d record)) record) s

/-- `SLATE_MARK_FIRE` (R389, R408). -/
def execSlateMarkFire (incidents : List Incident) (s : State) : Host.Outcome State Fault Refusal :=
  lift (fun d => markFire (precede d 6 0) incidents) s

/-- `FAULT_WINDOW_CLOSE` (R475). -/
def execFaultWindowClose (unit cls : Nat) (s : State) : Host.Outcome State Fault Refusal :=
  lift (fun d => fltWindowClose (precede d 7 (unit * 256 + cls)) unit cls) s

/-! ### The passing of time -/

/-- Entries of a batch, by number. -/
def maxEntries : Nat := 4096

/-- Timeouts, deadlines and periods that the chapters count in frames and that R24 does not order: each does nothing while it is not
due. -/
def fireSpans (d : Dev) : Dev :=
  let each := fun (l : List Nat) (f : Dev → Nat → Dev) (d : Dev) => l.foldl f d
  let d := each (keys d.sys.guards) (fun d a => guardClose d 14 a) d
  let d := each (keys d.seq.sq) waitExpire d
  let d := each (keys d.seq.sq) (fun d r =>
    let n := ((sqOf d r).flights.map (fun f => f.entries.length)).foldl max 1
    each (List.range (min n maxEntries)) (fun d e => deadlineExpire d r e) d) d
  let d := each (keys d.seq.sq) spillOver d
  let d := each (keys d.seq.cq) cqHoldoff d
  let d := each (keys d.ctx.slots) lxOverdue d
  let d := each (keys d.sys.unitRst) drainOver d
  let d := calSilent d
  let d := each (keys d.fls.search) (fun d q => match look d.fls.search q with
    | none => d
    | some x => x.asked.foldl (fun d s => each (List.range x.vecs.length) (fun d v => shardOverdue d (q * 64 + v) s) d) d) d
  let d := each (keys d.lnk.loans) (fun d l => recallOverdue d 0 l true) d
  let d := each (keys d.lnk.borrows) (fun d k => recallOverdue d (k / 2 ^ 32) (k % 2 ^ 32) false) d
  let d := each [3, 4, 5, 6] policePass d
  let d := each (keys d.lnk.ports) ackOver d
  let d := each (keys d.map.out) transferSince d
  let d := each (keys d.map.claims) publishAgain d
  let d := each (d.map.regHeld.map (fun h => h.2.1)) registerOver d
  let d := beat d
  let d := each d.map.members missed d
  let d := isolate d
  let d := each (keys d.map.suspects) stewardWait d
  let d := each (keys d.map.fencedAt) memberFail d
  let d := slateOver (buddyOver d)
  let d := feedSilent (zeroOver d)
  let d := supplyClear d
  let d := tenantRecords (each (minutesDue d) apportion d)
  let d := each (List.range 16) tcGiveUp d
  let d := tcFree (tcHold d)
  if d.tc.exchAt + 8 * 65536 ≤ up d then tcExchange d else d

/-- Every event that is due is taken (R23): those of R24 in its order, then the others. -/
def fireDue (d : Dev) : Dev := fireSpans (fireKinds d 8)

/-- The counter advances by one subframe (R503). An outstanding correction is slewed at one 1/64 subframe every 157 subframes, which
stays within 100 parts per million (R363). -/
def subframe (d : Dev) : Dev :=
  let t := { d.tc with up := d.tc.up + 1, slewAge := d.tc.slewAge + 1 }
  setTc d (if t.slew = 0 ∨ t.slewAge < 157 then t
    else { t with adj := t.adj + t.slew.sign, slew := t.slew - t.slew.sign, slewAge := 0 })

/-- One subframe of local time: what has come due in it is taken before it ends (R23), and the counter advances. RESET_N low holds
the counter. A device that is leaving its domain leaves as soon as nothing of it remains (R374). -/
def tick (d : Dev) : Dev := if d.sys.resetLow then d else leaveTry (subframe (recallRetry (fireDue d)))

end Sys2Proof.Machine
end

