-- ==== Sys2Proof/Machine/Dispatch.lean ====
section
/-!
DEFINITION. Sys2Proof/Machine/Dispatch.lean: which meaning each command has.
-/

namespace Sys2Proof.Machine

def exec (i : Instr) (s : State) : Host.Outcome State Fault Refusal :=
  match i with
  | .resetNRelease selfTestOk => Sys2Proof.Machine.execResetNRelease selfTestOk s
  | .resetNAssert => Sys2Proof.Machine.execResetNAssert s
  | .railUndervoltage rail removed => Sys2Proof.Machine.execRailUndervoltage rail removed s
  | .thermAlert temp sensor => Sys2Proof.Machine.execThermAlert temp sensor s
  | .thermClear temp sensor => Sys2Proof.Machine.execThermClear temp sensor s
  | .thermTrip temp sensor => Sys2Proof.Machine.execThermTrip temp sensor s
  | .ucieTrainingDone failFirst failRetry => Sys2Proof.Machine.execUcieTrainingDone failFirst failRetry s
  | .ucieModuleFailure module comesBack => Sys2Proof.Machine.execUcieModuleFailure module comesBack s
  | .ideIntegrityFail => Sys2Proof.Machine.execIdeIntegrityFail s
  | .lockInterface => Sys2Proof.Machine.execLockInterface s
  | .startInterface => Sys2Proof.Machine.execStartInterface s
  | .stopInterface => Sys2Proof.Machine.execStopInterface s
  | .setIdStatement statement => Sys2Proof.Machine.execSetIdStatement statement s
  | .getReport nonce => Sys2Proof.Machine.execGetReport nonce s
  | .getKeyCerts => Sys2Proof.Machine.execGetKeyCerts s
  | .getMeasurements index => Sys2Proof.Machine.execGetMeasurements index s
  | .getCertificate slot => Sys2Proof.Machine.execGetCertificate slot s
  | .challenge nonce => Sys2Proof.Machine.execChallenge nonce s
  | .keyExchange clientKey => Sys2Proof.Machine.execKeyExchange clientKey s
  | .ideKmKeyProg link => Sys2Proof.Machine.execIdeKmKeyProg link s
  | .registerWrite offset size value => Sys2Proof.Machine.execRegisterWrite offset size value s
  | .invalidAccess write offset size => Sys2Proof.Machine.execInvalidAccess write offset size s
  | .eventWriteBack offset value => Sys2Proof.Machine.execEventWriteBack offset value s
  | .guardWindowExpire offset => Sys2Proof.Machine.execGuardWindowExpire offset s
  | .apertureWrite offset data => Sys2Proof.Machine.execApertureWrite offset data s
  | .loadFirmware length => Sys2Proof.Machine.execLoadFirmware length s
  | .loadRepairRecord length => Sys2Proof.Machine.execLoadRepairRecord length s
  | .loadMeterCal length => Sys2Proof.Machine.execLoadMeterCal length s
  | .loadReservedType length => Sys2Proof.Machine.execLoadReservedType length s
  | .loadComplete uncovered => Sys2Proof.Machine.execLoadComplete uncovered s
  | .calDeliveryTimeout => Sys2Proof.Machine.execCalDeliveryTimeout s
  | .meterCalAnswer accept => Sys2Proof.Machine.execMeterCalAnswer accept s
  | .bootCmdMem => Sys2Proof.Machine.execBootCmdMem s
  | .bootCmdTime => Sys2Proof.Machine.execBootCmdTime s
  | .bootCmdLinks => Sys2Proof.Machine.execBootCmdLinks s
  | .bootCmdReady => Sys2Proof.Machine.execBootCmdReady s
  | .stageComplete outcome => Sys2Proof.Machine.execStageComplete outcome s
  | .fwActivate key => Sys2Proof.Machine.execFwActivate key s
  | .fwActivateDone => Sys2Proof.Machine.execFwActivateDone s
  | .unitReset units => Sys2Proof.Machine.execUnitReset units s
  | .unitResetDrainTimeout unit => Sys2Proof.Machine.execUnitResetDrainTimeout unit s
  | .unitResetEnd unit outcome => Sys2Proof.Machine.execUnitResetEnd unit outcome s
  | .arrRetire value => Sys2Proof.Machine.execArrRetire value s
  | .eraseT0Free => Sys2Proof.Machine.execEraseT0Free s
  | .eraseT1Free => Sys2Proof.Machine.execEraseT1Free s
  | .eraseT2Free => Sys2Proof.Machine.execEraseT2Free s
  | .eraseFarChannel channel => Sys2Proof.Machine.execEraseFarChannel channel s
  | .eraseDone => Sys2Proof.Machine.execEraseDone s
  | .lnkPortDisable value => Sys2Proof.Machine.execLnkPortDisable value s
  | .ckpDiscard slate => Sys2Proof.Machine.execCkpDiscard slate s
  | .obsEnable => Sys2Proof.Machine.execObsEnable s
  | .obsDisable => Sys2Proof.Machine.execObsDisable s
  | .zeroiseSessionKeys => Sys2Proof.Machine.execZeroiseSessionKeys s
  | .zeroiseWeightKeys => Sys2Proof.Machine.execZeroiseWeightKeys s
  | .zeroiseStorageKeys => Sys2Proof.Machine.execZeroiseStorageKeys s
  | .zeroiseLinkKeys => Sys2Proof.Machine.execZeroiseLinkKeys s
  | .zeroiseDone => Sys2Proof.Machine.execZeroiseDone s
  | .synInit value => Sys2Proof.Machine.execSynInit value s
  | .clientSyncWrite client value => Sys2Proof.Machine.execClientSyncWrite client value s
  | .seqEnable => Sys2Proof.Machine.execSeqEnable s
  | .ctxEnable => Sys2Proof.Machine.execCtxEnable s
  | .sqOpen ring value => Sys2Proof.Machine.execSqOpen ring value s
  | .sqClose ring => Sys2Proof.Machine.execSqClose ring s
  | .sqDrainEnd ring => Sys2Proof.Machine.execSqDrainEnd ring s
  | .sqResume ring => Sys2Proof.Machine.execSqResume ring s
  | .cqOpen ring value => Sys2Proof.Machine.execCqOpen ring value s
  | .cqClose ring => Sys2Proof.Machine.execCqClose ring s
  | .strOpen ring value => Sys2Proof.Machine.execStrOpen ring value s
  | .strClose ring => Sys2Proof.Machine.execStrClose ring s
  | .faultRingOpen operator value => Sys2Proof.Machine.execFaultRingOpen operator value s
  | .memClientShareWrite value => Sys2Proof.Machine.execMemClientShareWrite value s
  | .lcQuotaWrite value => Sys2Proof.Machine.execLcQuotaWrite value s
  | .policerWrite burst value => Sys2Proof.Machine.execPolicerWrite burst value s
  | .envEntryWrite value => Sys2Proof.Machine.execEnvEntryWrite value s
  | .mtrTxCfgWrite value => Sys2Proof.Machine.execMtrTxCfgWrite value s
  | .gateSwitchArm frame => Sys2Proof.Machine.execGateSwitchArm frame s
  | .lnkRecall loan => Sys2Proof.Machine.execLnkRecall loan s
  | .flsIdxStateWrite value => Sys2Proof.Machine.execFlsIdxStateWrite value s
  | .mapSliceApply => Sys2Proof.Machine.execMapSliceApply s
  | .sliceApplyDone slice => Sys2Proof.Machine.execSliceApplyDone slice s
  | .mapHoGo => Sys2Proof.Machine.execMapHoGo s
  | .mapLeave => Sys2Proof.Machine.execMapLeave s
  | .cvuInit => Sys2Proof.Machine.execCvuInit s
  | .cvuFeedB value => Sys2Proof.Machine.execCvuFeedB value s
  | .cvuFeedH value => Sys2Proof.Machine.execCvuFeedH value s
  | .cvuFeedW value => Sys2Proof.Machine.execCvuFeedW value s
  | .cvuRunWrite value => Sys2Proof.Machine.execCvuRunWrite value s
  | .cvuUnitCfgWrite value => Sys2Proof.Machine.execCvuUnitCfgWrite value s
  | .doorbell ring value => Sys2Proof.Machine.execDoorbell ring value s
  | .descriptorFetch ring descriptor list => Sys2Proof.Machine.execDescriptorFetch ring descriptor list s
  | .msixHoldoffExpire ring => Sys2Proof.Machine.execMsixHoldoffExpire ring s
  | .sessionOpen ring => Sys2Proof.Machine.execSessionOpen ring s
  | .sessionClose ring => Sys2Proof.Machine.execSessionClose ring s
  | .sessionPark ring => Sys2Proof.Machine.execSessionPark ring s
  | .sessionResume ring => Sys2Proof.Machine.execSessionResume ring s
  | .sessionCut ring => Sys2Proof.Machine.execSessionCut ring s
  | .sessionTrim ring => Sys2Proof.Machine.execSessionTrim ring s
  | .sessionPause ring => Sys2Proof.Machine.execSessionPause ring s
  | .sessionTtl ring => Sys2Proof.Machine.execSessionTtl ring s
  | .stepSubmit ring incidents => Sys2Proof.Machine.execStepSubmit ring incidents s
  | .prefill ring input incidents => Sys2Proof.Machine.execPrefill ring input incidents s
  | .tuneStep ring span incidents => Sys2Proof.Machine.execTuneStep ring span incidents s
  | .objMove ring => Sys2Proof.Machine.execObjMove ring s
  | .objPlaceHint ring => Sys2Proof.Machine.execObjPlaceHint ring s
  | .objFree ring => Sys2Proof.Machine.execObjFree ring s
  | .tableLoad ring rows => Sys2Proof.Machine.execTableLoad ring rows s
  | .tableSwap ring => Sys2Proof.Machine.execTableSwap ring s
  | .gatherPool ring indices incidents => Sys2Proof.Machine.execGatherPool ring indices incidents s
  | .search ring queries => Sys2Proof.Machine.execSearch ring queries s
  | .searchComplete query incidents => Sys2Proof.Machine.execSearchComplete query incidents s
  | .vecInsert ring vectors params incidents => Sys2Proof.Machine.execVecInsert ring vectors params incidents s
  | .vecDelete ring nodes => Sys2Proof.Machine.execVecDelete ring nodes s
  | .indexFold ring => Sys2Proof.Machine.execIndexFold ring s
  | .indexFoldPublish index incidents => Sys2Proof.Machine.execIndexFoldPublish index incidents s
  | .slateMark ring => Sys2Proof.Machine.execSlateMark ring s
  | .restore ring => Sys2Proof.Machine.execRestore ring s
  | .restoreDevice ring => Sys2Proof.Machine.execRestoreDevice ring s
  | .restoreComplete handle incidents => Sys2Proof.Machine.execRestoreComplete handle incidents s
  | .syncSignal ring => Sys2Proof.Machine.execSyncSignal ring s
  | .syncWait ring => Sys2Proof.Machine.execSyncWait ring s
  | .recipeLoad ring container => Sys2Proof.Machine.execRecipeLoad ring container s
  | .recipeUnload ring => Sys2Proof.Machine.execRecipeUnload ring s
  | .constraintLoad ring list => Sys2Proof.Machine.execConstraintLoad ring list s
  | .stopSet ring => Sys2Proof.Machine.execStopSet ring s
  | .checkValue ring input => Sys2Proof.Machine.execCheckValue ring input s
  | .nop ring => Sys2Proof.Machine.execNop ring s
  | .deadlineExpiry ring entry => Sys2Proof.Machine.execDeadlineExpiry ring entry s
  | .syncWaitTimeout ring => Sys2Proof.Machine.execSyncWaitTimeout ring s
  | .ttlExpiry record => Sys2Proof.Machine.execTtlExpiry record s
  | .holdThreshold record => Sys2Proof.Machine.execHoldThreshold record s
  | .parkAfterThreshold record => Sys2Proof.Machine.execParkAfterThreshold record s
  | .entryStart slice => Sys2Proof.Machine.execEntryStart slice s
  | .preemption slice => Sys2Proof.Machine.execPreemption slice s
  | .preemptSaveDone slot storeError => Sys2Proof.Machine.execPreemptSaveDone slot storeError s
  | .savedRestore slot => Sys2Proof.Machine.execSavedRestore slot s
  | .entryHalt slot cycles incidents => Sys2Proof.Machine.execEntryHalt slot cycles incidents s
  | .qkv frame incidents => Sys2Proof.Machine.execQkv frame incidents s
  | .hid frame => Sys2Proof.Machine.execHid frame s
  | .gradO frame incidents => Sys2Proof.Machine.execGradO frame incidents s
  | .gradH frame incidents => Sys2Proof.Machine.execGradH frame incidents s
  | .lxRefuse frame => Sys2Proof.Machine.execLxRefuse frame s
  | .lxTimeout slot => Sys2Proof.Machine.execLxTimeout slot s
  | .stepCommit slot => Sys2Proof.Machine.execStepCommit slot s
  | .spillWaitTimeout ring => Sys2Proof.Machine.execSpillWaitTimeout ring s
  | .pageMoveStart => Sys2Proof.Machine.execPageMoveStart s
  | .pageMoveDone mover incidents => Sys2Proof.Machine.execPageMoveDone mover incidents s
  | .nearScrub stack incidents => Sys2Proof.Machine.execNearScrub stack incidents s
  | .flashRefresh pair corrected incidents => Sys2Proof.Machine.execFlashRefresh pair corrected incidents s
  | .flashReclaim channel incidents => Sys2Proof.Machine.execFlashReclaim channel incidents s
  | .dataFlitReceived port flit => Sys2Proof.Machine.execDataFlitReceived port flit s
  | .nakReceived port sequence => Sys2Proof.Machine.execNakReceived port sequence s
  | .ackTimer port => Sys2Proof.Machine.execAckTimer port s
  | .laneFailure port lane => Sys2Proof.Machine.execLaneFailure port lane s
  | .portRetrainDone port lanes peer => Sys2Proof.Machine.execPortRetrainDone port lanes peer s
  | .frameForward port => Sys2Proof.Machine.execFrameForward port s
  | .policerRetest client cls => Sys2Proof.Machine.execPolicerRetest client cls s
  | .gateEntryChange => Sys2Proof.Machine.execGateEntryChange s
  | .gateListSwitch => Sys2Proof.Machine.execGateListSwitch s
  | .loanRequest src pages => Sys2Proof.Machine.execLoanRequest src pages s
  | .loanGrant src loan tier pages deadline refused => Sys2Proof.Machine.execLoanGrant src loan tier pages deadline refused s
  | .loanPut src loan page mask tiles => Sys2Proof.Machine.execLoanPut src loan page mask tiles s
  | .loanPutAck src loan page => Sys2Proof.Machine.execLoanPutAck src loan page s
  | .loanGet src loan page mask => Sys2Proof.Machine.execLoanGet src loan page mask s
  | .loanData src loan page gone tiles => Sys2Proof.Machine.execLoanData src loan page gone tiles s
  | .loanFree src loan page => Sys2Proof.Machine.execLoanFree src loan page s
  | .loanRecall src loan deadline => Sys2Proof.Machine.execLoanRecall src loan deadline s
  | .loanReturn src loan => Sys2Proof.Machine.execLoanReturn src loan s
  | .loanRecallDeadline src loan lent => Sys2Proof.Machine.execLoanRecallDeadline src loan lent s
  | .buddyPut src slate name copy tiles => Sys2Proof.Machine.execBuddyPut src slate name copy tiles s
  | .buddyPutAck src slate name copy refused => Sys2Proof.Machine.execBuddyPutAck src slate name copy refused s
  | .buddyRelease src origin slate => Sys2Proof.Machine.execBuddyRelease src origin slate s
  | .buddyFetch src origin slate name copy => Sys2Proof.Machine.execBuddyFetch src origin slate name copy s
  | .buddyData src origin slate name copy gone verifies item => Sys2Proof.Machine.execBuddyData src origin slate name copy gone verifies item s
  | .shardQuery src query group index shard metric dim k beam budget test vector incidents => Sys2Proof.Machine.execShardQuery src query group index shard metric dim k beam budget test vector incidents s
  | .shardReply src query shard status base sequence entries => Sys2Proof.Machine.execShardReply src query shard status base sequence entries s
  | .shardTimeout query shard => Sys2Proof.Machine.execShardTimeout query shard s
  | .offer msg wrappedKey => Sys2Proof.Machine.execOffer msg wrappedKey s
  | .objectTransfer src handoff image incidents => Sys2Proof.Machine.execObjectTransfer src handoff image incidents s
  | .accept msg => Sys2Proof.Machine.execAccept msg s
  | .handoffRefuse msg => Sys2Proof.Machine.execHandoffRefuse msg s
  | .commit msg => Sys2Proof.Machine.execCommit msg s
  | .handoffRelease msg => Sys2Proof.Machine.execHandoffRelease msg s
  | .abort msg => Sys2Proof.Machine.execAbort msg s
  | .publish msg => Sys2Proof.Machine.execPublish msg s
  | .confirm msg => Sys2Proof.Machine.execConfirm msg s
  | .publishRepeat name => Sys2Proof.Machine.execPublishRepeat name s
  | .register msg => Sys2Proof.Machine.execRegister msg s
  | .registerWaitExpire name => Sys2Proof.Machine.execRegisterWaitExpire name s
  | .handoffAcceptTimeout entry => Sys2Proof.Machine.execHandoffAcceptTimeout entry s
  | .handoffCommitTimeout src handoff => Sys2Proof.Machine.execHandoffCommitTimeout src handoff s
  | .handoffReleaseTimeout entry => Sys2Proof.Machine.execHandoffReleaseTimeout entry s
  | .join src device domain => Sys2Proof.Machine.execJoin src device domain s
  | .joinAck msg members => Sys2Proof.Machine.execJoinAck msg members s
  | .leave msg => Sys2Proof.Machine.execLeave msg s
  | .member msg joined failed departed => Sys2Proof.Machine.execMember msg joined failed departed s
  | .suspect msg => Sys2Proof.Machine.execSuspect msg s
  | .fence msg => Sys2Proof.Machine.execFence msg s
  | .evict msg => Sys2Proof.Machine.execEvict msg s
  | .heartbeat src compat domainEpoch domain digest hops isolated peers => Sys2Proof.Machine.execHeartbeat src compat domainEpoch domain digest hops isolated peers s
  | .heartbeatSend => Sys2Proof.Machine.execHeartbeatSend s
  | .heartbeatMiss device => Sys2Proof.Machine.execHeartbeatMiss device s
  | .isolation => Sys2Proof.Machine.execIsolation s
  | .stewardFailWait device => Sys2Proof.Machine.execStewardFailWait device s
  | .memberFailDeclare device => Sys2Proof.Machine.execMemberFailDeclare device s
  | .keyAnnouncement src device statement attCert kemCert kemKey => Sys2Proof.Machine.execKeyAnnouncement src device statement attCert kemCert kemKey s
  | .faultRecordForward src record => Sys2Proof.Machine.execFaultRecordForward src record s
  | .faultWindowClose unit cls => Sys2Proof.Machine.execFaultWindowClose unit cls s
  | .slateMarkFire incidents => Sys2Proof.Machine.execSlateMarkFire incidents s
  | .slateCommit => Sys2Proof.Machine.execSlateCommit s
  | .slateAbandon => Sys2Proof.Machine.execSlateAbandon s
  | .buddyWaitExpire => Sys2Proof.Machine.execBuddyWaitExpire s
  | .tcPpsEdge deviationNs minuteMarker => Sys2Proof.Machine.execTcPpsEdge deviationNs minuteMarker s
  | .tcExchange => Sys2Proof.Machine.execTcExchange s
  | .tcReq port t1 t2 t3 => Sys2Proof.Machine.execTcReq port t1 t2 t3 s
  | .tcResp port t1 t2 t3 t4 hops => Sys2Proof.Machine.execTcResp port t1 t2 t3 t4 hops s
  | .tcRespTimeout port => Sys2Proof.Machine.execTcRespTimeout port s
  | .tcHoldoverEntry => Sys2Proof.Machine.execTcHoldoverEntry s
  | .tcUnlock => Sys2Proof.Machine.execTcUnlock s
  | .envelopeMinuteBoundary => Sys2Proof.Machine.execEnvelopeMinuteBoundary s
  | .throttleStep meanPower => Sys2Proof.Machine.execThrottleStep meanPower s
  | .railSample watts => Sys2Proof.Machine.execRailSample watts s
  | .energyApportion minute => Sys2Proof.Machine.execEnergyApportion minute s
  | .tenantRecordWrite => Sys2Proof.Machine.execTenantRecordWrite s
  | .meterPowerUp => Sys2Proof.Machine.execMeterPowerUp s
  | .minuteMarker => Sys2Proof.Machine.execMinuteMarker s
  | .meterFreeRunClose => Sys2Proof.Machine.execMeterFreeRunClose s
  | .mainsCycleEnd importMj exportMj rms freqMhz => Sys2Proof.Machine.execMainsCycleEnd importMj exportMj rms freqMhz s
  | .halfCycleEnd phaseMv => Sys2Proof.Machine.execHalfCycleEnd phaseMv s
  | .senseFault channel => Sys2Proof.Machine.execSenseFault channel s
  | .meterNotice cls start halfCycles => Sys2Proof.Machine.execMeterNotice cls start halfCycles s
  | .supplyClear => Sys2Proof.Machine.execSupplyClear s
  | .meterRecordReceived record => Sys2Proof.Machine.execMeterRecordReceived record s
  | .meterFeedSilent => Sys2Proof.Machine.execMeterFeedSilent s
  | .mtrTxSend => Sys2Proof.Machine.execMtrTxSend s
  | .idleFlitReceived port flit => Sys2Proof.Machine.execIdleFlitReceived port flit s
  | .shadowRead kind ring consumer => Sys2Proof.Machine.execShadowRead kind ring consumer s
  | .meterRailLoss => Sys2Proof.Machine.execMeterRailLoss s

end Sys2Proof.Machine
end

