-- ==== Sys2Proof/Machine/Step.lean ====
section
/-!
DEFINITION. Sys2Proof/Machine/Step.lean: one step of the block: the command at the front of the queue is carried out;
on an empty queue one subframe of local time passes (log entry 2).
-/

namespace Sys2Proof.Machine

/-- The command queue without its front. -/
def State.popped (s : State) (rest : List Instr) : State := { s with pending := rest }

/-- One step. -/
def step (s : State) : Host.Outcome State Fault Refusal :=
  match s.pending with
  | [] => lift tick s
  | c :: rest => exec c (s.popped rest)

/-- The state with the command that a word spells at the front of its queue; unchanged where the word spells none. -/
def State.withFetchWord (s : State) (nbits w : Nat) : State :=
  match decodeTableWord nbits w with
  | some c => { s with pending := c :: s.pending }
  | none => s

end Sys2Proof.Machine
end

