-- ==== Sys2Proof/Machine/Views.lean ====
section
/-!
DEFINITION. Sys2Proof/Machine/Views.lean: what a read of a register returns (03 R76, R77): the fields of the register tables that
show the state of a subsystem. A read changes nothing (R77), so no command stands for it.
-/

namespace Sys2Proof.Machine

/-- Assemble a register from fields: least significant bit, width, value. -/
def packFields (fs : List (Nat × Nat × Nat)) : Nat := sumN (fs.map (fun f => f.2.2 % 2 ^ f.2.1 * 2 ^ f.1))

/-- Bytes in MiB; what a part of a MiB counts is not stated (log entry 12). -/
def mib (bytes : Nat) : Nat := quot bytes (2 ^ 20)

/-- A mask of the numbers below `n` that satisfy a condition. -/
def maskIf (n : Nat) (p : Nat → Bool) : Nat := maskOf n ((List.range n).filter p)

/-- A value that the spec leaves open (log entry 22). -/
def openView (kind : Nat) (ns : List Nat) : Nat := ofLe (exactly 4 (Config.layout kind 0 ns))

/-- `GLB`, `HST`, `DBG` (R45, R84, R499, R501). -/
def viewGlb (d : Dev) (off : Nat) : Option Nat :=
  let cap := some (capRead d off)
  if off = Rg.GLB_STAT then some (packFields [(0, 4, d.sys.stage), (4, 1, b2n d.sys.stageCmd.isSome), (5, 1, b2n d.sys.fwStaged.isSome),
    (6, 1, b2n d.sys.debugExposed), (8, 8, d.sys.failReason), (16, 8, arraysEnabled d),
    (24, 8, (d.mem.nearUp &&& ~~~d.mem.nearRetired).toNat)])
  else if off = Rg.GLB_UID then some d.sys.uid
  else if off = Rg.GLB_CFG_IGN ∨ off = Rg.GLB_POST_OVR ∨ off = Rg.GLB_GUARD_FAIL ∨ off = Rg.GLB_ACCESS_INV then cap
  else if off = Rg.GLB_LOAD_STAT then some (packFields [(0, 1, b2n d.sys.load.isSome), (8, 8, d.sys.loadResult)])
  else if off = Rg.GLB_UNIT_STAT then some (packFields [(0, 16, unitsInReset d), (16, 16, d.sys.drainFailed.toNat)])
  else if off = Rg.GLB_FW_VER then some (packFields [(0, 32, d.sys.fwRunning), (32, 32, match d.sys.fwStaged with | some v => v.1 | none => 0)])
  else if off = Rg.HST_STAT then some (packFields [(0, 8, d.hst.moduleUp.toNat), (8, 2, maskIf 2 (linkUp d)), (10, 1, b2n d.hst.ideActive),
    (11, 2, tdispNum d.hst.tdisp), (16, 8, d.hst.moduleRetired.toNat)])
  else if off = Rg.DBG_STAT then some (packFields [(0, 1, b2n d.sys.obsLive), (1, 1, b2n d.sys.alert)])
  else if off = Rg.DBG_OBS_EN_A then some (b2n d.sys.obsLive)
  else if off = Rg.DBG_TEMP then some (packFields [(0, 8, d.sys.hottest), (8, 8, d.sys.sensor), (16, 8, d.sys.peak)])
  else none

/-- `SEQ`, `SYN` (R54, R73, R425). -/
def viewSeq (d : Dev) (off n : Nat) : Option Nat :=
  let acct : Acct := mget d.seq.acct {} (if fbit d Fd.SEQ_ACCT_SEL_unattributed then 256 else fget d Fd.SEQ_ACCT_SEL_client)
  if off = Rg.SEQ_STAT then some (packFields [(0, 1, b2n (decide (2 ≤ d.sys.stage) && decide (d.sys.stage ≤ 8))),
    (1, 1, b2n (!d.hst.ideActive)), (12, 10, ((List.range 512).filter (sqOpenBit d)).length)])
  else if off = Rg.SEQ_SQ_STAT then
    let q := sqOf d n
    some (packFields [(0, 16, q.head), (16, 1, b2n q.stalled), (17, 1, b2n q.draining), (32, 16, q.stallTag), (48, 8, q.stallStatus)])
  else if off = Rg.SEQ_CQ_STAT then
    some (packFields [(0, 20, (cqOf d n).tail), (20, 1, b2n (cqOf d n).phase), (21, 1, b2n (cqOpenBit d n && cqFree d n == 0))])
  else if off = Rg.SEQ_STR_STAT then
    some (packFields [(0, 16, (strOf d n).tail), (16, 1, b2n (strOf d n).phase), (17, 1, b2n (strOpenBit d n && decide (strFree d n < 8)))])
  else if off = Rg.SEQ_LC_QUOTA then
    let s := fget d Fd.SEQ_LC_SEL_slice
    let c := fget d Fd.SEQ_LC_SEL_client
    some (packFields [(0, 8, lcQuota d s c), (8, 8, lcHeld d s c)])
  else if off = Rg.SEQ_ACCT_ARR then some acct.cycles
  else if off = Rg.SEQ_ACCT_T0 then some (acct.bytes.getD n 0)
  else if off = Rg.SEQ_ACCT_ENERGY then some acct.energy
  else if off = Rg.SYN_STAT then some (b2n (decide (up d < d.syn.busyUntil)))
  else none

/-- Arrays in service (R133, R93). -/
def arrayServes (d : Dev) (a : Nat) : Bool := d.sys.repair.isSome && decide (a < 144) && !arrRetired d a

/-- `ARR` (R133). -/
def viewArr (d : Dev) (off : Nat) : Option Nat :=
  let a := fget d Fd.ARR_SEL_array
  let n := fget d Fd.ARR_RCP_SEL_slot
  let r := rcpOf d n
  let map := fun lo hi => some (maskIf (hi - lo) (fun k => arrayServes d (lo + k)))
  if off = Rg.ARR_STAT then
    some (packFields [(0, 8, arraysEnabled d), (8, 8, ((vals d.fab.arr).filter (fun x => x.retired)).length)])
  else if off = Rg.ARR_INSERVICE0 then map 0 64
  else if off = Rg.ARR_INSERVICE1 then map 64 128
  else if off = Rg.ARR_INSERVICE2 then map 128 144
  else if off = Rg.ARR_SEL_STAT then
    let x : Arr := mget d.fab.arr {} a
    if 144 ≤ a then some 0
    else some (packFields [(0, 16, x.ckTransient), (16, 16, x.storeCorrected), (32, 1, b2n x.retired), (40, 8, x.cause)])
  else if off = Rg.ARR_RCP_MAP then some (maskIf 64 (fun k => (rcpOf d k).state != .empty))
  else if r.state = .empty ∧ (off = Rg.ARR_RCP_STAT ∨ off = Rg.ARR_RCP_ID ∨ off = Rg.ARR_RCP_VER ∨ off = Rg.ARR_RCP_DIG) then
    some 0
  else if off = Rg.ARR_RCP_STAT then
    let bound := (vals d.ctx.recs).filter (fun s => s.state != .closed && s.state != .expired && s.recipe == rcpHandle n r)
    some (packFields [(0, 3, r.state.code), (4, 4, r.slice), (8, 8, r.gen), (16, 6, r.banks.length),
      (24, 8, min 255 ((r.entries.map (fun e => e.team)).foldl max 0)), (32, 32, bound.length)])
  else if off = Rg.ARR_RCP_ID then some r.recipeId
  else if off = Rg.ARR_RCP_VER then some r.version
  else if off = Rg.ARR_RCP_DIG then some (r.digest.toNat % 2 ^ 64)
  else none

/-- The record in a context slot, if one is placed. -/
def slotRec (d : Dev) (s : Nat) : Option Rec := if (slotOf d s).state = .free then none else some (recOf d (slotOf d s).rcd)

/-- `ATN`, `CTX` (R194, R229). -/
def viewCtx (d : Dev) (off : Nat) : Option Nat :=
  let works := d.ctx.slots.filterMap (fun (x : Nat × Slot) => x.2.work.map (fun w => (x.2.rcd, w)))
  let c := fget d Fd.CTX_CLIENT_SEL_client
  let s := fget d Fd.CTX_SLOT_SEL_slot
  let recs := (vals d.ctx.recs).filter (fun r => r.state != .closed)
  if off = Rg.ATN_STAT then
    some (packFields [(0, 13, works.length),
      (32, 32, mib (sumN (works.map (fun x => stageBytes (modelFor d (recOf d x.1)) x.2.rows.length))))])
  else if off = Rg.ATN_CTX_STAT then
    some (match slotRec d (fget d Fd.ATN_CTX_SEL_slot) with
      | none => 0
      | some r => packFields [(0, 32, r.ptGen.toNat), (32, 26, r.len), (58, 1, b2n (r.kv.any (fun l => !l.tuning.isEmpty))),
          (59, 1, b2n r.damaged), (60, 1, b2n (!r.edits.isEmpty))])
  else if off = Rg.CTX_STAT then
    some (packFields [(0, 13, ((vals d.ctx.slots).filter (fun x => decide (x.state ≠ .free))).length), (16, 25, recs.length)])
  else if off = Rg.CTX_CLIENT_USE then
    let mine := recs.filter (fun r => r.client == c)
    some (packFields [(0, 25, mine.length), (32, 13, (mine.filter (fun r => r.slot.isSome)).length)])
  else if off = Rg.CTX_SLOT_STAT then
    some (match slotRec d s with
      | none => 0
      | some r => packFields [(0, 3, (slotOf d s).state.code), (8, 8, r.client), (16, 4, (rcpFor d r).slice),
          (32, 32, handleOf d (slotOf d s).rcd)])
  else if off = Rg.CTX_SLOT_SEQ then some (match slotRec d s with | none => 0 | some r => r.stepSeq)
  else if off = Rg.CTX_REC_STAT then
    let r := recOf d (fget d Fd.CTX_REC_SEL_record)
    some (packFields [(0, 3, r.state.code), (3, 1, b2n r.rewound), (4, 1, b2n r.folded), (5, 1, b2n r.slot.isSome), (6, 1, b2n r.lost),
      (8, 8, r.client), (16, 8, r.gen), (32, 26, r.len)])
  else none

/-- `TXT` (R250, R281): byte front end and output path. The number of a colander state but the empty string's is not stated. -/
def viewTxt (d : Dev) (off : Nat) : Option Nat :=
  let t := tblOf d (fget d Fd.TXT_TBL_SEL_table)
  let held := fun (t : Tbl) => t.cur.toList ++ t.staged.toList ++ t.old
  let all := (vals d.txt.tbl).flatMap held
  let shown := if t.cur.isSome then t.cur else t.staged
  let out := slotRec d (fget d Fd.TXT_OUT_SEL_slot)
  if off = Rg.TXT_STAT then
    some (packFields [(0, 7, ((vals d.txt.tbl).filter (fun t => t.cur.isSome || t.staged.isSome)).length), (8, 9, all.length),
      (32, 32, mib (pageSize * sumN (all.map (fun v => v.pages.length))))])
  else if off = Rg.TXT_TBL_STAT then
    some (match shown with
      | none => packFields [(10, 2, t.old.length)]
      | some v => packFields [(0, 2, v.kind), (2, 2, v.fmt - 1), (4, 4, v.order), (8, 1, b2n ((t.cur.map (fun c => c.damaged)).getD false)),
          (9, 1, b2n ((t.staged.map fullyLoaded).getD false)), (10, 2, t.old.length), (16, 8, t.client), (32, 16, v.recipe),
          (48, 8, v.dim / 64)])
  else if off = Rg.TXT_TBL_VER then
    some (packFields [(0, 32, (t.cur.map (fun v => v.num)).getD 0), (32, 32, (t.staged.map (fun v => v.num)).getD 0)])
  else if off = Rg.TXT_TBL_ROWS then some (match shown with | none => 0 | some v => packFields [(0, 32, v.rowsM1), (32, 32, v.r)])
  else if off = Rg.TXT_LADLE_CNT then
    some (packFields [(0, 32, min (2 ^ 32 - 1) (d.txt.fetched / 1024)), (32, 32, min (2 ^ 32 - 1) (d.txt.coalesced / 1024))])
  else if off = Rg.TXT_COL_STAT then
    let x := colOf d (fget d Fd.TXT_COL_SEL_table)
    some (match x.cur with | none => 0 | some v => packFields [(0, 17, v.states), (24, 8, x.client), (32, 32, v.num)])
  else if off = Rg.TXT_OUT_CTX then
    some (match out with
      | none => 0
      | some r =>
        let o := r.out
        let st := if o.colStr = [] then 0 else openView 0xE1 (o.colStr.map (fun b => b.toNat))
        packFields [(0, 6, o.stopHeld.length), (6, 2, o.utf8Held.length), (8, 1, b2n o.pending.isSome), (9, 9, o.pending.getD 0),
          (18, 1, b2n (!o.tree.isEmpty)), (19, 7, o.tree.length), (26, 1, b2n o.cfg.inclusive), (27, 1, b2n r.raw),
          (28, 1, b2n o.cfg.colander), (29, 8, o.cfg.table), (37, 16, st)])
  else if off = Rg.TXT_STR_POS then some (match out with | none => 0 | some r => r.strOff)
  else if off = Rg.TXT_STR_EPOCH then some (match out with | none => 0 | some r => r.strEpoch)
  else none

/-- `MEM`, `DLY` (R308, R310). -/
def viewMem (d : Dev) (off : Nat) : Option Nat :=
  let c := fget d Fd.MEM_CLIENT_SEL_client
  let units := fun (t u : Nat) => ceilDiv (useOf d c t) u
  if off = Rg.MEM_STAT then
    some (packFields [(0, 8, (d.mem.nearUp &&& ~~~d.mem.nearRetired).toNat), (8, 8, d.mem.nearRetired.toNat), (16, 1, b2n d.mem.dupDegraded),
      (17, 1, b2n d.mem.erase.isSome), (32, 32, (d.mem.farUp &&& ~~~d.mem.farRetired).toNat)])
  else if off = Rg.MEM_FAR_STAT then some (packFields [(0, 32, d.mem.farRetired.toNat), (32, 32, d.mem.farRetried.toNat)])
  else if off = Rg.MEM_T0_STAT then some (maskOf 48 (recipeBanks d))
  else if off = Rg.MEM_T0_RET then some (maskIf 48 (bankRetired d))
  else if off = Rg.MEM_FREE then some (packFields [(0, 13, freeBytes d 0 / pageSize), (32, 32, mib (freeBytes d 1))])
  else if off = Rg.MEM_FREE2 then some (packFields [(0, 32, mib (freeBytes d 2)), (32, 32, mib (freeBytes d 3))])
  else if off = Rg.MEM_CLIENT_USE then
    some (packFields [(0, 8, units 0 (2 ^ 20)), (8, 12, units 1 (2 ^ 26)), (20, 13, units 2 (2 ^ 28)), (33, 13, units 3 (2 ^ 28))])
  else if off = Rg.DLY_STAT then
    some (packFields [(0, 7, d.dly.movers.length), (32, 32, sumN ((vals d.dly.queues).map List.length))])
  else if off = Rg.DLY_Q_STAT then
    let q : List QPage := mget d.dly.queues [] (fget d Fd.DLY_Q_SEL_queue)
    some (packFields [(0, 32, q.length), (32, 32, (q.map (fun p => frame d - p.queued)).foldl max 0)])
  else if off = Rg.DLY_SEAL_CTR then some d.mem.sealCtr.toNat
  else none

/-- `FLS` (R340). -/
def viewFls (d : Dev) (off : Nat) : Option Nat :=
  let i := idxOf d (fget d Fd.FLS_IDX_SEL_index)
  let c := fget d Fd.FLS_CH_SEL_channel
  if off = Rg.FLS_STAT then
    some (packFields [(0, 32, (d.fls.up &&& ~~~d.fls.retired).toNat), (32, 9, ((vals d.fls.idx).filter (fun x => x.state != 0)).length),
      (41, 12, sumN ((vals d.fls.search).map (fun q => q.vecs.length)))])
  else if off = Rg.FLS_CH_STAT then some (packFields [(0, 32, d.fls.retired.toNat), (32, 32, d.fls.retried.toNat)])
  else if off = Rg.FLS_CH_INFO then
    let taken := d.fls.pairs.filter (fun (p : Nat × FPair) => flsChannel p.1 == c)
    let pages := Config.flashPages c
    let all := sumN (((flsLuns d).filter (fun l => l % 32 == c)).map (fun l => pairsPerLun d l * pages))
    -- a pair whose last live page has gone is erased and free again (R316)
    let freed := fun (p : Nat × FPair) => !p.2.bad && p.2.next != 0 && livePages d p.1 == 0
    let gone := sumN (taken.map (fun p => if p.2.bad then pages else if freed p then 0 else p.2.next))
    some (packFields [(0, 32, quot ((all - gone) * pageSize) (2 ^ 30)),
      (32, 16, min 0xFFFF (taken.filter (fun (p : Nat × FPair) => p.2.bad)).length),
      (48, 16, min 0xFFFF ((taken.map (fun p => p.2.erases + b2n (freed p))).foldl max 0))])
  else if off = Rg.FLS_IDX_STAT then
    some (packFields [(0, 3, i.state), (3, 1, b2n i.folding.isSome), (4, 1, b2n i.damaged), (8, 8, i.client),
      (16, 7, if i.state = 0 then 0 else i.shards), (32, 32, i.base.num)])
  else if off = Rg.FLS_IDX_SEQ then some i.seq
  else if off = Rg.FLS_IDX_NODES then some i.next
  else if off = Rg.FLS_IDX_CNT then some (packFields [(0, 32, min i.dropped (2 ^ 32 - 1)), (32, 32, min i.rejected (2 ^ 32 - 1))])
  else if off = Rg.FLS_SEARCH_CNT then some (packFields [(0, 32, min (2 ^ 32 - 1) (d.fls.queries / 1024)), (32, 32, fget d Fd.FLS_SEARCH_CNT_shard_missing)])
  else none

/-- `LNK` (R364). How many codewords the physical layer has corrected is free. -/
def viewLnk (d : Dev) (off : Nat) : Option Nat :=
  let p := fget d Fd.LNK_PORT_SEL_port
  if off = Rg.LNK_STAT then
    some (packFields [(0, 16, maskIf 16 (fun p => (portOf d p).up)), (16, 16, maskIf 16 (fun p => (portOf d p).retired)),
      (32, 4, d.tc.hops), (36, 1, b2n (d.tc.state == 2))])
  else if off = Rg.LNK_PORT_STAT then
    let q := portOf d p
    let n := (maskBits q.lanes 4).length
    some (packFields [(0, 3, if !q.trained then 0 else if 4 ≤ n then 4 else if 2 ≤ n then 2 else n), (3, 1, b2n q.spare), (16, 16, q.peer),
      (32, 32, openView 0xE2 [p, up d])])
  else if off = Rg.LNK_GATE_CFG then
    some (packFields [(0, 6, fget d Fd.LNK_GATE_CFG_len_a_m1), (6, 6, fget d Fd.LNK_GATE_CFG_len_b_m1), (12, 1, d.lnk.gateList),
      (16, 16, fget d Fd.LNK_GATE_CFG_guard_flits)])
  else if off = Rg.LNK_GATE_ENT then
    let b := bankOf d off 0
    some (packFields [(0, 8, fget d Fd.LNK_GATE_ENT_open b ||| 1), (8, 24, fget d Fd.LNK_GATE_ENT_duration b)])
  else if off = Rg.LNK_LOAN_STAT then
    some (packFields [(0, 32, sumN ((vals d.lnk.loans).map (fun l => l.frames.length - l.freed.length))),
      (32, 32, sumN ((vals d.lnk.borrows).map (fun b => b.pages - b.freed.length)))])
  else none

/-- `MAP`, `CKP` (R386, R410). -/
def viewMap (d : Dev) (off n : Nat) : Option Nat :=
  let s := fget d Fd.MAP_SLICE_SEL_slice
  let x := sliceOf d s
  if off = Rg.MAP_STAT then
    some (packFields [(0, 1, b2n d.map.member), (1, 1, b2n (isSteward d)), (2, 1, b2n d.map.isolated), (3, 1, b2n d.map.evicted),
      (4, 1, b2n d.map.leaving), (16, 16, if d.map.member then stewardFor d none else 0), (32, 32, d.map.domEpoch)])
  else if off = Rg.MAP_DIGEST0 then some (d.map.digest.toNat / 2 ^ (64 * n) % 2 ^ 64)
  else if off = Rg.MAP_DIV then
    some (packFields [(0, 16, d.map.lastDiverged), (16, 16, ((vals d.map.peers).filter (fun p => p.diverged)).length),
      (32, 32, fget d Fd.MAP_DIV_count)])
  else if off = Rg.MAP_HO_STAT then
    let h := hoOf d (fget d Fd.MAP_HO_SEL_entry)
    some (packFields [(0, 3, h.state), (8, 8, h.reason), (32, 32, if h.state = 4 then h.newHandle else 0)])
  else if off = Rg.MAP_SLICE_STAT then
    let arrays := sliceArrays d s
    some (packFields [(0, 1, b2n (!arrays.isEmpty)), (1, 1, b2n x.next.isSome), (8, 8, arrays.length), (16, 6, x.banks.length), (24, 8, x.result),
      (32, 7, ((vals d.fab.rcp).filter (fun r => decide (r.state ≠ .empty) && r.slice == s)).length)])
  else if off = Rg.MAP_ENTRIES then some (packFields [(0, 32, homedCount d), (32, 32, registeredCount d)])
  else if off = Rg.CKP_STAT then some (packFields [(0, 3, ckpState d), (32, 32, (d.ckp.kept.map (fun s => s.num)).headD 0)])
  else if off = Rg.CKP_BUDDY_LIM then
    some (packFields [(0, 32, fget d Fd.CKP_BUDDY_LIM_mib), (32, 32, mib (heldBytes d))])
  else if off = Rg.CKP_OLDER then
    some (packFields [(0, 32, (d.ckp.kept.map (fun s => s.num)).getD 1 0), (32, 32, (d.ckp.openSlate.map (fun o => o.slate.num)).getD 0)])
  else if off = Rg.CKP_LAST then some (packFields [(0, 32, d.ckp.lastShards), (32, 32, mib (pageSize * d.ckp.lastCopied))])
  else none

/-- `SEC`, `MTR`, `FLT`, `CVU` (R448, R468, R485, R486). -/
def viewSec (d : Dev) (off n : Nat) : Option Nat :=
  let t := d.mtr
  let ring := fun (k : Nat) =>
    let q : FRing := mget d.flt.rings {} k
    some (packFields [(0, 32, q.seq), (32, 32, q.overflow)])
  let u := cvuSel d
  if off = Rg.SEC_STAT then
    some (packFields [(0, 1, b2n d.sec.ready), (1, 1, b2n d.sec.stmtLoaded),
      (8, 5, ((List.range 16).filter (fun e => fbit d Fd.SEC_PUB_CFG_valid e)).length), (32, 16, min d.sec.peers.length 65535)])
  else if off = Rg.SEC_ID_DIG0 then
    some (if d.sys.rom then (Config.shake256 idPublic).toNat / 2 ^ (64 * n) % 2 ^ 64 else 0)
  else if off = Rg.SEC_ATT_STAT then some (packFields [(0, 32, d.sec.attUsed), (32, 8, d.sec.attSucc)])
  else if off = Rg.MTR_STAT then
    some (packFields [(0, 1, b2n (decide (up d < t.busyUntil))), (1, 1, b2n d.meter.cal.isSome), (2, 3, d.tc.state), (5, 1, b2n t.warning),
      (6, 1, b2n t.unmet), (8, 4, t.throttle), (16, 16, capNow d)])
  else if off = Rg.MTR_TC_NOW then some (now d)
  else if off = Rg.MTR_TC_OFS then some (BitVec.ofInt 32 d.tc.ofs).toNat
  else if off = Rg.MTR_POWER then some (packFields [(0, 16, t.frameMean), (16, 16, t.framePeak)])
  else if off = Rg.MTR_REC_MIN then some (packFields [(0, 32, t.recMin), (32, 32, t.recSeq)])
  else if off = Rg.MTR_REC_E then some t.recE
  else if off = Rg.MTR_LOG_STAT then some (packFields [(0, 32, sat32 t.written), (32, 32, t.lapped)])
  else if off = Rg.FLT_STAT then some (packFields [(0, 1, b2n d.sys.fatal), (16, 16, d.flt.wins.length)])
  else if off = Rg.FLT_LOG_STAT then ring 256
  else if off = Rg.FLT_CLIENT_STAT then ring (fget d Fd.FLT_CLIENT_SEL_client)
  else if off = Rg.CVU_STAT then
    let runs := fun (u : Nat) => (vals d.seq.sq).any (fun q => q.flights.any (fun f =>
      f.phase == .dispatched && dOp f.desc == 0x80 && dbits f.desc 4 0 4 == u))
    some (packFields [(0, 16, maskIf 16 runs), (16, 16, maskIf 16 (fun u => (cvuOf d u).regMode))])
  else if off = Rg.CVU_UNIT_CFG then some (packFields [(0, 1, b2n (cvuOf d u).regMode), (8, 8, (cvuOf d u).alg)])
  else if off = Rg.CVU_RUN then some (cvuOf d u).run.toNat
  else if off = Rg.CVU_RESULT then some ((cvuOf d u).run.toNat ^^^ cvuXor (cvuOf d u).alg)
  else if off = Rg.CVU_CNT then some (cvuOf d u).bytes
  else none

/-- A register whose fields show the state of a subsystem. -/
def viewReg (d : Dev) (off n : Nat) : Option Nat :=
  (viewGlb d off).orElse (fun _ => (viewSeq d off n).orElse (fun _ => (viewArr d off).orElse (fun _ => (viewCtx d off).orElse (fun _ =>
    (viewTxt d off).orElse (fun _ => (viewMem d off).orElse (fun _ => (viewFls d off).orElse (fun _ => (viewLnk d off).orElse (fun _ =>
      (viewMap d off n).orElse (fun _ => viewSec d off n)))))))))

/-- A register whose fields are stored: RW, WD, WP as last written, RO as counted; WO and WG fields read zero. -/
def storedReg (d : Dev) (r : RegDef) (bank : Nat) : Nat :=
  sumN (r.flds.map (fun f => match f.acc with
    | .rw | .wd | .wp | .ro => fget d ⟨r.off, f.lo, f.width, f.reset⟩ bank * 2 ^ f.lo
    | _ => 0))

/-- The 64 bits of a register (R5: reserved bits read zero). -/
def readReg (d : Dev) (r : RegDef) (n : Nat) : Nat :=
  if isEvt r.off then evRead d r.off
  else match viewReg d r.off n with
    | some v => v
    | none => storedReg d (copyDef r n) (bankOf d r.off n)

/-- What a read of the window returns (R75 to R77, R79): zero for a doorbell, the aperture and an invalid read. -/
def windowRead (d : Dev) (off size : Nat) : Nat :=
  if !readValid off size ∨ inDoorbells off ∨ inAperture off then 0
  else match regAt (off / 8 * 8) with
    | some (r, n) => readReg d r n / 2 ^ (8 * (off % 8)) % 2 ^ (8 * size)
    | none => 0

/-! ### Output pins (19 R488, R493, R495, R500). What they show follows from the state, so no field holds it. -/

/-- The outputs of a far channel, a flash channel or a link port are driven (R488, R493): out of reset and fitted. Else LPDDR6 reset is low
and the clocks are stopped, CE_n is high and WP_n low, or the transmitters are in electrical idle. -/
def farDriven (d : Dev) (c : Nat) : Bool := !d.sys.resetLow && bitOf (fget d Fd.MEM_FAR_POP_fitted) c
def flashDriven (d : Dev) (c : Nat) : Bool := !d.sys.resetLow && bitOf (fget d Fd.FLS_POP_fitted) c
def portDriven (d : Dev) (p : Nat) : Bool := !d.sys.resetLow && bitOf (fget d Fd.LNK_PORT_POP_fitted) p

/-- `THERM_ALERT_N` and `THERM_TRIP_N` (R493, R495), true while released. -/
def thermAlertN (d : Dev) : Bool := d.sys.resetLow || !d.sys.alert
def thermTripN (d : Dev) : Bool := !d.sys.trip

/-- `OBS[31:0]` (R493, R500): low unless live; the signals of the selected group are not in this spec (log entries 22 and 74). -/
def obsPins (d : Dev) : Nat :=
  if d.sys.resetLow || !d.sys.obsLive then 0 else openView 0xE3 [fget d Fd.DBG_OBS_SEL_group, up d]

end Sys2Proof.Machine
end

