-- ==== Sys2Proof/Safety.lean ====
section
/-!
DEFINITION. Sys2Proof/Safety.lean: what counts as a sound state of the block between commands, and the situations in which the
statements say what a command does.
-/

namespace Sys2Proof.Machine

/-- Between commands host memory is in its canonical form, and no posted write is outstanding unless the data path to the host is
closed. -/
def State.sound (s : State) : Bool := Memory.wf none s.hostMem && (s.dev.posted.isEmpty || !hostPath s.dev)

/-- A step answered a next state. -/
def answersNext (o : Host.Outcome State Fault Refusal) : Bool :=
  match o with
  | .next _ => true
  | _ => false

/-- What the last of some posted writes leaves at an address of host memory (R39). -/
def lastPosted (posted : List Posted) (a : Nat) : Option Byte :=
  posted.reverse.findSome? (fun w => if w.addr ≤ a then w.bytes[a - w.addr]? else none)

/-- A descriptor of a ring is the next to be dispatched (R63): every condition of stage 3 holds, it has this opcode, and no unit
that it needs is in reset. -/
def atDispatch (d : Dev) (ring op : Nat) (f : Flight) : Prop :=
  stageThree d ring = some (f, .ready f) ∧ dOp f.desc = op ∧ (unitsOf d f.desc f.list).any (unitInReset d) = false

/-- The same behind the gates of timecode, stage LINKS and isolation (R25, R95, R373). -/
def pastGate (d : Dev) (ring op : Nat) (f : Flight) : Prop := atDispatch d ring op f ∧ timeGate d f.desc = none

/-- A descriptor names a record by its present handle, at home here and with no cut pending (R196, R203, R375). -/
def namesRecord (d : Dev) (f : Flight) (i : Nat) : Prop :=
  i = dSel f.desc % 2 ^ 24 ∧ (recOf d i).gen = dSel f.desc / 2 ^ 24 ∧ ctxStateOf d i ≠ .cutPending ∧ otherHome d (recOf d i).name = none

/-- A descriptor names a session that is not rewound (R228). -/
def namesSession (d : Dev) (f : Flight) (i : Nat) : Prop := namesRecord d f i ∧ (recOf d i).rewound = false

/-- Fault and map messages are taken: the map is in service and the sender is not fenced (R372). -/
def hears (d : Dev) (src : Nat) : Prop := mapServes d = true ∧ d.lnk.fenced.contains src = false

/-- Every working-region address of a team's members lies inside the region (R138). -/
def storesInside (e : ArrEnv) (t : TeamRun) : Bool := t.cores.all (fun c => c.working.all (fun b => decide (b.1 < e.work)))

end Sys2Proof.Machine
end

