-- ==== Sys2Proof/Certificates/Slice0/Obligations.lean ====
section
/-!
DEFINITION. Sys2Proof/Certificates/Slice0/Obligations.lean: the statements about the block, grouped as the spec's chapters group its
commands. A statement of several parts is their conjunction; each part is said for every state that meets its premises.
-/

open Sys2Proof Sys2Proof.Machine

/-- 01 R15, R23, R24: a step takes the command at the front of the queue and carries it out on the block with the queue's rest. -/
def Obligations.StepRunsTheFrontCommand : Prop :=
  ∀ (s : State) (c : Instr) (rest : List Instr), s.pending = c :: rest → step s = exec c { s with pending := rest }

/-- The MODEL's choice (log entry 2): on an empty queue a step takes the events that are due and then passes one subframe of local time, and
while `RESET_N` is low it changes nothing (17 R503). The subframe changes the timecode state alone: the counter advances by one, and an
outstanding correction is slewed by one 1/64 subframe when 157 subframes have passed since the last one. -/
def Obligations.IdleStepPassesOneSubframe : Prop :=
  ∀ s : State, s.pending = [] → step s = .next (s.settled (tick s.dev)) ∧
    (s.dev.sys.resetLow = true → tick s.dev = s.dev) ∧
    (s.dev.sys.resetLow = false → tick s.dev = leaveTry (subframe (recallRetry (fireDue s.dev)))) ∧
    ∀ d : Dev, subframe d = { d with tc := (subframe d).tc } ∧ (subframe d).tc.up = d.tc.up + 1 ∧
      (d.tc.slew = 0 ∨ d.tc.slewAge + 1 < 157 → (subframe d).tc.adj = d.tc.adj ∧ (subframe d).tc.slew = d.tc.slew) ∧
      (d.tc.slew ≠ 0 → 157 ≤ d.tc.slewAge + 1 → (subframe d).tc.adj = d.tc.adj + d.tc.slew.sign ∧
        (subframe d).tc.slew = d.tc.slew - d.tc.slew.sign ∧ (subframe d).tc.slewAge = 0)

/-- The MODEL's choice (log entry 1): every command answers a next state, the queue as it was, whatever the state. -/
def Obligations.EveryCommandAnswersNextAndKeepsTheQueue : Prop :=
  ∀ (c : Instr) (s : State), ∃ d : Dev, exec c s = .next (s.settled d) ∧ (s.settled d).pending = s.pending

/-- 02 R39, R44: while the data path to the host is open, an address of host memory reads what the last posted write that covers it left
there, and any other address reads as before; while it is closed every address reads as before, and the posted writes wait or, in state
ERROR, are dropped (that they wait is the model's choice, log entry 76). -/
def Obligations.HostMemoryHoldsTheLastPostedByte : Prop :=
  ∀ (s : State) (d : Dev) (a : Nat),
    (hostPath d = true → look (s.settled d).hostMem a = (lastPosted d.posted a).or (look s.hostMem a) ∧ (s.settled d).dev.posted = []) ∧
    (hostPath d = false → look (s.settled d).hostMem a = look s.hostMem a ∧
      (s.settled d).dev.posted = if d.hst.tdisp = .error then [] else d.posted)

/-- (1) The block after reset is sound: host memory in canonical form, no posted write, no command waiting. (2) 03 R97 and the register
tables: at reset every field of every register reads its reset value, no event is recorded, and the device is in reset with stage 0 not
yet begun. -/
def Obligations.ResetIsSoundWithEveryResetValue : Prop :=
  (State.reset.sound = true ∧ State.reset.dev.posted = [] ∧ State.reset.pending = []) ∧
  ((∀ (f : Fd) (bank : Nat), fget State.reset.dev f bank = f.reset) ∧ (∀ f : Fd, evSet State.reset.dev f = false) ∧
  State.reset.dev.sys.resetLow = true ∧ State.reset.dev.sys.rom = false ∧ State.reset.dev.hst.tdisp = .configUnlocked)

/-- 01 R15, 02 R39, R44: every step, of every command and of an idle block, keeps host memory in canonical form, and leaves no posted write
outstanding while the data path to the host is open. -/
def Obligations.StepKeepsTheBlockSound : Prop :=
  ∀ s t : State, s.sound = true → step s = .next t → t.sound = true

/-- 03 R75, R78: a register field reads back what was last written to it; a field of another register or bank, and a field of the same
register that shares no bit with it, reads as before. -/
def Obligations.FieldWriteIsReadBackAndNothingElseChanges : Prop :=
  ∀ (d : Dev) (f : Fd) (v b : Nat), f.lo + f.width ≤ 64 → f.reset < 2 ^ f.width → b < 2 ^ 24 →
    fget (fset d f v b) f b = v % 2 ^ f.width ∧
    (∀ (g : Fd) (c : Nat), c < 2 ^ 24 → g.off ≠ f.off ∨ c ≠ b → fget (fset d f v b) g c = fget d g c) ∧
    (∀ g : Fd, g.off = f.off → g.lo + g.width ≤ f.lo ∨ f.lo + f.width ≤ g.lo → fget (fset d f v b) g b = fget d g b)

/-- (1) 00 R9: recording an event takes the next sequence number and sets its bit, whether or not it is set already; every other register's
events are as they were; no register field changes. (2) 00 R9: an event recorded after software read an event register is not cleared by
writing back the value read, and one whose newest occurrence is the one read is cleared. -/
def Obligations.EventsAreRecordedAndClearedBySequence : Prop :=
  (∀ (d : Dev) (f : Fd), evSet (raise d f) f = true ∧
    (mget (raise d f).evts {} f.off).seq = (mget d.evts {} f.off).seq + 1 ∧
    (∀ g : Fd, g.off ≠ f.off → evSet (raise d f) g = evSet d g) ∧ (raise d f).regs = d.regs) ∧
  (∀ (s : State) (f : Fd), s.dev.sys.portUp = true → isEvt f.off = true → f.off ≠ Rg.GLB_EVT →
    (∃ d, exec (.eventWriteBack f.off (mget s.dev.evts {} f.off).seq) { s with dev := evRecord s.dev f } = .next (s.settled d) ∧
      evSet d f = true ∧ d.regs = s.dev.regs) ∧
    (∃ d, exec (.eventWriteBack f.off (mget (evRecord s.dev f).evts {} f.off).seq) { s with dev := evRecord s.dev f }
      = .next (s.settled d) ∧ evSet d f = false ∧ d.regs = s.dev.regs))

/-- (1) 00 R7, R8; 03 R75, R76: `REGISTER_WRITE` of an address the register table gives goes to its register; one that the window does not
admit, and `INVALID_ACCESS` of one, is recorded with its address if it is the first since the event was cleared, and counted if it is a
later one. (2) 00 R11, 03 R79, R81: `APERTURE_WRITE` fills the load buffer; during a load it is an overrun, and one that the aperture does
not admit is an invalid access. The second write of a guarded pair within its window takes effect if it complements the first and is
otherwise dropped with its pair and reported; a window that closes drops its pair and reports it, and before that `GUARD_WINDOW_EXPIRE`
changes nothing. -/
def Obligations.WindowApertureAndGuardWindow : Prop :=
  (∀ (s : State) (off size : Nat) (v : Word), s.dev.sys.portUp = true → off < windowSize →
    (writeValid off size = true → inDoorbells off = false → inAperture off = false → ∀ (r : RegDef) (n : Nat),
      regAt (off / 8 * 8) = some (r, n) →
      exec (.registerWrite off size v) s = .next (s.settled (regWriteAt s.dev r n off size (v.toNat % 2 ^ (8 * size))))) ∧
    (writeValid off size = false →
      exec (.registerWrite off size v) s = .next (s.settled (accessInvalid s.dev off)) ∧
      exec (.invalidAccess true off size) s = .next (s.settled (accessInvalid s.dev off))) ∧
    (readValid off size = false → exec (.invalidAccess false off size) s = .next (s.settled (accessInvalid s.dev off))) ∧
    (evSet s.dev Fd.GLB_EVT_access_invalid = false →
      mget (accessInvalid s.dev off).caps {} Rg.GLB_ACCESS_INV = { addr := off % 2 ^ 26, count := 1 }) ∧
    (evSet s.dev Fd.GLB_EVT_access_invalid = true →
      mget (accessInvalid s.dev off).caps {} Rg.GLB_ACCESS_INV = { mget s.dev.caps {} Rg.GLB_ACCESS_INV with
        count := min ((mget s.dev.caps {} Rg.GLB_ACCESS_INV).count + 1) 0xFFFF })) ∧
  (∀ (s : State) (off : Nat) (bs : List Byte),
    (s.dev.sys.portUp = true → off < 2 ^ 22 → apertureOk off bs.length = true → s.dev.sys.load = none →
      exec (.apertureWrite off bs) s
        = .next (s.settled (setSys s.dev { s.dev.sys with aperture := setBytes s.dev.sys.aperture off bs })) ∧
      (∀ i, i < bs.length → mget (setBytes s.dev.sys.aperture off bs) 0 (off + i) = bs.getD i 0) ∧
      ∀ a, a < off ∨ off + bs.length ≤ a → mget (setBytes s.dev.sys.aperture off bs) 0 a = mget s.dev.sys.aperture 0 a) ∧
    (s.dev.sys.portUp = true → off < 2 ^ 22 → apertureOk off bs.length = true → s.dev.sys.load ≠ none →
      exec (.apertureWrite off bs) s = .next (s.settled (postedOverrun s.dev (apertureLo + off)))) ∧
    (s.dev.sys.portUp = true → off < 2 ^ 22 → apertureOk off bs.length = false →
      exec (.apertureWrite off bs) s = .next (s.settled (accessInvalid s.dev (apertureLo + off)))) ∧
    (∀ w t v, look s.dev.sys.guards off = some (w, t) → up s.dev < t + 15 →
      guardSecond s.dev off v = if w + v = 2 ^ 32 - 1 then guardEffect s.dev off w else guardFail (unguard s.dev off) (off + 8)) ∧
    (∀ w t, look s.dev.sys.guards off = some (w, t) →
      (t + 13 ≤ up s.dev → ∃ d, exec (.guardWindowExpire off) s = .next (s.settled d) ∧ d = guardFail (unguard s.dev off) off ∧
        look d.sys.guards off = none ∧ (∀ a, a ≠ off → look d.sys.guards a = look s.dev.sys.guards a) ∧
        evSet d Fd.GLB_EVT_guard_fail = true ∧ d.regs = s.dev.regs ∧ d.ctx = s.dev.ctx) ∧
      (up s.dev < t + 13 → exec (.guardWindowExpire off) s = .next (s.settled s.dev))))

/-- (1) 02 R42, R44; 16 R447: the interface is locked from CONFIG_UNLOCKED, started from CONFIG_LOCKED unless the device has been exposed to
debug, and stopped; a stop closes every ring. A lock or a start in another state changes nothing. (2) 02 R41, R42; 03 R85; 18 R470:
training retires the modules that failed both tries; with a module left, each link uses the largest set of its working modules, the host
port comes up and stage 1 is reached; with none the port stays down. Later a module that comes back after its first failure is kept, any
other is retired, and with the last one the host port is lost, which is fatal. A failed IDE check while a link that is up is keyed puts
the interface into ERROR. -/
def Obligations.HostInterfaceAndLink : Prop :=
  (∀ s : State, s.dev.sys.portUp = true →
    (s.dev.hst.tdisp = .configUnlocked →
      exec .lockInterface s = .next (s.settled { s.dev with hst := { s.dev.hst with tdisp := .configLocked } })) ∧
    (s.dev.hst.tdisp ≠ .configUnlocked → exec .lockInterface s = .next (s.settled s.dev)) ∧
    (s.dev.hst.tdisp = .configLocked → s.dev.sys.debugExposed = false →
      exec .startInterface s = .next (s.settled { s.dev with hst := { s.dev.hst with tdisp := .run } })) ∧
    (s.dev.hst.tdisp ≠ .configLocked ∨ s.dev.sys.debugExposed = true → exec .startInterface s = .next (s.settled s.dev)) ∧
    (∃ d, exec .stopInterface s = .next (s.settled d) ∧ d.hst = { s.dev.hst with tdisp := .configUnlocked } ∧
      (∀ n, n < 512 → sqOpenBit d n = false ∧ cqOpenBit d n = false) ∧ (∀ n, n < 4096 → strOpenBit d n = false) ∧
      (∀ g, g < 256 → (fltRingCfg d g).1 = false) ∧ (fltRingCfg d 256).1 = false ∧
      d.ctx = s.dev.ctx ∧ d.mem = s.dev.mem ∧ d.sec = s.dev.sec ∧ d.evts = s.dev.evts)) ∧
  ((∀ (s : State) (a b : BitVec 8) (works : Nat → Bool), s.dev.sys.rom = true → s.dev.sys.stage = 0 → s.dev.sys.portUp = false →
      s.dev.hst.moduleRetired = 0 → (works = fun m => !maskBit (a &&& b).toNat m) →
      ∃ d, exec (.ucieTrainingDone a b) s = .next (s.settled d) ∧ d.hst.moduleRetired = a &&& b ∧
        d.hst.moduleUp = BitVec.ofNat 8 (maskOf 8 (linkSet works 0 ++ linkSet works 1)) ∧
        (a &&& b ≠ 0xFF → d.sys.portUp = true ∧ d.sys.stage = 1 ∧ evSet d Fd.GLB_EVT_stage_done = true) ∧
        (a &&& b = 0xFF → d.sys = s.dev.sys)) ∧
  (∀ (s : State) (m : Nat) (back : Bool), s.dev.sys.portUp = true → m < 8 → maskBit s.dev.hst.moduleRetired.toNat m = false →
      (back = true → maskBit s.dev.hst.failedOnce.toNat m = false →
        exec (.ucieModuleFailure m back) s = .next (s.settled (retrainModule s.dev m)) ∧
        (retrainModule s.dev m).hst = { s.dev.hst with failedOnce := s.dev.hst.failedOnce ||| BitVec.ofNat 8 (2 ^ m) }) ∧
      (back = false ∨ maskBit s.dev.hst.failedOnce.toNat m = true → ∀ e, e = relink (retireModule s.dev m) →
        maskBit e.hst.moduleRetired.toNat m = true ∧
        (e.hst.moduleUp ≠ 0 → exec (.ucieModuleFailure m back) s = .next (s.settled e)) ∧
        (e.hst.moduleUp = 0 → exec (.ucieModuleFailure m back) s
          = .next (s.settled (reap (fatalFault (setSys e { e.sys with portUp := false }) 0)))))) ∧
  (∀ s : State, s.dev.sys.portUp = true → ideKeyed s.dev = true →
      exec .ideIntegrityFail s = .next (s.settled (enterError (raise s.dev Fd.HST_EVT_ide_fail)))))

/-- (1) 03 R97, 19 R491, R495; 16 R447: assertion of RESET_N, an undervoltage of a monitored rail and a thermal trip reset the device; the
meter domain keeps running, `debug_exposed` and the latched trip stay (that RESET_N leaves these two is log entry 44), and after a rail
fault or a trip the device stays in reset. With power removed, `debug_exposed` and the trip end too. (2) 03 R85, R88; 16 R426, R427:
release of RESET_N runs stage ROM, which gives the device its `uid` and draws the keys of this boot; a self-test that fails ends in stage
FAILED with reason 1. After a rail fault the device stays in reset until RESET_N has been asserted. (3) 19 R495, 17 R465: at 100 °C the
throttle level is 14 at once and the alert stands; below 95 °C the alert ends and the level stays where it is, from where the throttle
rule resumes. The reading is recorded. -/
def Obligations.ResetsRomAndHeat : Prop :=
  (∀ (s : State) (rail temp sensor : Nat), rail < 9 → 110 ≤ temp →
    (∃ d, exec .resetNAssert s = .next (s.settled d) ∧ d.meter = s.dev.meter ∧ d.regs = [] ∧ d.evts = [] ∧ d.seq = {} ∧ d.ctx = {} ∧
      d.sys = { resetLow := true, debugExposed := s.dev.sys.debugExposed, trip := s.dev.sys.trip }) ∧
    (∃ d, exec (.railUndervoltage rail false) s = .next (s.settled d) ∧ d.meter = s.dev.meter ∧ d.regs = [] ∧ d.ctx = {} ∧
      d.sys = { resetLow := true, railHold := true, debugExposed := s.dev.sys.debugExposed, trip := s.dev.sys.trip }) ∧
    (∃ d, exec (.railUndervoltage rail true) s = .next (s.settled d) ∧ d.meter = s.dev.meter ∧ d.regs = [] ∧ d.ctx = {} ∧
      d.sys = { resetLow := true, railHold := true }) ∧
    (∃ d, exec (.thermTrip temp sensor) s = .next (s.settled d) ∧ d.meter = s.dev.meter ∧ d.regs = [] ∧ d.ctx = {} ∧
      d.sys = { resetLow := true, railHold := true, debugExposed := s.dev.sys.debugExposed, trip := true })) ∧
  (∀ s : State, s.dev.sys.resetLow = true →
    (s.dev.sys.railHold = false →
      (∃ d, exec (.resetNRelease true) s = .next (s.settled d) ∧ d.sys.resetLow = false ∧ d.sys.rom = true ∧ d.sys.stage = 0 ∧
        d.sys.uid = uidOf ∧ d.sec.ready = true ∧ d.ctx = s.dev.ctx ∧ d.regs = s.dev.regs) ∧
      (∃ d, exec (.resetNRelease false) s = .next (s.settled d) ∧ d.sys.stage = 15 ∧ d.sys.failReason = 1 ∧ d.sys.resetLow = false ∧
        evSet d Fd.GLB_EVT_stage_failed = true ∧ d.sec = s.dev.sec)) ∧
    (s.dev.sys.railHold = true → (∀ ok : Bool, exec (.resetNRelease ok) s = .next (s.settled s.dev)) ∧
      ∃ d, exec .resetNAssert s = .next (s.settled d) ∧ d.sys.railHold = false)) ∧
  (∀ (s : State) (temp sensor : Nat), s.dev.sys.resetLow = false →
    (100 ≤ temp → ∃ d, exec (.thermAlert temp sensor) s = .next (s.settled d) ∧ d.sys.alert = true ∧ d.mtr = { s.dev.mtr with throttle := 14 } ∧
      d.sys.hottest = temp ∧ d.sys.sensor = sensor ∧ d.sys.peak = max s.dev.sys.peak temp ∧ d.ctx = s.dev.ctx ∧ d.seq = s.dev.seq ∧
      d.regs = s.dev.regs) ∧
    (temp < 95 → ∃ d, exec (.thermClear temp sensor) s = .next (s.settled d) ∧ d.sys.alert = false ∧ d.mtr = s.dev.mtr ∧
      d.sys.hottest = temp ∧ d.sys.sensor = sensor ∧ d.sys.peak = max s.dev.sys.peak temp ∧ d.ctx = s.dev.ctx ∧ d.seq = s.dev.seq ∧
      d.regs = s.dev.regs))

/-- (1) 03 R81, R89: a write of `GLB_LOAD` by `LOAD_FIRMWARE`, `LOAD_REPAIR_RECORD`, `LOAD_METER_CAL` or `LOAD_RESERVED_TYPE` begins a load
with the result of its checks (that of a reserved type is 4), and one while a load runs is an overrun. (2) 03 R89 to R93, R98: a load
whose checks failed ends with their result and leaves the stage; a firmware image in stage 1 runs and ends stage 2, and one in stage 8 is
staged; a repair record is taken and ends stage 3, or stage FAILED with reason 0x10 and load result 8 if a defect stays uncovered. Each
end raises `load_done`. (3) 17 R454, R455: 50 ms after a delivery without an answer the calibration is delivered once more, and 50 ms
after that the load ends with 7 and the stage fails with 0x30; before that nothing changes. A record that the meter accepts ends stage 5
and waits for its next minute (one that is already in force changes nothing there), and one it rejects ends the load with 3. -/
def Obligations.LoadsBeginAndEnd : Prop :=
  (∀ (s : State) (n : Nat), s.dev.sys.portUp = true → n < 2 ^ 23 →
    (∀ (c : Instr) (typ : Nat), (c, typ) ∈ [(.loadFirmware n, 1), (.loadRepairRecord n, 2), (.loadMeterCal n, 3), (.loadReservedType n, 0)] →
      (s.dev.sys.load = none → ∃ d j, exec c s = .next (s.settled d) ∧ d.sys = { s.dev.sys with load := some j } ∧ j.typ = typ ∧
        j.length = n ∧ j.sentAt = up s.dev ∧ j.result = loadCheck s.dev typ n (loadImage s.dev n) ∧ (typ = 0 → j.result = 4) ∧
        fget d Fd.GLB_LOAD_type = typ ∧ fget d Fd.GLB_LOAD_length = n ∧ d.ctx = s.dev.ctx ∧ d.evts = s.dev.evts) ∧
      (s.dev.sys.load ≠ none → exec c s = .next (s.settled (postedOverrun s.dev Rg.GLB_LOAD))))) ∧
  (∀ (s : State) (j : LoadJob) (uncovered : Bool), s.dev.sys.load = some j →
    (j.result ≠ 0 → ∃ d, exec (.loadComplete uncovered) s = .next (s.settled d) ∧
      d.sys = { s.dev.sys with load := none, loadResult := j.result } ∧ evSet d Fd.GLB_EVT_load_done = true) ∧
    (j.result = 0 → j.typ = 1 → s.dev.sys.stage = 1 → ∃ d, exec (.loadComplete uncovered) s = .next (s.settled d) ∧
      d.sys.stage = 2 ∧ d.sys.load = none ∧ d.sys.loadResult = 0 ∧ d.sys.fwRunning = leAt (loadImage s.dev j.length) 8 4 ∧
      d.sys.fwRunningMeas = Config.shake256 (loadImage s.dev j.length) ∧ evSet d Fd.GLB_EVT_load_done = true ∧
      evSet d Fd.GLB_EVT_stage_done = true) ∧
    (j.result = 0 → j.typ = 1 → s.dev.sys.stage = 8 → ∃ d, exec (.loadComplete uncovered) s = .next (s.settled d) ∧
      d.sys.stage = 8 ∧ d.sys.load = none ∧ d.sys.loadResult = 0 ∧ d.sys.fwRunning = s.dev.sys.fwRunning ∧
      d.sys.fwStaged = some (leAt (loadImage s.dev j.length) 8 4, Config.shake256 (loadImage s.dev j.length)) ∧
      evSet d Fd.GLB_EVT_load_done = true) ∧
    (j.result = 0 → j.typ = 2 → ∃ d, exec (.loadComplete false) s = .next (s.settled d) ∧ d.sys.stage = 3 ∧ d.sys.load = none ∧
      d.sys.loadResult = 0 ∧ (d.sys.repair.map (fun x => x.entries)) = some (repairEntries (loadImage s.dev j.length)) ∧
      evSet d Fd.GLB_EVT_load_done = true ∧ evSet d Fd.GLB_EVT_stage_done = true) ∧
    (j.result = 0 → j.typ = 2 → ∃ d, exec (.loadComplete true) s = .next (s.settled d) ∧ d.sys.stage = 15 ∧ d.sys.failReason = 0x10 ∧
      d.sys.load = none ∧ d.sys.loadResult = 8 ∧ evSet d Fd.GLB_EVT_load_done = true ∧ evSet d Fd.GLB_EVT_stage_failed = true)) ∧
  (∀ (s : State) (j : LoadJob), s.dev.sys.load = some j →
    (j.tries = 1 → j.sentAt + 50 * 65536 ≤ up s.dev →
      exec .calDeliveryTimeout s
        = .next (s.settled (setSys s.dev { s.dev.sys with load := some { j with tries := 2, sentAt := up s.dev } }))) ∧
    (j.tries = 2 → j.sentAt + 50 * 65536 ≤ up s.dev →
      ∃ d, exec .calDeliveryTimeout s = .next (s.settled d) ∧ d.sys.load = none ∧ d.sys.loadResult = 7 ∧ d.sys.stage = 15 ∧
        d.sys.failReason = 0x30 ∧ d.meter = s.dev.meter) ∧
    (up s.dev < j.sentAt + 50 * 65536 → exec .calDeliveryTimeout s = .next (s.settled s.dev)) ∧
    (j.tries ≠ 0 → s.dev.meter.rail = true → calFieldsOk (loadImage s.dev j.length) = true →
      ∃ d, exec (.meterCalAnswer true) s = .next (s.settled d) ∧ d.sys.stage = 5 ∧ d.sys.load = none ∧ d.sys.loadResult = 0 ∧
        d.sys.calDigest = some (Config.shake256 (loadImage s.dev j.length)) ∧ d.meter = { s.dev.meter with
          calNext := if s.dev.meter.cal = some (loadImage s.dev j.length) then none else some (loadImage s.dev j.length) }) ∧
    (j.tries ≠ 0 → s.dev.meter.rail = true → calFieldsOk (loadImage s.dev j.length) = false →
      ∃ d, exec (.meterCalAnswer false) s = .next (s.settled d) ∧ d.sys.load = none ∧ d.sys.loadResult = 3 ∧
        d.sys.stage = s.dev.sys.stage ∧ d.meter = s.dev.meter))

/-- (1) 03 R81, R86, R94; 12 R343; 13 R370; 17 R467: a stage command out of order is ignored and reported, and one while another runs is an
overrun. In order it starts its stage: MEM; TIME, which trains every fitted port (a master whose first frame is no multiple of 1,000 is
refused); LINKS, which needs the identity statement, brings trained ports into service, and makes a device that founds its domain or has
no port its only member at epoch 1, while any other sends JOIN; READY, which is reached at once. (2) 03 R86, R87, R88, R94; 13 R370: a
stage command ends. Stage MEM: with more than two near stacks that failed twice it fails with 0x20, with every fitted far channel failed
twice with 0x21, with every fitted flash channel with 0x22; otherwise what failed twice is retired, the rest is in service, and stage 4 is
reached. Stage TIME is reached once timecode is locked, and stage LINKS once the device is a member. The first refusal of a join sends it
once more, and a second one ends in stage FAILED with reason 0x40. -/
def Obligations.StageCommandsFollowTheirOrderAndEnd : Prop :=
  (∀ s : State, s.dev.sys.portUp = true →
    (∀ (c : Instr) (target before : Nat),
        (c, target, before) ∈ [(.bootCmdMem, 4, 3), (.bootCmdTime, 6, 5), (.bootCmdLinks, 7, 6), (.bootCmdReady, 8, 7)] →
        (s.dev.sys.stageCmd ≠ none → exec c s = .next (s.settled (postedOverrun s.dev Rg.GLB_BOOT_CMD))) ∧
        (s.dev.sys.stageCmd = none → s.dev.sys.stage ≠ before →
          exec c s = .next (s.settled (cfgIgnored (fset s.dev Fd.GLB_BOOT_CMD_target target) Rg.GLB_BOOT_CMD)))) ∧
    (s.dev.sys.stageCmd = none →
      (s.dev.sys.stage = 3 → ∃ d, exec .bootCmdMem s = .next (s.settled d) ∧ d.sys = { s.dev.sys with stageCmd := some 4 } ∧
        d.mem = s.dev.mem ∧ d.fls = s.dev.fls ∧ d.ctx = s.dev.ctx) ∧
      (s.dev.sys.stage = 5 → fbit s.dev Fd.MTR_TC_CFG_role = false ∨ fget s.dev Fd.MTR_TC_INIT_frame % 1000 = 0 →
        ∃ d, exec .bootCmdTime s = .next (s.settled d) ∧ d.sys = { s.dev.sys with stageCmd := some 6 } ∧
          d.tc = { s.dev.tc with state := 1 } ∧ (∀ p, p < 16 → bitOf (portsFitted s.dev) p = true → (portOf d p).trained = true) ∧
          (∀ p, p < 16 → bitOf (portsFitted s.dev) p = false → portOf d p = portOf s.dev p) ∧ d.ctx = s.dev.ctx) ∧
      (s.dev.sys.stage = 5 → fbit s.dev Fd.MTR_TC_CFG_role = true → fget s.dev Fd.MTR_TC_INIT_frame % 1000 ≠ 0 →
        exec .bootCmdTime s = .next (s.settled (cfgIgnored (fset s.dev Fd.GLB_BOOT_CMD_target 6) Rg.GLB_BOOT_CMD))) ∧
      (s.dev.sys.stage = 6 → s.dev.sec.stmtLoaded = true → ∃ e, exec .bootCmdLinks s
          = .next (s.settled (if fbit s.dev Fd.MAP_CFG_found ∨ portsFitted s.dev = 0 then foundDomain e else sendJoin e)) ∧
        e.sys = { s.dev.sys with stageCmd := some 7, joinRetried := false } ∧ e.map = s.dev.map ∧ e.ctx = s.dev.ctx ∧
        (∀ p, p < 16 → portOf e p = { portOf s.dev p with
          up := (portOf s.dev p).up || ((portOf s.dev p).trained && !(portOf s.dev p).retired) }) ∧
        (foundDomain e).map.member = true ∧ (foundDomain e).map.domEpoch = 1 ∧ (foundDomain e).map.members = [ownDevice s.dev]) ∧
      (s.dev.sys.stage = 7 → ∃ d, exec .bootCmdReady s = .next (s.settled d) ∧ d.sys = { s.dev.sys with stage := 8, stageCmd := none } ∧
        evSet d Fd.GLB_EVT_stage_done = true ∧ d.ctx = s.dev.ctx))) ∧
  (∀ (s : State) (o : StageOutcome) (near : BitVec 8) (far fls farBad flsBad : BitVec 32), near = o.near1 &&& o.near2 →
    far = BitVec.ofNat 32 (farFitted s.dev) → fls = BitVec.ofNat 32 (flashFitted s.dev) → farBad = o.far1 &&& o.far2 &&& far →
    flsBad = o.flash1 &&& o.flash2 &&& fls →
    (s.dev.sys.stageCmd = some 4 →
      (2 < (maskBits near.toNat 8).length → ∃ d, exec (.stageComplete o) s = .next (s.settled d) ∧ d.sys.stage = 15 ∧ d.sys.failReason = 0x20) ∧
      ((maskBits near.toNat 8).length ≤ 2 →
        (far ≠ 0 → farBad = far → ∃ d, exec (.stageComplete o) s = .next (s.settled d) ∧ d.sys.stage = 15 ∧ d.sys.failReason = 0x21) ∧
        (far = 0 ∨ farBad ≠ far →
          (fls ≠ 0 → flsBad = fls → ∃ d, exec (.stageComplete o) s = .next (s.settled d) ∧ d.sys.stage = 15 ∧ d.sys.failReason = 0x22) ∧
          (fls = 0 ∨ flsBad ≠ fls → ∃ d, exec (.stageComplete o) s = .next (s.settled d) ∧ d.sys.stage = 4 ∧ d.sys.stageCmd = none ∧
            d.mem.nearUp = ~~~near ∧ d.mem.nearRetired = near ∧ d.mem.farUp = far &&& ~~~farBad ∧ d.mem.farRetired = farBad ∧
            d.fls.up = fls &&& ~~~flsBad ∧ d.fls.retired = flsBad ∧ evSet d Fd.GLB_EVT_stage_done = true ∧ d.ctx = s.dev.ctx)))) ∧
    (s.dev.sys.stageCmd = some 6 →
      (s.dev.tc.state = 2 → o.ports = 0 → ∃ d, exec (.stageComplete o) s = .next (s.settled d) ∧ d.sys.stage = 6 ∧ d.sys.stageCmd = none ∧
        (∀ p, p < 16 → bitOf (portsFitted s.dev) p = true → portOf d p = { portOf s.dev p with peer := o.peers.getD p 0 }) ∧
        d.tc = s.dev.tc ∧ d.ctx = s.dev.ctx) ∧
      (s.dev.tc.state ≠ 2 → exec (.stageComplete o) s = .next (s.settled s.dev))) ∧
    (s.dev.sys.stageCmd = some 7 →
      (s.dev.map.member = true → ∃ d, exec (.stageComplete o) s = .next (s.settled d) ∧ d.sys.stage = 7 ∧ d.sys.stageCmd = none ∧
        d.map = s.dev.map ∧ d.ctx = s.dev.ctx) ∧
      (s.dev.map.member = false → o.refused = true →
        (s.dev.sys.joinRetried = false → o.refused2 = false → ∃ e, e = setSys s.dev { s.dev.sys with joinRetried := true } ∧
          exec (.stageComplete o) s = .next (s.settled (sendJoin e)) ∧ (sendJoin e).sys = e.sys) ∧
        (s.dev.sys.joinRetried = true ∨ o.refused2 = true →
          ∃ d, exec (.stageComplete o) s = .next (s.settled d) ∧ d.sys.stage = 15 ∧ d.sys.failReason = 0x40))))

/-- 16 R432: target 7 while `stmt_loaded` is clear is ignored and raises `cfg_ignored`: no stage command begins, and nothing of the map, the
links or any session changes. -/
def Obligations.StageLinksNeedsTheStatement : Prop :=
  ∀ s : State, s.dev.sys.portUp = true → s.dev.sys.stageCmd = none → s.dev.sec.stmtLoaded = false →
    ∃ d, exec .bootCmdLinks s = .next (s.settled d) ∧ evSet d Fd.GLB_EVT_cfg_ignored = true ∧ d.sys = s.dev.sys ∧ d.map = s.dev.map ∧
      d.lnk = s.dev.lnk ∧ d.ctx = s.dev.ctx

/-- (1) 03 R99, R100: a matched activation of a staged image on a quiescent device starts, and at its end version and measurement switch at
one instant; without a staged image, or on a device that is not quiescent, it is refused with load result 6; a value other than 1 has no
effect. (2) 03 R101 to R103: in stage 8 the units of a matched `GLB_UNIT_RESET` write that are not in reset go into it, and no other; in
any other stage the write is ignored and reported. A reset does not end while its unit drains; once it has drained it ends, and the unit
has trained again as `UNIT_RESET_END` says; what waited for the security unit goes on. A unit that has not drained after 16 frames is
forced: what it runs ends, it has drained, and `drain_failed` is set, with a fault record of the unit alone where none of the operations
that ended was a client's. -/
def Obligations.FirmwareAndUnitResets : Prop :=
  (∀ s : State,
    (s.dev.sys.portUp = true → s.dev.sys.fwStaged.isSome = true → quiescent s.dev = true →
      ∃ d, exec (.fwActivate 1) s = .next (s.settled d) ∧ d = setSys (unguard s.dev Rg.GLB_FW_ACTIVATE_A) d.sys ∧
        d.sys.fwActivating = true ∧ d.sys.fwRunning = s.dev.sys.fwRunning ∧ d.sys.fwStaged = s.dev.sys.fwStaged) ∧
    (s.dev.sys.portUp = true → s.dev.sys.fwStaged = none ∨ quiescent s.dev = false →
      ∃ d, exec (.fwActivate 1) s = .next (s.settled d) ∧ d.sys.loadResult = 6 ∧ evSet d Fd.GLB_EVT_load_done = true ∧
        d.sys.fwActivating = s.dev.sys.fwActivating ∧ d.sys.fwRunning = s.dev.sys.fwRunning) ∧
    (∀ key : BitVec 32, s.dev.sys.portUp = true → key ≠ 1 →
      exec (.fwActivate key) s = .next (s.settled (unguard s.dev Rg.GLB_FW_ACTIVATE_A))) ∧
    (∀ (version : Nat) (meas : BitVec 256), s.dev.sys.fwActivating = true → s.dev.sys.fwStaged = some (version, meas) →
      ∃ d, exec .fwActivateDone s = .next (s.settled d) ∧ d.sys.fwRunning = version ∧ d.sys.fwRunningMeas = meas ∧
        d.sys.fwStaged = none ∧ d.sys.fwActivating = false ∧ evSet d Fd.GLB_EVT_fw_activated = true ∧ d.ctx = s.dev.ctx)) ∧
  (∀ (s : State) (units : BitVec 32) (u : Nat) (o : ResetOutcome), u < 9 →
    (s.dev.sys.portUp = true → s.dev.sys.stage = 8 →
      ∃ d, exec (.unitReset units) s = .next (s.settled d) ∧ d.ctx = s.dev.ctx ∧ d.evts = s.dev.evts ∧
        ∀ v, v < 9 → unitInReset d v = (unitInReset s.dev v || maskBit units.toNat v)) ∧
    (s.dev.sys.portUp = true → s.dev.sys.stage ≠ 8 → exec (.unitReset units) s
      = .next (s.settled (cfgIgnored (unguard s.dev Rg.GLB_UNIT_RESET_A) Rg.GLB_UNIT_RESET_A))) ∧
    (∀ r : UnitRst, look s.dev.sys.unitRst u = some r →
      (r.draining = true → unitBusy s.dev u = true → exec (.unitResetEnd u o) s = .next (s.settled s.dev)) ∧
      (r.draining = false ∨ unitBusy s.dev u = false → ∃ d e, exec (.unitResetEnd u o) s
          = .next (s.settled (if u = 6 then securityBack d else d)) ∧ e = unitRetrain (unitDrained s.dev u r) u o ∧
        d = raise (setSys e { e.sys with unitRst := del e.sys.unitRst u }) Fd.GLB_EVT_unit_reset_done ∧ unitInReset d u = false ∧
        evSet d Fd.GLB_EVT_unit_reset_done = true ∧ (o.first &&& o.second = 0 → u ≠ 5 → d.ctx = s.dev.ctx)) ∧
      (r.draining = true → up s.dev < r.start + 16 * 65536 → exec (.unitResetDrainTimeout u) s = .next (s.settled s.dev)) ∧
      (r.draining = true → r.start + 16 * 65536 ≤ up s.dev → unitBusy s.dev u = false →
        exec (.unitResetDrainTimeout u) s = .next (s.settled (unitDrained s.dev u r)) ∧
        look (unitDrained s.dev u r).sys.unitRst u = some { r with draining := false }) ∧
      (r.draining = true → r.start + 16 * 65536 ≤ up s.dev → unitBusy s.dev u = true →
        ∃ e f, e = unitDrained (endUnit s.dev u) u r ∧ f = setSys e { e.sys with drainFailed := withBit e.sys.drainFailed u true } ∧
          look f.sys.unitRst u = some { r with draining := false } ∧ bitOf f.sys.drainFailed.toNat u = true ∧
          exec (.unitResetDrainTimeout u) s = .next (s.settled (if fget f Fd.FLT_CNT_reports = fget s.dev Fd.FLT_CNT_reports then
            (report f { cls := clsUnit, unit := faultUnit u, action := 1, status := stUnitFailed }).1 else f)))))

/-- (1) 04 R134: a matched `ARR_RETIRE` of an array in service, from stage 3 on, retires it with cause 4 and raises `array_retired`; where no
entry runs, every other array and every session are as they were. Of an array that is retired or does not exist, or before stage 3 or in
stage FAILED, it is refused and reported. (2) 10 R309: a matched `MEM_ERASE` starts the erase it names, unless an erase runs or the far
channel it names is in service and holds an allocated frame: then it is refused and reported. `ERASE_DONE` ends an erase with its event,
after which moves and restores that waited for it go on; where there is no session and no device-mode restore, nothing else changes. (3)
12 R365: a matched `LNK_PORT_DISABLE` of one port in service: with a frame started the port stays until it is through, and every other
port is as it was; with none it is retired at once. In a stage without traffic service, or where no port that it names is in service and
not yet being disabled, it is refused and reported. (4) 14 R409: a matched `CKP_DISCARD` of a retained slate that no restore reads and
outside an emergency discards it; of a slate that is not retained, one that a restore reads, or during an emergency it is refused and
reported. -/
def Obligations.GuardedRetiresErasesAndDiscards : Prop :=
  (∀ (s : State) (v : BitVec 32) (a : Nat), s.dev.sys.portUp = true → a = v.toNat % 256 →
    (a ≤ 143 → 3 ≤ s.dev.sys.stage → s.dev.sys.stage ≠ 15 → arrRetired s.dev a = false →
      ∃ d, exec (.arrRetire v) s = .next (s.settled d) ∧ d = retireArray (unguard s.dev Rg.ARR_RETIRE_A) a 4 ∧
        (s.dev.fab.teams = [] → arrRetired d a = true ∧ (mget d.fab.arr {} a).cause = 4 ∧
          (∀ b, b ≠ a → mget d.fab.arr {} b = mget s.dev.fab.arr {} b) ∧ evSet d Fd.ARR_EVT_array_retired = true ∧ d.ctx = s.dev.ctx)) ∧
    (143 < a ∨ s.dev.sys.stage < 3 ∨ s.dev.sys.stage = 15 ∨ arrRetired s.dev a = true →
      exec (.arrRetire v) s = .next (s.settled (cfgIgnored (unguard s.dev Rg.ARR_RETIRE_A) Rg.ARR_RETIRE_A)))) ∧
  (∀ (s : State) (c : Instr) (target channel : Nat), s.dev.sys.portUp = true → channel < 32 →
    (c, target, channel) ∈ [(.eraseT0Free, 1, 0), (.eraseT1Free, 2, 0), (.eraseT2Free, 3, 0), (.eraseFarChannel channel, 4, channel)] →
    (s.dev.mem.erase = none →
      (target = 4 → maskBit s.dev.mem.farRetired.toNat channel = true ∨ ∀ f ∈ usedFrames s.dev 2, f / 2 ^ 20 ≠ channel) →
      ∃ d, exec c s = .next (s.settled d) ∧ d.mem = { s.dev.mem with erase := some (target, channel) } ∧ d.evts = s.dev.evts ∧
        d.ctx = s.dev.ctx ∧ d.regs = s.dev.regs) ∧
    (s.dev.mem.erase ≠ none ∨ (target = 4 ∧ maskBit s.dev.mem.farRetired.toNat channel = false ∧
        ∃ f ∈ usedFrames s.dev 2, f / 2 ^ 20 = channel) →
      exec c s = .next (s.settled (cfgIgnored (unguard s.dev Rg.MEM_ERASE_A) Rg.MEM_ERASE_A))) ∧
    (s.dev.mem.erase ≠ none → exec .eraseDone s = .next (s.settled (devErased (eraseEnd s.dev))) ∧
      evSet (eraseEnd s.dev) Fd.MEM_EVT_erase_done = true ∧
      (s.dev.ctx.recs = [] → s.dev.ckp.devRestore = none → ∃ d, exec .eraseDone s = .next (s.settled d) ∧
        d.mem = { s.dev.mem with erase := none } ∧ d.ctx = s.dev.ctx ∧ d.regs = s.dev.regs))) ∧
  (∀ (s : State) (p : Nat) (v : BitVec 32), p < 16 → s.dev.sys.portUp = true →
    (7 ≤ s.dev.sys.stage → s.dev.sys.stage ≠ 15 → (portOf s.dev p).up = true → (portOf s.dev p).disabling = false → v = BitVec.ofNat 32 (2 ^ p) →
      ((portOf s.dev p).inflight ≠ [] → ∃ d, exec (.lnkPortDisable v) s = .next (s.settled d) ∧
        portOf d p = { portOf s.dev p with disabling := true } ∧ (∀ q, q ≠ p → portOf d q = portOf s.dev q) ∧ d.evts = s.dev.evts ∧
        d.ctx = s.dev.ctx) ∧
      ((portOf s.dev p).inflight = [] → exec (.lnkPortDisable v) s = .next (s.settled
        (retirePort (setPort (unguard s.dev Rg.LNK_PORT_DISABLE_A) p { portOf s.dev p with disabling := true }) p)))) ∧
    (s.dev.sys.stage < 7 ∨ s.dev.sys.stage = 15 ∨
        (∀ q, q < 16 → bitOf v.toNat q = true → (portOf s.dev q).up = false ∨ (portOf s.dev q).disabling = true) →
      exec (.lnkPortDisable v) s = .next (s.settled (cfgIgnored (unguard s.dev Rg.LNK_PORT_DISABLE_A) Rg.LNK_PORT_DISABLE_A)))) ∧
  (∀ (s : State) (n : Nat), s.dev.sys.portUp = true →
    (s.dev.ckp.kept.any (fun x => x.num == n) = true → slateRead s.dev n = false → ckpState s.dev ≠ 3 →
      ∃ d, exec (.ckpDiscard n) s = .next (s.settled d) ∧ d = discardSlate (unguard s.dev Rg.CKP_DISCARD_A) n ∧
        d.ckp.kept = s.dev.ckp.kept.filter (fun x => x.num != n) ∧ d.ctx = s.dev.ctx ∧ d.sec = s.dev.sec ∧ d.txt = s.dev.txt) ∧
    (s.dev.ckp.kept.any (fun x => x.num == n) = false ∨ slateRead s.dev n = true ∨ ckpState s.dev = 3 →
      exec (.ckpDiscard n) s = .next (s.settled (cfgIgnored (unguard s.dev Rg.CKP_DISCARD_A) Rg.CKP_DISCARD_A))))

/-- (1) 16 R446, R447: a matched `SEC_ZEROISE` of one group from stage FW_RUN on is counted, is under way until `ZEROISE_DONE`, and erases its
group; before stage FW_RUN it is refused and reported. `ZEROISE_DONE` raises `zeroised`, and observation pins that were asked for come
live. (2) 16 R446: once session storage keys have been erased, every record that was not CLOSED is EXPIRED with its key erased (said of a
device on which no record is placed in a context slot), and no slate is retained or open. (3) 16 R447: `OBS_ENABLE` exposes the device,
carries out the entry into ERROR (of an interface that is there already, the erasure of groups 0 and 1), raises `debug_enabled` and erases
the load buffer; the pins wait for the zeroisation. `OBS_DISABLE` turns them off and clears nothing else. -/
def Obligations.ZeroisationAndDebug : Prop :=
  (∀ s : State, s.dev.sys.portUp = true →
    (∀ (c : Instr) (g : Nat) (zero : Dev → Dev), (c, g) ∈ [(.zeroiseSessionKeys, 1), (.zeroiseWeightKeys, 2), (.zeroiseStorageKeys, 4),
        (.zeroiseLinkKeys, 8)] → (g = 1 → zero = zeroSessions) → (g = 2 → zero = zeroWeights) → (g = 4 → zero = zeroStorage) →
        (g = 8 → zero = zeroLinks) →
      (2 ≤ s.dev.sys.stage → ∃ d, exec c s = .next (s.settled (zero d)) ∧ d = zeroMark (unguard s.dev Rg.SEC_ZEROISE_A) g ∧
        d.sec = { s.dev.sec with zeroing := some (s.dev.sec.zeroing.getD 0 ||| g), zeroAt := up s.dev } ∧
        fget d Fd.SEC_ZERO_STAT_count = min (fget s.dev Fd.SEC_ZERO_STAT_count + 1) (2 ^ Fd.SEC_ZERO_STAT_count.width - 1) ∧
        fget d Fd.SEC_ZERO_STAT_last = g ∧ d.ctx = s.dev.ctx) ∧
      (s.dev.sys.stage < 2 → exec c s = .next (s.settled (cfgIgnored (unguard s.dev Rg.SEC_ZEROISE_A) Rg.SEC_ZEROISE_A)))) ∧
    (s.dev.sec.zeroing ≠ none → ∃ d, exec .zeroiseDone s = .next (s.settled d) ∧
      d.sec = { s.dev.sec with zeroing := none, obsPending := false } ∧ evSet d Fd.SEC_EVT_zeroised = true ∧
      d.sys = { s.dev.sys with obsLive := s.dev.sys.obsLive || s.dev.sec.obsPending } ∧ d.ctx = s.dev.ctx ∧ d.regs = s.dev.regs)) ∧
  (∀ d : Dev, (zeroSessions d).ckp.kept = [] ∧ (zeroSessions d).ckp.openSlate = none ∧
    ((∀ i, (recOf d i).slot = none) → ∀ i, (recOf d i).state ≠ .closed →
      (recOf (zeroSessions d) i).state = .expired ∧ (recOf (zeroSessions d) i).key = 0)) ∧
  (∀ s : State, s.dev.sys.portUp = true →
    (∃ e f d, exec .obsEnable s = .next (s.settled d) ∧
      e = setSys (unguard s.dev Rg.DBG_OBS_EN_A) { (unguard s.dev Rg.DBG_OBS_EN_A).sys with debugExposed := true } ∧
      (s.dev.hst.tdisp ≠ .error → f = raise (zeroWeights (zeroSessions (zeroMark (errorEntry e) 3))) Fd.SEC_EVT_debug_enabled) ∧
      (s.dev.hst.tdisp = .error → f = raise (zeroWeights (zeroSessions (zeroMark e 3))) Fd.SEC_EVT_debug_enabled) ∧
      d = { eraseBuffer f with sec := { f.sec with obsPending := true } } ∧ d.sys.aperture = [] ∧ d.sec.obsPending = true ∧
      evSet d Fd.SEC_EVT_debug_enabled = true) ∧
    (∃ d, exec .obsDisable s = .next (s.settled d) ∧ d.sys.obsLive = false ∧ d.sec = { s.dev.sec with obsPending := false } ∧
      d.sys.debugExposed = s.dev.sys.debugExposed ∧ d.hst = s.dev.hst ∧ d.ctx = s.dev.ctx ∧ d.regs = s.dev.regs ∧ d.evts = s.dev.evts))

/-- (1) 16 R431, R434 to R437; 02 R42 (what an answer is made of is log entry 41): a request is answered with its response: report, key
certificates, one measurement block or all, certificate slot 0, a signed challenge, a session, and an identity statement, which is taken
if it passes its checks; one that has no answer here gets ERROR. Inside the session a link gets its keys, and IDE is active once every
link that is up has them. While the security unit is in reset every request gets ERROR with status 0x60. (2) 16 R429: a leaf of the
attestation key signs once: every signature uses the next leaf, and after the last one the certified successor signs with its first leaf. -/
def Obligations.SpdmAndSigningLeaves : Prop :=
  (∀ (s : State) (stmt : List Byte) (nonce key : BitVec 256), s.dev.sys.portUp = true →
    (unitInReset s.dev 6 = false →
      exec (.getReport nonce) s = .next (s.settled (spdmSigned s.dev 0x7E (reportBody s.dev nonce))) ∧
      exec .getKeyCerts s = .next (s.settled (spdmSend s.dev 0x7E (s.dev.sec.meterCert ++ s.dev.sec.kemCert))) ∧
      (∀ i b, measurement s.dev i = some b → i ≠ 0xFF → exec (.getMeasurements i) s = .next (s.settled (spdmSigned s.dev 0x60 b))) ∧
      (∀ i, measurement s.dev i = none → i ≠ 0xFF → exec (.getMeasurements i) s = .next (s.settled (spdmError s.dev 1 []))) ∧
      exec (.getMeasurements 0xFF) s = .next (s.settled (spdmSigned s.dev 0x60
        ([1, 2, 3, 4, 5, 6, 7, 0xF0].flatMap (fun i => (measurement s.dev i).getD [])))) ∧
      exec (.getCertificate 0) s = .next (s.settled (spdmSend s.dev 0x02 (certSlot s.dev))) ∧
      (∀ slot, slot ≠ 0 → exec (.getCertificate slot) s = .next (s.settled (spdmError s.dev 1 []))) ∧
      exec (.challenge nonce) s = .next (s.settled (spdmSend (attSign s.dev (b256 nonce ++ certSlot s.dev)).2 0x03
        (attSign s.dev (b256 nonce ++ certSlot s.dev)).1)) ∧
      (∃ d body, exec (.keyExchange key) s = .next (s.settled (spdmSigned d 0x64 body)) ∧ body.length = 1568 ∧
        d.sec = { s.dev.sec with session := true } ∧ d.ctx = s.dev.ctx ∧ d.regs = s.dev.regs) ∧
      (∀ link, (link < 2 → s.dev.sec.session = true → ∃ d, exec (.ideKmKeyProg link) s = .next (s.settled d) ∧
          d.sec = { s.dev.sec with ideLinks := put s.dev.sec.ideLinks link true } ∧
          d.hst.ideActive = ((List.range 2).any (linkUp d) && (List.range 2).all (fun l => !linkUp d l || mget d.sec.ideLinks false l)) ∧
          d.ctx = s.dev.ctx ∧ d.out = s.dev.out) ∧
        (2 ≤ link ∨ s.dev.sec.session = false → exec (.ideKmKeyProg link) s = .next (s.settled s.dev))) ∧
      (∃ d, exec (.setIdStatement stmt) s = .next (s.settled (spdmSend d 0x7E [])) ∧
        (statementOk s.dev stmt = true → d = { s.dev with sec := { s.dev.sec with stmtLoaded := true, statement := stmt } }) ∧
        (statementOk s.dev stmt = false → d = raise s.dev Fd.SEC_EVT_stmt_rejected))) ∧
    (unitInReset s.dev 6 = true → ∀ i slot link, ∀ c ∈ [Instr.getReport nonce, .getKeyCerts, .getMeasurements i, .getCertificate slot,
        .challenge nonce, .keyExchange key, .ideKmKeyProg link, .setIdStatement stmt],
      ∃ v, v < 2 ^ 16 ∧ exec c s = .next (s.settled
        (spdmError { s.dev with fresh := s.dev.fresh + 1 } 0xFF (fields [(0x60, 1), (v, 2)]))))) ∧
  (∀ (d : Dev) (msg : List Byte),
    (d.sec.attUsed < leaves →
      (attSign d msg).1 = exactly 4963 (Config.xmssSign d.sec.attKey.toNat d.sec.attUsed msg) ∧
      (attSign d msg).2.sec.attUsed = d.sec.attUsed + 1 ∧ (attSign d msg).2.sec.attKey = d.sec.attKey ∧
      (d.sec.attUsed + 1 + 1024 = leaves → (attSign d msg).2.sec.attNext.isSome = true)) ∧
    (∀ (k : BitVec 256) (c : List Byte), d.sec.attUsed = leaves → d.sec.attNext = some (k, c) →
      (attSign d msg).1 = exactly 4963 (Config.xmssSign k.toNat 0 msg) ∧ (attSign d msg).2.sec.attUsed = 1 ∧
      (attSign d msg).2.sec.attKey = k ∧ (attSign d msg).2.sec.attCert = c ∧ (attSign d msg).2.sec.attSucc = d.sec.attSucc + 1))

/-- (1) 02 R70, R73, 03 R81: a `SYN_INIT` write clears the mark (bit 17) and loads the counter (bit 18) of the object that bits [16:0] name,
and no other object; `busy` stays for at most 4 subframes, for a time that is free. If the object changes, its owner's mirror is written
and every wait is tested again; otherwise nothing else happens. A write while an earlier one is busy is an overrun and changes no object.
(2) 03 R95, 15 R425, 07 R195: a write that sets `SEQ_CTL.enable` takes effect from stage MEM on, with an accounting period of 1 to 60
minutes, and changes no other register; a write that sets `CTX_CTL.enable` takes effect with 10 to 24 in `records_log2`, and the first one
fixes the size of the record table. Outside these the write is ignored and reported; an enable that is set stays set. -/
def Obligations.SyncObjectsAndEnables : Prop :=
  (∀ (s : State) (v : BitVec 32) (n : Nat) (old o : SynObj), s.dev.sys.portUp = true → n = v.toNat % 2 ^ 17 → old = syncObj s.dev n →
    o = { ctr := if v[18] then BitVec.ofNat 64 (fget s.dev Fd.SYN_INIT_VALUE_value) else old.ctr, mark := if v[17] then none else old.mark } →
    (s.dev.syn.busyUntil ≤ up s.dev → ∃ d, d.syn = { s.dev.syn with busyUntil := d.syn.busyUntil } ∧
      up s.dev ≤ d.syn.busyUntil ∧ d.syn.busyUntil < up s.dev + 4 ∧ d.ctx = s.dev.ctx ∧ d.seq = s.dev.seq ∧ d.evts = s.dev.evts ∧
      (o = old → exec (.synInit v) s = .next (s.settled d)) ∧
      (o ≠ old → exec (.synInit v) s = .next (s.settled (settle (syncStore d n o))) ∧ syncStore d n o = mirrorObj (syncPut d n o) n ∧
        syncObj (syncPut d n o) n = o ∧ ∀ m, m ≠ n → syncObj (syncPut d n o) m = syncObj s.dev m)) ∧
    (up s.dev < s.dev.syn.busyUntil → exec (.synInit v) s = .next (s.settled (postedOverrun s.dev Rg.SYN_INIT)) ∧
      (postedOverrun s.dev Rg.SYN_INIT).syn = s.dev.syn)) ∧
  (∀ s : State, s.dev.sys.portUp = true →
    (fbit s.dev Fd.SEQ_CTL_enable = true ∨ (4 ≤ s.dev.sys.stage ∧ s.dev.sys.stage ≠ 15 ∧ 1 ≤ fget s.dev Fd.SEQ_SCHED_CFG_acct_minutes ∧
      fget s.dev Fd.SEQ_SCHED_CFG_acct_minutes ≤ 60) → exec .seqEnable s = .next (s.settled (fset s.dev Fd.SEQ_CTL_enable 1)) ∧
      fbit (fset s.dev Fd.SEQ_CTL_enable 1) Fd.SEQ_CTL_enable = true) ∧
    (fbit s.dev Fd.SEQ_CTL_enable = false → (s.dev.sys.stage < 4 ∨ s.dev.sys.stage = 15 ∨ fget s.dev Fd.SEQ_SCHED_CFG_acct_minutes < 1 ∨
      60 < fget s.dev Fd.SEQ_SCHED_CFG_acct_minutes) → exec .seqEnable s = .next (s.settled (cfgIgnored s.dev Rg.SEQ_CTL))) ∧
    (fbit s.dev Fd.CTX_CTL_enable = true → exec .ctxEnable s = .next (s.settled (fset s.dev Fd.CTX_CTL_enable 1))) ∧
    (fbit s.dev Fd.CTX_CTL_enable = false → 10 ≤ fget s.dev Fd.CTX_REC_CFG_records_log2 → fget s.dev Fd.CTX_REC_CFG_records_log2 ≤ 24 →
      exec .ctxEnable s = .next (s.settled { fset s.dev Fd.CTX_CTL_enable 1 with ctx := { s.dev.ctx with
        tableLog2 := some (s.dev.ctx.tableLog2.getD (fget s.dev Fd.CTX_REC_CFG_records_log2)) } }) ∧
      fbit (fset s.dev Fd.CTX_CTL_enable 1) Fd.CTX_CTL_enable = true) ∧
    (fbit s.dev Fd.CTX_CTL_enable = false → (fget s.dev Fd.CTX_REC_CFG_records_log2 < 10 ∨ 24 < fget s.dev Fd.CTX_REC_CFG_records_log2) →
      exec .ctxEnable s = .next (s.settled (cfgIgnored s.dev Rg.CTX_CTL))))

/-- 02 R54, R510: a write of `SEQ_CLIENT_SYNC` gives a client its range of sync objects before the sequencer is enabled; a range that would
end above the last object leaves both fields and is reported. -/
def Obligations.ClientSyncRanges : Prop :=
  ∀ (s : State) (c : Nat) (v : Word), s.dev.sys.portUp = true → c < 256 →
    (v.toNat % 2 ^ 17 + v.toNat / 2 ^ 17 % 2 ^ 18 ≤ 131072 → fbit s.dev Fd.SEQ_CTL_enable = false →
      ∃ d, exec (.clientSyncWrite c v) s = .next (s.settled d) ∧
        syncRange d c = (v.toNat % 2 ^ 17, v.toNat / 2 ^ 17 % 2 ^ 18) ∧ (∀ e, e < 256 → e ≠ c → syncRange d e = syncRange s.dev e) ∧
        d.syn = s.dev.syn ∧ d.seq = s.dev.seq ∧ d.evts = s.dev.evts) ∧
    (131072 < v.toNat % 2 ^ 17 + v.toNat / 2 ^ 17 % 2 ^ 18 → exec (.clientSyncWrite c v) s
      = .next (s.settled (cfgIgnored s.dev (Rg.SEQ_CLIENT_SYNC + 0x20 * c))) ∧
      evSet (cfgIgnored s.dev (Rg.SEQ_CLIENT_SYNC + 0x20 * c)) Fd.GLB_EVT_cfg_ignored = true ∧
      ∀ e, syncRange (cfgIgnored s.dev (Rg.SEQ_CLIENT_SYNC + 0x20 * c)) e = syncRange s.dev e)

/-- (1) 10 R308, 15 R411: a share write is taken unless it changes a client's share of a tier whose shares would then exceed the tier's
capacity in service, and then gives the selected client its four shares and no other client another; a latency-critical quota is taken
while the quotas of its slice sum to no more than the slice's arrays in service. Otherwise the write is ignored and reported. (2) 12 R365:
a write of a policer's rates or bursts fills its buckets; a class that is not policed ignores it. (3) 17 R450, R462; 12 R356, R365: an
envelope entry is written unless that would change the entry in force or clear it, which is ignored and reported; a transmit rate is
stored, goes to the meter, and keeps the register busy for at most 132 subframes, and a write meanwhile is an overrun; a gate switch is
armed with its frame if the inactive list is valid, and otherwise ignored and reported. -/
def Obligations.SharesPolicersAndEnvelope : Prop :=
  (∀ (s : State) (v : Word), s.dev.sys.portUp = true →
    (∀ (d : Dev) (c : Nat), c = fget s.dev Fd.MEM_CLIENT_SEL_client →
      d = regWrite s.dev (regDef Rg.MEM_CLIENT_SHARE) c Rg.MEM_CLIENT_SHARE v.toNat false →
      (shareOf d c 0 = some (v.toNat % 2 ^ 8 * 2 ^ 20) ∧ shareOf d c 1 = some (v.toNat / 2 ^ 8 % 2 ^ 12 * 2 ^ 26) ∧
        shareOf d c 2 = some (v.toNat / 2 ^ 20 % 2 ^ 13 * 2 ^ 28) ∧ shareOf d c 3 = some (v.toNat / 2 ^ 33 % 2 ^ 13 * 2 ^ 28) ∧
        (∀ e t, e < 256 → e ≠ c → shareOf d e t = shareOf s.dev e t) ∧ d.evts = s.dev.evts ∧ d.mem = s.dev.mem) ∧
      ((∀ t, t < 4 → shareSum d t ≤ tierCap d t ∨ ∀ e, e < 256 → shareOf s.dev e t = shareOf d e t) →
        exec (.memClientShareWrite v) s = .next (s.settled d)) ∧
      (∀ t e, t < 4 → tierCap d t < shareSum d t → e < 256 → shareOf s.dev e t ≠ shareOf d e t →
        exec (.memClientShareWrite v) s = .next (s.settled (cfgIgnored s.dev Rg.MEM_CLIENT_SHARE)))) ∧
    (∀ (d : Dev) (sl c : Nat), sl = fget s.dev Fd.SEQ_LC_SEL_slice → c = fget s.dev Fd.SEQ_LC_SEL_client →
      d = fset s.dev Fd.SEQ_LC_QUOTA_lc_arrays (v.toNat % 2 ^ 8) (lcBank sl c) →
      lcQuota d sl c = v.toNat % 2 ^ 8 ∧ (∀ e, e < 256 → e ≠ c → lcQuota d sl e = lcQuota s.dev sl e) ∧
      (sumN (clients.map (lcQuota d sl)) ≤ (sliceArrays s.dev sl).length → exec (.lcQuotaWrite v) s = .next (s.settled d)) ∧
      ((sliceArrays s.dev sl).length < sumN (clients.map (lcQuota d sl)) →
        exec (.lcQuotaWrite v) s = .next (s.settled (cfgIgnored s.dev Rg.SEQ_LC_QUOTA))))) ∧
  (∀ (s : State) (v : Word), s.dev.sys.portUp = true →
    (policed (fget s.dev Fd.LNK_POL_SEL_class) = true → ∀ b, b = fget s.dev Fd.LNK_POL_SEL_client * 8 + fget s.dev Fd.LNK_POL_SEL_class →
      (∃ d, exec (.policerWrite true v) s = .next (s.settled d) ∧ look d.lnk.pol b
          = some ⟨v.toNat / 2 ^ 32 * 65536, v.toNat % 2 ^ 32 * 65536, now s.dev⟩ ∧
        fget d Fd.LNK_POL_BURST_cbs b = v.toNat % 2 ^ 32 ∧ fget d Fd.LNK_POL_BURST_pbs b = v.toNat / 2 ^ 32 ∧
        d.lnk.ports = s.dev.lnk.ports ∧ d.evts = s.dev.evts ∧ d.ctx = s.dev.ctx) ∧
      (∃ d, exec (.policerWrite false v) s = .next (s.settled d) ∧
        look d.lnk.pol b = some ⟨fget s.dev Fd.LNK_POL_BURST_pbs b * 65536, fget s.dev Fd.LNK_POL_BURST_cbs b * 65536, now s.dev⟩ ∧
        fget d Fd.LNK_POL_RATE_cir b = v.toNat % 2 ^ 32 ∧ fget d Fd.LNK_POL_RATE_pir b = v.toNat / 2 ^ 32 ∧
        d.lnk.ports = s.dev.lnk.ports ∧ d.evts = s.dev.evts ∧ d.ctx = s.dev.ctx)) ∧
    (policed (fget s.dev Fd.LNK_POL_SEL_class) = false → ∀ b : Bool, exec (.policerWrite b v) s = .next (s.settled s.dev))) ∧
  (∀ (s : State) (v : Word) (f : Nat), s.dev.sys.portUp = true →
    (∀ (d : Dev) (e : Nat), e = fget s.dev Fd.MTR_ENV_SEL_entry →
      d = fset (fset (fset s.dev Fd.MTR_ENV_ENT_minute (v.toNat % 2 ^ 32) e) Fd.MTR_ENV_ENT_cap (v.toNat / 2 ^ 32 % 2 ^ 16) e)
        Fd.MTR_ENV_ENT_valid (v.toNat / 2 ^ 48 % 2) e →
      (fget d Fd.MTR_ENV_ENT_minute e = v.toNat % 2 ^ 32 ∧ fget d Fd.MTR_ENV_ENT_cap e = v.toNat / 2 ^ 32 % 2 ^ 16 ∧
        fget d Fd.MTR_ENV_ENT_valid e = v.toNat / 2 ^ 48 % 2) ∧
      (envEntry s.dev (minuteOf s.dev) = none → exec (.envEntryWrite v) s = .next (s.settled d)) ∧
      (∀ i, envEntry s.dev (minuteOf s.dev) = some i →
        (envEntry d (minuteOf s.dev) = some i ∧ fget d Fd.MTR_ENV_ENT_minute i = fget s.dev Fd.MTR_ENV_ENT_minute i ∧
          fget d Fd.MTR_ENV_ENT_cap i = fget s.dev Fd.MTR_ENV_ENT_cap i → exec (.envEntryWrite v) s = .next (s.settled d)) ∧
        (envEntry d (minuteOf s.dev) ≠ some i ∨ fget d Fd.MTR_ENV_ENT_minute i ≠ fget s.dev Fd.MTR_ENV_ENT_minute i ∨
          fget d Fd.MTR_ENV_ENT_cap i ≠ fget s.dev Fd.MTR_ENV_ENT_cap i →
          exec (.envEntryWrite v) s = .next (s.settled (cfgIgnored s.dev Rg.MTR_ENV_ENT))))) ∧
    (s.dev.mtr.busyUntil ≤ up s.dev → ∃ d, exec (.mtrTxCfgWrite v) s = .next (s.settled d) ∧ fget d Fd.MTR_TX_CFG_rate = v.toNat % 4 ∧
      d.meter = { s.dev.meter with rateNext := v.toNat % 4 } ∧ up d ≤ d.mtr.busyUntil ∧ d.mtr.busyUntil < up d + 132 ∧
      d.evts = s.dev.evts ∧ d.ctx = s.dev.ctx) ∧
    (up s.dev < s.dev.mtr.busyUntil → exec (.mtrTxCfgWrite v) s = .next (s.settled (postedOverrun s.dev Rg.MTR_TX_CFG))) ∧
    (f < 2 ^ 48 → gateValid (gateEntries s.dev (1 - s.dev.lnk.gateList)) = true → ∃ d, exec (.gateSwitchArm f) s = .next (s.settled d) ∧
      fget d Fd.LNK_GATE_SWITCH_frame = f ∧ fbit d Fd.LNK_GATE_SWITCH_arm = true ∧ d.lnk = s.dev.lnk ∧ d.evts = s.dev.evts) ∧
    (gateValid (gateEntries s.dev (1 - s.dev.lnk.gateList)) = false →
      exec (.gateSwitchArm f) s = .next (s.settled (cfgIgnored s.dev Rg.LNK_GATE_SWITCH))))

/-- 13 R366 to R368: an apply of the selected slice's staged bitmaps ends with the first result of R367 that applies, and a valid one is
pending with `applying` set; a write meanwhile is ignored and reported. `SLICE_APPLY_DONE` changes nothing while an entry runs on a
removed array or no room is found for the pages of the removed banks; once those pages have moved and their places are published, it puts
the composition in force, and every slot and waiting entry that the slice's arrays no longer carry is stranded (R157). -/
def Obligations.SliceCompositionsAreApplied : Prop :=
  ∀ (s : State) (n : Nat) (x : Slice), x = sliceOf s.dev n →
    (s.dev.sys.portUp = true → n = fget s.dev Fd.MAP_SLICE_SEL_slice → x.next = none → ∀ r, r = applyResult s.dev n (stagedArrays s.dev n)
        (stagedBanks s.dev n) → exec .mapSliceApply s = .next (s.settled (setSlice s.dev n
          (if r = 0 then { x with next := some (stagedArrays s.dev n, stagedBanks s.dev n), result := 0 } else { x with result := r })))) ∧
    (s.dev.sys.portUp = true → n = fget s.dev Fd.MAP_SLICE_SEL_slice → x.next ≠ none →
      exec .mapSliceApply s = .next (s.settled (cfgIgnored s.dev Rg.MAP_SLICE_APPLY))) ∧
    (∀ y : Slice, sliceOf (setSlice s.dev n y) n = y ∧ ∀ m, m ≠ n → sliceOf (setSlice s.dev n y) m = sliceOf s.dev m) ∧
    (∀ arrays banks out, s.dev.sys.resetLow = false → x.next = some (arrays, banks) → out = x.banks.filter (fun b => !banks.contains b) →
      (∀ t a, t ∈ s.dev.fab.teams → a ∈ t.arrays → a ∈ x.arrays → a ∉ arrays → exec (.sliceApplyDone n) s = .next (s.settled s.dev)) ∧
      ((∀ t ∈ s.dev.fab.teams, ∀ a ∈ t.arrays, a ∈ x.arrays → a ∈ arrays) →
        (vacate s.dev out = none → exec (.sliceApplyDone n) s = .next (s.settled s.dev)) ∧
        (∀ d, vacate s.dev out = some d →
          (bankHeld (publishMoved d) out = true → exec (.sliceApplyDone n) s = .next (s.settled (publishMoved d))) ∧
          (bankHeld (publishMoved d) out = false → exec (.sliceApplyDone n) s = .next (s.settled (strandCheck
            (setSlice (publishMoved d) n { x with arrays := arrays, banks := banks, next := none })))))))

/-- 12 R361, R364; 11 R337; 13 R374, R378: a recall of a loan, or of all with 0xFFFFFFFF, starts its deadline and tells the borrower, and one
recalled already or unknown stays as it is; an index changes to BUILDING, SERVING or TEST, and any other state or an index that does not
exist is ignored and reported; a leave recalls every loan and stays pending; a handoff entry is offered, or ends REFUSED with the first
reason that applies, and one that is open, or on an isolated device, is ignored and reported. -/
def Obligations.LoansIndexesHandoffsAndLeave : Prop :=
  ∀ s : State, s.dev.sys.portUp = true →
    (∀ n : BitVec 32, n.toNat ≠ 0xFFFFFFFF → (∀ l : Loan, look s.dev.lnk.loans n.toNat = some l →
      (l.recalled = none → exec (.lnkRecall n) s = .next (s.settled (loanSend
        (setLoan s.dev n.toNat { l with recalled := some (up s.dev, fget s.dev Fd.LNK_RECALL_DEADLINE_frames) }) l.borrower
        (loanFrame 8 0 0 0 n.toNat 0 0 (fget s.dev Fd.LNK_RECALL_DEADLINE_frames) [])))) ∧
      (l.recalled ≠ none → exec (.lnkRecall n) s = .next (s.settled s.dev))) ∧
      (look s.dev.lnk.loans n.toNat = none → exec (.lnkRecall n) s = .next (s.settled s.dev))) ∧
    (exec (.lnkRecall 0xFFFFFFFF) s = .next (s.settled ((keys s.dev.lnk.loans).foldl recallLoan s.dev))) ∧
    (∀ (v : BitVec 32) (n : Nat), n = fget s.dev Fd.FLS_IDX_SEL_index →
      ((idxOf s.dev n).state ≠ 0 → v.toNat % 8 ∈ [1, 2, 3] → ∃ d, exec (.flsIdxStateWrite v) s = .next (s.settled d) ∧
        idxOf d n = { idxOf s.dev n with state := v.toNat % 8 } ∧ (∀ m, m ≠ n → idxOf d m = idxOf s.dev m) ∧
        fget d Fd.FLS_IDX_STATE_state = v.toNat % 8 ∧ d.evts = s.dev.evts) ∧
      ((idxOf s.dev n).state = 0 ∨ v.toNat % 8 ∉ [1, 2, 3] →
        exec (.flsIdxStateWrite v) s = .next (s.settled (cfgIgnored s.dev Rg.FLS_IDX_STATE)))) ∧
    (mapServes s.dev = true → s.dev.map.member = true → ∃ d, exec .mapLeave s = .next (s.settled (leaveTry (recallAll d))) ∧
      d.map = { s.dev.map with leaving := true } ∧ d.lnk = s.dev.lnk ∧ d.ctx = s.dev.ctx ∧ fbit d Fd.MAP_CTL_leave = true) ∧
    (∀ e, e = fget s.dev Fd.MAP_HO_SEL_entry →
      (hoOpen (hoOf s.dev e) = true ∨ s.dev.map.isolated = true → exec .mapHoGo s = .next (s.settled (cfgIgnored s.dev Rg.MAP_HO_GO))) ∧
      (hoOpen (hoOf s.dev e) = false → s.dev.map.isolated = false → mapServes s.dev = true → unitInReset s.dev 6 = true →
        exec .mapHoGo s = .next (s.settled { s.dev with map := { s.dev.map with goHeld := insertN e s.dev.map.goHeld } })) ∧
      (hoOpen (hoOf s.dev e) = false → s.dev.map.isolated = false → mapServes s.dev = true → unitInReset s.dev 6 = false →
        (hoCheck s.dev e = 0 → exec .mapHoGo s = .next (s.settled (hoOffer s.dev e))) ∧
        (hoCheck s.dev e ≠ 0 → ∃ d, exec .mapHoGo s = .next (s.settled d) ∧
          hoOf d e = { state := 5, dest := fget s.dev Fd.MAP_HO_REQ_dest e, reason := hoCheck s.dev e } ∧
          evSet d Fd.MAP_EVT_handoff_done = true ∧ d.ctx = s.dev.ctx)))

/-- 02 R18, R54 to R56, R59, R502: a submission ring that is neither open nor draining opens with both indices at 0, not stalled and bound to
one control sequencer that serves fewer than 16 other open rings, if TDISP's link encryption is active, its size is 2^4 to 2^16, its
completion ring is open and its area does not wrap; otherwise it stays closed with a report, and so does a draining one. On an open ring
the write leaves the WD fields. A close of an open ring ends what waits with `CUT`, and the ring drains until nothing is left; only then
does `SQ_DRAIN_END` end the draining. A resume ends a stall, and what was held back is taken up. The other rings stay as they are. -/
def Obligations.SubmissionRingsOpenAndClose : Prop :=
  ∀ (s : State) (r : Nat) (v : BitVec 32) (q : Sq), r < 512 → s.dev.sys.portUp = true → q = sqOf s.dev r →
    (∀ (e : Dev) (k cq : Nat), sqOpenBit s.dev r = false → q.draining = false →
      e = regWrite s.dev (regDef Rg.SEQ_SQ_CFG) r (sqCfgAddr r) (v.toNat ||| 1) false → k = fget e Fd.SEQ_SQ_CFG_size_log2 r → cq = sqCq e r →
      (s.dev.hst.ideActive = true → 4 ≤ k → k ≤ 16 → cq < 512 → cqOpenBit e cq = true →
        fget e Fd.SEQ_SQ_BASE_base r * 4096 + 64 * 2 ^ k ≤ 2 ^ 64 →
        ∃ d n, exec (.sqOpen r v) s = .next (s.settled d) ∧ sqOpenBit d r = true ∧
          sqOf d r = { q with head := 0, tail := 0, stalled := false, sequencer := some n } ∧ n < 32 ∧
          ((List.range 512).filter (fun i => i != r && sqOpenBit d i && (sqOf d i).sequencer == some n)).length < 16 ∧
          (∀ i, i ≠ r → sqOf d i = sqOf s.dev i) ∧ d.regs = e.regs ∧ d.evts = s.dev.evts ∧ d.ctx = s.dev.ctx) ∧
      (s.dev.hst.ideActive = false ∨ k < 4 ∨ 16 < k ∨ 512 ≤ cq ∨ cqOpenBit e cq = false ∨
        2 ^ 64 < fget e Fd.SEQ_SQ_BASE_base r * 4096 + 64 * 2 ^ k →
        exec (.sqOpen r v) s = .next (s.settled (cfgIgnored (fset e Fd.SEQ_SQ_CFG_open 0 r) (sqCfgAddr r))))) ∧
    (q.draining = true → exec (.sqOpen r v) s = .next (s.settled (cfgIgnored s.dev (sqCfgAddr r)))) ∧
    (q.draining = false → sqOpenBit s.dev r = true → exec (.sqOpen r v) s
      = .next (s.settled (regWrite s.dev (regDef Rg.SEQ_SQ_CFG) r (sqCfgAddr r) (v.toNat ||| 1) true))) ∧
    (sqOpenBit s.dev r = true → ∃ d e, sqOpenBit d r = false ∧ d.ctx = s.dev.ctx ∧ d.evts = s.dev.evts ∧ (∀ i, i ≠ r → sqOf d i = sqOf s.dev i) ∧
      sqOf d r = { q with tail := q.head, stalled := false, sequencer := none, flights := q.flights.map (fun f =>
        if f.phase = .waiting then { f with phase := .done, status := stCut, result := 0 } else f) } ∧
      e = settle d ∧ exec (.sqClose r) s = .next (s.settled (setSq e r { sqOf e r with draining := decide ((sqOf e r).flights ≠ []) }))) ∧
    (q.draining = true → q.flights = [] → exec (.sqDrainEnd r) s = .next (s.settled (setSq s.dev r { q with draining := false }))) ∧
    (q.draining = false ∨ q.flights ≠ [] → exec (.sqDrainEnd r) s = .next (s.settled s.dev)) ∧
    (q.stalled = true → exec (.sqResume r) s = .next (s.settled (settle (setSq s.dev r { q with stalled := false })))) ∧
    (q.stalled = false → exec (.sqResume r) s = .next (s.settled s.dev))

/-- (1) 02 R42, R50, R55, R502: a completion or stream ring that is not open opens at index 0 with phase 1 if link encryption is active, its
size is in range (2^6 to 2^20, or 2^4 to 2^16) and its ring and shadow areas do not wrap, and otherwise stays closed with a report. A
completion ring that an open or draining submission ring names, and a stream ring whose slot is held, are not closed, with a report; any
other open one is. The other rings stay as they are. (2) 02 R42, R502, 18 R477: the operator log or the selected client's fault ring that
is not open opens at entry 0 with phase 1, its sequence as it was, if link encryption is active, its size is in range (2^6 to 2^20, or 2^4
to 2^16) and its areas do not wrap; otherwise it stays closed with a report. On an open ring the write leaves the WD fields. -/
def Obligations.CompletionStreamAndFaultRingsOpenAndClose : Prop :=
  (∀ (s : State) (r : Nat) (v : BitVec 32), s.dev.sys.portUp = true →
    (∀ e k, r < 512 → cqOpenBit s.dev r = false →
      e = regWrite s.dev (regDef Rg.SEQ_CQ_CFG) r (copyAddr Rg.SEQ_CQ_CFG 0x40 r) (v.toNat ||| 1) false → k = fget e Fd.SEQ_CQ_CFG_size_log2 r →
      (s.dev.hst.ideActive = true → 6 ≤ k → k ≤ 20 → fget e Fd.SEQ_CQ_BASE_base r * 4096 + 16 * 2 ^ k ≤ 2 ^ 64 →
        fget e Fd.SEQ_CQ_SHADOW_shadow r * 8 + 8 ≤ 2 ^ 64 →
        ∃ d, exec (.cqOpen r v) s = .next (s.settled d) ∧ cqOpenBit d r = true ∧ cqOf d r = {} ∧
          (∀ q, q ≠ r → cqOf d q = cqOf s.dev q) ∧ d.seq.sq = s.dev.seq.sq ∧ d.regs = e.regs ∧ d.evts = s.dev.evts ∧ d.ctx = s.dev.ctx) ∧
      (s.dev.hst.ideActive = false ∨ k < 6 ∨ 20 < k ∨ 2 ^ 64 < fget e Fd.SEQ_CQ_BASE_base r * 4096 + 16 * 2 ^ k ∨
        2 ^ 64 < fget e Fd.SEQ_CQ_SHADOW_shadow r * 8 + 8 → exec (.cqOpen r v) s
          = .next (s.settled (cfgIgnored (fset e Fd.SEQ_CQ_CFG_open 0 r) (copyAddr Rg.SEQ_CQ_CFG 0x40 r))))) ∧
    (r < 512 → cqOpenBit s.dev r = true →
      (exec (.cqOpen r v) s
        = .next (s.settled (regWrite s.dev (regDef Rg.SEQ_CQ_CFG) r (copyAddr Rg.SEQ_CQ_CFG 0x40 r) (v.toNat ||| 1) true))) ∧
      ((∀ i, i < 512 → sqCq s.dev i = r → sqOpenBit s.dev i = false ∧ (sqOf s.dev i).draining = false) →
        ∃ d, exec (.cqClose r) s = .next (s.settled d) ∧ cqOpenBit d r = false ∧ d.seq = s.dev.seq ∧ d.evts = s.dev.evts) ∧
      (∀ i, i < 512 → sqCq s.dev i = r → sqOpenBit s.dev i = true ∨ (sqOf s.dev i).draining = true →
        exec (.cqClose r) s = .next (s.settled (cfgIgnored s.dev (copyAddr Rg.SEQ_CQ_CFG 0x40 r))))) ∧
    (∀ e k, r < 4096 → strOpenBit s.dev r = false →
      e = regWrite s.dev (regDef Rg.SEQ_STR_CFG) r (copyAddr Rg.SEQ_STR_CFG 0x40 r) (v.toNat ||| 1) false →
      k = fget e Fd.SEQ_STR_CFG_size_log2 r →
      (s.dev.hst.ideActive = true → 4 ≤ k → k ≤ 16 → fget e Fd.SEQ_STR_BASE_base r * 4096 + 64 * 2 ^ k ≤ 2 ^ 64 →
        fget e Fd.SEQ_STR_SHADOW_shadow r * 8 + 8 ≤ 2 ^ 64 →
        ∃ d, exec (.strOpen r v) s = .next (s.settled d) ∧ strOpenBit d r = true ∧ strOf d r = {} ∧
          (∀ q, q ≠ r → strOf d q = strOf s.dev q) ∧ d.seq.sq = s.dev.seq.sq ∧ d.regs = e.regs ∧ d.evts = s.dev.evts ∧ d.ctx = s.dev.ctx) ∧
      (s.dev.hst.ideActive = false ∨ k < 4 ∨ 16 < k ∨ 2 ^ 64 < fget e Fd.SEQ_STR_BASE_base r * 4096 + 64 * 2 ^ k ∨
        2 ^ 64 < fget e Fd.SEQ_STR_SHADOW_shadow r * 8 + 8 → exec (.strOpen r v) s
          = .next (s.settled (cfgIgnored (fset e Fd.SEQ_STR_CFG_open 0 r) (copyAddr Rg.SEQ_STR_CFG 0x40 r))))) ∧
    (r < 4096 → strOpenBit s.dev r = true →
      (exec (.strOpen r v) s
        = .next (s.settled (regWrite s.dev (regDef Rg.SEQ_STR_CFG) r (copyAddr Rg.SEQ_STR_CFG 0x40 r) (v.toNat ||| 1) true))) ∧
      ((slotOf s.dev r).state = .free →
        ∃ d, exec (.strClose r) s = .next (s.settled d) ∧ strOpenBit d r = false ∧ d.seq = s.dev.seq ∧ d.evts = s.dev.evts) ∧
      ((slotOf s.dev r).state ≠ .free → exec (.strClose r) s = .next (s.settled (cfgIgnored s.dev (copyAddr Rg.SEQ_STR_CFG 0x40 r)))))) ∧
  (∀ (s : State) (op : Bool) (v : BitVec 32) (bank ring sh : Nat) (f : Fd) (e : Dev), s.dev.sys.portUp = true →
    bank = (if op then 0 else fget s.dev Fd.FLT_CLIENT_SEL_client) → ring = (if op then 256 else bank) →
    f = (if op then Fd.FLT_LOG_CFG_open else Fd.FLT_CLIENT_CFG_open) →
    (fbit s.dev f bank = true → exec (.faultRingOpen op v) s
      = .next (s.settled (regWrite s.dev (regDef f.off) bank f.off (v.toNat ||| 1) true))) ∧
    (fbit s.dev f bank = false → e = regWrite s.dev (regDef f.off) bank f.off (v.toNat ||| 1) false →
      sh = (if op then fget e Fd.FLT_LOG_SHADOW_shadow else fget e Fd.FLT_CLIENT_SHADOW_shadow bank) * 8 →
      (s.dev.hst.ideActive = true → (if op then 6 else 4) ≤ (fltRingCfg e ring).2.1 → (fltRingCfg e ring).2.1 ≤ (if op then 20 else 16) →
        (fltRingCfg e ring).2.2 + 64 * 2 ^ (fltRingCfg e ring).2.1 ≤ 2 ^ 64 → sh + 8 ≤ 2 ^ 64 →
        ∃ d, exec (.faultRingOpen op v) s = .next (s.settled d) ∧ fbit d f bank = true ∧
          mget d.flt.rings {} ring = { mget s.dev.flt.rings {} ring with tail := 0, phase := true, cons := 0 } ∧
          (∀ q, q ≠ ring → mget d.flt.rings {} q = mget s.dev.flt.rings {} q) ∧ d.regs = e.regs ∧ d.evts = s.dev.evts ∧
          d.seq = s.dev.seq ∧ d.ctx = s.dev.ctx) ∧
      (s.dev.hst.ideActive = false ∨ (fltRingCfg e ring).2.1 < (if op then 6 else 4) ∨ (if op then 20 else 16) < (fltRingCfg e ring).2.1 ∨
        2 ^ 64 < (fltRingCfg e ring).2.2 + 64 * 2 ^ (fltRingCfg e ring).2.1 ∨ 2 ^ 64 < sh + 8 →
        exec (.faultRingOpen op v) s = .next (s.settled (cfgIgnored (fset e f 0 bank) f.off)))))

/-- (1) 02 R44, R47, R48: a doorbell sets the tail of its open ring to the value's low 16 bits and changes nothing else; one of a closed ring,
or with a tail that is not an index of the ring, changes no tail and is reported; in state ERROR it changes nothing. (2) 02 R45, R48, R49,
R58, R63, R507, 07 R208: while the sequencer runs and the data path to the host is open, the descriptor at the head of an open ring that
is not stalled and not empty is fetched if a completion entry is free: the head steps, the entry is reserved, and the descriptor joins its
ring behind the earlier ones, with its fetch time and whether its wait or signal field failed. If a check of the first group fails it ends
with that check's status and result. Otherwise nothing is fetched. -/
def Obligations.DoorbellsAndFetch : Prop :=
  (∀ (s : State) (r : Nat) (v : BitVec 32), r < 512 → s.dev.sys.portUp = true →
    (s.dev.hst.tdisp ≠ .error → sqOpenBit s.dev r = true → v.toNat % 2 ^ 16 < 2 ^ fget s.dev Fd.SEQ_SQ_CFG_size_log2 r →
      exec (.doorbell r v) s = .next (s.settled (setSq s.dev r { sqOf s.dev r with tail := v.toNat % 2 ^ 16 }))) ∧
    (s.dev.hst.tdisp ≠ .error → sqOpenBit s.dev r = true → 2 ^ fget s.dev Fd.SEQ_SQ_CFG_size_log2 r ≤ v.toNat % 2 ^ 16 →
      exec (.doorbell r v) s = .next (s.settled (raise s.dev Fd.SEQ_EVT_doorbell_invalid))) ∧
    (s.dev.hst.tdisp ≠ .error → sqOpenBit s.dev r = false →
      exec (.doorbell r v) s = .next (s.settled (raise s.dev Fd.SEQ_EVT_doorbell_closed))) ∧
    (s.dev.hst.tdisp = .error → exec (.doorbell r v) s = .next (s.settled s.dev)) ∧
    (∀ y : Sq, sqOf (setSq s.dev r y) r = y ∧ ∀ i, i ≠ r → sqOf (setSq s.dev r y) i = sqOf s.dev i)) ∧
  (∀ (s : State) (r : Nat) (x : Desc) (list : List Byte) (q : Sq) (cq : Nat), q = sqOf s.dev r → cq = sqCq s.dev r →
    (seqHalted s.dev = false → hostPath s.dev = true → sqOpenBit s.dev r = true → q.stalled = false → q.head ≠ q.tail → q.flights.length ≤ 256 →
      0 < cqFree s.dev cq →
      ∃ (d : Dev) (f : Flight), f = {
          id := q.nextId, desc := x, list := list, fetchTc := up s.dev, entries := f.entries,
          noSignal := (commonFaults x (syncRange s.dev (sqClient s.dev r)).2).any (fun p => p.1 != 1 && p.2) } ∧
        f.entries.map (fun y => (y.handle, y.single, y.started, y.finished)) = (if dOp x = 0x10 then (List.range (dbits x 4 0 13)).map
          (fun i => (leAt list (8 * i) 4, bitOf (leAt list (8 * i + 4) 1) 0, false, false)) else []) ∧
        sqOf d r = { q with
          head := (q.head + 1) % 2 ^ fget s.dev Fd.SEQ_SQ_CFG_size_log2 r, flights := q.flights ++ [f], nextId := q.nextId + 1 } ∧ (∀ i, i ≠ r → sqOf d i = sqOf s.dev i) ∧
        cqOf d cq = { cqOf s.dev cq with reserved := (cqOf s.dev cq).reserved + 1 } ∧ (∀ i, i ≠ cq → cqOf d i = cqOf s.dev i) ∧
        d.regs = s.dev.regs ∧ d.ctx = s.dev.ctx ∧ d.evts = s.dev.evts ∧
        (firstCheck s.dev (sqClient s.dev r) x list = none → exec (.descriptorFetch r x list) s = .next (s.settled (settle d))) ∧
        (∀ st res, firstCheck s.dev (sqClient s.dev r) x list = some (st, res) →
          exec (.descriptorFetch r x list) s = .next (s.settled (finish d r f.id st res)))) ∧
    (seqHalted s.dev = true ∨ hostPath s.dev = false ∨ sqOpenBit s.dev r = false ∨ q.stalled = true ∨ q.head = q.tail ∨ 256 < q.flights.length ∨
      cqFree s.dev cq = 0 → exec (.descriptorFetch r x list) s = .next (s.settled s.dev)))

/-- 02 R40, R49, R51, R59, R62: delivering the only flight of a ring that is not stalled, where it applies no signal, posts 16 bytes on the
completion ring's link at its write index, with tag, status, phase, ring, result and time; the index steps, the reservation is returned
and the flight is gone. A quiet flight that ended `OK` posts nothing and only returns its reservation. -/
def Obligations.CompletionHoldsTagStatusAndResult : Prop :=
  ∀ (d e : Dev) (r : Nat) (f : Flight) (cq : Nat) (c : Cq), (sqOf d r).flights = [f] → (sqOf d r).stalled = false →
    d.hst.tdisp ≠ .error → (dSignal f.desc).2.1 = 0 ∨ f.noSignal = true → f.changed = false → cq = sqCq d r → c = cqOf d cq → e = deliverOne d r f →
    (dQuiet f.desc = false ∨ f.status ≠ stOK →
      e.posted = d.posted ++ [⟨ringLink d cq, fget d Fd.SEQ_CQ_BASE_base cq * 4096 + 16 * c.tail,
        fields [(dTag f.desc, 2), (f.status, 1), (b2n c.phase, 1), (r, 2), (f.result, 4), (now d % 2 ^ 48, 6)]⟩] ∧
      ((cqOf e cq).tail, (cqOf e cq).phase) = ringStep (fget d Fd.SEQ_CQ_CFG_size_log2 cq) c.tail c.phase) ∧
    (dQuiet f.desc = true → f.status = stOK → e.posted = d.posted ∧ (cqOf e cq).tail = c.tail ∧ (cqOf e cq).phase = c.phase) ∧
    (cqOf e cq).reserved = c.reserved - 1 ∧ (sqOf e r).flights = [] ∧ e.ctx = d.ctx ∧ e.regs = d.regs

/-- (1) 02 R51, R52, R509, 07 R224: a hold-off interrupts, and the count starts again, once it has elapsed since the first completion that
counts, and does nothing before. A shadow read of an open ring takes the consumer index modulo the ring's size, and a stream ring then
writes the records that wait while records are free; a cut that this finishes leaves the session at a step boundary. (2) 02 R60, R71, R72,
07 R208: at dispatch `SYNC_SIGNAL` changes its object as its own operation says (clear the mark if asked; add, saturating, or take the
maximum), no other object, marks whether that changed it, and completes; `SYNC_WAIT` starts its own test; `NOP` completes. A `SYNC_WAIT`
whose timeout has run out, a `PREFILL` not dispatched and a step of a batch not started whose deadline has run out end with `EXPIRED`, the
step with its session's length and sequence in its record. Before the timeout nothing changes. -/
def Obligations.SyncCommandsHoldoffAndExpiries : Prop :=
  (∀ (s : State) (r c h : Nat), h = fget s.dev Fd.SEQ_CQ_MOD_holdoff r →
    (h ≠ 0 → 0 < (cqOf s.dev r).since → (cqOf s.dev r).firstAt + h * 1024 ≤ up s.dev →
      ∃ d, exec (.msixHoldoffExpire r) s = .next (s.settled d) ∧ cqOf d r = { cqOf s.dev r with since := 0 } ∧
        (∀ i, i ≠ r → cqOf d i = cqOf s.dev i) ∧
        d.out = s.dev.out ++ (if fbit s.dev Fd.SEQ_CQ_CFG_irq_en r then [.msix (fget s.dev Fd.SEQ_CQ_CFG_vector r)] else []) ∧
        d.regs = s.dev.regs ∧ d.ctx = s.dev.ctx) ∧
    (h = 0 ∨ (cqOf s.dev r).since = 0 ∨ up s.dev < (cqOf s.dev r).firstAt + h * 1024 →
      exec (.msixHoldoffExpire r) s = .next (s.settled s.dev)) ∧
    (s.dev.sys.resetLow = false → hostPath s.dev = true →
      (cqOpenBit s.dev r = true → exec (.shadowRead 0 r c) s = .next (s.settled (setCq s.dev r { cqOf s.dev r with
        cons := c % 2 ^ fget s.dev Fd.SEQ_CQ_CFG_size_log2 r }))) ∧
      (∀ d, strOpenBit s.dev r = true → d = strFlushBy ((strOf s.dev r).waiting.length + 1) (setStr s.dev r { strOf s.dev r with
          cons := c % 2 ^ fget s.dev Fd.SEQ_STR_CFG_size_log2 r }) r →
        exec (.shadowRead 1 r c) s = .next (s.settled
          (if (slotOf s.dev r).state = .cutPending ∧ (slotOf d r).state ≠ .cutPending then boundary d (slotOf d r).rcd else d))) ∧
      ((fltRingCfg s.dev r).1 = true → ∃ d, exec (.shadowRead 2 r c) s = .next (s.settled d) ∧
        mget d.flt.rings {} r = { mget s.dev.flt.rings {} r with cons := c % 2 ^ (fltRingCfg s.dev r).2.1 } ∧
        (∀ i, i ≠ r → mget d.flt.rings {} i = mget s.dev.flt.rings {} i) ∧ d.seq = s.dev.seq ∧ d.evts = s.dev.evts ∧ d.ctx = s.dev.ctx) ∧
      (∀ n, n = 2 ^ fget s.dev Fd.MTR_LOG_CFG_size_log2 → fbit s.dev Fd.MTR_LOG_BASE_log_en = true → ∃ d,
        exec (.shadowRead 3 r c) s = .next (s.settled d) ∧ d.mtr.lapped = s.dev.mtr.lapped ∧ d.mtr.unread ≤ s.dev.mtr.unread ∧
        (c % n = s.dev.mtr.cons → d = s.dev) ∧ (c % n ≠ s.dev.mtr.cons → d.mtr.cons = c % n ∧
          d.mtr.unread = min s.dev.mtr.unread ((s.dev.mtr.written % n + n - c % n) % n)) ∧ d.regs = s.dev.regs ∧ d.ctx = s.dev.ctx))) ∧
  (∀ (s : State) (r : Nat) (f : Flight),
    (atDispatch s.dev r 0xF0 f → exec (.nop r) s = .next (s.settled (finish s.dev r f.id stOK 0))) ∧
    (∀ (obj : Nat) (old : SynObj), atDispatch s.dev r 0x60 f → obj = syncAbs s.dev (sqClient s.dev r) (dbits f.desc 4 0 17) →
      old = syncObj s.dev obj → ∃ d, exec (.syncSignal r) s = .next (s.settled (finish d r f.id stOK 0)) ∧
      syncObj d obj = {
        ctr := (if dbits f.desc 36 0 2 = 1 then BitVec.ofNat 64 (min (old.ctr.toNat + db f.desc 24 8) (2 ^ 64 - 1))
          else if dbits f.desc 36 0 2 = 2 then BitVec.ofNat 64 (max old.ctr.toNat (db f.desc 24 8)) else old.ctr),
        mark := if dbits f.desc 36 2 1 = 1 then none else old.mark } ∧
      (flightOf d r f.id).map (fun g => g.changed) = some (decide (syncObj d obj ≠ old)) ∧
      (∀ o, o ≠ obj → syncObj d o = syncObj s.dev o) ∧ d.ctx = s.dev.ctx) ∧
    (atDispatch s.dev r 0x61 f → f.testedAt = none → exec (.syncWait r) s
      = .next (s.settled (settle (updFlight s.dev r f.id (fun g => { g with testedAt := some (up s.dev) }))))) ∧
    (∀ t, (sqOf s.dev r).flights.find? (fun g => g.phase == .waiting) = some f → f.testedAt = some t → dOp f.desc = 0x61 →
      (db f.desc 32 4 ≠ 0 → t + db f.desc 32 4 * 65536 ≤ up s.dev →
        exec (.syncWaitTimeout r) s = .next (s.settled (finish s.dev r f.id stExpired 0))) ∧
      (db f.desc 32 4 = 0 ∨ up s.dev < t + db f.desc 32 4 * 65536 → exec (.syncWaitTimeout r) s = .next (s.settled s.dev))) ∧
    (∀ l1 l2, (sqOf s.dev r).flights = l1 ++ f :: l2 → (∀ g ∈ l1, g.phase = .done ∨ dOp g.desc ≠ 0x11 ∧ dOp g.desc ≠ 0x10) →
      (∀ e, f.phase = .waiting → dOp f.desc = 0x11 → db f.desc 44 4 ≠ 0 → f.fetchTc + db f.desc 44 4 * 65536 ≤ up s.dev →
        exec (.deadlineExpiry r e) s = .next (s.settled (finish s.dev r f.id stExpired 0))) ∧
      (∀ e x rec, f.phase ≠ .done → dOp f.desc = 0x10 → db f.desc 52 4 ≠ 0 → f.fetchTc + db f.desc 52 4 * 65536 ≤ up s.dev →
        f.entries[e]? = some x → x.started = false → x.finished = false → rec = recOf s.dev (x.handle % 2 ^ 24) →
        exec (.deadlineExpiry r e) s = .next (s.settled (entryEnd s.dev r f.id e stExpired 0 0 0 rec.len (rec.stepSeq % 2 ^ 32))))))

/-- (1) 02 R63, R69, R103: whatever its command, the oldest undispatched descriptor of a ring completes with `DEPENDENCY_FAILED` and the
failure mark if its wait can no longer succeed; while a fence, an earlier command of its session, its wait or a unit in reset holds it,
and when it has another opcode than the command, nothing changes. (2) 01 R25, 03 R95, 13 R373: a session, step, object, search or slate
command at dispatch has no effect and completes with `BUSY_RETRY`: on an isolated device with result `period` × `miss`, and otherwise
until timecode is acquired and stage LINKS has completed with result 100; so does `RECIPE_LOAD` until stage READY. A batch ends so each of
its entries that has neither started nor ended. -/
def Obligations.FailedWaitsAndGatedCommands : Prop :=
  (∀ (s : State) (r op : Nat) (f : Flight) (c : Instr) (list list' : List Byte) (inc : List Incident) (incs : List (Nat × Incident)),
    (c, op) ∈ [(.sessionOpen r, 0x01), (.sessionClose r, 0x02), (.sessionPark r, 0x03), (.sessionResume r, 0x04), (.sessionCut r, 0x05),
      (.sessionTrim r, 0x06), (.sessionPause r, 0x07), (.sessionTtl r, 0x08), (.stepSubmit r incs, 0x10), (.prefill r list inc, 0x11),
      (.tuneStep r list inc, 0x12), (.objMove r, 0x20), (.objPlaceHint r, 0x21), (.objFree r, 0x22), (.tableLoad r list, 0x30), (.tableSwap r, 0x31),
      (.gatherPool r list inc, 0x32), (.search r list, 0x40), (.vecInsert r list list' inc, 0x41), (.vecDelete r list, 0x42), (.indexFold r, 0x43),
      (.slateMark r, 0x50), (if deviceMode s.dev r then .restoreDevice r else .restore r, 0x51), (.syncSignal r, 0x60), (.syncWait r, 0x61),
      (.recipeLoad r list, 0x70), (.recipeUnload r, 0x71), (.constraintLoad r list, 0x78), (.stopSet r, 0x79), (.checkValue r list, 0x80),
      (.nop r, 0xF0)] →
    (∀ m, stageThree s.dev r = some (f, .fails m) → dOp f.desc = op →
      exec c s = .next (s.settled (finish s.dev r f.id stDependencyFailed (m % 2 ^ 32)))) ∧
    (stageThree s.dev r = some (f, .waits) → exec c s = .next (s.settled s.dev)) ∧
    (∀ y, stageThree s.dev r = some (f, y) → dOp f.desc ≠ op → exec c s = .next (s.settled s.dev)) ∧
    (stageThree s.dev r = some (f, .ready f) → (unitsOf s.dev f.desc f.list).any (unitInReset s.dev) = true →
      exec c s = .next (s.settled s.dev)) ∧
    (stageThree s.dev r = none → exec c s = .next (s.settled s.dev))) ∧
  (∀ (s : State) (r : Nat) (f : Flight) (c : Instr) (op : Nat) (list list' : List Byte) (inc : List Incident) (incs : List (Nat × Incident)),
    atDispatch s.dev r op f → ∀ res, (res = fget s.dev Fd.MAP_HB_period * fget s.dev Fd.MAP_HB_miss ∧ s.dev.map.isolated = true) ∨
      (res = 100 ∧ s.dev.map.isolated = false ∧ (s.dev.tc.acquired = false ∨ s.dev.sys.stage < 7 ∨ s.dev.sys.stage = 15)) →
    ((c, op) ∈ [(.sessionOpen r, 0x01), (.sessionClose r, 0x02), (.sessionPark r, 0x03), (.sessionResume r, 0x04), (.sessionCut r, 0x05),
      (.sessionTrim r, 0x06), (.sessionPause r, 0x07), (.sessionTtl r, 0x08), (.prefill r list inc, 0x11),
      (.tuneStep r list inc, 0x12), (.objMove r, 0x20), (.objPlaceHint r, 0x21), (.objFree r, 0x22), (.search r list, 0x40),
      (.vecInsert r list list' inc, 0x41), (.vecDelete r list, 0x42), (.indexFold r, 0x43), (.slateMark r, 0x50),
      (if deviceMode s.dev r then .restoreDevice r else .restore r, 0x51)] →
      exec c s = .next (s.settled (finish s.dev r f.id stBusyRetry res))) ∧
    (op = 0x10 → exec (.stepSubmit r incs) s
      = .next (s.settled ((openEntries f).foldl (fun d e => entryFail d r f e.2 stBusyRetry res) s.dev))) ∧
    (op = 0x70 → s.dev.sys.stage ≠ 8 → exec (.recipeLoad r list) s = .next (s.settled (finish s.dev r f.id stBusyRetry 100))))

/-- (1) 18 R484, R486: register-fed units: a feed continues the running value with its 1, 2 or 4 bytes in little-endian order and counts them,
and is ignored and reported for a unit that is not in register mode or in reset; `CVU_INIT` loads the algorithm's init, and `CVU_RUN` the
value below its width; a write of the configuration sets mode and algorithm and loads init, and is ignored and reported for a reserved
algorithm or a change of mode of a busy unit. The other units stay as they are. (2) 18 R480: the running value continues exactly: feeding
one input after another is feeding them joined, so a running value that was saved may be given back. (3) 18 R481, R482: `CHECK_VALUE` at
dispatch posts what its mode produces over its input to its output address on the ring's link, counts its bytes and completes with its
result; a mismatch of STRIP is recorded; on a unit in register mode it completes with `STATE_CONFLICT` and result 1. COMPUTE produces the
check value, or zero with `partial`, and the running value; APPEND the input and its check value; STRIP of what APPEND wrote gives the
input back with result 0. -/
def Obligations.CheckValueUnits : Prop :=
  (∀ (s : State) (v : Word) (u : Nat), s.dev.sys.portUp = true → u = cvuSel s.dev →
    (∀ c n off, (c, n, off) ∈ [(Instr.cvuFeedB v, 1, Rg.CVU_FEED_B), (.cvuFeedH v, 2, Rg.CVU_FEED_H), (.cvuFeedW v, 4, Rg.CVU_FEED_W)] →
      ((cvuOf s.dev u).regMode = true → unitInReset s.dev 7 = false → ∃ d, exec c s = .next (s.settled d) ∧
        cvuOf d u = { cvuOf s.dev u with
          run := BitVec.ofNat 64 (cvuFeedRun (cvuOf s.dev u).alg (cvuOf s.dev u).run.toNat (leBytes n v.toNat)),
          bytes := ((cvuOf s.dev u).bytes + n) % 2 ^ 64 } ∧ (∀ w, w ≠ u → cvuOf d w = cvuOf s.dev w) ∧ d.evts = s.dev.evts) ∧
      ((cvuOf s.dev u).regMode = false ∨ unitInReset s.dev 7 = true → exec c s = .next (s.settled (cfgIgnored s.dev off)))) ∧
    (∃ d, exec .cvuInit s = .next (s.settled d) ∧ cvuOf d u = { cvuOf s.dev u with run := BitVec.ofNat 64 (cvuInit (cvuOf s.dev u).alg) } ∧
      (∀ w, w ≠ u → cvuOf d w = cvuOf s.dev w) ∧ d.evts = s.dev.evts) ∧
    (∃ d, exec (.cvuRunWrite v) s = .next (s.settled d) ∧
      cvuOf d u = { cvuOf s.dev u with run := BitVec.ofNat 64 (v.toNat % 2 ^ (8 * cvuWidth (cvuOf s.dev u).alg)) } ∧
      (∀ w, w ≠ u → cvuOf d w = cvuOf s.dev w) ∧ d.evts = s.dev.evts) ∧
    (v.toNat / 256 % 256 = 0 ∨ 4 < v.toNat / 256 % 256 ∨ (bitOf v.toNat 0 ≠ (cvuOf s.dev u).regMode ∧ cvuBusy s.dev u = true) →
      exec (.cvuUnitCfgWrite v) s = .next (s.settled (cfgIgnored s.dev Rg.CVU_UNIT_CFG))) ∧
    (1 ≤ v.toNat / 256 % 256 → v.toNat / 256 % 256 ≤ 4 → cvuBusy s.dev u = false ∨ bitOf v.toNat 0 = (cvuOf s.dev u).regMode →
      ∃ d, exec (.cvuUnitCfgWrite v) s = .next (s.settled d) ∧
      cvuOf d u = { cvuOf s.dev u with
        regMode := bitOf v.toNat 0,
        alg := v.toNat / 256 % 256,
        run := BitVec.ofNat 64 (cvuInit (v.toNat / 256 % 256)) } ∧
      (∀ w, w ≠ u → cvuOf d w = cvuOf s.dev w) ∧ d.evts = s.dev.evts)) ∧
  (∀ (alg run : Nat) (a b : List Byte), cvuFeedRun alg run (a ++ b) = cvuFeedRun alg (cvuFeedRun alg run a) b) ∧
  ((∀ (s : State) (r : Nat) (f : Flight) (input bs : List Byte) (u : Nat), atDispatch s.dev r 0x80 f → u = dbits f.desc 4 0 4 →
    bs = padTo (checkOp f.desc).length (input.take (checkOp f.desc).length) →
    ((cvuOf s.dev u).regMode = true → exec (.checkValue r input) s = .next (s.settled (finish s.dev r f.id stStateConflict 1))) ∧
    ((cvuOf s.dev u).regMode = false →
      ∃ d, exec (.checkValue r input) s = .next (s.settled (finish d r f.id stOK (checkResult (checkOp f.desc) bs).2.1)) ∧
        d.posted = s.dev.posted ++ [⟨ringLink s.dev r, (checkOp f.desc).out, (checkResult (checkOp f.desc) bs).1⟩] ∧
        (cvuOf d u) = { cvuOf s.dev u with bytes := ((cvuOf s.dev u).bytes + bs.length) % 2 ^ 64 } ∧
        (∀ w, w ≠ u → cvuOf d w = cvuOf s.dev w) ∧
        ((checkResult (checkOp f.desc) bs).2.2 = true → evSet d Fd.CVU_EVT_strip_mismatch = true) ∧
        ((checkResult (checkOp f.desc) bs).2.2 = false → d.evts = s.dev.evts) ∧ d.ctx = s.dev.ctx)) ∧
  (∀ (o : CheckOp) (input : List Byte) (run : Nat), 1 ≤ o.alg → o.alg ≤ 4 →
    run = cvuFeedRun o.alg (if o.chain then o.runIn else cvuInit o.alg) input →
    (o.mode = 0 → checkResult o input = if o.part then (leBytes 8 0 ++ leBytes 8 run, run % 2 ^ 32, false)
      else (leBytes 8 (run ^^^ cvuXor o.alg) ++ leBytes 8 run, (run ^^^ cvuXor o.alg) % 2 ^ 32, false)) ∧
    (o.mode = 1 → checkResult o input = (input ++ leBytes (cvuWidth o.alg) (run ^^^ cvuXor o.alg), (run ^^^ cvuXor o.alg) % 2 ^ 32, false)) ∧
    (o.chain = false ∨ o.runIn < 2 ^ (8 * cvuWidth o.alg) →
      checkResult { o with mode := 2 } (checkResult { o with mode := 1 } input).1 = (input, 0, false))))

/-- 18 R480: the check values of the four algorithms over the nine bytes "123456789". -/
def Obligations.CheckValuesOfTheAlgorithms : Prop :=
  let t : List Byte := [0x31, 0x32, 0x33, 0x34, 0x35, 0x36, 0x37, 0x38, 0x39]
  crcOf 1 t = 0xE3069283 ∧ crcOf 2 t = 0xCBF43926 ∧ crcOf 3 t = 0x995DC9BBDF1939FA ∧ crcOf 4 t = 0x29B1

/-- 18 R480: a check value depends on every byte: of two byte strings of one length that differ in one byte only, the check values differ. -/
def Obligations.CheckValuesSeeEveryByte : Prop :=
  ∀ (alg : Nat) (c : CrcAlg) (l m : List Byte) (a b : Byte), crcAlg alg = some c → a ≠ b →
    crcOf alg (l ++ a :: m) ≠ crcOf alg (l ++ b :: m)

/-- 02 R51, R59, R68 to R73: the end of a descriptor, with every completion, signal and wait that follows from it, changes rings, accounts,
sync objects, fault records, counters, events, links and what is written to the host or sent, and nothing else of the device: no session,
table, page, index or slate. -/
def Obligations.EndingADescriptorTouchesNoOtherState : Prop :=
  ∀ (d : Dev) (r id st res : Nat), ∃ e : Dev, e = finish d r id st res ∧ e = { d with
    seq := e.seq, syn := e.syn, flt := e.flt, regs := e.regs, evts := e.evts, lnk := e.lnk, posted := e.posted, out := e.out }

/-- 07 R196, R199 to R201, 10 R284: `SESSION_OPEN` past its gates, under a recipe generation that is current and serves, with a record and a
slot free to the ring's client and room in T1, places an empty ACTIVE session of that client with the descriptor's class, thresholds, seed
and recipe in the slot, gives it the next object name with this device as its home, posts handle, slot and time at the result address, and
completes with the handle; no other session or slot changes. A recipe that is not current, or does not serve, and a client at its limit of
records, end it with `STALE_VERSION`, `STATE_CONFLICT` and `QUOTA`. -/
def Obligations.SessionOpenPlacesAnEmptySession : Prop :=
  ∀ (s : State) (r c : Nat) (f : Flight) (rc : RSlot), pastGate s.dev r 0x01 f → c = sqClient s.dev r →
    rc = rcpOf s.dev (rcpIndex (db f.desc 24 2)) →
    (∀ (sl k i : Nat) (d1 d2 d3 d4 : Dev) (key : BitVec 256) (rec0 : Rec) (fs : List Nat), rcpCurrent s.dev (db f.desc 24 2) = true →
      rcpServes rc = true → recordsOf s.dev c < fget s.dev Fd.CTX_CLIENT_LIM_max_records c → pickSlot s.dev c = (some sl, d1) →
      (usedRecords d1).length < 2 ^ (d1.ctx.tableLog2.getD 0) →
      freshBelow d1 (2 ^ (d1.ctx.tableLog2.getD 0) - (usedRecords d1).length) = (k, d2) → i = nthFree (usedRecords d1) k →
      draw d2 = (key, d3) → rec0 = newRec d3 f.desc c (recOf d3 i).gen d3.mem.nextSerial key →
      alloc d3 c 1 (wantPages rc.model rec0).length = .ok fs d4 →
      ∃ e : Dev, exec (.sessionOpen r) s = .next (s.settled (finish e r f.id stOK (handleOf e i))) ∧
        (recOf e i).state = .active ∧ (recOf e i).slot = some sl ∧ (recOf e i).client = c ∧ (recOf e i).len = 0 ∧ (recOf e i).log = [] ∧
        (recOf e i).gen = (recOf s.dev i).gen ∧ (recOf e i).recipe = db f.desc 24 2 ∧ (recOf e i).cls = db f.desc 26 1 ∧
        (recOf e i).hold = db f.desc 28 4 ∧ (recOf e i).parkAfter = db f.desc 32 4 ∧ (recOf e i).parkTier = db f.desc 36 1 ∧
        (recOf e i).seed = BitVec.ofNat 64 (db f.desc 40 8) ∧ (recOf e i).name = ownDevice s.dev * 2 ^ 48 + s.dev.mem.nextSerial ∧
        look e.map.reg (recOf e i).name = some { home := ownDevice s.dev, epoch := 0 } ∧ (slotOf e sl).state = .opened ∧ (slotOf e sl).rcd = i ∧
        e.posted = s.dev.posted ++ [⟨ringLink s.dev r, db f.desc 48 8,
          fields [(handleOf e i, 4), (sl, 2), (0, 2), (now s.dev % 2 ^ 64, 8)]⟩] ∧
        (∀ j, j ≠ i → recOf e j = recOf s.dev j) ∧ (∀ j, j ≠ sl → slotOf e j = slotOf s.dev j)) ∧
    (rcpCurrent s.dev (db f.desc 24 2) = false →
      exec (.sessionOpen r) s = .next (s.settled (finish s.dev r f.id stStaleVersion rc.gen))) ∧
    (rcpCurrent s.dev (db f.desc 24 2) = true → rcpServes rc = false →
      ∃ v, v < 5 ∧ exec (.sessionOpen r) s = .next (s.settled (finish s.dev r f.id stStateConflict v))) ∧
    (rcpCurrent s.dev (db f.desc 24 2) = true → rcpServes rc = true → fget s.dev Fd.CTX_CLIENT_LIM_max_records c ≤ recordsOf s.dev c →
      exec (.sessionOpen r) s = .next (s.settled (finish s.dev r f.id stQuota 0)))

/-- 07 R196, R201, R215, R219, R228, 09 R267, R268: session commands past their gates on a record that they name, at home here. CLOSE frees
everything of a session, rewound or not, with no work dispatched and no move under way, advances its generation and completes; it waits
for moves, and ends with `STATE_CONFLICT` while work is dispatched or a cut is pending. TTL sets the time to live, which counts from now
where it runs. PAUSE of an active placed session takes effect at once, or is noted until the dispatched work ends. `STOP_SET` stages its
settings, which take effect at once without work in flight; one that names a colander table of another client, or without a version, is
refused. No other session changes. -/
def Obligations.SessionCommandsOnAnIdleSession : Prop :=
  ∀ (s : State) (r i : Nat) (f : Flight) (x : Rec), x = recOf s.dev i → namesRecord s.dev f i →
    (pastGate s.dev r 0x02 f → x.state ∈ [RecState.active, .paused, .parked, .expired] →
      (ctxStateOf s.dev i ≠ .running → ctxStateOf s.dev i ≠ .saved →
        (sessGroups s.dev i = [] → exec (.sessionClose r) s = .next (s.settled (finish (closeRec s.dev i) r f.id stOK 0)) ∧
          recOf (closeRec s.dev i) i = { gen := (x.gen + 1) % 256 } ∧ look (closeRec s.dev i).map.reg x.name = none ∧
          ∀ j, j ≠ i → recOf (closeRec s.dev i) j = recOf s.dev j) ∧
        (sessGroups s.dev i ≠ [] → exec (.sessionClose r) s = .next (s.settled s.dev))) ∧
      (ctxStateOf s.dev i = .running ∨ ctxStateOf s.dev i = .saved →
        exec (.sessionClose r) s = .next (s.settled (finish s.dev r f.id stStateConflict (conflictOf s.dev i))))) ∧
    (pastGate s.dev r 0x08 f → x.state ∈ [RecState.active, .paused, .parked] →
      ∃ d, exec (.sessionTtl r) s = .next (s.settled (finish d r f.id stOK 0)) ∧ (recOf d i) = { x with
        ttl := db f.desc 24 4, ttlFrom := if x.slot.isNone then some (frame s.dev) else none } ∧
        (∀ j, j ≠ i → recOf d j = recOf s.dev j) ∧ d.ctx.slots = s.dev.ctx.slots ∧ d.seq = s.dev.seq) ∧
    (∀ sl, pastGate s.dev r 0x07 f → x.rewound = false → x.state = .active → x.slot = some sl →
      (x.pausing = none → x.parking = none →
        (sessWork s.dev i = none → ∃ d, exec (.sessionPause r) s = .next (s.settled (finish d r f.id stOK sl)) ∧
          recOf d i = { x with state := .paused, pausing := none, pausedAt := some (frame s.dev) } ∧
          slotOf d sl = { slotOf s.dev sl with state := .paused } ∧
          (∀ j, j ≠ i → recOf d j = recOf s.dev j) ∧ (∀ j, j ≠ sl → slotOf d j = slotOf s.dev j) ∧ d.seq = s.dev.seq) ∧
        ((sessWork s.dev i).isSome = true → ∃ d, exec (.sessionPause r) s = .next (s.settled (dispatched d r f.id)) ∧
          recOf d i = { x with pausing := some (r, f.id) } ∧ d.seq = s.dev.seq ∧
          (∀ j, j ≠ i → recOf d j = recOf s.dev j) ∧ d.ctx.slots = s.dev.ctx.slots)) ∧
      (x.pausing.isSome = true ∨ x.parking.isSome = true → exec (.sessionPause r) s = .next (s.settled s.dev))) ∧
    (∀ t, pastGate s.dev r 0x79 f → x.rewound = false → x.state ∈ [RecState.active, .paused, .parked] →
      t = colOf s.dev (outCfgOf f).table →
      ((outCfgOf f).colander = false ∨ (t.cur.isSome = true ∧ t.client = sqClient s.dev r) →
        ∃ d, (recOf d i) = { x with out := { x.out with staged := some (outCfgOf f) } } ∧ (∀ j, j ≠ i → recOf d j = recOf s.dev j) ∧
          d.ctx.slots = s.dev.ctx.slots ∧ d.seq = s.dev.seq ∧
          ((sessWork s.dev i).isSome = true → exec (.stopSet r) s = .next (s.settled (finish d r f.id stOK 0))) ∧
          (sessWork s.dev i = none → exec (.stopSet r) s = .next (s.settled (finish (applyStaged d i) r f.id stOK 0)) ∧
            (recOf (applyStaged d i) i).out.cfg = outCfgOf f ∧ (recOf (applyStaged d i) i).out.staged = none ∧
            ∀ j, j ≠ i → recOf (applyStaged d i) j = recOf s.dev j)) ∧
      ((outCfgOf f).colander = true → t.cur.isSome = true → t.client ≠ sqClient s.dev r →
        exec (.stopSet r) s = .next (s.settled (finish s.dev r f.id stSecurity 0))) ∧
      ((outCfgOf f).colander = true → t.cur = none → ∃ d v, exec (.stopSet r) s = .next (s.settled (finish d r f.id stStateConflict v)) ∧
        d.ctx = s.dev.ctx))

/-- (1) 07 R215, R218, R221 to R223, R225, R226, R228: commands past their gates on an active, paused or parked session that they name. PARK
without work dispatched parks it at once where its room is found or refused; with work it is noted, and holds its ring until the work
ends; while a pause or park is noted it waits. RESUME of a paused session that holds its slot makes it active there; one without a slot
and without moves takes a free slot and its room in T1 and brings its pages, taking a new recipe of its state class if asked, and
acknowledging a rewind if the session is rewound. CUT starts the cut, and a second one, met while one is pending, completes behind it.
TRIM joins the edits for the step boundary, and one of an idle session to more than its length ends with `STATE_CONFLICT`. (2) 07 R226, 06
R176: a trim to `n` positions keeps the first `n` symbols with their carry, empties the pending symbol and the output stages but keeps the
bytes that are ready, and changes neither state nor number of layers; a damaged session stays damaged unless the trim removes its damaged
window. -/
def Obligations.ParkResumeCutAndTrim : Prop :=
  (∀ (s : State) (r i : Nat) (f : Flight) (x : Rec), x = recOf s.dev i → namesRecord s.dev f i → x.state ∈ [RecState.active, .paused, .parked] →
    (∀ p, pastGate s.dev r 0x03 f → x.rewound = false → p = parkNow (dispatched s.dev r f.id) i (db f.desc 24 1) (some (r, f.id)) →
      (x.pausing = none → x.parking = none →
        (sessWork s.dev i = none → p.2.1 = true → exec (.sessionPark r) s = .next (s.settled p.1)) ∧
        ((sessWork s.dev i).isSome = true → ∃ d, exec (.sessionPark r) s = .next (s.settled
            (updFlight (dispatched d r f.id) r f.id (fun g => { g with holds := true }))) ∧
          recOf d i = { x with parking := some (r, f.id) } ∧ (∀ j, j ≠ i → recOf d j = recOf s.dev j) ∧
          d.ctx.slots = s.dev.ctx.slots ∧ d.seq = s.dev.seq)) ∧
      (x.pausing.isSome = true ∨ x.parking.isSome = true → exec (.sessionPark r) s = .next (s.settled s.dev))) ∧
    (∀ (y : Rec) (ack rebind : Bool), pastGate s.dev r 0x04 f → x.state ∈ [RecState.paused, .parked] →
      ack = bitOf (db f.desc 25 1) 1 → rebind = bitOf (db f.desc 25 1) 0 → x.rewound = ack →
      (rebind = true → rcpCurrent s.dev (db f.desc 26 2) = true ∧ (rcpOf s.dev (rcpIndex (db f.desc 26 2))).state = .loaded ∧
        (rcpOf s.dev (rcpIndex (db f.desc 26 2))).stateClass = (rcpFor s.dev x).stateClass) →
      y = (if rebind then { x with recipe := db f.desc 26 2 } else x) →
      (∀ sl, x.slot = some sl → ack = false → ∃ d, exec (.sessionResume r) s = .next (s.settled (finish d r f.id stOK sl)) ∧
        recOf d i = { y with state := .active, pausedAt := none } ∧ slotOf d sl = { slotOf s.dev sl with state := .opened } ∧
        (∀ j, j ≠ i → recOf d j = recOf s.dev j) ∧ (∀ j, j ≠ sl → slotOf d j = slotOf s.dev j) ∧ d.seq = s.dev.seq) ∧
      (∀ (sl : Nat) (ks fs : List Nat) (d1 d2 d3 : Dev), x.slot = none → sessGroups s.dev i = [] → pickSlot s.dev x.client = (some sl, d1) →
        ks = bringPages x (db f.desc 24 1) → makeRoom d1 f.spared i (pageSize * ks.length) = .ok d2 →
        alloc d2 x.client 1 ks.length = .ok fs d3 → exec (.sessionResume r) s = .next (s.settled (resumeGo d3 r f i sl ks fs))) ∧
      (∀ d1, x.slot = none → sessGroups s.dev i = [] → pickSlot s.dev x.client = (none, d1) →
        exec (.sessionResume r) s = .next (s.settled (finish s.dev r f.id stQuota 0))) ∧
      (x.slot = none → sessGroups s.dev i ≠ [] → exec (.sessionResume r) s = .next (s.settled (resumeHeld s.dev r f.id)))) ∧
    (pastGate s.dev r 0x05 f → x.rewound = false → exec (.sessionCut r) s = .next (s.settled (cutSession s.dev r f i))) ∧
    (∀ (g : Flight) (j sl : Nat), pastGate s.dev r 0x05 g → j = dSel g.desc % 2 ^ 24 → (recOf s.dev j).gen = dSel g.desc / 2 ^ 24 →
      (recOf s.dev j).slot = some sl → ctxStateOf s.dev j = .cutPending → exec (.sessionCut r) s = .next (s.settled
        (strSpecial (dispatched s.dev r g.id) sl { bytes := [], ring := r, id := g.id, status := stOK, result := 0 }))) ∧
    (pastGate s.dev r 0x06 f → x.rewound = false →
      (sessWork s.dev i = none → x.len < db f.desc 24 4 → exec (.sessionTrim r) s
        = .next (s.settled (finish s.dev r f.id stStateConflict (conflictOf s.dev i)))) ∧
      ((sessWork s.dev i).isSome = true ∨ db f.desc 24 4 ≤ x.len → exec (.sessionTrim r) s
        = .next (s.settled (addEdit (dispatched s.dev r f.id) i (.trim (db f.desc 24 4) r f.id)))))) ∧
  (∀ (m : Model) (n : Nat) (r t : Rec), t = (trimRec m n r).v → t.len = n ∧ t.log = r.log.take n ∧ t.carry = carryOf t.log ∧
    t.carry.length = 7 ∧ t.out.pending = none ∧ t.out.tree = [] ∧ t.out.ready = r.out.ready ∧ t.out.stopHeld = [] ∧ t.out.utf8Held = [] ∧
    t.state = r.state ∧ t.kv.length = r.kv.length ∧ (t.damaged = true ↔ r.damaged = true ∧ ∀ w, r.damagedWin = some w → 256 * w < n))

/-- 07 R217, R219, R220, 01 R24: once the events that come before it have been taken, the time to live of a paused or parked session without a
slot, without moves and with no resume that waits, expires it when it has run out: its pages and key go, `ttl_expired` is raised and its
client told; before, and with a time to live of 0, nothing happens. A session paused without a slot for `park_after` frames is parked,
with `auto_park`; one whose room is refused waits `park_after` frames more, with a notice of class capacity. -/
def Obligations.TimeActsOnIdleSessions : Prop :=
  ∀ (s : State) (i t : Nat) (d : Dev) (x : Rec),
    (d = precede s.dev 3 (handleOf s.dev i) → x = recOf d i → x.ttlFrom = some t →
      (x.ttl ≠ 0 → t + x.ttl ≤ frame d → x.slot = none → x.state ∈ [RecState.paused, .parked] → sessGroups d i = [] → resumeWaits d i = false →
        ∃ e, exec (.ttlExpiry i) s = .next (s.settled (report e {
            cls := clsExpiry, unit := 4, action := 0, object := x.name, handle := handleOf d i, client := some x.client }).1) ∧
          (recOf e i).state = .expired ∧ (recOf e i).key = 0 ∧ (recOf e i).pages = [] ∧ (recOf e i).ttlFrom = none ∧
          (∀ j, j ≠ i → recOf e j = recOf d j) ∧ evSet e Fd.CTX_EVT_ttl_expired = true) ∧
      (x.ttl = 0 ∨ frame d < t + x.ttl → exec (.ttlExpiry i) s = .next (s.settled d))) ∧
    (d = precede s.dev 5 (handleOf s.dev i) → x = recOf d i → x.releasedAt = some t →
      (∀ p, x.parkAfter ≠ 0 → t + x.parkAfter ≤ frame d → x.state = .paused → x.slot = none → (x.ttl = 0 ∨ ∀ v, x.ttlFrom = some v → frame d < v + x.ttl) →
        p = parkNow d i x.parkTier none →
        (p.2.2 = true → exec (.parkAfterThreshold i) s = .next (s.settled (raise p.1 Fd.CTX_EVT_auto_park))) ∧
        (p.2.1 = true → p.2.2 = false → ∃ e, exec (.parkAfterThreshold i) s = .next (s.settled (report e {
            cls := clsCapacity, unit := 4, action := 0, object := x.name, handle := handleOf e i, detailA := x.len,
            client := some x.client }).1) ∧ e = updRec p.1 i (fun y => { y with releasedAt := some (frame p.1) })) ∧
        (p.2.1 = false → p.2.2 = false → exec (.parkAfterThreshold i) s = .next (s.settled p.1))) ∧
      (x.parkAfter = 0 ∨ frame d < t + x.parkAfter → exec (.parkAfterThreshold i) s = .next (s.settled d)))

/-- 07 R216: a record PAUSED with its slot for `hold` frames, once the events that come before it (R24) have been taken, gives up the slot:
the context becomes FREE, `slot_released` is raised, the record stays PAUSED without a slot and its time to live starts; no other session
changes. Before that, and with a hold of 0, nothing happens. -/
def Obligations.HoldReleasesTheSlot : Prop :=
  ∀ (s : State) (i t sl : Nat) (d : Dev) (x : Rec), d = precede s.dev 4 (handleOf s.dev i) → x = recOf d i → x.pausedAt = some t →
    x.state = .paused → x.slot = some sl → (slotOf d sl).state = .paused →
    (x.hold ≠ 0 → t + x.hold ≤ frame d →
      ∃ e, exec (.holdThreshold i) s = .next (s.settled e) ∧ (recOf e i).slot = none ∧ (recOf e i).state = .paused ∧
        (slotOf e sl).state = .free ∧ (recOf e i).ttlFrom = some (frame d) ∧ (recOf e i).ttl = x.ttl ∧ (recOf e i).len = x.len ∧
        (∀ j, j ≠ i → recOf e j = recOf d j) ∧ (∀ j, j ≠ sl → slotOf e j = slotOf d j) ∧ evSet e Fd.CTX_EVT_slot_released = true) ∧
    (x.hold = 0 ∨ frame d < t + x.hold → exec (.holdThreshold i) s = .next (s.settled d))

/-- 06 R185, R189, R191, 07 R203 to R207: a step-group command past its gates whose checks pass and whose set-up is ready starts its work: a
batch of one step, with six stream records held, runs the tree of its pending symbol; a `PREFILL` runs its pending symbol and the input's
bytes, with six records held if it samples; a `TUNE_STEP` runs its span on the tuning window, in a session without pending edits, and one
that discards drops the window with the step sequence advanced and completes. A command that its check refuses, or its set-up, completes
with that status, and one whose session is busy waits. A wait for room that has lasted `ATN_SPILL_WAIT` frames ends a step, `PREFILL`,
`TUNE_STEP` or resume with what it lacks, and does nothing before. -/
def Obligations.StepCommandsStartTheirWork : Prop :=
  ∀ (s : State) (r i sl : Nat) (f : Flight) (e : Dev) (input : List Byte) (inc : List Incident) (incs : List (Nat × Incident)) (x : Rec) (m : Model),
    x = recOf s.dev i → m = modelFor s.dev x → x.slot = some sl →
    (∀ (y : EntryRes) (rows : List WRow) (bytes : Nat), pastGate s.dev r 0x10 f → f.entries = [y] → y.started = false →
      y.finished = false → stepCheck s.dev f.seen y.handle (stepOk s.dev) = .ok i → strReady s.dev sl = true →
      rows = treeRows x m.takes y.single → bytes = stageBytes m rows.length + growBytes m x rows.length →
      setUp s.dev r f i bytes = .ready e →
      exec (.stepSubmit r incs) s = .next (s.settled (batchGone (startWork
        (updFlight (setStr e sl { strOf e sl with held := 6 }) r f.id (fun g => { g with
          ran := true, testedAt := none, entries := setAt g.entries 0 (fun y => { y with started := true }) }))
        i { kind := .step, ring := r, flight := f.id, entry := 0, bound := 0, rows := rows, sample := true, reserved := bytes }
        (treeGrams x rows) ((incs.filter (fun p => p.1 == 0)).map Prod.snd)) r f.id))) ∧
    (∀ (syms : List Nat) (bytes : Nat) (sample : Bool), pastGate s.dev r 0x11 f → sample = bitOf (db f.desc 40 1) 0 →
      stepCheck s.dev f.seen (dSel f.desc) (prefillOk s.dev (db f.desc 36 4) sample) = .ok i →
      syms = x.out.pending.toList ++ (input.take (db f.desc 36 4)).map (fun b => b.toNat) →
      (sample = true → strReady s.dev sl = true) → bytes = stageBytes m syms.length + growBytes m x syms.length →
      setUp s.dev r f i bytes = .ready e →
      exec (.prefill r input inc) s = .next (s.settled (startWork
        (if sample then setStr (dispatched e r f.id) sl { strOf (dispatched e r f.id) sl with held := 6 } else dispatched e r f.id) i
        {
          kind := .prefill, ring := r, flight := f.id, entry := 0, bound := 0, rows := runRows x.len syms, sample := sample,
          reserved := bytes }
        (runGrams x.carry syms) inc))) ∧
    (pastGate s.dev r 0x12 f → stepCheck s.dev f.seen (dSel f.desc) (tuneOk s.dev f.desc) = .ok i → x.edits.any Edit.needed = false →
      (bitOf (db f.desc 54 1) 1 = true →
        ∃ (v : Nat) (d : Dev), exec (.tuneStep r input inc) s = .next (s.settled (boundary (finish d r f.id stOK v) i)) ∧ v < 2 ^ 32 ∧
          d = addEdit (updRec { dispatched s.dev r f.id with fresh := s.dev.fresh + 1 } i (fun x => { x with stepSeq := x.stepSeq + 1 })) i
            (.tune (x.kv.map (fun _ => {})))) ∧
      (∀ (syms : List Nat) (tuning : List LayerKV) (bytes : Nat), bitOf (db f.desc 54 1) 1 = false →
        syms = (input.take (db f.desc 28 4)).map (fun b => b.toNat) → tuning = tuningFrom m x f.desc →
        bytes = stageBytes m syms.length + saveBytes m syms.length
          + pageSize * (missingPages m { x with kv := withTuning x.kv tuning }).length →
        setUp s.dev r f i bytes = .ready e →
        exec (.tuneStep r input inc) s = .next (s.settled (startWork (dispatched e r f.id) i
          {
            kind := .tune, ring := r, flight := f.id, entry := 0, bound := 0, rows := runRows (dbits f.desc 24 0 26) syms, reserved := bytes,
            rate := BitVec.ofNat 32 (db f.desc 48 4), spanFirst := dbits f.desc 24 0 26,
            tuning := tuning.map (fun (l : LayerKV) => ({ masters := l.masters, tuning := l.tuning } : LayerKV)) }
          (runGrams (carryOf (x.log.take (dbits f.desc 24 0 26))) syms) inc)))) ∧
    (∀ (ok : Nat → Rec → Bool) (c : Instr) (op : Nat), pastGate s.dev r op f →
      (c, op) ∈ [(.prefill r input inc, 0x11), (.tuneStep r input inc, 0x12)] →
      ok = (if op = 0x11 then prefillOk s.dev (db f.desc 36 4) (bitOf (db f.desc 40 1) 0) else tuneOk s.dev f.desc) →
      (∀ st res, stepCheck s.dev f.seen (dSel f.desc) ok = .fail st res → exec c s = .next (s.settled (finish s.dev r f.id st res))) ∧
      (stepCheck s.dev f.seen (dSel f.desc) ok = .waits → exec c s = .next (s.settled (updFlight s.dev r f.id (fun g => { g with
        seen := if g.seen.contains (dSel f.desc) then g.seen else dSel f.desc :: g.seen }))))) ∧
    (∀ need sh kib t, (sqOf s.dev r).flights = [f] → f.phase = .waiting → f.testedAt = some t → dOp f.desc ∈ [0x04, 0x11, 0x12] →
      i = dSel f.desc % 2 ^ 24 → need = (if dOp f.desc = 0x04 then pageSize * (bringPages x (db f.desc 24 1)).length
        else if dOp f.desc = 0x11 then stageBytes m (prefillRows x (db f.desc 36 4)) + growBytes m x (prefillRows x (db f.desc 36 4))
        else stageBytes m (db f.desc 28 4) + saveBytes m (db f.desc 28 4)
          + pageSize * (missingPages m { x with kv := withTuning x.kv (tuningFrom m x f.desc) }).length) →
      (t + fget s.dev Fd.ATN_SPILL_WAIT_frames * 65536 ≤ up s.dev → lackT1 s.dev x.client need = some (sh, kib) →
        exec (.spillWaitTimeout r) s = .next (s.settled (finish (if dOp f.desc = 0x04 then s.dev else raise s.dev Fd.ATN_EVT_no_fit) r f.id
          (lackStatus sh) kib))) ∧
      (up s.dev < t + fget s.dev Fd.ATN_SPILL_WAIT_frames * 65536 → exec (.spillWaitTimeout r) s = .next (s.settled s.dev))) ∧
    (∀ sh kib t y, (sqOf s.dev r).flights = [f] → f.phase = .waiting → f.testedAt = some t → dOp f.desc = 0x10 → f.entries = [y] →
      y.started = false → y.finished = false → i = y.handle % 2 ^ 24 → t + fget s.dev Fd.ATN_SPILL_WAIT_frames * 65536 ≤ up s.dev →
      lackT1 s.dev x.client (stageBytes m (treeRows x m.takes y.single).length + growBytes m x (treeRows x m.takes y.single).length)
        = some (sh, kib) →
      exec (.spillWaitTimeout r) s = .next (s.settled (batchGone (entryFail (updFlight (raise s.dev Fd.ATN_EVT_no_fit) r f.id
        (fun g => { g with testedAt := none })) r f 0 (lackStatus sh) kib) r f.id)))

/-- 06 R170, R176, R186, 07 R209 to R213: a layer frame that fits no work awaiting it is dropped and counted; one that leaves its block
incomplete is kept. The frame that completes the block of Q, K and V, of the gradient dO or of dH first takes the faults that come about:
work that they end is over, a tile that failed twice ends it as damaged, and otherwise it goes on: a layer whose team can be formed stages
its rows and sends its attention output, or its gradients; a gradient at a layer's input goes to the layer below, or after layer 0 updates
the tuning window. Final hidden states queue the HEADS entry. A refusal, and a block that no frame has answered for `CTX_LX_TIMEOUT`
frames, send the layer once more; the second ends the work with `UNIT_FAILED`. -/
def Obligations.LayerFramesCarryTheWorkOn : Prop :=
  ∀ (s : State) (fr : LxFrame) (sl : Nat) (w : Work) (data : List Byte) (inc : List Incident) (d e : Dev) (m : Model),
    m = modelFor s.dev (recOf s.dev (slotOf s.dev sl).rcd) →
    (∀ c typ, (c, typ) ∈ [(Instr.qkv fr inc, 2), (.hid fr, 4), (.gradO fr inc, 6), (.gradH fr inc, 8), (.lxRefuse fr, 10)] →
      lxFor s.dev fr typ = none → exec c s = .next (s.settled (fbump s.dev Fd.CTX_CNT_lx_dropped))) ∧
    (∀ c typ, (c, typ) ∈ [(Instr.qkv fr inc, 2), (.hid fr, 4), (.gradO fr inc, 6), (.gradH fr inc, 8)] →
      lxFor s.dev fr typ = some (sl, w) → covered fr.total (w.rx ++ [(fr.offset, fr.payload)]) = none →
      exec c s = .next (s.settled (setWork s.dev sl { w with rx := w.rx ++ [(fr.offset, fr.payload)] }))) ∧
    (covered fr.total (w.rx ++ [(fr.offset, fr.payload)]) = some data → d = setWork s.dev sl { w with rx := [] } →
      (lxFor s.dev fr 4 = some (sl, w) → exec (.hid fr) s = .next (s.settled (queueTeam (setWork d sl { w with
        rx := [], phase := .heads, hid := pieces (max 1 (hiddenOf m)) (f32s (data.drop (4 * headRows w))) }) sl 3))) ∧
      (∀ c typ go e2, (c, typ, go) ∈ [(Instr.qkv fr inc, 2, fun x => qkvLayer x sl data), (.gradO fr inc, 6, fun x => gradOLayer x sl data),
          (.gradH fr inc, 8, fun x => gradHLayer x sl data)] → lxFor s.dev fr typ = some (sl, w) →
        e = countChecks d inc Fd.ATN_CRC_CNT_transient Fd.ATN_CRC_CNT_lasting Fd.ATN_EVT_crc_transient Fd.ATN_EVT_crc_lasting →
        (sufferWork e sl inc = (e2, none) → exec c s = .next (s.settled e2)) ∧
        (∀ w2, sufferWork e sl inc = (e2, some w2) →
          (∀ win, lastingTile inc = some win → exec c s = .next (s.settled (tileFail e2 sl (some win)))) ∧
          (lastingTile inc = none → exec c s = .next (s.settled (go e2)))))) ∧
    (workOf s.dev sl = some w →
      (teamFits s.dev (rcpFor s.dev (recOf s.dev (slotOf s.dev sl).rcd)) (attnKind w.kind) = true →
        ∃ e2 w2 block, qkvLayer s.dev sl data = sendLayer e2 sl 3 w.layer (if m.layers ≤ w.layer + 1 then headRows w else 0) 0 block ∧
          workOf e2 sl = some w2 ∧ w2.stage.length = w.stage.length + 1 ∧ (w.layer + 1 < m.layers → w2.layer = w.layer + 1 ∧ w2.phase = .qkv) ∧
          (m.layers ≤ w.layer + 1 → w2.phase = if headRows w = 0 then .ready else .hid)) ∧
      (teamFits s.dev (rcpFor s.dev (recOf s.dev (slotOf s.dev sl).rcd)) 4 = true →
        ∃ e2 w2 block, gradOLayer s.dev sl data = sendLayer e2 sl 7 w.layer 0 0 block ∧ workOf e2 sl = some w2 ∧ w2.phase = .dH ∧
          w2.tuneGrad.length = w.tuneGrad.length + 1) ∧
      (w.layer ≠ 0 → gradHLayer s.dev sl data
        = sendBwd s.dev sl (w.layer - 1) (pieces (max 1 (hiddenOf m)) (f32s (data.drop (4 * w.rows.length))))) ∧
      (w.layer = 0 → teamFits s.dev (rcpFor s.dev (recOf s.dev (slotOf s.dev sl).rcd)) 5 = true →
        gradHLayer s.dev sl data = tuneUpdate s.dev sl w)) ∧
    (∀ c, (c = .lxRefuse fr ∧ lxFor s.dev fr 10 = some (sl, w)) ∨ (c = .lxTimeout sl ∧ workOf s.dev sl = some w ∧ (awaited m w).isSome = true ∧
        w.sentAt + max 1 (fget s.dev Fd.CTX_LX_TIMEOUT_frames) ≤ frame s.dev) →
      (w.attempt = 0 → exec c s = .next (s.settled (sendLayer (raise s.dev Fd.CTX_EVT_lx_retry) sl w.sent.1 (sentLayer m w) w.sent.2.1 1
        w.sent.2.2))) ∧
      (w.attempt ≠ 0 → exec c s = .next (s.settled (unitFail (raise s.dev Fd.CTX_EVT_lx_failed) sl 4)))) ∧
    (workOf s.dev sl = some w → (awaited m w = none ∨ frame s.dev < w.sentAt + max 1 (fget s.dev Fd.CTX_LX_TIMEOUT_frames)) →
      exec (.lxTimeout sl) s = .next (s.settled s.dev))

/-- 01 R19, 06 R172, 08 R231, R232: the commit point of a step or `PREFILL` that is ready is `commitWork`, and nothing happens before; in it
the positions that the work committed join the history: the length grows by their number, their symbols join the log in order, and the
carry is that of the new log. -/
def Obligations.CommitAppendsTheCommittedRows : Prop :=
  ∀ (s : State) (sl i : Nat) (w : Work) (rows : List Nat) (x : Rec), workOf s.dev sl = some w → i = (slotOf s.dev sl).rcd → rows = commitRows w →
    x = recOf (appendKv s.dev sl w).1 i →
    (w.phase = .ready → w.kind ≠ .tune → (slotOf s.dev sl).state = .running →
      exec (.stepCommit sl) s = .next (s.settled (commitWork s.dev sl w))) ∧
    (w.phase ≠ .ready ∨ w.kind = .tune ∨ (slotOf s.dev sl).state ≠ .running → exec (.stepCommit sl) s = .next (s.settled s.dev)) ∧
    x.len = (recOf s.dev i).len + rows.length ∧ x.log = (recOf s.dev i).log ++ rows.map (fun k => (w.rows.getD k ⟨0, 0, 0, 0⟩).sym) ∧
    x.carry = carryOf x.log ∧ x.state = (recOf s.dev i).state ∧ x.slot = (recOf s.dev i).slot ∧
    ∀ j, j ≠ i → recOf (appendKv s.dev sl w).1 j = recOf s.dev j

/-- 05 R139, R156, R157, 15 R411, R413, R414, R416, R417: an entry that the slice's arrays no longer carry ends; otherwise the
latency-critical entry whose turn it is starts if its team finds idle arrays, and, when none does and no saved team can be restored, the
best-effort one. A latency-critical entry that lacks arrays has best-effort teams saved, the most recently started first, and is counted
once if there is none. A team whose save ends gives up its arrays, and a store error ends its entry. The oldest saved team runs again on
idle arrays when no latency-critical entry can start. An entry whose members all reach their `halt` ends with what they handed over; until
then nothing happens. -/
def Obligations.EntriesRunOnTeams : Prop :=
  ∀ (s : State) (sl : Nat) (t : Team),
    (∀ t', s.dev.sys.resetLow = false →
      s.dev.fab.teams.find? (fun x => x.slice == sl && !x.running && !x.saving && strandedTeam s.dev x) = some t' →
      exec (.entryStart sl) s = .next (s.settled (unitFail s.dev t'.slot
        (teamUnit (rcpFor s.dev (recOf s.dev (slotOf s.dev t'.slot).rcd)))))) ∧
    (s.dev.sys.resetLow = false → (∀ x ∈ s.dev.fab.teams, x.slice = sl → x.running = true ∨ x.saving = true ∨ strandedTeam s.dev x = false) →
      (lcNext s.dev sl = some t → teamRoom s.dev t = true → exec (.entryStart sl) s = .next (s.settled (startTeam s.dev t))) ∧
      (lcNext s.dev sl = none ∨ (∃ v, lcNext s.dev sl = some v ∧ teamRoom s.dev v = false) →
        firstTeam s.dev false (waitingTeams s.dev sl false) = some t → teamRoom s.dev t = true →
        (∀ v, (savedTeams s.dev sl).head? = some v → teamRoom s.dev v = false) →
        exec (.entryStart sl) s = .next (s.settled (startTeam s.dev t)))) ∧
    (∀ x ∈ (startTeam s.dev t).fab.teams, x.slot = t.slot →
      x.running = true ∧ x.arrays = (idleArrays s.dev t.slice).take t.size ∧ x.order = s.dev.fab.orders + 1 ∧ x.cores.length = t.size) ∧
    (s.dev.sys.resetLow = false → lcNext s.dev sl = some t → teamRoom s.dev t = false →
      (victims s.dev sl ≠ [] ∨ comingArrays s.dev sl ≠ 0 → exec (.preemption sl) s = .next (s.settled
        (preemptBy (victims s.dev sl) (t.size - ((idleArrays s.dev sl).length + comingArrays s.dev sl)) s.dev))) ∧
      (victims s.dev sl = [] → comingArrays s.dev sl = 0 → t.short = false → exec (.preemption sl) s = .next (s.settled
        (updTeam (fbump s.dev Fd.SEQ_SCHED_STAT_lc_short) t.slot (fun x => { x with short := true })))) ∧
      (victims s.dev sl = [] → comingArrays s.dev sl = 0 → t.short = true → exec (.preemption sl) s = .next (s.settled s.dev))) ∧
    (∀ v rest n, n ≠ 0 → lackT1 s.dev v.client (savedBytes s.dev v) = none → heldT1 s.dev (savedBytes s.dev v) = false → ∃ d,
      preemptBy (v :: rest) n s.dev = preemptBy rest (n - v.arrays.length) d ∧ (∀ x ∈ d.fab.teams, x.slot = v.slot → x.saving = true) ∧
        d.fab.teams.filter (fun x => x.slot != v.slot) = s.dev.fab.teams.filter (fun x => x.slot != v.slot) ∧ d.ctx = s.dev.ctx) ∧
    (teamOf s.dev sl = some t → t.saving = true → (∃ d, exec (.preemptSaveDone sl false) s = .next (s.settled d) ∧
        (∀ x ∈ d.fab.teams, x.slot = sl → x.arrays = [] ∧ x.running = false ∧ x.saving = false ∧ x.saved = true ∧ x.cores = []) ∧
        (slotOf d sl).state = .saved ∧ ∀ j, j ≠ (slotOf s.dev sl).rcd → recOf d j = recOf s.dev j) ∧
      exec (.preemptSaveDone sl true) s = .next (s.settled (unitFail s.dev sl 2))) ∧
    (teamOf s.dev sl = some t → t.saving = false → ∀ b, exec (.preemptSaveDone sl b) s = .next (s.settled s.dev)) ∧
    (s.dev.sys.resetLow = false → teamOf s.dev sl = some t → t.saved = true →
      (lcNext s.dev t.slice = none ∨ ∃ v, lcNext s.dev t.slice = some v ∧ teamRoom s.dev v = false) →
      (savedTeams s.dev t.slice).head?.map (fun x => x.slot) = some sl → teamRoom s.dev t = true →
      ∃ d, exec (.savedRestore sl) s = .next (s.settled d) ∧ (∀ x ∈ d.fab.teams, x.slot = sl → x.running = true ∧ x.saved = false ∧
        x.arrays = (idleArrays s.dev t.slice).take t.size) ∧ (slotOf d sl).state = .running ∧ (∀ j, recOf d j = recOf s.dev j)) ∧
    (∀ cycles inc w ended, teamOf s.dev sl = some t → (slotOf s.dev sl).work = some w → ended = runCores s.dev t runBound →
      (t.running = true → t.saving = false → (∀ c ∈ ended.cores, c.halted = true) → exec (.entryHalt sl cycles inc) s
        = .next (s.settled (haltEntry s.dev ended sl cycles (handedOver s.dev ended w) inc))) ∧
      (t.running = false ∨ t.saving = true ∨ (∃ c ∈ ended.cores, c.halted = false) →
        exec (.entryHalt sl cycles inc) s = .next (s.settled s.dev)))

/-- 05 R152, 10 R290 to R293, 11 R320: object commands past their gates. A hint is stored with its table or session. `OBJ_FREE` frees the
staged version that it names, waits for its moves, and ends with `STALE_VERSION` and the staged number otherwise; it frees an index that
no dispatched command names, and makes the discarding of a tuning window a pending edit. `OBJ_MOVE` of a table version, an index or a
session's pages moves those outside the tier (`moveObject`), and waits while one of them moves. A table or index of another client ends
with `SECURITY`. `RECIPE_UNLOAD` of a slot that serves and to which no open session is bound empties it, with its key, once no entry runs,
and is `UNLOADING` until then; otherwise it ends with `STATE_CONFLICT`. -/
def Obligations.ObjectAndRecipeCommands : Prop :=
  ∀ (s : State) (r n tier : Nat) (f : Flight), tier = db f.desc 25 1 →
    (pastGate s.dev r 0x21 f → db f.desc 24 1 = 0x10 → n = dSel f.desc % 64 → tblForeign s.dev n (sqClient s.dev r) = false →
      ∃ d, exec (.objPlaceHint r) s = .next (s.settled (finish d r f.id stOK 0)) ∧
        tblOf d n = { tblOf s.dev n with hint := if tier = 0xFF then none else some tier } ∧
        (∀ m, m ≠ n → tblOf d m = tblOf s.dev m) ∧ d.ctx = s.dev.ctx) ∧
    (∀ i, pastGate s.dev r 0x21 f → db f.desc 24 1 ≠ 0x10 → namesSession s.dev f i → (recOf s.dev i).state ∈ [RecState.active, .paused] →
      ∃ d, exec (.objPlaceHint r) s = .next (s.settled (finish d r f.id stOK 0)) ∧
        recOf d i = { recOf s.dev i with hint := if tier = 0xFF then none else some (tier, db f.desc 28 4) } ∧
        (∀ j, j ≠ i → recOf d j = recOf s.dev j) ∧ d.txt = s.dev.txt) ∧
    (∀ v num, pastGate s.dev r 0x22 f → db f.desc 24 1 = 0x10 → n = dSel f.desc % 64 → tblForeign s.dev n (sqClient s.dev r) = false →
      v = (tblOf s.dev n).staged → num = (match v with | some x => x.num | none => 0) →
      (v ≠ none → num = db f.desc 36 4 →
        ((∀ g ∈ s.dev.dly.groups, g.obj ≠ .table n num) → ∃ d, exec (.objFree r) s = .next (s.settled (finish d r f.id stOK 0)) ∧
          tblOf d n = { tblOf s.dev n with staged := none } ∧ (∀ m, m ≠ n → tblOf d m = tblOf s.dev m) ∧ d.ctx = s.dev.ctx) ∧
        (∀ g ∈ s.dev.dly.groups, g.obj = .table n num → exec (.objFree r) s = .next (s.settled s.dev))) ∧
      (v = none ∨ num ≠ db f.desc 36 4 → exec (.objFree r) s = .next (s.settled (finish s.dev r f.id stStaleVersion num)))) ∧
    (pastGate s.dev r 0x22 f → db f.desc 24 1 = 0x20 → n = dSel f.desc % 256 → idxForeign s.dev n (sqClient s.dev r) = false →
      (idxOf s.dev n).state ≠ 0 → idxNamed s.dev n r f.id = false →
      ∃ d, exec (.objFree r) s = .next (s.settled (finish d r f.id stOK 0)) ∧ idxOf d n = {} ∧
        (∀ m, m ≠ n → idxOf d m = idxOf s.dev m) ∧ d.ctx = s.dev.ctx) ∧
    (∀ i, pastGate s.dev r 0x22 f → db f.desc 24 1 ≠ 0x10 → db f.desc 24 1 ≠ 0x20 → namesSession s.dev f i →
      (recOf s.dev i).state ∈ [RecState.active, .paused] → exec (.objFree r) s = .next (s.settled (boundary (finish
        (addEdit s.dev i (.tune ((recOf s.dev i).kv.map (fun _ => {})))) r f.id stOK 0) i))) ∧
    (∀ (o : MoveOf) (ks : List Nat) (pages : NMap Loc), pastGate s.dev r 0x20 f →
      (db f.desc 24 1 = 0x10 ∧ n = dSel f.desc % 64 ∧ tblForeign s.dev n (sqClient s.dev r) = false ∧
        ∃ v, namedVersion (tblOf s.dev n) (db f.desc 36 4) = some v ∧ o = .table n v.num ∧ pages = v.pages ∧ ks = keys v.pages) ∨
      (db f.desc 24 1 = 0x20 ∧ n = dSel f.desc % 256 ∧ idxForeign s.dev n (sqClient s.dev r) = false ∧ (idxOf s.dev n).state ≠ 0 ∧
        (idxOf s.dev n).folding = none ∧ o = .index n ∧ pages = (idxOf s.dev n).base.pages ∧ ks = keys pages) ∨
      (db f.desc 24 1 ≠ 0x10 ∧ db f.desc 24 1 ≠ 0x20 ∧ namesSession s.dev f n ∧ (recOf s.dev n).state ∈ [RecState.active, .paused] ∧
        o = .session n ∧ pages = (recOf s.dev n).pages ∧ ks = namedPages s.dev n f.desc) →
      ((∀ k ∈ ks, k ∉ movingPages s.dev o) →
        exec (.objMove r) s = .next (s.settled (moveObject s.dev r f o tier (outside pages tier ks)))) ∧
      (∀ k ∈ ks, k ∈ movingPages s.dev o → exec (.objMove r) s = .next (s.settled s.dev))) ∧
    (∀ c op, (c, op) ∈ [(Instr.objMove r, 0x20), (.objFree r, 0x22)] → pastGate s.dev r op f →
      (db f.desc 24 1 = 0x10 ∧ n = dSel f.desc % 64 ∧ tblForeign s.dev n (sqClient s.dev r) = true) ∨
      (db f.desc 24 1 = 0x20 ∧ n = dSel f.desc % 256 ∧ idxForeign s.dev n (sqClient s.dev r) = true) →
      exec c s = .next (s.settled (finish s.dev r f.id stSecurity 0))) ∧
    (pastGate s.dev r 0x71 f → n = dSel f.desc % 64 →
      (rcpServes (rcpOf s.dev n) = true → rcpBound s.dev n = 0 →
        (rcpRuns s.dev n = false → ∃ d, exec (.recipeUnload r) s = .next (s.settled (finish (redigest d) r f.id stOK 0)) ∧
          rcpOf d n = { gen := (rcpOf s.dev n).gen } ∧ (∀ m, m ≠ n → rcpOf d m = rcpOf s.dev m) ∧ look d.sec.weight n = none ∧
          d.ctx = s.dev.ctx) ∧
        (rcpRuns s.dev n = true → exec (.recipeUnload r) s = .next (s.settled (setRcp (dispatched s.dev r f.id) n
          { rcpOf s.dev n with state := .unloading, unloader := some (r, f.id) })))) ∧
      (rcpServes (rcpOf s.dev n) = false ∨ rcpBound s.dev n ≠ 0 →
        exec (.recipeUnload r) s = .next (s.settled (finish s.dev r f.id stStateConflict (rcpOf s.dev n).state.code))))

/-- 05 R149 to R154, 16 R439, R440, R449: `RECIPE_LOAD` past its gates into an occupied slot, or a slice without arrays, ends with
`STATE_CONFLICT`. A container that no valid publisher key verifies ends with `SECURITY`, and `sig_failed` is raised. Otherwise, with
refusals, the refusal record is posted and it ends with `NO_FIT`, the first reason and the count; a wrapped key or an object that does not
open ends it with `SECURITY`; and once the pages of the banks that the footprint takes have left and their places are published, the
recipe is LOADED in its slot under the next generation, with its banks, key and objects, and the command completes with slot and
generation. Until they have left it waits. -/
def Obligations.RecipeLoadChecksThenLoads : Prop :=
  ∀ (s : State) (r n sl : Nat) (f : Flight) (ctr : List Byte) (c : Ctr) (rs : List Refuse) (e : Dev), pastGate s.dev r 0x70 f →
    n = dSel f.desc % 64 → sl = db f.desc 52 1 → c = readCtr ctr → rs = mise s.dev c (db f.desc 32 4) sl →
    ((rcpOf s.dev n).state ≠ .empty ∨ sliceArrays s.dev sl = [] → exec (.recipeLoad r ctr) s
      = .next (s.settled (finish s.dev r f.id stStateConflict (rcpOf s.dev n).state.code))) ∧
    ((rcpOf s.dev n).state = .empty → sliceArrays s.dev sl ≠ [] →
      (recipeVerifies s.dev ctr = false ∧ exec (.recipeLoad r ctr) s
        = .next (s.settled (finish (raise s.dev Fd.SEC_EVT_sig_failed) r f.id stSecurity 0))) ∨
      (recipeVerifies s.dev ctr = true ∧
        (∀ x rest, rs = x :: rest → e = hostWrite s.dev r (db f.desc 40 8) (refusalRecord s.dev c rs n sl (db f.desc 48 4)) →
          exec (.recipeLoad r ctr) s = .next (s.settled (finish e r f.id stNoFit (x.reason + 256 * min (rest.length + 1) 255)))) ∧
        (∀ key, rs = [] → key = (if c.keyOff = 0 then none else unwrapKey s.dev c) →
          (c.keyOff ≠ 0 → key = none → exec (.recipeLoad r ctr) s
            = .next (s.settled (finish (raise s.dev Fd.SEC_EVT_unwrap_failed) r f.id stSecurity 0))) ∧
          (c.keyOff = 0 ∨ key ≠ none → allSome ((ctrObjs c).map (openObj c key)) = none →
            exec (.recipeLoad r ctr) s = .next (s.settled (finish s.dev r f.id stSecurity 0))) ∧
          (∀ objs banks d1 d2, c.keyOff = 0 ∨ key ≠ none → allSome ((ctrObjs c).map (openObj c key)) = some objs →
            pickFrom c.footprint (freeBanks s.dev sl) s.dev = (banks, d1) → vacate d1 banks = some d2 →
            (bankHeld (publishMoved d2) banks = true → exec (.recipeLoad r ctr) s = .next (s.settled (publishMoved d2))) ∧
            (bankHeld (publishMoved d2) banks = false → ∃ d, exec (.recipeLoad r ctr) s
                = .next (s.settled (finish (redigest d) r f.id stOK (n + 256 * (rcpOf d n).gen))) ∧
              (rcpOf d n).state = .loaded ∧ (rcpOf d n).gen = ((rcpOf s.dev n).gen + 1) % 256 ∧ (rcpOf d n).slice = sl ∧
              (rcpOf d n).banks = banks ∧ (rcpOf d n).recipeId = c.id ∧ (rcpOf d n).version = c.version ∧ (rcpOf d n).objects = objs ∧
              (∀ k, key = some k → look d.sec.weight n = some k) ∧ ∀ m, m ≠ n → rcpOf d m = rcpOf (publishMoved d2) m)))))

/-- 08 R239 to R249, 09 R261 to R265: table commands past their gates on a table of another client end with `SECURITY`. `TABLE_LOAD` enters
its rows into the staged version, or a new one, with T1 or other pages for them, and leaves the current version. `TABLE_SWAP` makes the
staged version, or with `drop` none, current at once; a version that work is bound to becomes old, another is freed; with two old versions
it waits, and a number that does not match ends it with `STALE_VERSION`. `GATHER_POOL` of a damaged version or one in which a tile fails
twice ends with `INTEGRITY`, one whose output is too large with `BOUND_EXCEEDED`; otherwise its pooled bags are posted and it completes
with the number of rows invalid or missing. `CONSTRAINT_LOAD` compiles its list into a new version with its states, or ends with
`INVALID_FIELD` or `NO_FIT`. -/
def Obligations.TablesAndColanders : Prop :=
  ∀ (s : State) (r n c : Nat) (f : Flight) (bytes : List Byte) (inc : List Incident) (t : Tbl), c = sqClient s.dev r → t = tblOf s.dev n →
    (∀ i op, (i, op) ∈ [(Instr.tableLoad r bytes, 0x30), (.tableSwap r, 0x31), (.gatherPool r bytes inc, 0x32)] → pastGate s.dev r op f →
      n = dSel f.desc % 64 → tblForeign s.dev n c = true → exec i s = .next (s.settled (finish s.dev r f.id stSecurity 0))) ∧
    (∀ (drop bound : Bool), pastGate s.dev r 0x31 f → n = dSel f.desc % 64 → tblForeign s.dev n c = false → drop = bitOf (db f.desc 28 1) 1 →
      (∀ cur, cur = (match t.cur with | some v => v.num | none => 0) → bitOf (db f.desc 28 1) 0 = true → cur ≠ db f.desc 24 4 →
        exec (.tableSwap r) s = .next (s.settled (finish s.dev r f.id stStaleVersion cur))) ∧
      ((bitOf (db f.desc 28 1) 0 = false ∨ (match t.cur with | some v => v.num | none => 0) = db f.desc 24 4) →
        (drop = false → ∃ v, t.staged = some v ∧ (v.kind = 2 ∨ v.order ≠ 0 → fullyLoaded v = true)) →
        bound = (match t.cur with | some v => tblBound s.dev n v.num | none => false) →
        (t.cur = none ∨ t.old.length < 2 → ∃ d, exec (.tableSwap r) s = .next (s.settled (finish d r f.id stOK
            (match (if drop then none else t.staged) with | some v => v.num | none => 0))) ∧
          tblOf d n = { t with
            cur := if drop then none else t.staged, staged := none, old := if bound then t.cur.toList ++ t.old else t.old } ∧
          (∀ m, m ≠ n → tblOf d m = tblOf s.dev m) ∧ d.ctx = s.dev.ctx ∧
          (t.cur.isSome = true → bound = false → evSet d Fd.TXT_EVT_version_freed = true)) ∧
        (t.cur ≠ none → 2 ≤ t.old.length → exec (.tableSwap r) s = .next (s.settled s.dev)))) ∧
    (∀ (bs : List Byte) (v v2 : TVer) (d1 : Dev) (fs want : List Nat) (place : Nat) (isNew : Bool), pastGate s.dev r 0x30 f →
      n = dSel f.desc % 64 → tblForeign s.dev n c = false → isNew = bitOf (db f.desc 45 1) 0 →
      (db f.desc 61 1 ≠ 0 ∨ bitOf (db f.desc 45 1) 1 = true → rcpCurrent s.dev (db f.desc 46 2) = true) → loadConflict s.dev n f.desc = false →
      v = (if isNew then newVersion s.dev n f.desc else t.staged.getD (newVersion s.dev n f.desc)) →
      place = (if isNew then t.hint.getD v.tier else match v.pages with | p :: _ => p.2.tier | [] => t.hint.getD v.tier) →
      want = (rowPages v (db f.desc 44 1) (db f.desc 40 4) (db f.desc 36 4 / max 1 (rowBytes v.fmt v.dim))).filter
        (fun p => match look v.pages p with | none => true | some l => l.tier == 4) →
      alloc (if isNew then setTbl s.dev n { t with staged := none } else s.dev) c place want.length = .ok fs d1 →
      v2 = enterRows v (db f.desc 44 1) (db f.desc 40 4) (pieces (max 1 (rowBytes v.fmt v.dim)) bs) →
      (loadRows s.dev f.desc bytes = some bs → ∃ d, exec (.tableLoad r bytes) s = .next (s.settled (finish d r f.id stOK v.num)) ∧
        (∃ u, (tblOf d n).staged = some u ∧ u.chunks = v2.chunks ∧ u.num = v.num ∧ u.name = v.name) ∧ (tblOf d n).cur = t.cur ∧
        (tblOf d n).client = c ∧ (∀ m, m ≠ n → tblOf d m = tblOf s.dev m) ∧ d.ctx = s.dev.ctx) ∧
      (loadRows s.dev f.desc bytes = none → exec (.tableLoad r bytes) s = .next (s.settled (finish s.dev r f.id stSecurity 0)))) ∧
    (∀ (v : TVer) (e : Dev) (bags : List (List Nat × Nat × Nat)) (lens : List Nat), pastGate s.dev r 0x32 f → n = dSel f.desc % 64 →
      tblForeign s.dev n c = false → t.cur = some v →
      e = suffer (countChecks (dispatched s.dev r f.id) inc Fd.TXT_CRC_CNT_transient Fd.TXT_CRC_CNT_lasting Fd.TXT_EVT_crc_transient
        Fd.TXT_EVT_crc_lasting) inc →
      lens = (List.range (db f.desc 60 2)).map (fun k => leAt f.list (4 * k) 4) →
      bags = (bagsOf lens ((List.range (sumN lens)).map (fun k => leAt bytes (4 * k) 4))).map (bagValid v) →
      (v.damaged = true → exec (.gatherPool r bytes inc) s
        = .next (s.settled (finish (damagedReport s.dev n v).1 r f.id stIntegrity (damagedReport s.dev n v).2))) ∧
      (v.damaged = false → db f.desc 56 4 < 4 * v.dim * db f.desc 60 2 →
        exec (.gatherPool r bytes inc) s = .next (s.settled (finish s.dev r f.id stBoundExceeded 56))) ∧
      (v.damaged = false → 4 * v.dim * db f.desc 60 2 ≤ db f.desc 56 4 →
        (lastingTile inc ≠ none → exec (.gatherPool r bytes inc) s
          = .next (s.settled (finish (tableDamaged e n v).1 r f.id stIntegrity (tableDamaged e n v).2))) ∧
        (lastingTile inc = none → ∃ d, exec (.gatherPool r bytes inc) s = .next (s.settled (finish d r f.id stOK
            (sat32 (sumN (bags.map (fun b => b.2.1)) + sumN (bags.map (fun b => b.2.2)))))) ∧
          d.posted = (hostWrite e r (db f.desc 48 8) ((bags.map (fun b => (poolBag v (bitOf (db f.desc 62 1) 0) b.1).v)).flatMap
            (fun p => p.flatMap (fun x => leBytes 4 x.toNat)))).posted ∧ d.ctx = e.ctx ∧ d.txt.tbl = e.txt.tbl))) ∧
    (∀ (x : Col) (bound : Bool) (d1 : Dev), pastGate s.dev r 0x78 f → n = dSel f.desc % 256 → x = colOf s.dev n →
      bound = (match x.cur with | some v => colBound s.dev n v.num | none => false) →
      d1 = setCol s.dev n { x with client := c, cur := none, old := if bound then x.cur.toList ++ x.old else x.old } →
      (x.cur ≠ none → x.client ≠ c → exec (.constraintLoad r bytes) s = .next (s.settled (finish s.dev r f.id stSecurity 0))) ∧
      (x.cur = none ∨ x.client = c → bitOf (db f.desc 42 1) 0 = false →
        (colParse (db f.desc 40 2) (bytes.take (db f.desc 36 4)) = none →
          exec (.constraintLoad r bytes) s = .next (s.settled (finish s.dev r f.id stInvalidField 36))) ∧
        (∀ seqs, colParse (db f.desc 40 2) (bytes.take (db f.desc 36 4)) = some seqs →
          (seqs.length ≠ db f.desc 40 2 ∨ colConflict seqs = true →
            exec (.constraintLoad r bytes) s = .next (s.settled (finish s.dev r f.id stInvalidField 36))) ∧
          (seqs.length = db f.desc 40 2 → colConflict seqs = false →
            (65536 < colStates seqs → exec (.constraintLoad r bytes) s = .next (s.settled (finish s.dev r f.id stNoFit (colStates seqs)))) ∧
            (colStates seqs ≤ 65536 → x.cur = none ∨ x.old.length < 2 → lackT1 d1 c (576 * colStates seqs) = none →
              heldT1 s.dev (576 * colStates seqs) = false →
              ∃ d, exec (.constraintLoad r bytes) s = .next (s.settled (finish d r f.id stOK (nextVersion x.last))) ∧
                colOf d n = {
                  client := c, cur := some { num := nextVersion x.last, seqs := seqs, states := colStates seqs },
                  old := if bound then x.cur.toList ++ x.old else x.old, last := nextVersion x.last } ∧
                (∀ m, m ≠ n → colOf d m = colOf s.dev m) ∧ d.ctx = s.dev.ctx ∧
                (x.cur ≠ none → bound = false → evSet d Fd.TXT_OUT_EVT_colander_freed = true))))))

/-- 11 R326 to R339: index commands past their gates. One of another client's index ends with `SECURITY`, of no index with `STATE_CONFLICT`,
of a damaged index with `INTEGRITY`. `SEARCH` runs its normalised queries on the index as it stands, keeps the own results and asks the
other shards if `sharded`; it waits while 2,048 queries would be exceeded. `VEC_INSERT` into an index, with room, takes the vectors in
order and ends with the counts taken and rejected; `VEC_DELETE` enters the tombstones and ends with the counts found and not; `INDEX_FOLD`
forms the new base version and takes pages for it. Faults met act first; a lasting one hurts the index. A fold publishes its base version
at one instant; a search with every answer ends with its output; until then nothing happens. A shard evaluates a query it serves and
replies with its entries, and replies status 1 where the index does not exist. A reply that a query waits for is kept, and one missing for
`FLS_SHARD_TIMEOUT` frames counts as status 0xFF. -/
def Obligations.SearchAndIndexCommands : Prop :=
  ∀ (s : State) (r n : Nat) (f : Flight) (bytes params : List Byte) (inc : List Incident) (i : Idx) (e : Dev),
    n = dSel f.desc % 256 → i = idxOf s.dev n →
    e = suffer (countChecks s.dev inc Fd.FLS_CHECK_CNT_transient Fd.FLS_CHECK_CNT_lasting Fd.FLS_EVT_check_transient
      Fd.FLS_EVT_check_lasting) inc →
    (∀ c op, (c, op) ∈ [(Instr.search r bytes, 0x40), (.vecInsert r bytes params inc, 0x41), (.vecDelete r bytes, 0x42), (.indexFold r, 0x43)] →
      pastGate s.dev r op f →
      (idxForeign s.dev n (sqClient s.dev r) = true → exec c s = .next (s.settled (finish s.dev r f.id stSecurity 0))) ∧
      (idxForeign s.dev n (sqClient s.dev r) = false → i.state = 0 → op ≠ 0x41 ∨ db f.desc 40 8 = 0 →
        exec c s = .next (s.settled (finish s.dev r f.id stStateConflict 0))) ∧
      (idxForeign s.dev n (sqClient s.dev r) = false → i.state ∈ [1, 2, 3] → i.damaged = true → op ≠ 0x41 ∨ db f.desc 40 8 = 0 →
        exec c s = .next (s.settled (idxDamaged s.dev r f.id n)))) ∧
    (∀ qs, pastGate s.dev r 0x40 f → idxForeign s.dev n (sqClient s.dev r) = false → i.state ∈ [1, 2, 3] → i.damaged = false →
      i.dim = db f.desc 56 2 → qs = queryVecs f.desc bytes → (∀ q ∈ qs, vecFault i.metric q = 0) →
      (queriesInFlight s.dev + db f.desc 58 1 ≤ 2048 →
        ∃ (d : Dev) (x : Search), exec (.search r bytes) s = .next (s.settled d) ∧ look d.fls.search s.dev.fls.nextSearch = some x ∧
          x.ring = r ∧ x.flight = f.id ∧ x.index = n ∧ x.base = i.base.num ∧ x.seq = i.seq ∧ x.k = db f.desc 52 2 ∧ x.flags = db f.desc 59 1 ∧
          x.asked = (if bitOf (db f.desc 59 1) 0 then (List.range i.shards).filter (fun h => h != i.shard) else []) ∧
          x.vecs = qs.map (normalised i.metric) ∧ x.replies = [] ∧ x.own = x.vecs.map (fun v =>
            ((beamSearch i i.base i.seq (db f.desc 54 2) (db f.desc 60 4) v).expanded,
              beamResult i i.base i.seq x.k (beamSearch i i.base i.seq (db f.desc 54 2) (db f.desc 60 4) v))) ∧
          d.fls.nextSearch = (s.dev.fls.nextSearch + 1) % 2 ^ 26 ∧ d.ctx = s.dev.ctx ∧ d.fls.idx = s.dev.fls.idx) ∧
      (2048 < queriesInFlight s.dev + db f.desc 58 1 → exec (.search r bytes) s = .next (s.settled s.dev))) ∧
    (∀ vs good room, pastGate s.dev r 0x41 f → idxForeign s.dev n (sqClient s.dev r) = false → db f.desc 40 8 = 0 → i.state ≠ 0 →
      i.damaged = false → i.dim = db f.desc 62 2 →
      vs = (List.range (db f.desc 60 2)).map (fun k => (bytes.drop (k * (8 + 4 * i.dim))).take (8 + 4 * i.dim)) →
      good = goodVectors i.metric i.dim vs → room = db f.desc 60 2 * (nodeSize i + 8 * i.degree) →
      lackT1 s.dev (sqClient s.dev r) room = none → heldT1 s.dev room = false → i.next + good ≤ 2 ^ 36 →
      sumN ((vals s.dev.fls.idx).map liveVectors) + good ≤ 2 ^ 36 → inc = [] →
      ∃ d, exec (.vecInsert r bytes params inc) s
          = .next (s.settled (finish d r f.id stOK (good + 2 ^ 16 * (db f.desc 60 2 - good)))) ∧
        idxOf d n = (insertAll i i.dim s.dev.fresh vs).1 ∧ (∀ m, m ≠ n → idxOf d m = idxOf s.dev m) ∧ d.ctx = s.dev.ctx) ∧
    (∀ vs found d, pastGate s.dev r 0x42 f → idxForeign s.dev n (sqClient s.dev r) = false → i.state ≠ 0 → i.damaged = false →
      vs = (List.range (db f.desc 40 2)).map (fun k => leAt bytes (8 * k) 8 % 2 ^ 36) → found = ((deleteAll i vs).2.filter id).length →
      d = (if db f.desc 48 8 = 0 then setIdx s.dev n (deleteAll i vs).1
        else hostWrite (setIdx s.dev n (deleteAll i vs).1) r (db f.desc 48 8) ((deleteAll i vs).2.map (fun b => if b then 0 else 1))) →
      exec (.vecDelete r bytes) s = .next (s.settled (finish d r f.id stOK (found + 2 ^ 16 * (db f.desc 40 2 - found))))) ∧
    (pastGate s.dev r 0x43 f → idxForeign s.dev n (sqClient s.dev r) = false → i.state ≠ 0 → i.damaged = false →
      (i.folding.isSome = true ∨ (∃ g ∈ s.dev.dly.groups, g.obj = .index n) → exec (.indexFold r) s = .next (s.settled s.dev)) ∧
      (∀ fs d1 t, i.folding = none → (∀ g ∈ s.dev.dly.groups, g.obj ≠ .index n) → t = (if db f.desc 24 1 = 0 then i.tier else db f.desc 24 1) →
        alloc s.dev (sqClient s.dev r) t (foldChunks i (foldBase i)).1.length = .ok fs d1 →
        ∃ (d : Dev) (ps : NMap Loc), exec (.indexFold r) s = .next (s.settled d) ∧
          idxOf d n = { idxOf d1 n with folding := some (r, f.id, { foldBase i with pages := ps }) } ∧ d.ctx = d1.ctx)) ∧
    (∀ ring id b, (idxOf e n).folding = some (ring, id, b) → i.folding.isSome = true → s.dev.sys.resetLow = false → lastingTile inc = none →
      .writeLasting ∉ inc → (idxOf e n).damaged = false → exec (.indexFoldPublish n inc) s = .next (s.settled (foldPublish e n)) ∧
      ∃ d, foldPublish e n = finish (idxReap d n) ring id stOK b.num ∧ (idxOf d n).base = b ∧ (idxOf d n).folding = none ∧
        evSet d Fd.FLS_EVT_fold_done = true) ∧
    (i.folding = none ∨ s.dev.sys.resetLow = true → exec (.indexFoldPublish n inc) s = .next (s.settled s.dev)) ∧
    (∀ q x y, look s.dev.fls.search q = some x → searchReady x = true → s.dev.sys.resetLow = false → look e.fls.search q = some y →
      (lastingTile inc = none → (idxOf e y.index).damaged = false → exec (.searchComplete q inc) s = .next (s.settled (searchEnd e q y))) ∧
      (∀ win, lastingTile inc = some win → exec (.searchComplete q inc) s
        = .next (s.settled (finish (dropSearch (idxHurt e y.index).1 q y) y.ring y.flight stIntegrity (idxHurt e y.index).2)))) ∧
    (∀ q, (look s.dev.fls.search q = none ∨ ∃ x, look s.dev.fls.search q = some x ∧ searchReady x = false) →
      exec (.searchComplete q inc) s = .next (s.settled s.dev)) ∧
    (∀ q sh x, look s.dev.fls.search (q / 64) = some x → x.asked.contains sh = true → q % 64 < x.vecs.length → replyOf x sh (q % 64) = none →
      (∀ src st base seq es, ((idxOf s.dev x.index).list.getD sh (0, 0)).1 = src → s.dev.lnk.fenced.contains src = false → ∃ d y,
        exec (.shardReply src q sh st base seq es) s = .next (s.settled d) ∧ look d.fls.search (q / 64) = some y ∧
        replyOf y sh (q % 64) = some ⟨st, base, seq, es⟩ ∧ y.asked = x.asked ∧ d.fls.idx = s.dev.fls.idx ∧ d.ctx = s.dev.ctx) ∧
      (∀ src st base seq es, ((idxOf s.dev x.index).list.getD sh (0, 0)).1 ≠ src ∨ s.dev.lnk.fenced.contains src = true →
        exec (.shardReply src q sh st base seq es) s = .next (s.settled s.dev)) ∧
      (x.sentAt + fget s.dev Fd.FLS_SHARD_TIMEOUT_frames * 65536 ≤ up s.dev → ∃ d y, exec (.shardTimeout q sh) s = .next (s.settled d) ∧
        look d.fls.search (q / 64) = some y ∧ replyOf y sh (q % 64) = some ⟨0xFF, 0, 0, []⟩ ∧ d.fls.idx = s.dev.fls.idx ∧ d.ctx = s.dev.ctx) ∧
      (up s.dev < x.sentAt + fget s.dev Fd.FLS_SHARD_TIMEOUT_frames * 65536 → exec (.shardTimeout q sh) s = .next (s.settled s.dev))) ∧
    (∀ src query group index shard metric dim k beam budget test vector, s.dev.sys.resetLow = false → s.dev.sys.fatal = false →
      s.dev.lnk.fenced.contains src = false →
      ((idxOf s.dev index).state = 0 → exec (.shardQuery src query group index shard metric dim k beam budget test vector inc) s
        = .next (s.settled (sendFrame s.dev 5 0x50 src none
          (shardFrame 2 (b2n test) src query group index shard metric dim k beam budget 1 0 0 0 [])))) ∧
      (∀ j es, j = idxOf s.dev index → j.state = 2 → j.damaged = false → j.group = group → j.dim = dim → j.metric = metric → inc = [] →
        fbit s.dev Fd.FLS_CTL_enable = true → unitInReset s.dev 4 = false → queriesInFlight s.dev < 2048 →
        es = beamResult j j.base j.seq k (beamSearch j j.base j.seq beam budget ((vector ++ List.replicate (dim - vector.length) 0).take dim)) →
        ∃ d, exec (.shardQuery src query group index shard metric dim k beam budget test vector inc) s = .next (s.settled (sendFrame d 5 0x50 src
          (some j.client) (shardFrame 2 (b2n test) src query group index shard metric dim k beam budget 0 j.base.num j.seq es.length
            (es.flatMap (entryBytes shard))))) ∧ d.fls.queries = s.dev.fls.queries + 1 ∧ d.fls.idx = s.dev.fls.idx ∧ d.ctx = s.dev.ctx))

/-- 10 R294 to R297, R301, 11 R316 to R318: while the dolly works, a page that may start goes from its queue to an idle mover, with the
counter of its tier; with none nothing starts. A mover's page is done when no loan message is awaited: a tile that failed twice, a write
that failed twice, or one that failed once with no other frame, ends its group; one that failed once goes to another frame; otherwise the
page leaves its mover, and joins its group's finished pages while others are left. A scrub of a stack in service meets the faults of that
stack. A block pair with live pages is refreshed after more reads than `FLS_REFRESH` allows, or a corrected one, and reclaimed when it is
the channel's `reclaimPair`: its live pages move, unless a tile or a write failed twice. -/
def Obligations.PagesMove : Prop :=
  ∀ (s : State) (n : Nat) (inc : List Incident) (e : Dev),
    e = suffer (countChecks s.dev inc Fd.DLY_CHECK_CNT_transient Fd.DLY_CHECK_CNT_lasting Fd.DLY_EVT_check_transient
      Fd.DLY_EVT_check_lasting) inc →
    (s.dev.sys.resetLow = false → s.dev.sys.fatal = false → look s.dev.sys.unitRst 3 = none → fbit s.dev Fd.DLY_CTL_enable = true →
      (∀ m k p g, idleMover s.dev = some m → nextPage s.dev = some (k, p) → grpOf s.dev p.group = some g → ∃ d,
        exec .pageMoveStart s = .next (s.settled d) ∧
        look d.dly.movers m = some { p with
          dest := { p.dest with ctr := (sealed s.dev p.dest.tier).1 }
          await := if (look (objPages s.dev g.obj) p.page).any (fun l => l.tier == 3) then 1 else if p.dest.tier = 3 then 2 else 0 } ∧
        mget d.dly.queues [] k = ((mget s.dev.dly.queues [] k).erase p).map (fun x => { x with since := frame s.dev }) ∧
        d.dly.groups = s.dev.dly.groups ∧ d.ctx = s.dev.ctx) ∧
      (idleMover s.dev = none ∨ nextPage s.dev = none → exec .pageMoveStart s = .next (s.settled s.dev))) ∧
    (s.dev.sys.resetLow = true ∨ s.dev.sys.fatal = true ∨ (look s.dev.sys.unitRst 3).isSome = true ∨ fbit s.dev Fd.DLY_CTL_enable = false →
      exec .pageMoveStart s = .next (s.settled s.dev)) ∧
    (∀ p, look s.dev.dly.movers n = some p → p.await = 0 → (look e.dly.movers n).isSome = true →
      (∀ w, lastingTile inc = some w → exec (.pageMoveDone n inc) s = .next (s.settled (failGroup e p.group stIntegrity p.page))) ∧
      (lastingTile inc = none → .writeLasting ∈ inc → exec (.pageMoveDone n inc) s = .next (s.settled (failGroup e p.group stUnitFailed))) ∧
      (lastingTile inc = none → .writeLasting ∉ inc →
        (writeFailed p.dest inc = false → exec (.pageMoveDone n inc) s = .next (s.settled (moverDone e n p))) ∧
        (writeFailed p.dest inc = true → writeAgain e n p = none →
          exec (.pageMoveDone n inc) s = .next (s.settled (failGroup e p.group stUnitFailed))) ∧
        (∀ e2 p2, writeFailed p.dest inc = true → writeAgain e n p = some (e2, p2) →
          exec (.pageMoveDone n inc) s = .next (s.settled (if p2.await = 0 then moverDone e2 n p2 else e2))))) ∧
    ((look s.dev.dly.movers n = none ∨ ∃ p, look s.dev.dly.movers n = some p ∧ p.await ≠ 0) →
      exec (.pageMoveDone n inc) s = .next (s.settled s.dev)) ∧
    (∀ d p g, grpOf d p.group = some g → (∀ i, g.obj ≠ .session i) → g.left.erase p.page ≠ [] →
      grpOf (moverDone d n p) p.group = some { g with left := g.left.erase p.page, done := g.done ++ [(p.page, p.dest)] } ∧
      look (moverDone d n p).dly.movers n = none ∧ (moverDone d n p).ctx = d.ctx) ∧
    (s.dev.sys.resetLow = false → maskBit s.dev.mem.nearUp.toNat n = true → maskBit s.dev.mem.nearRetired.toNat n = false →
      exec (.nearScrub n inc) s = .next (s.settled (suffer s.dev (inc.filter (Incident.ofStack n))))) ∧
    (s.dev.sys.resetLow = true ∨ maskBit s.dev.mem.nearUp.toNat n = false ∨ maskBit s.dev.mem.nearRetired.toNat n = true →
      exec (.nearScrub n inc) s = .next (s.settled s.dev)) ∧
    (∀ b, flsServes s.dev = true → livePages s.dev n ≠ 0 →
      (b = true ∨ fget s.dev Fd.FLS_REFRESH_reads < (mget s.dev.fls.pairs {} n).reads →
        exec (.flashRefresh n b inc) s = .next (s.settled (moveLive s.dev n inc))) ∧
      (b = false → (mget s.dev.fls.pairs {} n).reads ≤ fget s.dev Fd.FLS_REFRESH_reads →
        exec (.flashRefresh n b inc) s = .next (s.settled s.dev))) ∧
    (∀ b, flsServes s.dev = false ∨ livePages s.dev n = 0 → exec (.flashRefresh n b inc) s = .next (s.settled s.dev)) ∧
    (∀ p, flsServes s.dev = true → reclaimPair s.dev n = some p →
      exec (.flashReclaim n inc) s = .next (s.settled (moveLive s.dev p inc))) ∧
    (flsServes s.dev = false ∨ reclaimPair s.dev n = none → exec (.flashReclaim n inc) s = .next (s.settled s.dev)) ∧
    (livePages e n ≠ 0 → (lastingTile inc = none → .writeLasting ∉ inc → moveLive s.dev n inc = movePair e n) ∧
      (∀ w, lastingTile inc = some w → moveLive s.dev n inc = pairHurt e n) ∧
      (lastingTile inc = none → .writeLasting ∈ inc → ∃ rep : Report, moveLive s.dev n inc = (report e rep).1 ∧ rep.status = stUnitFailed ∧
        rep.inst = flsChannel n))

/-- 12 R342 to R356: a data flit that fails its check or its sequence is answered with a NAK of the sequence the port lacks; one that
continues a frame is taken, its fields acted on, the 64th since the last acknowledgement acknowledged, and the last gives the frame to the
device. A NAK replays what it does not acknowledge, and a second of one sequence retrains. An acknowledgement goes out where flits wait
for it, with the credits owed. A lane that fails retrains its port; a port of which no lane comes back, or a new peer, is retired, and
otherwise its replay buffer goes out again. The oldest frame for another device goes on with one hop less, or is dropped. A policer tests
its queue. The gates stand at the entry of the present time; an armed list becomes the active one at its cycle start. Elsewhere nothing
happens. -/
def Obligations.LinkLayer : Prop :=
  ∀ (s : State) (p : Nat) (fl : List Byte) (q : Port), q = portOf s.dev p →
    (q.up = false ∨ q.retraining = true → ∀ c ∈ [Instr.dataFlitReceived p fl, .idleFlitReceived p fl, .nakReceived p 0],
      exec c s = .next (s.settled s.dev)) ∧
    (q.up = true → q.retraining = false →
      (flitGood fl = false → ∀ c ∈ [Instr.dataFlitReceived p fl, .idleFlitReceived p fl], exec c s = .next (s.settled
        (send s.dev (.flit p (flitBytes 0 0 0 false false (q.rxSeq % 4096 + 2 ^ 13) 0 []))))) ∧
      (flitGood fl = true → bitsOf (leAt fl 0 4) 12 4 ≠ 1 ∨ leAt fl 0 4 % 4096 ≠ q.rxSeq →
        exec (.dataFlitReceived p fl) s = .next (s.settled (sendNak s.dev p))) ∧
      (∀ cls got d, flitGood fl = true → bitsOf (leAt fl 0 4) 12 4 = 1 → leAt fl 0 4 % 4096 = q.rxSeq → cls = bitsOf (leAt fl 0 4) 16 3 →
        got = (if bitOf (leAt fl 0 4) 19 then [] else mget q.reasm [] cls) ++ (fl.drop 12).take (bitsOf (leAt fl 0 4) 21 8 + 1) →
        d = applyFields (setPort s.dev p { q with
          rxSeq := (q.rxSeq + 1) % 4096
          rxSince := q.rxSince + 1
          rxAt := if q.rxSince = 0 then up s.dev else q.rxAt
          owed := mset q.owed 0 cls (mget q.owed 0 cls + 1)
          reasm := mset q.reasm [] cls (if bitOf (leAt fl 0 4) 20 then [] else got) }) p (leAt fl 4 2) (leAt fl 6 2) →
        exec (.dataFlitReceived p fl) s = .next (s.settled (if bitOf (leAt fl 0 4) 20
          then frameArrives (if 64 ≤ (portOf d p).rxSince then sendAck d p else d) p cls got
          else if 64 ≤ (portOf d p).rxSince then sendAck d p else d))) ∧
      (flitGood fl = true →
        (bitsOf (leAt fl 0 4) 12 4 ∈ [0, 2] →
          exec (.idleFlitReceived p fl) s = .next (s.settled (applyFields s.dev p (leAt fl 4 2) (leAt fl 6 2)))) ∧
        (bitsOf (leAt fl 0 4) 12 4 ∉ [0, 2] → exec (.idleFlitReceived p fl) s = .next (s.settled s.dev))) ∧
      (∀ n, (q.lastNak = some (n % 4096) → ∃ d, exec (.nakReceived p n) s = .next (s.settled d) ∧
          portOf d p = { q with lastNak := none, retraining := true, resend := [] } ∧ (∀ x, x ≠ p → portOf d x = portOf s.dev x) ∧ d.out = s.dev.out) ∧
        (q.lastNak ≠ some (n % 4096) → exec (.nakReceived p n) s = .next (s.settled (egress (applyNak s.dev p (n % 4096)) p)) ∧
          evSet (applyNak s.dev p (n % 4096)) Fd.LNK_EVT_replay = true))) ∧
    (q.up = true → 0 < q.rxSince → ∃ d, exec (.ackTimer p) s = .next (s.settled d) ∧ portOf d p = { q with owed := [], rxSince := 0 } ∧
      d.out = s.dev.out ++ (if q.owed = [] then [0] else q.owed.map (fun c => c.1 + c.2 * 8)).map (fun c =>
        Msg.flit p (flitBytes 0 0 0 false false ((q.rxSeq + 4095) % 4096 + 2 ^ 12) c [])) ∧ (∀ x, x ≠ p → portOf d x = portOf s.dev x) ∧
      d.ctx = s.dev.ctx) ∧
    (q.up = false ∨ q.rxSince = 0 → exec (.ackTimer p) s = .next (s.settled s.dev)) ∧
    (∀ lane, (q.up = true → bitOf q.lanes lane = true → ∃ d, exec (.laneFailure p lane) s = .next (s.settled d) ∧
        portOf d p = { q with failed := q.failed ||| 2 ^ lane, retraining := true, resend := [] } ∧ (∀ x, x ≠ p → portOf d x = portOf s.dev x) ∧
        d.evts = s.dev.evts) ∧
      (q.up = false ∨ bitOf q.lanes lane = false → exec (.laneFailure p lane) s = .next (s.settled s.dev))) ∧
    (∀ (lanes : BitVec 4) peer back, back = q.lanes &&& lanes.toNat →
      (q.retraining = true → (back = 0 ∨ peer ≠ q.peer → exec (.portRetrainDone p lanes peer) s = .next (s.settled
          (portFault (setPort s.dev p { q with lanes := back, failed := 0 }) p))) ∧
        (∀ d, back ≠ 0 → peer = q.peer → d = setPort s.dev p { q with lanes := back, failed := 0, retraining := false, lastNak := none } →
          ∃ e, exec (.portRetrainDone p lanes peer) s = .next (s.settled (egress (replayAll (raise e Fd.LNK_EVT_retrain) p)
            p)) ∧
          (back = q.lanes → e = fbump d Fd.LNK_PORT_CNT_retrains 1 p) ∧
          (back ≠ q.lanes → ∃ rep : Report, e = (report d rep).1 ∧ rep.cls = clsUnit ∧ rep.unit = 11 ∧ rep.action = 2 ∧ rep.inst = p))) ∧
      (q.retraining = false → exec (.portRetrainDone p lanes peer) s = .next (s.settled s.dev))) ∧
    (q.forward = [] → exec (.frameForward p) s = .next (s.settled s.dev)) ∧
    (∀ bs rest d, q.forward = bs :: rest → d = setPort s.dev p { q with forward := rest } →
      (s.dev.lnk.fenced.contains (leAt bs 0 2) = true ∨ s.dev.lnk.fenced.contains (leAt bs 2 2) = true →
        exec (.frameForward p) s = .next (s.settled d)) ∧
      (s.dev.lnk.fenced.contains (leAt bs 0 2) = false → s.dev.lnk.fenced.contains (leAt bs 2 2) = false →
        exec (.frameForward p) s = .next (s.settled (if leAt bs 6 1 = 0 then raise d Fd.LNK_EVT_hop_expired
          else linkQueue (if bitOf (leAt bs 4 1) 3 then { d with lnk := { d.lnk with yellow := d.lnk.yellow + 1 } } else d) ⟨leAt bs 4 1 % 8, leAt bs 0 2, patch bs 6 (leBytes 1 (leAt bs 6 1 - 1))⟩)))) ∧
    (∀ cls, exec (.policerRetest p cls) s
      = .next (s.settled (if (mget s.dev.lnk.clientQ [] (p * 8 + cls)).isEmpty then s.dev else policePass s.dev cls))) ∧
    (∀ d, d = precede s.dev 1 1 → exec .gateEntryChange s
      = .next (s.settled (if fbit d Fd.LNK_CTL_enable then gateEnter d (gatePos d).1 else d))) ∧
    (∀ d, d = precede s.dev 1 0 →
      (fbit d Fd.LNK_GATE_SWITCH_arm = true →
        switchFrame d ≤ frame d → ∃ e,
        exec .gateListSwitch s = .next (s.settled (gateEnter e (gatePos e).1)) ∧ e.lnk = { d.lnk with gateList := 1 - d.lnk.gateList } ∧
        fbit e Fd.LNK_GATE_SWITCH_arm = false ∧ evSet e Fd.LNK_EVT_gate_switched = true ∧ e.ctx = d.ctx) ∧
      (fbit d Fd.LNK_GATE_SWITCH_arm = false ∨ frame d < switchFrame d →
        exec .gateListSwitch s = .next (s.settled d)))

/-- 10 R307, 12 R359 to R361: loan messages of a device that is not fenced. A lender in service grants from T1 and then T2 what it has room
for, or refuses (also while a recalled loan of that borrower is open: R361); it stores the sealed tiles put to a page of a loan and
acknowledges them, gives back tiles that are there or answers `GONE`, frees a page, and closes a loan that its borrower returns. A
borrower takes the answer of the lender that it asked; its mover goes on when a page is acknowledged or arrives (on to the lender it is
bound for), and a page that is `GONE` is lost. A recall is noted and reported. At the deadline the lender frees the loan, and the borrower
loses what it has on it. Messages that fit nothing, a fenced sender's and an early deadline change nothing. -/
def Obligations.LoanMessages : Prop :=
  ∀ (s : State) (src loan page : Nat) (mask : BitVec 8) (tiles : List Byte) (key n : Nat) (ts : List Nat), key = loanKey src loan →
    ts = maskBits mask.toNat 8 →
    (s.dev.lnk.fenced.contains src = true → ∀ c ∈ [Instr.loanRequest src n, .loanPut src loan page mask tiles, .loanGet src loan page mask,
        .loanFree src loan page, .loanReturn src loan, .loanPutAck src loan page, .loanData src loan page true tiles, .loanRecall src loan n,
        .loanGrant src loan 1 n n true], exec c s = .next (s.settled s.dev)) ∧
    (s.dev.lnk.fenced.contains src = false → linksServe s.dev = true →
      (n ≠ 0 → s.dev.map.leaving = false → (vals s.dev.lnk.loans).any (fun l => l.borrower == src && l.recalled.isSome) = false → (lendRoom s.dev 1 ≠ 0 → exec (.loanRequest src n) s = .next (s.settled (lend s.dev src 1 n))) ∧
        (lendRoom s.dev 1 = 0 → lendRoom s.dev 2 ≠ 0 → exec (.loanRequest src n) s = .next (s.settled (lend s.dev src 2 n)))) ∧
      (n = 0 ∨ s.dev.map.leaving = true ∨ (vals s.dev.lnk.loans).any (fun l => l.borrower == src && l.recalled.isSome) = true ∨
          (lendRoom s.dev 1 = 0 ∧ lendRoom s.dev 2 = 0) →
        exec (.loanRequest src n) s = .next (s.settled (loanSend s.dev src (loanFrame 2 1 0 0 0 0 0 0 [])))) ∧
      (∀ l, loanPage s.dev src loan page = some l →
        (∃ d l2, exec (.loanPut src loan page mask tiles) s = .next (s.settled (loanSend d src (loanFrame 4 0 0 mask.toNat loan page 0 0 []))) ∧
          look d.lnk.loans loan = some l2 ∧ (∀ t k, ts[k]? = some t → look l2.tiles (page * 8 + t) = some ((tiles.drop (4120 * k)).take 4120)) ∧
          (∀ x, (∀ t ∈ ts, x ≠ page * 8 + t) → look l2.tiles x = look l.tiles x) ∧ l2.freed = l.freed ∧
          (∀ k, k ≠ loan → look d.lnk.loans k = look s.dev.lnk.loans k) ∧ d.ctx = s.dev.ctx) ∧
        ((∀ t ∈ ts, (look l.tiles (page * 8 + t)).isSome = true) → ∃ d, exec (.loanGet src loan page mask) s
            = .next (s.settled (loanSend d src (loanFrame 6 0 0 mask.toNat loan page 0 0 (ts.flatMap (fun t => mget l.tiles [] (page * 8 + t)))))) ∧
          d.lnk = s.dev.lnk ∧ d.ctx = s.dev.ctx) ∧
        ((∃ t ∈ ts, look l.tiles (page * 8 + t) = none) → exec (.loanGet src loan page mask) s
          = .next (s.settled (loanSend s.dev src (loanFrame 6 2 0 0 loan page 0 0 [])))) ∧
        (∃ d, exec (.loanFree src loan page) s = .next (s.settled d) ∧ loanPage d src loan page = none ∧
          (∀ k, k ≠ loan → look d.lnk.loans k = look s.dev.lnk.loans k) ∧ d.ctx = s.dev.ctx)) ∧
      (loanPage s.dev src loan page = none → exec (.loanGet src loan page mask) s
          = .next (s.settled (loanSend s.dev src (loanFrame 6 2 0 0 loan page 0 0 []))) ∧
        ∀ c ∈ [Instr.loanPut src loan page mask tiles, .loanFree src loan page], exec c s = .next (s.settled s.dev)) ∧
      (∀ l, look s.dev.lnk.loans loan = some l → l.borrower = src → ∃ d, exec (.loanReturn src loan) s = .next (s.settled (leaveTry d)) ∧
        d.lnk = { s.dev.lnk with loans := del s.dev.lnk.loans loan } ∧ d.map = s.dev.map ∧ d.ctx = s.dev.ctx) ∧
      ((∀ l, look s.dev.lnk.loans loan = some l → l.borrower ≠ src) → exec (.loanReturn src loan) s = .next (s.settled s.dev))) ∧
    (∀ t dl b, s.dev.lnk.fenced.contains src = false → s.dev.sys.resetLow = false →
      (s.dev.lnk.asked.contains src = true → ∃ d, exec (.loanGrant src loan t n dl b) s = .next (s.settled d) ∧
        d.lnk.asked = s.dev.lnk.asked.erase src ∧ d.lnk.borrows = (if b = true ∨ n = 0 then s.dev.lnk.borrows
          else put s.dev.lnk.borrows key { tier := t, pages := n }) ∧
        d.lnk.refused = (if b = true ∨ n = 0 then src :: s.dev.lnk.refused else []) ∧ d.ctx = s.dev.ctx) ∧
      (s.dev.lnk.asked.contains src = false → exec (.loanGrant src loan t n dl b) s = .next (s.settled s.dev))) ∧
    (s.dev.lnk.fenced.contains src = false →
      (∀ m p, loanMover s.dev key page false = some (m, p) → ∃ d, exec (.loanPutAck src loan page) s = .next (s.settled d) ∧
        d.dly = { s.dev.dly with movers := put s.dev.dly.movers m { p with await := 0 } } ∧ d.lnk = s.dev.lnk ∧ d.ctx = s.dev.ctx) ∧
      (loanMover s.dev key page false = none → exec (.loanPutAck src loan page) s = .next (s.settled s.dev)) ∧
      (∀ m p, loanMover s.dev key page true = some (m, p) →
        exec (.loanData src loan page true tiles) s = .next (s.settled (loseLoan s.dev (fun l => t3Key l == key && t3Page l == page))) ∧
        (p.dest.tier ≠ 3 → exec (.loanData src loan page false tiles) s = .next (s.settled (moverNext s.dev m p 0))) ∧
        (∀ g d, p.dest.tier = 3 → grpOf s.dev p.group = some g → d = moverNext s.dev m p 2 →
          exec (.loanData src loan page false tiles) s = .next (s.settled
            (putFrame d (objClient d g.obj) (usedTiles d g.obj p.page) p.dest (sealPage d g.obj p.page p.dest.ctr))))) ∧
      (loanMover s.dev key page true = none → ∀ b, exec (.loanData src loan page b tiles) s = .next (s.settled s.dev)) ∧
      (∀ b, look s.dev.lnk.borrows key = some b → (∀ i ∈ keys s.dev.ctx.recs, ∀ l ∈ recLocs (recOf s.dev i), l.tier = 3 → t3Key l ≠ key) →
        ∃ d, exec (.loanRecall src loan n) s = .next (s.settled d) ∧ evSet d Fd.LNK_EVT_recall_received = true ∧ d.ctx = s.dev.ctx ∧
        look d.lnk.borrows key = some { b with recalled := some (up s.dev, n) } ∧
        (∀ k, k ≠ key → look d.lnk.borrows k = look s.dev.lnk.borrows k)) ∧
      (look s.dev.lnk.borrows key = none → exec (.loanRecall src loan n) s = .next (s.settled s.dev))) ∧
    (∀ l, look s.dev.lnk.loans loan = some l → recallOver s.dev l.recalled = true → exec (.loanRecallDeadline src loan true) s
      = .next (s.settled (leaveTry { s.dev with lnk := { s.dev.lnk with loans := del s.dev.lnk.loans loan } }))) ∧
    (∀ b, look s.dev.lnk.borrows key = some b → recallOver s.dev b.recalled = true → ∃ d, exec (.loanRecallDeadline src loan false) s
        = .next (s.settled d) ∧ look d.lnk.borrows key = none ∧
      ((heldLocs s.dev).any (fun x => x.2.tier == 3 && t3Key x.2 == key) = true →
        d = (let e := loseLoan (raise s.dev Fd.DLY_EVT_recall_missed) (fun l => t3Key l == key)
          { e with lnk := { e.lnk with borrows := del e.lnk.borrows key } }))) ∧
    ((look s.dev.lnk.loans loan).all (fun l => !recallOver s.dev l.recalled) = true →
      exec (.loanRecallDeadline src loan true) s = .next (s.settled s.dev)) ∧
    ((look s.dev.lnk.borrows key).all (fun b => !recallOver s.dev b.recalled) = true →
      exec (.loanRecallDeadline src loan false) s = .next (s.settled s.dev))

/-- 14 R388 to R400, R408: `SLATE_MARK` by the checkpoint client sets or cancels the schedule, which must lie ahead. What comes due before a
mark acts first; then an emergency slate that is due starts, a mark that is due starts a slate, and one that finds a slate open is skipped
and counted. The slate that starts (with no fault, what it captures) has the next number and the frame of its mark. While the engine
serves, the buddy's acknowledgement of an item leaves one item less to wait for; after `buddy_wait` the slate goes on without its buddy;
with its manifest out and every item acknowledged it commits and is kept, newest first, before older slates are discarded. `max_frames`
frames after its mark an open slate is abandoned, and the committed ones stay. Elsewhere nothing happens. -/
def Obligations.SlatesAreMarkedAndCommitted : Prop :=
  ∀ (s : State) (r : Nat) (f : Flight) (o : Slating) (d : Dev),
    (pastGate s.dev r 0x50 f →
      (sqClient s.dev r ≠ fget s.dev Fd.CKP_CFG_client → exec (.slateMark r) s = .next (s.settled (finish s.dev r f.id stSecurity 0))) ∧
      (sqClient s.dev r = fget s.dev Fd.CKP_CFG_client →
        (bitOf (db f.desc 40 1) 0 = true → exec (.slateMark r) s
          = .next (s.settled (finish { s.dev with ckp := { s.dev.ckp with schedule := none } } r f.id stOK 0))) ∧
        (bitOf (db f.desc 40 1) 0 = false →
          (db f.desc 24 6 ≤ frame s.dev →
            exec (.slateMark r) s = .next (s.settled (finish s.dev r f.id stStateConflict (ckpState s.dev)))) ∧
          (frame s.dev < db f.desc 24 6 → exec (.slateMark r) s = .next (s.settled (finish { s.dev with ckp := { s.dev.ckp with
            schedule := some (db f.desc 24 6, db f.desc 32 4, dbits f.desc 36 0 17, dbits f.desc 36 17 1 == 1) } } r f.id stOK
              s.dev.ckp.nextNum)))))) ∧
    (d = precede s.dev 6 0 →
      (ckpServes d = true → waitsErase d (fget d Fd.CKP_CFG_tier) 1 = false →
        (d.ckp.emergency = true → d.ckp.openSlate = none → d.ckp.emergencyAt ≤ frame d →
          ∀ xs, exec (.slateMarkFire xs) s = .next (s.settled (takeSlate d true xs))) ∧
        (∀ p, d.ckp.schedule = some p → p.1 ≤ frame d →
          (d.ckp.emergency = false → d.ckp.openSlate = none → ∀ xs, exec (.slateMarkFire xs) s = .next (s.settled (nextMark (takeSlate d false xs)))) ∧
          (d.ckp.openSlate.isSome = true ∨ (d.ckp.emergency = true ∧ frame d < d.ckp.emergencyAt) →
            ∃ e, (∀ xs, exec (.slateMarkFire xs) s = .next (s.settled e)) ∧
              e.ckp = { d.ckp with schedule := if p.2.1 = 0 then none else some (p.1 + p.2.1, p.2) } ∧
              evSet e Fd.CKP_EVT_slate_skipped = true ∧ e.ctx = d.ctx))) ∧
      (ckpServes d = false ∨ waitsErase d (fget d Fd.CKP_CFG_tier) 1 = true ∨ (d.ckp.emergency = false ∧ d.ckp.schedule = none) →
        ∀ xs, exec (.slateMarkFire xs) s = .next (s.settled d))) ∧
    (∀ (e : Dev) b, ckpServes e = true → takeSlate e b [] = startSlate e b []) ∧
    (∀ (e : Dev) b bad, ∃ x, (startSlate e b bad).ckp.openSlate = some x ∧ x.slate.num = e.ckp.nextNum ∧ x.slate.mark = frame e ∧
      x.slate.emergency = b ∧ (startSlate e b bad).ckp.nextNum = (e.ckp.nextNum + 1) % 2 ^ 32 ∧ (startSlate e b bad).ckp.kept = e.ckp.kept) ∧
    (s.dev.ckp.openSlate = none ∨ ckpServes s.dev = false → ∀ n c b, ∀ x ∈ [Instr.buddyPutAck (ownBuddy s.dev) n n c b, .buddyWaitExpire, .slateCommit],
      exec x s = .next (s.settled s.dev)) ∧
    (s.dev.ckp.openSlate = none → exec .slateAbandon s = .next (s.settled s.dev)) ∧
    (s.dev.ckp.openSlate = some o → ckpServes s.dev = true →
      (∀ src num name copy refused,
        (s.dev.lnk.fenced.contains src = false → src = ownBuddy s.dev → num = o.slate.num → refused = false →
          exec (.buddyPutAck src num name copy refused) s = .next (s.settled (manifestOut { s.dev with ckp := { s.dev.ckp with
            openSlate := some { o with waiting := o.waiting.filter (fun i => !(i.name == name && i.copy == copy)) } } }))) ∧
        (s.dev.lnk.fenced.contains src = true ∨ src ≠ ownBuddy s.dev ∨ num ≠ o.slate.num ∨ refused = true →
          exec (.buddyPutAck src num name copy refused) s = .next (s.settled s.dev))) ∧
      (o.buddy = true → o.waiting ≠ [] → o.sentAt + fget s.dev Fd.CKP_CFG_buddy_wait * 65536 ≤ up s.dev → ∃ e,
        exec .buddyWaitExpire s = .next (s.settled (manifestOut e)) ∧ evSet e Fd.CKP_EVT_buddy_missing = true ∧ e.ctx = s.dev.ctx ∧
        e.ckp.openSlate = some { o with buddy := false, waiting := [], slate := { o.slate with buddy := false } }) ∧
      (o.buddy = false ∨ o.waiting = [] ∨ up s.dev < o.sentAt + fget s.dev Fd.CKP_CFG_buddy_wait * 65536 →
        exec .buddyWaitExpire s = .next (s.settled s.dev)) ∧
      (∀ m, o.manifest = some m → o.waiting = [] → o.full = false → ∃ e, e.ckp.openSlate = none ∧ e.ckp.kept = o.slate :: s.dev.ckp.kept ∧
        e.ckp.emergency = false ∧ evSet e Fd.CKP_EVT_slate_committed = true ∧ e.ctx = s.dev.ctx ∧
        exec .slateCommit s = .next (s.settled (match o.notify with
          | none => trimKept e
          | some obj => settle (syncApply (trimKept e) (fget (trimKept e) Fd.CKP_CFG_client) obj 2 o.slate.num false)))) ∧
      (o.manifest = none ∨ o.waiting ≠ [] ∨ o.full = true → exec .slateCommit s = .next (s.settled s.dev))) ∧
    (s.dev.ckp.openSlate = some o → s.dev.sys.resetLow = false →
      (o.startedAt + fget s.dev Fd.CKP_CFG_max_frames * 65536 ≤ up s.dev → exec .slateAbandon s = .next (s.settled (abandonSlate s.dev false)) ∧
        (abandonSlate s.dev false).ckp.openSlate = none ∧ (abandonSlate s.dev false).ckp.kept = s.dev.ckp.kept ∧
        evSet (abandonSlate s.dev false) Fd.CKP_EVT_slate_abandoned = true) ∧
      (up s.dev < o.startedAt + fget s.dev Fd.CKP_CFG_max_frames * 65536 → exec .slateAbandon s = .next (s.settled s.dev)))

/-- (1) 14 R401 to R406: the buddy's side, while the engine serves and the sender is not fenced: an item in the limit, for which the snapshot
tier has room, replaces what was held under its name and is acknowledged; one over the limit or without room is refused; a release frees
what the sender names; a fetch is answered with the item, or `GONE`. A copy fetched back goes to its restore. `RESTORE` of a session (no
work dispatched) waits for its moves, takes the newest slate that may serve, places its pages at once or asks the buddy for what is
missing, and ends with `RESTORE_INCOMPLETE` without a slate; in device mode it asks the buddy for the manifests of a device that is no
member. `RESTORE_COMPLETE` ends a restore whose pages are in place, seeks a copy that fails its check at the buddy, goes on with one whose
copies have come, takes an older slate when the buddy cannot help, and queues the moves of one after a pool loss. (2) 07 R227, 14 R405: a
record restored from a slate is PARKED and rewound, names its slate and the stream offset to go on from, and has the history of the slate. -/
def Obligations.BuddiesAndRestores : Prop :=
  (∀ (s : State) (src o slate name copy : Nat) (tiles : List Byte),
    (ckpServes s.dev = false ∨ s.dev.lnk.fenced.contains src = true → ∀ c ∈ [Instr.buddyPut src slate name copy tiles,
        .buddyRelease src o slate, .buddyFetch src o slate name copy, .buddyData src o slate name copy false true .page],
      exec c s = .next (s.settled s.dev)) ∧
    (ckpServes s.dev = true → s.dev.lnk.fenced.contains src = false →
      (∀ d1 n, d1 = { s.dev with ckp := { s.dev.ckp with held := s.dev.ckp.held.filter (fun h =>
          !(h.origin == src && h.slate == slate && h.name == name && h.copy == copy)) } } →
        n = max 1 (ceilDiv (tiles.length / 4120 * 4096) pageSize) →
        (fget s.dev Fd.CKP_BUDDY_LIM_mib * 2 ^ 20 < heldBytes d1 + pageSize * n ∨ slateFrames d1 n = none →
          exec (.buddyPut src slate name copy tiles) s
            = .next (s.settled (sendFrame s.dev 4 0x40 src none (buddyBytes 2 1 slate src name copy 0 [])))) ∧
        (∀ ls d2, heldBytes d1 + pageSize * n ≤ fget s.dev Fd.CKP_BUDDY_LIM_mib * 2 ^ 20 → slateFrames d1 n = some (ls, d2) →
          tiles.length ≠ 64 → ∃ d, exec (.buddyPut src slate name copy tiles) s
              = .next (s.settled (sendFrame d 4 0x40 src none (buddyBytes 2 0 slate src name copy 0 []))) ∧
            d.ckp.held = d1.ckp.held ++ [{ origin := src, slate := slate, name := name, copy := copy, data := tiles, locs := ls }] ∧
            d.ckp.kept = s.dev.ckp.kept ∧ d.ctx = s.dev.ctx)) ∧
      exec (.buddyRelease src src slate) s = .next (s.settled (forgetHeld s.dev src slate)) ∧
      (o ≠ src → o ∈ s.dev.map.members → exec (.buddyRelease src o slate) s = .next (s.settled s.dev)) ∧
      (o ≠ src → o ∉ s.dev.map.members → ∃ d, exec (.buddyRelease src o slate) s = .next (s.settled d) ∧
        d.ckp = { s.dev.ckp with
          held := s.dev.ckp.held.filter (fun h => h.origin != o), heldDone := s.dev.ckp.heldDone.filter (fun e => e.1 != o) } ∧
        d.ctx = s.dev.ctx) ∧
      (∀ n, n = (if slate = 0 then ((s.dev.ckp.heldDone.filter (fun e => e.1 == o)).map Prod.snd).foldl max 0 else slate) →
        (s.dev.ckp.held.find? (fun h => h.origin == o && h.slate == n && h.name == name && h.copy == copy) = none →
          exec (.buddyFetch src o slate name copy) s = .next (s.settled (sendFrame s.dev 4 0x40 src none
            (buddyBytes 5 2 n o name copy 0 [])))) ∧
        (∀ h, s.dev.ckp.held.find? (fun h => h.origin == o && h.slate == n && h.name == name && h.copy == copy) = some h → ∃ d,
          exec (.buddyFetch src o slate name copy) s = .next (s.settled (sendFrame d 4 0x40 src none
            (buddyBytes 5 0 n o name copy (2 ^ (h.data.length / 4120) - 1) h.data))) ∧ d.ckp = s.dev.ckp ∧ d.ctx = s.dev.ctx)) ∧
      (∀ item gone ver, o = ownDevice s.dev →
        (src = ownBuddy s.dev → exec (.buddyData src o slate name copy gone ver item) s = .next (s.settled
          (copyArrives s.dev slate name copy (!gone && ver && (match item with | .page => true | _ => false))))) ∧
        (src ≠ ownBuddy s.dev → exec (.buddyData src o slate name copy gone ver item) s = .next (s.settled s.dev)))) ∧
    (∀ r f i, pastGate s.dev r 0x51 f → bitOf (db f.desc 28 1) 0 = false → namesSession s.dev f i →
      (recOf s.dev i).state ∈ [RecState.active, .paused, .parked] → ctxStateOf s.dev i ≠ .running → ctxStateOf s.dev i ≠ .saved →
      (sessGroups s.dev i ≠ [] → exec (.restore r) s = .next (s.settled s.dev)) ∧
      (sessGroups s.dev i = [] →
        (bestSlate s.dev (recOf s.dev i).name (db f.desc 24 4) = none →
          exec (.restore r) s = .next (s.settled (finish s.dev r f.id stRestoreIncomplete 0))) ∧
        (∀ sl sh cap pages d1, bestSlate s.dev (recOf s.dev i).name (db f.desc 24 4) = some (sl, sh, true) → sh.sess = some cap →
          placeT2T4 s.dev (recOf s.dev i).client (restorePages s.dev i cap) = .ok pages d1 → ∃ d x,
          exec (.restore r) s = .next (s.settled d) ∧ recOf d i = { recOf d1 i with state := .moving, restoring := true } ∧
          (∀ j, j ≠ i → recOf d j = recOf d1 j) ∧ look d.ckp.restores i = some x ∧ x.slate = sl.num ∧ x.name = (recOf s.dev i).name ∧
          x.ring = r ∧ x.flight = f.id ∧ x.answers = true ∧ x.fetching = false ∧ x.reserved = true ∧ x.pages = pages ∧
          x.before = (recOf s.dev i).state) ∧
        (∀ sl sh cap, bestSlate s.dev (recOf s.dev i).name (db f.desc 24 4) = some (sl, sh, false) → sh.sess = some cap → ∃ d x,
          exec (.restore r) s = .next (s.settled d) ∧ recOf d i = { recOf s.dev i with state := .moving, restoring := true } ∧
          (∀ j, j ≠ i → recOf d j = recOf s.dev j) ∧ look d.ckp.restores i = some x ∧ x.slate = sl.num ∧ x.fetching = true ∧
          x.await = missingCopies s.dev sl sh))) ∧
    (∀ r f, pastGate s.dev r 0x51 f → bitOf (db f.desc 28 1) 0 = true →
      (sqClient s.dev r ≠ fget s.dev Fd.CKP_CFG_client → exec (.restoreDevice r) s = .next (s.settled (finish s.dev r f.id stSecurity 0))) ∧
      (sqClient s.dev r = fget s.dev Fd.CKP_CFG_client →
        (db f.desc 30 2 ∈ s.dev.map.members ∨ 1 < ckpState s.dev →
          exec (.restoreDevice r) s = .next (s.settled (finish s.dev r f.id stStateConflict 0))) ∧
        (db f.desc 30 2 ∉ s.dev.map.members → ckpState s.dev ≤ 1 → ∃ d,
          exec (.restoreDevice r) s = .next (s.settled (sendFrame d 4 0x40 (db f.desc 32 2) none
            (buddyBytes 4 0 (db f.desc 24 4) (db f.desc 30 2) 0 0 0 []))) ∧ d.ckp = { s.dev.ckp with devRestore := some {
            ring := r, flight := f.id, failed := db f.desc 30 2, buddy := db f.desc 32 2, want := db f.desc 24 4 } } ∧ d.ctx = s.dev.ctx))) ∧
    (∀ (h : BitVec 32) i, i = h.toNat % 2 ^ 24 →
      (look s.dev.ckp.restores i = none ∨ handleOf s.dev i ≠ h.toNat ∨ ckpServes s.dev = false →
        ∀ xs, exec (.restoreComplete h xs) s = .next (s.settled s.dev)) ∧
      (∀ x, look s.dev.ckp.restores i = some x → handleOf s.dev i = h.toNat → ckpServes s.dev = true →
        (x.fetching = true → ∀ xs, exec (.restoreComplete h xs) s = .next (s.settled (if x.await.isEmpty then restoreGo s.dev i x
          else if (restoreShard s.dev x).any (fun p => buddyHelps s.dev p.1) then s.dev else restoreOlder s.dev i x))) ∧
        (∀ sh cap, x.fetching = false → restoreShard s.dev x = some sh → sh.2.sess = some cap → x.reserved = true →
          (x.answers = true ∨ x.copied = true → exec (.restoreComplete h []) s = .next (s.settled (restoreEnd s.dev i x cap sh.2.folded x.pages))) ∧
          (∀ k c, x.answers = true → (shardCopies sh.1 sh.2)[k]? = some c → (look s.dev.ckp.copies (c.1 * 2 ^ 32 + c.2)).isSome = true →
            exec (.restoreComplete h [.tileLasting k]) s = .next (s.settled (copyFails s.dev i x c))) ∧
          (x.answers = false → x.copied = false → (∀ g ∈ s.dev.dly.groups, g.obj ≠ .restore i) →
            ∀ xs, exec (.restoreComplete h xs) s = .next (s.settled (restoreQueue s.dev i x x.pages))))))) ∧
  (∀ (d : Dev) (r cap : Rec) (slate : Nat) (folded : Bool) (pages : NMap Loc),
    (restoredRec d r cap slate folded pages).state = .parked ∧ (restoredRec d r cap slate folded pages).rewound = true ∧
    (restoredRec d r cap slate folded pages).rewindSlate = slate ∧ (restoredRec d r cap slate folded pages).rewindOff = cap.strOff ∧
    (restoredRec d r cap slate folded pages).len = cap.len ∧ (restoredRec d r cap slate folded pages).log = cap.log ∧
    (restoredRec d r cap slate folded pages).gen = r.gen ∧ (restoredRec d r cap slate folded pages).client = r.client ∧
    (restoredRec d r cap slate folded pages).pages = pages)

/-- 13 R378 to R383: an OFFER of a member that shows a condition of R381 is refused with it, and otherwise held; while the security unit is in
reset it waits (16 R435). ACCEPT of an offer that is open commits it, and of one not held open is aborted; a refusal gives the record
back; RELEASE closes it. COMMIT of a placed session publishes it and of none is refused; ABORT drops what is not published. CONFIRM brings
a session home, or drops it where another is home; to the sender it gives its session back, or says where it went. Pages received are
placed and accepted, or refused: no recipe, quota, record, room or verified tile. A timeout that is due, after what comes before it,
aborts the offer, drops the session received, or claims the session back. Messages not heard and those that fit nothing change nothing. -/
def Obligations.HandoffMessages : Prop :=
  ∀ (s : State) (m : MapMsg) (d : Dev), d = noteMsg s.dev m →
    (mapServes s.dev = false ∨ s.dev.lnk.fenced.contains m.src = true → ∀ k, ∀ c ∈ [Instr.offer m k, .accept m, .handoffRefuse m, .commit m, .abort m,
      .confirm m, .handoffRelease m], exec c s = .next (s.settled s.dev)) ∧
    (hears s.dev m.src →
      (∀ k, unitInReset s.dev 6 = true → s.dev.map.members.contains m.src = true → inFor s.dev m.src m.handoff = none →
        exec (.offer m k) s = .next (s.settled { s.dev with map := { s.dev.map with offersHeld := s.dev.map.offersHeld ++ [(m, k)] } })) ∧
      (∀ k, unitInReset s.dev 6 = false → s.dev.map.members.contains m.src = true → inFor s.dev m.src m.handoff = none →
        (offerReason d m k ≠ 0 → exec (.offer m k) s
          = .next (s.settled (hoRefuse d m.src m.handoff m.name m.epoch (offerReason d m k)))) ∧
        (offerReason d m k = 0 → ∃ e h, exec (.offer m k) s = .next (s.settled e) ∧ e.map.inb = d.map.inb ++ [h] ∧ h.src = m.src ∧
          h.id = m.handoff ∧ h.name = m.name ∧ hoUnwrap d m.handoff m.name k = some h.key ∧ h.rcd = none ∧ h.published = false ∧
          e.ctx = s.dev.ctx)) ∧
      (hoFor d m.src m.handoff = none → exec (.accept m) s
          = .next (s.settled (mapSend d m.src (mapBytes d 6 0 m.handoff m.name m.epoch 0 0 0 0 0 0))) ∧
        ∀ c ∈ [Instr.handoffRefuse m, .handoffRelease m], exec c s = .next (s.settled d)) ∧
      (∀ e, hoFor d m.src m.handoff = some e →
        ((hoOf d e).state = 1 → hoHolds d (hoOf d e) = true → ∃ x, exec (.accept m) s = .next (s.settled (mapSend x m.src
            (mapBytes x 4 0 (hoOf d e).id (hoOf d e).name ((hoOf d e).epoch + 1) (hoOf d e).dest 0 0 0 0 0))) ∧
          hoOf x e = { hoOf d e with state := 3, newHandle := m.handle, since := up d } ∧ x.ctx = s.dev.ctx) ∧
        ((hoOf d e).state = 1 → hoHolds d (hoOf d e) = false → exec (.accept m) s = .next (s.settled
          (hoEnd (mapSend d m.src (mapBytes d 6 0 m.handoff m.name m.epoch 0 0 0 0 0 0)) e 6 0 0))) ∧
        ((hoOf d e).state ≠ 1 → ∀ c ∈ [Instr.accept m, .handoffRefuse m], exec c s = .next (s.settled d)) ∧
        ((hoOf d e).state = 1 → exec (.handoffRefuse m) s
          = .next (s.settled (hoEnd (hoBack d (hoOf d e) (hoOf d e).epoch) e 5 m.reason 0))) ∧
        exec (.handoffRelease m) s = .next (s.settled (if (hoOf d e).state = 3 then hoDone d e (hoOf d e).newHandle else d))) ∧
      (∀ h, inFor d m.src m.handoff = some h →
        (h.rcd.isSome = true → exec (.commit m) s = .next (s.settled (publishClaim
          (updIn d m.src m.handoff (fun x => { x with published := true })) h.name
          { epoch := m.epoch, sentAt := up d, why := .inbound m.src m.handoff }))) ∧
        exec (.abort m) s = .next (s.settled (if h.published then d else hoDrop d h))) ∧
      (inFor d m.src m.handoff = none → ∀ c ∈ [Instr.commit m, .abort m], exec c s = .next (s.settled
        (hoRefuse (freshBelow d 256).2 m.src m.handoff m.name m.epoch (freshBelow d 256).1))) ∧
      (look d.map.claims m.name = none → exec (.confirm m) s = .next (s.settled d)) ∧
      (∀ c x, look d.map.claims m.name = some c → x = { d with map := { d.map with claims := del d.map.claims m.name } } →
        (∀ src id h, c.why = .inbound src id → inFor x src id = some h →
          exec (.confirm m) s = .next (s.settled (if m.device = ownDevice x then hoArrive x h m.epoch else hoDrop x h))) ∧
        (∀ e, c.why = .reclaim e → exec (.confirm m) s = .next (s.settled (if m.device = ownDevice x
          then hoEnd (hoBack x (hoOf x e) m.epoch) e 7 0 0 else hoDone x e (hoOf x e).newHandle))) ∧
        (c.why = .restore → exec (.confirm m) s = .next (s.settled (devConfirm x m.name m.device m.epoch))))) ∧
    (∀ (src id : Nat) image inc h e, inFor s.dev src id = some h → h.rcd = none → image.name = h.name → hears s.dev src →
      e = countChecks s.dev inc Fd.DLY_CHECK_CNT_transient Fd.DLY_CHECK_CNT_lasting Fd.DLY_EVT_check_transient Fd.DLY_EVT_check_lasting →
      (∀ why, (why = 3 ∧ loadedRecipe e h.recipeId h.version = none) ∨
          ((loadedRecipe e h.recipeId h.version).isSome = true ∧ ((why = 4 ∧ recordQuota e h.client = false) ∨
            (recordQuota e h.client = true ∧ ((why = 5 ∧ freeRecord e = none) ∨ ∃ i d1, freeRecord e = some (i, d1) ∧
              (hoPlace d1 h.client image.pages = some (.error why) ∨
                (why = 8 ∧ (lastingTile inc).isSome = true ∧ ∃ x, hoPlace d1 h.client image.pages = some (.ok x))))))) →
        exec (.objectTransfer src id image inc) s = .next (s.settled (hoRefuse (dropIn e src id) src id h.name h.epoch why))) ∧
      (∀ n i d1 pages d2, lastingTile inc = none → loadedRecipe e h.recipeId h.version = some n → recordQuota e h.client = true →
        freeRecord e = some (i, d1) → hoPlace d1 h.client image.pages = some (.ok (pages, d2)) → ∃ x,
        exec (.objectTransfer src id image inc) s = .next (s.settled (mapSend x src (mapBytes x 2 0 id h.name h.epoch 0 0 0 0 0 (handleOf x i)))) ∧
        (recOf x i).state = .moving ∧ (recOf x i).inbound = true ∧ (recOf x i).client = h.client ∧ (recOf x i).len = image.len ∧
        (recOf x i).log = image.log ∧ (recOf x i).pages = pages ∧ ∀ j, j ≠ i → recOf x j = recOf d2 j)) ∧
    (∀ (e : Nat) (x : Dev) (h : HoOut), x = precede s.dev 2 (hoOf s.dev e).name → h = hoOf x e →
      (acceptDue x e = true → exec (.handoffAcceptTimeout e) s = .next (s.settled
        (hoEnd (hoBack (mapSend x h.dest (mapBytes x 6 0 h.id h.name h.epoch 0 0 0 0 0 0)) h h.epoch) e 6 7 0))) ∧
      (acceptDue x e = false → exec (.handoffAcceptTimeout e) s = .next (s.settled x)) ∧
      (releaseDue x e = true → exec (.handoffReleaseTimeout e) s = .next (s.settled
        (publishClaim (setHo x e { h with reclaiming := true }) h.name { epoch := h.epoch + 1, sentAt := up x, why := .reclaim e }))) ∧
      (releaseDue x e = false → exec (.handoffReleaseTimeout e) s = .next (s.settled x))) ∧
    (∀ (src id : Nat), (inFor s.dev src id = none → exec (.handoffCommitTimeout src id) s = .next (s.settled s.dev)) ∧
      ∀ h h2 x, inFor s.dev src id = some h → x = precede s.dev 2 h.name → inFor x src id = some h2 →
        exec (.handoffCommitTimeout src id) s = .next (s.settled (if commitDue x h2 then hoDrop x h2 else x)))

/-- 13 R375 to R377: a registrar that hears a PUBLISH takes it if its entry holds the epoch below, or if it has no entry, and answers with the
entry it then has; one for an unknown name is held while REGISTERs may still come. A REGISTER makes the newer epoch known, and what was
held for its name is answered, as it is when the wait is over. A claim that is not confirmed in 4 frames is published again, at the
present time. -/
def Obligations.RegistrarOrdersHomes : Prop :=
  ∀ (s : State) (m : MapMsg) (d x : Dev), d = noteMsg s.dev m →
    x = { d with map := { d.map with reg := put d.map.reg m.name { home := m.device, epoch := m.epoch } } } →
    (mapServes s.dev = false ∨ s.dev.lnk.fenced.contains m.src = true → ∀ c ∈ [Instr.publish m, .register m], exec c s = .next (s.settled s.dev)) ∧
    (hears s.dev m.src →
      (∀ e, mapEntry d m.name = some e →
        (e.epoch + 1 = m.epoch → exec (.publish m) s = .next (s.settled (confirmTo x m.src m.name (e.home == m.device)))) ∧
        (e.epoch + 1 ≠ m.epoch → exec (.publish m) s = .next (s.settled (confirmTo d m.src m.name false))) ∧
        (m.epoch ≤ e.epoch → exec (.register m) s = .next (s.settled (applyHeld d m.name))) ∧
        (e.epoch < m.epoch → exec (.register m) s = .next (s.settled (applyHeld x m.name)))) ∧
      (mapEntry d m.name = none →
        exec (.register m) s = .next (s.settled (applyHeld x m.name)) ∧
        (regWaits d = false → exec (.publish m) s = .next (s.settled (confirmTo x m.src m.name false))) ∧
        (regWaits d = true → ∃ y, exec (.publish m) s = .next (s.settled y) ∧ y.map = { d.map with
          regHeld := if d.map.regHeld.contains (m.src, m.name, m.device, m.epoch) then d.map.regHeld
            else d.map.regHeld ++ [(m.src, m.name, m.device, m.epoch)] } ∧ y.ctx = s.dev.ctx))) ∧
    (∀ e n, (∀ h ∈ e.map.regHeld, h.2.1 ≠ n) → applyHeld e n = e) ∧
    (∀ e dst n en, mapEntry e n = some en → confirmTo e dst n false = mapSend e dst (mapBytes e 0x11 0 0 n en.epoch en.home 0 0 0 0 0)) ∧
    (mapServes s.dev = true → regWaits s.dev = false → exec (.registerWaitExpire m.name) s = .next (s.settled (applyHeld s.dev m.name))) ∧
    (mapServes s.dev = false ∨ regWaits s.dev = true → exec (.registerWaitExpire m.name) s = .next (s.settled s.dev)) ∧
    (∀ c, look s.dev.map.claims m.name = some c → mapServes s.dev = true →
      (c.sentAt + 4 * 65536 ≤ up s.dev → exec (.publishRepeat m.name) s = .next (s.settled (publishClaim s.dev m.name c)) ∧
        look (publishClaim s.dev m.name c).map.claims m.name = some { c with sentAt := up s.dev }) ∧
      (up s.dev < c.sentAt + 4 * 65536 → exec (.publishRepeat m.name) s = .next (s.settled s.dev))) ∧
    (look s.dev.map.claims m.name = none ∨ mapServes s.dev = false → exec (.publishRepeat m.name) s = .next (s.settled s.dev))

/-- (1) 13 R369 to R374, 16 R433: the steward decides a JOIN, which another member passes on to it, and a LEAVE; a member takes a MEMBER of a
later domain epoch, which joins or removes the device, and no other. The steward hears of a SUSPECT; a FENCE stops what goes to a device.
A member silent for `miss` periods is suspected once; the steward fences it when its wait is over, and declares it failed one frame after
its silence would count again. A key announcement is kept if it is of its sender and verifies, and reported otherwise. Elsewhere nothing
happens. (2) 13 R370 to R373: JOIN_ACK makes a device that joins in stage LINKS a member, which announces its key. A member sends a
heartbeat on every port in service each period. One of its domain from a member that is not fenced is noted with the time, and one of its
domain epoch ends its isolation; a fenced device that is no member is told so. Silence of all for `miss` periods isolates a member that
has others: what is dispatched ends with `BUSY_RETRY`. EVICT closes the rings for good. Elsewhere nothing happens. -/
def Obligations.MembershipHeartbeatsAndIsolation : Prop :=
  (∀ (s : State) (m : MapMsg) (d : Dev) (dev : Nat), d = noteMsg s.dev m →
    (mapServes s.dev = false ∨ s.dev.map.member = false → ∀ src dom j f p, ∀ c ∈ [Instr.join src dev dom, .leave m, .member m j f p, .suspect m, .fence m,
      .heartbeatMiss dev], exec c s = .next (s.settled s.dev)) ∧
    (mapServes s.dev = true → s.dev.map.member = true →
      (∀ src dom, dom = fget s.dev Fd.MAP_DOM_domain →
        (isSteward s.dev = true → exec (.join src dev dom) s = .next (s.settled (stewardJoin s.dev dev))) ∧
        (isSteward s.dev = false → exec (.join src dev dom) s = .next (s.settled
          (mapSend s.dev (stewardFor s.dev none) (mapNote s.dev 0x20 dev ++ leBytes 8 dom))))) ∧
      (∀ src dom, dom ≠ fget s.dev Fd.MAP_DOM_domain → exec (.join src dev dom) s = .next (s.settled s.dev)) ∧
      (s.dev.lnk.fenced.contains m.src = true → ∀ j f p, ∀ c ∈ [Instr.leave m, .member m j f p, .suspect m, .fence m],
        exec c s = .next (s.settled s.dev)) ∧
      (s.dev.lnk.fenced.contains m.src = false →
        (isSteward s.dev = true → s.dev.map.members.contains m.device = true →
          exec (.leave m) s = .next (s.settled (stewardChange d m.device false false))) ∧
        (isSteward s.dev = false ∨ s.dev.map.members.contains m.device = false → exec (.leave m) s = .next (s.settled s.dev)) ∧
        (∀ j f p, (j || f || p) = true → s.dev.map.domEpoch < m.domainEpoch → exec (.member m j f p) s
          = .next (s.settled (memberChange s.dev m.device m.domainEpoch j f))) ∧
        (∀ j f p, (j || f || p) = false ∨ m.domainEpoch ≤ s.dev.map.domEpoch → exec (.member m j f p) s = .next (s.settled s.dev)) ∧
        (stewardFor s.dev (some m.device) = ownDevice s.dev → exec (.suspect m) s = .next (s.settled (suspected d m.src m.device))) ∧
        (stewardFor s.dev (some m.device) ≠ ownDevice s.dev → exec (.suspect m) s = .next (s.settled s.dev)) ∧
        (m.device ≠ ownDevice s.dev → ∃ x, exec (.fence m) s = .next (s.settled x) ∧ x.lnk.fenced.contains m.device = true ∧
          (∀ n, n ≠ m.device → x.lnk.fenced.contains n = s.dev.lnk.fenced.contains n) ∧ x.ctx = s.dev.ctx) ∧
        (m.device = ownDevice s.dev → exec (.fence m) s = .next (s.settled s.dev))) ∧
      (∀ t x, (peerOf s.dev dev).heard = some t → x = setPeer s.dev dev { peerOf s.dev dev with suspected := true } →
        (t + missSpan s.dev ≤ up s.dev → (peerOf s.dev dev).suspected = false → s.dev.map.members.contains dev = true →
          dev ≠ ownDevice s.dev → exec (.heartbeatMiss dev) s = .next (s.settled (if stewardFor x (some dev) = ownDevice x
            then suspected x (ownDevice x) dev else mapSend x (stewardFor x (some dev)) (mapNote x 0x24 dev)))) ∧
        (up s.dev < t + missSpan s.dev ∨ (peerOf s.dev dev).suspected = true ∨ s.dev.map.members.contains dev = false ∨ dev = ownDevice s.dev →
          exec (.heartbeatMiss dev) s = .next (s.settled s.dev)))) ∧
    (∀ x n e f, (memberChange x n e true f).map.domEpoch = e ∧ (memberChange x n e true f).map.members = insertN n x.map.members ∧
      (memberChange x n e true f).lnk.fenced.contains n = false ∧ (memberChange x n e true f).ctx = x.ctx ∧
      (n ≠ ownDevice x → (memberChange x n e false false).map.domEpoch = e ∧
        (memberChange x n e false false).map.members = x.map.members.filter (fun k => k != n) ∧ (memberChange x n e false false).ctx = x.ctx)) ∧
    (∀ t who, look s.dev.map.suspects dev = some (t, who) →
      (mapServes s.dev = true → t + fget s.dev Fd.MAP_HB_fail_wait * 65536 ≤ up s.dev →
        exec (.stewardFailWait dev) s = .next (s.settled (stewardFence s.dev dev))) ∧
      (mapServes s.dev = false ∨ up s.dev < t + fget s.dev Fd.MAP_HB_fail_wait * 65536 →
        exec (.stewardFailWait dev) s = .next (s.settled s.dev))) ∧
    (look s.dev.map.suspects dev = none → exec (.stewardFailWait dev) s = .next (s.settled s.dev)) ∧
    (∀ t, look s.dev.map.fencedAt dev = some t →
      (mapServes s.dev = true → s.dev.map.members.contains dev = true → t + missSpan s.dev + 65536 ≤ up s.dev →
        exec (.memberFailDeclare dev) s = .next (s.settled (stewardChange s.dev dev false true))) ∧
      (mapServes s.dev = false ∨ s.dev.map.members.contains dev = false ∨ up s.dev < t + missSpan s.dev + 65536 →
        exec (.memberFailDeclare dev) s = .next (s.settled s.dev))) ∧
    (look s.dev.map.fencedAt dev = none → exec (.memberFailDeclare dev) s = .next (s.settled s.dev)) ∧
    (∀ src st att cert key, s.dev.sys.resetLow = false → s.dev.lnk.fenced.contains src = false →
      (dev = src → announcementOk src st att cert key = true → ∃ x, exec (.keyAnnouncement src dev st att cert key) s = .next (s.settled x) ∧
        x.sec = { s.dev.sec with peers := put s.dev.sec.peers src { kem := key } } ∧ x.evts = s.dev.evts ∧ x.ctx = s.dev.ctx) ∧
      (dev ≠ src ∨ announcementOk src st att cert key = false → exec (.keyAnnouncement src dev st att cert key) s
        = .next (s.settled (raise s.dev Fd.SEC_EVT_peer_rejected)))) ∧
    (∀ src st att cert key, s.dev.sys.resetLow = true ∨ s.dev.lnk.fenced.contains src = true →
      exec (.keyAnnouncement src dev st att cert key) s = .next (s.settled s.dev))) ∧
  (∀ (s : State) (m : MapMsg),
    (mapServes s.dev = false → ∀ ms src c e dom g h b ps, ∀ x ∈ [Instr.joinAck m ms, .heartbeatSend, .heartbeat src c e dom g h b ps, .isolation,
      .evict m], exec x s = .next (s.settled s.dev)) ∧
    (mapServes s.dev = true →
      (∀ ms, s.dev.map.member = false → s.dev.sys.stageCmd = some 7 → fbit s.dev Fd.MAP_CFG_found = false → ∃ d,
        exec (.joinAck m ms) s = .next (s.settled (announceKey d)) ∧ d.map.member = true ∧ d.map.domEpoch = m.domainEpoch ∧
        d.map.anyAt = up s.dev ∧ (∀ x, x ∈ d.map.members ↔ x = ownDevice s.dev ∨ x ∈ ms) ∧ d.ctx = s.dev.ctx) ∧
      (∀ ms, s.dev.map.member = true ∨ s.dev.sys.stageCmd ≠ some 7 ∨ fbit s.dev Fd.MAP_CFG_found = true →
        exec (.joinAck m ms) s = .next (s.settled s.dev)) ∧
      (s.dev.map.member = true → s.dev.map.sentAt + fget s.dev Fd.MAP_HB_period * 65536 ≤ up s.dev → ∃ d, exec .heartbeatSend s
          = .next (s.settled ((servingPorts d).foldl (fun x p => sendOnPort x p 0x02 (heartbeatBytes s.dev)) d)) ∧
        d = { s.dev with map := { s.dev.map with sentAt := up s.dev } }) ∧
      (s.dev.map.member = false ∨ up s.dev < s.dev.map.sentAt + fget s.dev Fd.MAP_HB_period * 65536 →
        exec .heartbeatSend s = .next (s.settled s.dev)) ∧
      (∀ src compat ep dom dig hops iso peers,
        (s.dev.map.member = false ∨ dom ≠ fget s.dev Fd.MAP_DOM_domain →
          exec (.heartbeat src compat ep dom dig hops iso peers) s = .next (s.settled s.dev)) ∧
        (s.dev.map.member = true → dom = fget s.dev Fd.MAP_DOM_domain →
          (s.dev.lnk.fenced.contains src = true → exec (.heartbeat src compat ep dom dig hops iso peers) s = .next (s.settled
            (if s.dev.map.members.contains src then s.dev else sendEvict s.dev src))) ∧
          (s.dev.lnk.fenced.contains src = false → ∃ d, exec (.heartbeat src compat ep dom dig hops iso peers) s = .next (s.settled d) ∧
            d.map.anyAt = up s.dev ∧ d.map.isolated = (s.dev.map.isolated && ep != s.dev.map.domEpoch) ∧ d.ctx = s.dev.ctx ∧
            (s.dev.map.members.contains src = true → (peerOf d src).heard = some (up s.dev) ∧ (peerOf d src).peers = peers ∧
              (peerOf d src).hops = hops ∧ (peerOf d src).suspected = false)))) ∧
      (s.dev.map.member = true → s.dev.map.isolated = false → 2 ≤ s.dev.map.members.length → s.dev.map.anyAt + missSpan s.dev ≤ up s.dev → ∃ d,
        exec .isolation s = .next (s.settled (endFlights (cutAll d stBusyRetry (fget s.dev Fd.MAP_HB_period * fget s.dev Fd.MAP_HB_miss)) gatedGroup
          stBusyRetry (fget s.dev Fd.MAP_HB_period * fget s.dev Fd.MAP_HB_miss))) ∧ d.map = { s.dev.map with isolated := true } ∧
        evSet d Fd.MAP_EVT_isolated = true ∧ d.ctx = s.dev.ctx) ∧
      (s.dev.map.member = false ∨ s.dev.map.isolated = true ∨ s.dev.map.members.length < 2 ∨ up s.dev < s.dev.map.anyAt + missSpan s.dev →
        exec .isolation s = .next (s.settled s.dev)) ∧
      (s.dev.map.member = true → m.device = ownDevice s.dev → ∃ d, exec (.evict m) s = .next (s.settled d) ∧ d.map.evicted = true ∧
        (∀ n, n < 512 → sqOpenBit d n = false ∧ cqOpenBit d n = false) ∧ (∀ n, n < 4096 → strOpenBit d n = false)) ∧
      (s.dev.map.member = false ∨ m.device ≠ ownDevice s.dev → exec (.evict m) s = .next (s.settled s.dev))))

/-- (1) 18 R475, R476, R478: `FAULT_WINDOW_CLOSE` acts after what comes due before it (`fltWindowClose`): the windows of the key that are due
close and the others stay. An operator window that counted one report closes without a record, and one that counted more writes a summary
of its count. A record forwarded by a device that is not fenced is counted and joins the operator view with its class, unit and count. (2)
18 R473 to R476: a report of a class and unit whose operator window is open is counted in it and writes no operator record. A client whose
object is concerned, with no window of its own for it, gets one that counts the report, and the report answers the sequence that the
record of the client's ring took. -/
def Obligations.FaultReportsCoalesce : Prop :=
  (∀ (s : State) (u c : Nat),
    exec (.faultWindowClose u c) s = .next (s.settled (fltWindowClose (precede s.dev 7 (u * 256 + c)) u c)) ∧
    (∀ x, ((∀ w, look x.flt.wins (u * 256 + c) = some w → up x < w.due) →
        (∀ p ∈ x.flt.cwins, p.2.first.unit = u → p.2.first.cls = c → up x < p.2.due) → fltWindowClose x u c = x) ∧
      (∀ w, look x.flt.wins (u * 256 + c) = some w → w.due ≤ up x → look (fltWindowClose x u c).flt.wins (u * 256 + c) = none) ∧
      (∀ p ∈ (fltWindowClose x u c).flt.cwins, p.2.first.unit = u → p.2.first.cls = c → up x < p.2.due) ∧
      (∀ k w, look x.flt.wins k = some w →
        (w.count = 1 → fltCloseOp x k = { x with flt := { x.flt with wins := del x.flt.wins k } }) ∧
        (1 < w.count → fltCloseOp x k = fltOperator { x with flt := { x.flt with wins := del x.flt.wins k } }
          { w.first with count := w.count } true)) ∧
      ∀ rcd : BitVec 512, ∃ rep, fltForwarded x rcd = fltOpView (fbump x Fd.FLT_CNT_forwarded) rep ∧ rep.forwarded = true ∧
        rep.cls = bitsOf rcd.toNat 16 8 ∧ rep.unit = bitsOf rcd.toNat 24 8 ∧ rep.count = bitsOf rcd.toNat 96 32) ∧
    (∀ src rcd, (s.dev.sys.resetLow = false → s.dev.lnk.fenced.contains src = false →
        exec (.faultRecordForward src rcd) s = .next (s.settled (fltForwarded s.dev rcd))) ∧
      (s.dev.sys.resetLow = true ∨ s.dev.lnk.fenced.contains src = true → exec (.faultRecordForward src rcd) s = .next (s.settled s.dev)))) ∧
  (∀ (d : Dev) (r : Report) (w : FWin), look d.flt.wins (fltKey r) = some w → up d < w.due →
    look (report d r).1.flt.wins (fltKey r) = some { w with count := w.count + r.count } ∧
    (∀ k, k ≠ fltKey r → look (report d r).1.flt.wins k = look d.flt.wins k) ∧ (report d r).1.ctx = d.ctx ∧
    (r.client = none → (report d r).1.flt.rings = d.flt.rings ∧ (report d r).1.posted = d.posted ∧ (report d r).2 = 0) ∧
    (∀ c, r.client = some c → d.flt.cwins.find? (cwinFor c r) = none → ∃ p, (report d r).1.flt.cwins = d.flt.cwins ++ [(c, p)] ∧
      p.count = 1 ∧ p.first.object = r.object ∧ p.first.status = r.status ∧ (report d r).2 = ((mget d.flt.rings {} c).seq + 1) % 2 ^ 32 ∧
      (mget (report d r).1.seq.acct {} c).faults = (mget d.seq.acct {} c).faults + 1))

/-- 12 R362, R363, 17 R466, R467: an edge at a master in service sets the counter to `MTR_TC_INIT` in stage TIME, and later counts good and
bad edges, slews and locks from the second good one; a marker off the minute is reported. A follower that has been set or had timecode
asks every trained port; a request is answered with its stamps and the hop count; a response in time is noted and, of the chosen port,
sets the counter in stage TIME and later slews it, and locks it within 50 ns. A request is given up after a frame. A locked counter
without its reference goes into HOLDOVER, and from there after `holdover` frames to UNLOCKED. Elsewhere nothing happens. -/
def Obligations.TimecodeLocksAndHolds : Prop :=
  ∀ (s : State) (p : Nat),
    (∀ (dv : Int) (mk : Bool),
      (tcServes s.dev = false ∨ tcMaster s.dev = false ∨ (timeStage s.dev = false ∧ s.dev.tc.loaded = false) →
        exec (.tcPpsEdge dv mk) s = .next (s.settled s.dev)) ∧
      (tcServes s.dev = true → tcMaster s.dev = true →
        (timeStage s.dev = true → s.dev.tc.loaded = false → ∃ d, exec (.tcPpsEdge dv mk) s = .next (s.settled d) ∧
          stamp d = 64 * 65536 * fget s.dev Fd.MTR_TC_INIT_frame ∧ d.tc.loaded = true ∧ d.tc.state = 1 ∧ d.ctx = s.dev.ctx ∧
          d.regs = s.dev.regs) ∧
        (∀ g b h, s.dev.tc.loaded = true → h = (if s.dev.tc.state = 3 ∧ b = 0 then up s.dev else s.dev.tc.heldFrom) → g = (if dv.natAbs ≤ 20 then s.dev.tc.good + 1 else 0) →
          b = (if 1000 < dv.natAbs then s.dev.tc.bad + 1 else 0) → ∃ d, exec (.tcPpsEdge dv mk) s = .next (s.settled d) ∧
          d.tc = (if 2 ≤ g ∧ s.dev.tc.state ≠ 2 then { s.dev.tc with
              heldFrom := h, good := g, bad := b, lastEdge := up s.dev, slew := -nsUnits dv, ofs := -nsUnits dv, state := 2, acquired := true,
              hops := 0 }
            else { s.dev.tc with heldFrom := h, good := g, bad := b, lastEdge := up s.dev, slew := -nsUnits dv, ofs := -nsUnits dv }) ∧
          (mk = true → onMinute s.dev = false → evSet d Fd.MTR_EVT_minute_mismatch = true) ∧ d.ctx = s.dev.ctx))) ∧
    (tcServes s.dev = true → tcMaster s.dev = false → s.dev.tc.state ≠ 0 ∨ s.dev.tc.acquired = true → ∃ d,
      exec .tcExchange s = .next (s.settled d) ∧ d.tc = { s.dev.tc with exchAt := up s.dev } ∧ d.ctx = s.dev.ctx ∧
      ∀ q, q < 16 → (portOf s.dev q).trained = true → (portOf s.dev q).retired = false →
        portOf d q = { portOf s.dev q with reqAt := some (up s.dev) } ∧ Msg.tcReq q (stamp s.dev) ∈ d.out) ∧
    (tcServes s.dev = false ∨ tcMaster s.dev = true ∨ (s.dev.tc.state = 0 ∧ s.dev.tc.acquired = false) →
      exec .tcExchange s = .next (s.settled s.dev)) ∧
    (∀ t1 t2 t3, (tcServes s.dev = true → (portOf s.dev p).trained = true →
        exec (.tcReq p t1 t2 t3) s = .next (s.settled (send s.dev (.tcResp p t1 t2 t3 (tcAdvert s.dev))))) ∧
      (tcServes s.dev = false ∨ (portOf s.dev p).trained = false → exec (.tcReq p t1 t2 t3) s = .next (s.settled s.dev))) ∧
    (∀ t1 t2 t3 t4 hops, ((portOf s.dev p).reqAt = none ∨ tcServes s.dev = false ∨ tcMaster s.dev = true →
        exec (.tcResp p t1 t2 t3 t4 hops) s = .next (s.settled s.dev)) ∧
      (∀ t ofs, (portOf s.dev p).reqAt = some t → tcServes s.dev = true → tcMaster s.dev = false →
        ofs = tcOffset t1 t2 t3 t4 (signed16 (fget s.dev Fd.LNK_TC_ASYM_asym p)) →
        (t + 65536 < up s.dev → exec (.tcResp p t1 t2 t3 t4 hops) s = .next (s.settled s.dev)) ∧
        (up s.dev ≤ t + 65536 → ∃ d, exec (.tcResp p t1 t2 t3 t4 hops) s = .next (s.settled d) ∧ d.ctx = s.dev.ctx ∧
          portOf d p = { portOf s.dev p with reqAt := none, hops := min hops 15, ofs := ofs, delay := tcDelay t1 t2 t3 t4 } ∧
          (∀ q, q ≠ p → portOf d q = portOf s.dev q) ∧ (tcBest d ≠ some p → d.tc = s.dev.tc) ∧
          (tcBest d = some p → timeStage s.dev = true → s.dev.tc.loaded = false → d.tc.adj = s.dev.tc.adj + ofs ∧ d.tc.loaded = true ∧
            d.tc.state = 1 ∧ d.tc.hops = min 15 (min hops 15 + 1)) ∧
          (tcBest d = some p → s.dev.tc.loaded = true → d.tc.slew = ofs ∧ d.tc.adj = s.dev.tc.adj ∧
            d.tc.state = (if (ofs.natAbs : Int) ≤ nsUnits 50 then 2 else s.dev.tc.state))))) ∧
    (∀ t, (portOf s.dev p).reqAt = some t →
      (t + 65536 ≤ up s.dev → ∃ d, exec (.tcRespTimeout p) s = .next (s.settled d) ∧ portOf d p = { portOf s.dev p with reqAt := none } ∧
        (∀ q, q ≠ p → portOf d q = portOf s.dev q) ∧ d.tc = s.dev.tc) ∧
      (up s.dev < t + 65536 → exec (.tcRespTimeout p) s = .next (s.settled s.dev))) ∧
    ((portOf s.dev p).reqAt = none → exec (.tcRespTimeout p) s = .next (s.settled s.dev)) ∧
    (s.dev.tc.state = 2 → tcLost s.dev = true → ∃ d, exec .tcHoldoverEntry s = .next (s.settled d) ∧
      d.tc = { s.dev.tc with state := 3, heldFrom := up s.dev, slew := 0, good := 0 } ∧ evSet d Fd.MTR_EVT_tc_holdover = true ∧
      d.ctx = s.dev.ctx) ∧
    (s.dev.tc.state ≠ 2 ∨ tcLost s.dev = false → exec .tcHoldoverEntry s = .next (s.settled s.dev)) ∧
    (∀ t, t = s.dev.tc.heldFrom + fget s.dev Fd.MTR_TC_CFG_holdover * 65536 →
      (s.dev.tc.state = 3 → t ≤ up s.dev → ∃ d, exec .tcUnlock s = .next (s.settled d) ∧ d.tc = { s.dev.tc with state := 0 } ∧
        evSet d Fd.MTR_EVT_tc_unlocked = true ∧ d.ctx = s.dev.ctx) ∧
      (s.dev.tc.state ≠ 3 ∨ up s.dev < t → exec .tcUnlock s = .next (s.settled s.dev)))

/-- (1) 17 R464: the throttle rules: the level rises by one, at most to 14, while the mean power is above the cap; it falls by one below 97 %
of it; and it never leaves 0 to 14. (2) 14 R408, 15 R421, R424, 17 R458 to R465, 19 R495: while the meter feed is in service: at a minute
boundary the cap that ended is kept and superseded entries are cleared; every fourth frame the throttle takes its rule's level, or 14
under a warning or alert, once in that frame; the tenth sample in a row above 650 W throttles to 14. A supply notice begins or ends an
event; one that warns raises the warning, once; it clears after `clear_frames` quiet frames. The first record on the feed, and no other,
is noted, one of a minute with its energy under the minute that its marker ended, and logged where the log is on. Two minutes of silence
are reported, once. A minute whose energy came is apportioned, one without it after 3 minutes is given up, and none is settled twice. At
the end of a period each client with `acct_en` gets its record. Elsewhere nothing happens. (3) 15 R421: the energy of a minute is
apportioned without loss: the accounts' energy grows by the recorded energy exactly. -/
def Obligations.PowerThrottleAndEnergy : Prop :=
  (∀ (l m c before : Nat) (new : Bool), l ≤ 14 →
    throttleRule l m c before new ≤ 14 ∧ (c < m → l ≤ throttleRule l m c before new) ∧
    (c < m → (new = false ∨ before ≤ c) → throttleRule l m c before new = min 14 (l + 1)) ∧
    (m * 100 < 97 * c → throttleRule l m c before new = l - 1) ∧
    (m ≤ c → 97 * c ≤ m * 100 → throttleRule l m c before new = l)) ∧
  (∀ (s : State) (w : Nat),
    (mtrServes s.dev = false → ∀ b, ∀ c ∈ [Instr.envelopeMinuteBoundary, .throttleStep w, .railSample w, .meterNotice w b w,
      .meterFeedSilent], exec c s = .next (s.settled s.dev)) ∧
    (∀ r, s.dev.meter.feed = [] ∨ (∃ x m rest, s.dev.meter.feed = (x, m) :: rest ∧ x ≠ r) →
      exec (.meterRecordReceived r) s = .next (s.settled s.dev)) ∧
    (∀ r m rest, s.dev.meter.feed = (r, m) :: rest → mtrServes s.dev = false →
      exec (.meterRecordReceived r) s = .next (s.settled (setMeter s.dev { s.dev.meter with feed := rest }))) ∧
    (minuteOf s.dev = s.dev.mtr.envMinute → exec .envelopeMinuteBoundary s = .next (s.settled s.dev)) ∧
    (mtrServes s.dev = true → minuteOf s.dev ≠ s.dev.mtr.envMinute → ∃ d, exec .envelopeMinuteBoundary s = .next (s.settled d) ∧
      d.mtr = { s.dev.mtr with capBefore := capOf s.dev (minuteOf s.dev - 1), envMinute := minuteOf s.dev } ∧
      (∀ e, e < 64 → fbit d Fd.MTR_ENV_ENT_valid e = (fbit s.dev Fd.MTR_ENV_ENT_valid e && !(envEntry s.dev (minuteOf s.dev)).any (fun i =>
        decide (fget s.dev Fd.MTR_ENV_ENT_minute e < fget s.dev Fd.MTR_ENV_ENT_minute i)))) ∧ d.ctx = s.dev.ctx) ∧
    (mtrServes s.dev = true →
      (frame s.dev % 4 ≠ 0 ∨ s.dev.mtr.stepAt = some (frame s.dev) → exec (.throttleStep w) s = .next (s.settled s.dev)) ∧
      (∀ x, frame s.dev % 4 = 0 → s.dev.mtr.stepAt ≠ some (frame s.dev) → x = envMinute s.dev → ∃ d,
        exec (.throttleStep w) s = .next (s.settled d) ∧ d.mtr.stepAt = some (frame s.dev) ∧
        d.mtr.throttle = (if s.dev.mtr.warning = true ∨ s.dev.sys.alert = true then 14
          else throttleRule s.dev.mtr.throttle w (capNow x) x.mtr.capBefore (frame s.dev % 60000 == 0)) ∧
        d.ctx = s.dev.ctx ∧ d.seq = s.dev.seq ∧ d.regs = x.regs) ∧
      (∃ d, exec (.railSample w) s = .next (s.settled d) ∧ d.ctx = s.dev.ctx ∧ d.regs = s.dev.regs ∧
        (650 < w → s.dev.mtr.over650 = 9 → d.mtr.throttle = 14 ∧ d.mtr.over650 = 0 ∧ evSet d Fd.MTR_EVT_fast_limit = true) ∧
        (w ≤ 650 ∨ s.dev.mtr.over650 ≠ 9 → d.mtr.throttle = s.dev.mtr.throttle ∧ d.evts = s.dev.evts ∧
          d.mtr.over650 = if 650 < w then s.dev.mtr.over650 + 1 else 0)) ∧
      (∀ cls, cls = 0 ∨ 3 < cls → ∀ b, exec (.meterNotice cls b w) s = .next (s.settled s.dev)) ∧
      (∀ cls m, 1 ≤ cls → cls ≤ 3 → m = { s.dev.mtr with feedAt := up s.dev, lost := false } →
        (∃ d, exec (.meterNotice cls true w) s = .next (s.settled d) ∧ d.ctx = s.dev.ctx ∧ d.mtr.active = supplyActive s.dev.mtr.active cls ∧
          (warns s.dev cls w = false ∨ s.dev.mtr.warning = true → d.mtr = { m with active := supplyActive s.dev.mtr.active cls }) ∧
          (warns s.dev cls w = true → s.dev.mtr.warning = false → d.mtr.warning = true ∧ d.mtr.throttle = 14 ∧
            evSet d Fd.MTR_EVT_supply_warning = true ∧ (fbit s.dev Fd.CKP_CTL_enable = true → d.ckp.emergency = true))) ∧
        exec (.meterNotice cls false w) s = .next (s.settled (setMtr s.dev { m with
          active := s.dev.mtr.active.filter (fun c => c != cls)
          quietFrom := if s.dev.mtr.active.filter (fun c => c != cls) = [] ∧ s.dev.mtr.active ≠ [] then up s.dev
            else s.dev.mtr.quietFrom }))) ∧
      (∀ r m rest l, s.dev.meter.feed = (r, m) :: rest → l = m.getD (minuteOf s.dev - 1) → ∃ d,
        exec (.meterRecordReceived r) s = .next (s.settled (logRing d r l)) ∧ d.mtr.feedAt = up s.dev ∧ d.meter.feed = rest ∧
        d.mtr.lost = false ∧ d.regs = s.dev.regs ∧ d.ctx = s.dev.ctx ∧ (leAt r 6 1 ≠ 1 → d.seq = s.dev.seq) ∧
        (leAt r 6 1 = 1 → d.seq = { s.dev.seq with minuteE := put s.dev.seq.minuteE l (leAt r 48 8) } ∧
          d.mtr.recSeq = leAt r 24 4 ∧ d.mtr.recMin = l % 2 ^ 32)) ∧
      (s.dev.mtr.lost = false → s.dev.mtr.feedAt + 120000 * 65536 ≤ up s.dev → ∃ d, exec .meterFeedSilent s = .next (s.settled d) ∧
        d.mtr = { s.dev.mtr with lost := true } ∧ evSet d Fd.MTR_EVT_meter_lost = true ∧ d.ctx = s.dev.ctx) ∧
      (s.dev.mtr.lost = true ∨ up s.dev < s.dev.mtr.feedAt + 120000 * 65536 → exec .meterFeedSilent s = .next (s.settled s.dev))) ∧
    (∀ x r l n, n = 2 ^ fget x Fd.MTR_LOG_CFG_size_log2 → (fbit x Fd.MTR_LOG_BASE_log_en = false → logRing x r l = x) ∧
      (fbit x Fd.MTR_LOG_BASE_log_en = true → x.hst.tdisp ≠ .error → (logRing x r l).mtr.written = x.mtr.written + 1 ∧ (logRing x r l).posted
        = x.posted ++ [⟨ringLink x 0, fget x Fd.MTR_LOG_BASE_base * 4096 + 8192 * (x.mtr.written % n), exactly 8192 (r ++ leBytes 5 l)⟩])) ∧
    (∀ t, t = s.dev.mtr.quietFrom + fget s.dev Fd.MTR_SUPPLY_CFG_clear_frames * 65536 →
      (s.dev.mtr.warning = true → s.dev.mtr.active = [] → t ≤ up s.dev → ∃ d, exec .supplyClear s = .next (s.settled d) ∧
        d.mtr = { s.dev.mtr with warning := false } ∧ evSet d Fd.MTR_EVT_supply_clear = true ∧ d.ctx = s.dev.ctx) ∧
      (s.dev.mtr.warning = false ∨ s.dev.mtr.active ≠ [] ∨ up s.dev < t → exec .supplyClear s = .next (s.settled s.dev))) ∧
    (∀ e, look s.dev.seq.minuteE w = some e → exec (.energyApportion w) s = .next (s.settled (apportion s.dev w))) ∧
    (minuteSettled s.dev w = true → ∃ d, exec (.energyApportion w) s = .next (s.settled d) ∧
      d.seq = { s.dev.seq with minuteE := del s.dev.seq.minuteE w } ∧ d.ctx = s.dev.ctx) ∧
    (look s.dev.seq.minuteE w = none → minuteSettled s.dev w = false →
      (∀ m, s.dev.seq.energyFrom = some m → m ≤ w → w + 3 ≤ minuteOf s.dev → ∃ d, exec (.energyApportion w) s = .next (s.settled d) ∧ d.seq.energyGap = true ∧ d.seq.acct = s.dev.seq.acct ∧
        d.ctx = s.dev.ctx) ∧
      (minuteOf s.dev < w + 3 ∨ s.dev.seq.energyFrom = none ∨ (∃ m, s.dev.seq.energyFrom = some m ∧ w < m) →
        exec (.energyApportion w) s = .next (s.settled s.dev))) ∧
    (∀ m z, m = max 1 (fget s.dev Fd.SEQ_SCHED_CFG_acct_minutes) → z = minuteOf s.dev / m * m →
      (s.dev.sys.resetLow = false → s.dev.tc.acquired = true → (∀ p, s.dev.seq.periodFrom = some p → p < z) → ∃ d,
        exec .tenantRecordWrite s = .next (s.settled d) ∧ d.seq = { s.dev.seq with periodFrom := some z, energyGap := false } ∧
        d.ctx = s.dev.ctx ∧ (s.dev.hst.tdisp ≠ .error → ∀ c, c < 256 → fbit s.dev Fd.SEQ_CLIENT_ACCT_acct_en c = true →
          (⟨ringLink s.dev 0, fget s.dev Fd.SEQ_CLIENT_ACCT_acct_addr c * 64,
            tenantRecord s.dev c (fget d Fd.SEQ_SCHED_STAT_period) (z * 60000)⟩ : Posted) ∈ d.posted)) ∧
      (s.dev.sys.resetLow = true ∨ s.dev.tc.acquired = false ∨ (∃ p, s.dev.seq.periodFrom = some p ∧ z ≤ p) →
        exec .tenantRecordWrite s = .next (s.settled s.dev)))) ∧
  (∀ (d : Dev) (m e : Nat), look d.seq.minuteE m = some e → minuteSettled d m = false →
    sumN ((List.range 257).map (fun a => (mget (apportion d m).seq.acct {} a).energy))
      = sumN ((List.range 257).map (fun a => (mget d.seq.acct {} a).energy)) + e ∧
    look (apportion d m).seq.minuteE m = none ∧ (apportion d m).ctx = d.ctx)

/-- (1) 17 R427, R450 to R460, 19 R490, R498: the meter domain on its rail: power-up draws its keys and signs a start record; a minute closes
with a signed record, its energy joins the sums, and the next minute begins at the rate that was set; a mains cycle adds its energy where
a calibration is in force; a stuck channel marks the minute; a half-cycle is classified and the key rolled where it is due; a queued
record leaves as a frame with its check value; a loss of the rail loses everything. Without the rail nothing happens. (2) 17 R460: an
interruption begins when every phase falls below 5 % of U_din, and replaces the sag that led into it; a half-cycle with no phase below 90
% begins no sag. -/
def Obligations.MeterDomain : Prop :=
  (∀ s : State,
    (s.dev.meter.rail = false → ∀ i e rms fr ch, ∀ c ∈ [Instr.minuteMarker, .meterFreeRunClose, .mainsCycleEnd i e rms fr, .senseFault ch],
      exec c s = .next (s.settled s.dev)) ∧
    (s.dev.meter.rail = true → exec .meterPowerUp s = .next (s.settled s.dev)) ∧
    (s.dev.meter.rail = false → ∃ d, exec .meterPowerUp s = .next (s.settled d) ∧ d.meter.rail = true ∧ d.meter.seq = 1 ∧ d.meter.keyUsed = 1 ∧
      d.meter.txq.length = 1 ∧ d.meter.feed = d.meter.txq.map (fun r => (r, none)) ∧ d.meter.cal = none ∧ d.ctx = s.dev.ctx) ∧
    (s.dev.meter.rail = true → ∀ c ∈ [Instr.minuteMarker, .meterFreeRunClose], ∃ d, exec c s = .next (s.settled d) ∧
      d.meter.minute = s.dev.meter.minute + 1 ∧ s.dev.meter.seq < d.meter.seq ∧
      d.meter.importCum = s.dev.meter.importCum + s.dev.meter.cur.importMj ∧ d.meter.exportCum = s.dev.meter.exportCum + s.dev.meter.cur.exportMj ∧
      d.meter.cur = { fault := !s.dev.meter.stuck.isEmpty } ∧ d.meter.rate = s.dev.meter.rateNext ∧ d.ctx = s.dev.ctx ∧ d.mtr = s.dev.mtr ∧
      (s.dev.meter.keyUsed + 1024 < leaves - 2 → s.dev.meter.calNext = none → d.meter.seq = s.dev.meter.seq + 1 ∧
        d.meter.keyUsed = s.dev.meter.keyUsed + 1 ∧ (∃ r, d.meter.feed = s.dev.meter.feed ++
          [(r, if c = .minuteMarker then some (markerMinute s.dev) else none)]) ∧ d.meter.txq.length
          = if 16 ≤ s.dev.meter.txq.length then s.dev.meter.txq.length else s.dev.meter.txq.length + 1)) ∧
    (∀ i e rms fr, s.dev.meter.rail = true →
      (s.dev.meter.cal.isSome = true → ∃ d, exec (.mainsCycleEnd i e rms fr) s = .next (s.settled d) ∧
        d.meter = { s.dev.meter with
          stuck := s.dev.meter.stuck.filter (fun c => rms.getD c 0 = 0)
          cur := { s.dev.meter.cur with
            importMj := s.dev.meter.cur.importMj + i, exportMj := s.dev.meter.cur.exportMj + e, cycles := s.dev.meter.cur.cycles + 1
            freq := s.dev.meter.cur.freq + fr, rms := (List.range 7).map (fun c => s.dev.meter.cur.rms.getD c 0 + rms.getD c 0) } } ∧
        d.mtr = s.dev.mtr ∧ d.ctx = s.dev.ctx) ∧
      (s.dev.meter.cal = none → exec (.mainsCycleEnd i e rms fr) s = .next (s.settled s.dev))) ∧
    (∀ ch, s.dev.meter.rail = true →
      (ch < 7 → ∃ d, exec (.senseFault ch) s = .next (s.settled d) ∧ d.meter.stuck.contains ch = true ∧
        (∀ c, c ≠ ch → d.meter.stuck.contains c = s.dev.meter.stuck.contains c) ∧ d.meter.cur = { s.dev.meter.cur with fault := true } ∧
        d.mtr = s.dev.mtr ∧ d.ctx = s.dev.ctx) ∧
      (7 ≤ ch → exec (.senseFault ch) s = .next (s.settled s.dev))) ∧
    (∀ v, exec (.halfCycleEnd v) s = .next (s.settled (meterRoll (halfCycle s.dev v)))) ∧
    (∀ x v, (x.meter.rail = false ∨ x.meter.cal = none ∨ v = [] → halfCycle x v = x) ∧
      (x.meter.keyNext.isSome = true ∨ x.meter.keyUsed + 1024 < leaves → meterRoll x = x)) ∧
    (s.dev.meter.txq = [] → exec .mtrTxSend s = .next (s.settled s.dev)) ∧
    (∀ rcd rest, s.dev.meter.txq = rcd :: rest → ∃ d, exec .mtrTxSend s = .next (s.settled d) ∧ d.meter = { s.dev.meter with txq := rest } ∧
      d.out = s.dev.out ++ [.mtrTx ([0xA5, 0x5A] ++ (leBytes 2 rcd.length ++ rcd) ++ leBytes 4 (crc32c (leBytes 2 rcd.length ++ rcd)))] ∧
      d.ctx = s.dev.ctx) ∧
    (∃ d, exec .meterRailLoss s = .next (s.settled d) ∧ d.meter = {} ∧ d.sys = s.dev.sys ∧ d.ctx = s.dev.ctx ∧ d.regs = s.dev.regs)) ∧
  (∀ (d : Dev) (v : Nat), d.meter.rail = true → d.meter.cal.isSome = true →
    (d.meter.intr = none → v * 100 < 5 * calUdin d.meter → (halfCycle d [v]).meter.intr.isSome = true ∧ (halfCycle d [v]).meter.sag = none ∧
      (halfCycle d [v]).meter.cur.ints = d.meter.cur.ints + 1) ∧
    (d.meter.intr = none → d.meter.sag = none → 90 * calUdin d.meter ≤ v * 100 → (halfCycle d [v]).meter.sag = none ∧
      (halfCycle d [v]).meter.cur.sags = d.meter.cur.sags))

/-- (1) 04 R124: whatever the operands are, subnormal, infinite or NaN among them, no operation of the edge unit delivers an infinity or a
NaN. (2) 04 R123, R124: an addition or a multiplication that neither overflows nor underflows delivers a value than which no finite FP32
value lies nearer to the exact result; a quantisation stays within its limit. -/
def Obligations.SumsAndProductsAreNearestAndFinite : Prop :=
  (∀ x y c : F32, ∀ acc : Int,
    nonFinite (fMul x y).v = false ∧ nonFinite (fAdd x y).v = false ∧ nonFinite (fSub x y).v = false
      ∧ nonFinite (fMax x y).v = false ∧ nonFinite (fRcp x).v = false ∧ nonFinite (fExp2 x).v = false
      ∧ nonFinite (fScale y acc c).v = false) ∧
  (∀ x y z : F32, nonFinite x = false → nonFinite y = false → nonFinite z = false →
    ((fAdd x y).ovf = false → (fAdd x y).und = 0 →
      (fixOf (fAdd x y).v - (fixOf x + fixOf y)).natAbs ≤ (fixOf z - (fixOf x + fixOf y)).natAbs)
    ∧ ((fMul x y).ovf = false → (fMul x y).und = 0 →
      (fixOf (fMul x y).v * 2 ^ 149 - fixOf x * fixOf y).natAbs ≤ (fixOf z * 2 ^ 149 - fixOf x * fixOf y).natAbs)
    ∧ (fQuant 127 x y).v.natAbs ≤ 127 ∧ (fQuant 7 x y).v.natAbs ≤ 7)

/-- 05 R138, R139, R156: the run of a team is the composition of its parts, a team that has halted stays as it is, and no run touches a byte
outside the members' working regions. -/
def Obligations.TeamRunsComposeAndStayInTheStore : Prop :=
  (∀ (e : ArrEnv) (n k : Nat) (t : TeamRun), teamRuns e (n + k) t = teamRuns e k (teamRuns e n t))
  ∧ (∀ (e : ArrEnv) (n : Nat) (t : TeamRun), teamHalted t = true → teamRuns e n t = t)
  ∧ ∀ (e : ArrEnv) (n : Nat) (t : TeamRun), 0 < e.work → storesInside e t = true → storesInside e (teamRuns e n t) = true
end

