-- ==== Sys2Proof/Laws/Tables.lean ====
section
/-!
SUPPORT. Sys2Proof/Laws/Tables.lean: what the operations over sparse tables and host memory do: reading after writing, and the
canonical form, which every one of them keeps.
-/

namespace Sys2Proof.Machine

variable {α : Type}

/-! ### Reading after writing -/

@[simp] theorem look_nil (k : Nat) : look ([] : NMap α) k = none := rfl

theorem look_put (m : NMap α) (k j : Nat) (v : α) : look (put m k v) j = if j = k then some v else look m j := by
  induction m with
  | nil => by_cases h : j = k <;> simp [put, look, h, Ne.symm]
  | cons e t ih =>
    obtain ⟨a, w⟩ := e
    simp only [put]
    by_cases h : j = k
    · subst h
      split
      · simp [look]
      · split
        · simp [look]
        · simp [look, ih]; omega
    · have h' : ¬ k = j := fun e => h e.symm
      split
      · simp [look, h']
      · split
        · rename_i ha; subst ha; simp [look, h']
        · simp [look, ih, h]

@[simp] theorem look_put_same (m : NMap α) (k : Nat) (v : α) : look (put m k v) k = some v := by simp [look_put]

@[simp] theorem look_put_other (m : NMap α) {k j : Nat} (v : α) (h : j ≠ k) : look (put m k v) j = look m j := by
  simp [look_put, h]

theorem look_del (m : NMap α) (k j : Nat) : look (del m k) j = if j = k then none else look m j := by
  induction m with
  | nil => simp [del, look]
  | cons e t ih =>
    obtain ⟨a, w⟩ := e
    simp only [del, List.filter_cons] at ih ⊢
    by_cases h : a = k
    · subst h; simp only [bne_self_eq_false, Bool.false_eq_true, if_false, ih, look]
      by_cases h' : j = a <;> simp [h', eq_comm]
    · have : (a != k) = true := by simpa using h
      simp only [this, if_true, look, ih]
      by_cases h' : a = j <;> by_cases h'' : j = k <;> simp_all

@[simp] theorem look_del_same (m : NMap α) (k : Nat) : look (del m k) k = none := by simp [look_del]

@[simp] theorem look_del_other (m : NMap α) {k j : Nat} (h : j ≠ k) : look (del m k) j = look m j := by simp [look_del, h]

@[simp] theorem mget_nil (dflt : α) (k : Nat) : mget [] dflt k = dflt := rfl

theorem mget_mset [DecidableEq α] (m : NMap α) (dflt v : α) (k j : Nat) :
    mget (mset m dflt k v) dflt j = if j = k then v else mget m dflt j := by
  unfold mget mset
  split <;> rename_i h
  · by_cases h' : j = k <;> simp [h', h]
  · by_cases h' : j = k <;> simp [h']

@[simp] theorem mget_mset_same [DecidableEq α] (m : NMap α) (dflt v : α) (k : Nat) : mget (mset m dflt k v) dflt k = v := by
  simp [mget_mset]

@[simp] theorem mget_mset_other [DecidableEq α] (m : NMap α) (dflt v : α) {k j : Nat} (h : j ≠ k) :
    mget (mset m dflt k v) dflt j = mget m dflt j := by simp [mget_mset, h]

theorem look_mset_other [DecidableEq α] (m : NMap α) (dflt v : α) {k j : Nat} (h : j ≠ k) :
    look (mset m dflt k v) j = look m j := by
  unfold mset; split <;> simp [h]

/-! ### The canonical form -/

theorem risingFrom_some {lo : Nat} {m : NMap α} (h : risingFrom (some lo) m = true) : rising m = true := by
  cases m with
  | nil => rfl
  | cons e t => simp [rising, risingFrom] at h ⊢; exact h.2

theorem risingFrom_weaken {m : NMap α} {l k : Nat} (h : risingFrom (some l) m = true) (hk : k ≤ l) :
    risingFrom (some k) m = true := by
  cases m with
  | nil => rfl
  | cons e t => simp [risingFrom] at h ⊢; exact ⟨by omega, h.2⟩

theorem risingFrom_put (m : NMap α) (k : Nat) (v : α) :
    ∀ lo : Option Nat, risingFrom lo m = true → (∀ l, lo = some l → l < k) → risingFrom lo (put m k v) = true := by
  induction m with
  | nil => intro lo _ hl; cases lo <;> simp_all [put, risingFrom]
  | cons e t ih =>
    obtain ⟨a, w⟩ := e
    intro lo h hl
    simp only [put]
    simp only [risingFrom, Bool.and_eq_true] at h
    split
    · cases lo <;> simp_all [risingFrom]
    · split
      · subst_vars; simp only [risingFrom, Bool.and_eq_true]; exact h
      · simp only [risingFrom, Bool.and_eq_true]
        exact ⟨h.1, ih (some a) h.2 (by intro l e; cases e; omega)⟩

theorem rising_put {m : NMap α} (h : rising m = true) (k : Nat) (v : α) : rising (put m k v) = true :=
  risingFrom_put m k v none h (by simp)

theorem risingFrom_filter (p : Nat × α → Bool) (m : NMap α) :
    ∀ lo : Option Nat, risingFrom lo m = true → risingFrom lo (m.filter p) = true := by
  induction m with
  | nil => intro lo h; exact h
  | cons e t ih =>
    obtain ⟨a, w⟩ := e
    intro lo h
    simp only [risingFrom, Bool.and_eq_true] at h
    simp only [List.filter_cons]
    split
    · simp only [risingFrom, Bool.and_eq_true]; exact ⟨h.1, ih _ h.2⟩
    · cases lo with
      | none => exact ih none (risingFrom_some h.2)
      | some l => exact ih (some l) (risingFrom_weaken h.2 (by have := h.1; simp at this; omega))

theorem rising_del {m : NMap α} (h : rising m = true) (k : Nat) : rising (del m k) = true := risingFrom_filter _ m none h

theorem rising_mset [DecidableEq α] {m : NMap α} (h : rising m = true) (dflt v : α) (k : Nat) :
    rising (mset m dflt k v) = true := by
  unfold mset; split
  · exact rising_del h k
  · exact rising_put h k v

/-! ### Host memory and the load buffer -/

theorem wf_none (m : List Host.Cell) : Memory.wf none m = rising m := by
  simp [Memory.wf]

theorem wf_put {m : List Host.Cell} (h : Memory.wf none m = true) (a : Nat) (b : Byte) : Memory.wf none (put m a b) = true := by
  rw [wf_none] at *; exact rising_put h a b

theorem wf_putBytes (bs : List Byte) : ∀ {m : List Host.Cell} {a : Nat}, Memory.wf none m = true →
    Memory.wf none (putBytes m a bs) = true := by
  induction bs with
  | nil => intro m a h; exact h
  | cons b t ih => intro m a h; exact ih (wf_put h a b)

theorem wf_land (w : List Posted) : ∀ {m : List Host.Cell}, Memory.wf none m = true → Memory.wf none (land m w) = true := by
  induction w with
  | nil => intro m h; exact h
  | cons x t ih => intro m h; exact ih (wf_putBytes x.bytes h)

/-- Every operation that a command ends with keeps the canonical form of host memory. -/
theorem settled_wf (s : State) (d : Dev) (h : Memory.wf none s.hostMem = true) : Memory.wf none (s.settled d).hostMem = true := by
  show Memory.wf none (landed s.hostMem d) = true
  unfold landed
  split
  · exact wf_land d.posted h
  · exact h

/-- A memory whose unlisted bytes read 0 keeps its form under a write of one byte. -/
theorem wf_mset {m : List Host.Cell} (h : Memory.wf (some 0) m = true) (a : Nat) (b : Byte) :
    Memory.wf (some 0) (mset m 0 a b) = true := by
  simp only [Memory.wf, Bool.and_eq_true, List.all_eq_true, decide_eq_true_eq] at h ⊢
  refine ⟨rising_mset h.1 0 b a, ?_⟩
  unfold mset
  split <;> rename_i hb
  · intro x hx; exact h.2 x (List.mem_of_mem_filter hx)
  · have key : ∀ (m : List Host.Cell), (∀ x ∈ m, some x.2 ≠ some (0 : Byte)) → ∀ x ∈ put m a b, some x.2 ≠ some (0 : Byte) := by
      intro m
      induction m with
      | nil => intro _ x hx; simp [put] at hx; subst hx; simpa using hb
      | cons e t ih =>
        obtain ⟨k, w⟩ := e
        intro hm x hx
        simp only [put] at hx
        split at hx
        · rcases List.mem_cons.1 hx with rfl | hx
          · simpa using hb
          · exact hm x hx
        · split at hx
          · rcases List.mem_cons.1 hx with rfl | hx
            · simpa using hb
            · exact hm x (List.mem_cons_of_mem _ hx)
          · rcases List.mem_cons.1 hx with rfl | hx
            · exact hm _ List.mem_cons_self
            · exact ih (fun y hy => hm y (List.mem_cons_of_mem _ hy)) x hx
    exact key m h.2

/-- The load buffer keeps its form under an aperture write. -/
theorem wf_setBytes (bs : List Byte) : ∀ {m : List Host.Cell} {a : Nat}, Memory.wf (some 0) m = true →
    Memory.wf (some 0) (setBytes m a bs) = true := by
  induction bs with
  | nil => intro m a h; exact h
  | cons b t ih => intro m a h; exact ih (wf_mset h a b)

/-- An aperture write leaves every byte outside it. -/
theorem mget_setBytes_outside (bs : List Byte) : ∀ (m : NMap Byte) (a j : Nat), j < a ∨ a + bs.length ≤ j →
    mget (setBytes m a bs) 0 j = mget m 0 j := by
  induction bs with
  | nil => intro m a j _; rfl
  | cons b t ih =>
    intro m a j h
    simp only [setBytes]
    rw [ih _ _ _ (by simp at h; omega), mget_mset_other]
    simp at h; omega

/-- A byte outside the bytes written is as before. -/
theorem look_putBytes_outside (bs : List Byte) : ∀ (m : List Host.Cell) (a j : Nat), j < a ∨ a + bs.length ≤ j →
    look (putBytes m a bs) j = look m j := by
  induction bs with
  | nil => intro m a j _; rfl
  | cons b t ih =>
    intro m a j h
    simp only [putBytes]
    rw [ih _ _ _ (by simp at h; omega), look_put_other]
    simp at h; omega

/-- A byte inside is the one written. -/
theorem look_putBytes_inside (bs : List Byte) : ∀ (m : List Host.Cell) (a i : Nat), i < bs.length →
    look (putBytes m a bs) (a + i) = bs[i]? := by
  induction bs with
  | nil => intro m a i h; simp at h
  | cons b t ih =>
    intro m a i h
    simp only [putBytes]
    cases i with
    | zero => rw [look_putBytes_outside _ _ _ _ (by omega)]; simp
    | succ n =>
      have := ih (put m a b) (a + 1) n (by simpa using h)
      rw [show a + (n + 1) = a + 1 + n by omega, this]; simp

end Sys2Proof.Machine
end

