-- ==== Sys2Proof/Laws/State.lean ====
section
/-!
SUPPORT. Sys2Proof/Laws/State.lean: what each update of the state leaves as it is, and what it sets. One lemma for each update
says every other field of the device at once; `simp` takes it apart.
-/

namespace Sys2Proof.Machine

/-! ### The block -/

@[simp] theorem settled_pending (s : State) (d : Dev) : (s.settled d).pending = s.pending := rfl
@[simp] theorem settled_hostMem (s : State) (d : Dev) : (s.settled d).hostMem = landed s.hostMem d := rfl
@[simp] theorem popped_pending (s : State) (r : List Instr) : (s.popped r).pending = r := rfl
@[simp] theorem popped_dev (s : State) (r : List Instr) : (s.popped r).dev = s.dev := rfl
@[simp] theorem popped_hostMem (s : State) (r : List Instr) : (s.popped r).hostMem = s.hostMem := rfl

@[simp] theorem settled_dev (s : State) (d : Dev) :
    (s.settled d).dev.sys = d.sys ∧ (s.settled d).dev.hst = d.hst ∧ (s.settled d).dev.regs = d.regs ∧ (s.settled d).dev.evts =
      d.evts ∧ (s.settled d).dev.caps = d.caps ∧ (s.settled d).dev.seq = d.seq ∧ (s.settled d).dev.syn = d.syn ∧ (s.settled
      d).dev.fab = d.fab ∧ (s.settled d).dev.ctx = d.ctx ∧ (s.settled d).dev.txt = d.txt ∧ (s.settled d).dev.mem = d.mem ∧
      (s.settled d).dev.dly = d.dly ∧ (s.settled d).dev.flt = d.flt ∧ (s.settled d).dev.cvu = d.cvu ∧ (s.settled d).dev.tc =
      d.tc ∧ (s.settled d).dev.lnk = d.lnk ∧ (s.settled d).dev.sec = d.sec ∧ (s.settled d).dev.meter = d.meter ∧ (s.settled
      d).dev.mtr = d.mtr ∧ (s.settled d).dev.fls = d.fls ∧ (s.settled d).dev.map = d.map ∧ (s.settled d).dev.ckp = d.ckp ∧
      (s.settled d).dev.out = d.out ∧ (s.settled d).dev.fresh = d.fresh ∧ (s.settled d).dev.posted = heldBack d := by
  and_intros <;> rfl

/-! ### The device: fields that an update leaves -/

@[simp] theorem fset_frame (d : Dev) (f : Fd) (v b : Nat) :
    (fset d f v b).sys = d.sys ∧ (fset d f v b).hst = d.hst ∧ (fset d f v b).evts = d.evts ∧ (fset d f v b).caps = d.caps ∧
      (fset d f v b).seq = d.seq ∧ (fset d f v b).syn = d.syn ∧ (fset d f v b).fab = d.fab ∧ (fset d f v b).ctx = d.ctx ∧
      (fset d f v b).txt = d.txt ∧ (fset d f v b).mem = d.mem ∧ (fset d f v b).dly = d.dly ∧ (fset d f v b).flt = d.flt ∧
      (fset d f v b).cvu = d.cvu ∧ (fset d f v b).tc = d.tc ∧ (fset d f v b).lnk = d.lnk ∧ (fset d f v b).sec = d.sec ∧ (fset
      d f v b).meter = d.meter ∧ (fset d f v b).mtr = d.mtr ∧ (fset d f v b).fls = d.fls ∧ (fset d f v b).map = d.map ∧ (fset
      d f v b).ckp = d.ckp ∧ (fset d f v b).posted = d.posted ∧ (fset d f v b).out = d.out ∧ (fset d f v b).fresh = d.fresh :=
      by
  and_intros <;> rfl

@[simp] theorem fbump_frame (d : Dev) (f : Fd) (n b : Nat) :
    (fbump d f n b).sys = d.sys ∧ (fbump d f n b).hst = d.hst ∧ (fbump d f n b).evts = d.evts ∧ (fbump d f n b).caps = d.caps
      ∧ (fbump d f n b).seq = d.seq ∧ (fbump d f n b).syn = d.syn ∧ (fbump d f n b).fab = d.fab ∧ (fbump d f n b).ctx = d.ctx
      ∧ (fbump d f n b).txt = d.txt ∧ (fbump d f n b).mem = d.mem ∧ (fbump d f n b).dly = d.dly ∧ (fbump d f n b).flt = d.flt
      ∧ (fbump d f n b).cvu = d.cvu ∧ (fbump d f n b).tc = d.tc ∧ (fbump d f n b).lnk = d.lnk ∧ (fbump d f n b).sec = d.sec ∧
      (fbump d f n b).meter = d.meter ∧ (fbump d f n b).mtr = d.mtr ∧ (fbump d f n b).fls = d.fls ∧ (fbump d f n b).map =
      d.map ∧ (fbump d f n b).ckp = d.ckp ∧ (fbump d f n b).posted = d.posted ∧ (fbump d f n b).out = d.out ∧ (fbump d f n
      b).fresh = d.fresh := by
  and_intros <;> rfl

@[simp] theorem evRecord_frame (d : Dev) (f : Fd) :
    (evRecord d f).sys = d.sys ∧ (evRecord d f).hst = d.hst ∧ (evRecord d f).regs = d.regs ∧ (evRecord d f).caps = d.caps ∧
      (evRecord d f).seq = d.seq ∧ (evRecord d f).syn = d.syn ∧ (evRecord d f).fab = d.fab ∧ (evRecord d f).ctx = d.ctx ∧
      (evRecord d f).txt = d.txt ∧ (evRecord d f).mem = d.mem ∧ (evRecord d f).dly = d.dly ∧ (evRecord d f).flt = d.flt ∧
      (evRecord d f).cvu = d.cvu ∧ (evRecord d f).tc = d.tc ∧ (evRecord d f).lnk = d.lnk ∧ (evRecord d f).sec = d.sec ∧
      (evRecord d f).meter = d.meter ∧ (evRecord d f).mtr = d.mtr ∧ (evRecord d f).fls = d.fls ∧ (evRecord d f).map = d.map ∧
      (evRecord d f).ckp = d.ckp ∧ (evRecord d f).posted = d.posted ∧ (evRecord d f).out = d.out ∧ (evRecord d f).fresh =
      d.fresh := by
  and_intros <;> rfl

@[simp] theorem send_frame (d : Dev) (m : Msg) :
    (send d m).sys = d.sys ∧ (send d m).hst = d.hst ∧ (send d m).regs = d.regs ∧ (send d m).evts = d.evts ∧ (send d m).caps =
      d.caps ∧ (send d m).seq = d.seq ∧ (send d m).syn = d.syn ∧ (send d m).fab = d.fab ∧ (send d m).ctx = d.ctx ∧ (send d
      m).txt = d.txt ∧ (send d m).mem = d.mem ∧ (send d m).dly = d.dly ∧ (send d m).flt = d.flt ∧ (send d m).cvu = d.cvu ∧
      (send d m).tc = d.tc ∧ (send d m).lnk = d.lnk ∧ (send d m).sec = d.sec ∧ (send d m).meter = d.meter ∧ (send d m).mtr =
      d.mtr ∧ (send d m).fls = d.fls ∧ (send d m).map = d.map ∧ (send d m).ckp = d.ckp ∧ (send d m).posted = d.posted ∧ (send
      d m).fresh = d.fresh := by
  and_intros <;> rfl

@[simp] theorem setSys_frame (d : Dev) (y : Sys) :
    (setSys d y).hst = d.hst ∧ (setSys d y).regs = d.regs ∧ (setSys d y).evts = d.evts ∧ (setSys d y).caps = d.caps ∧ (setSys
      d y).seq = d.seq ∧ (setSys d y).syn = d.syn ∧ (setSys d y).fab = d.fab ∧ (setSys d y).ctx = d.ctx ∧ (setSys d y).txt =
      d.txt ∧ (setSys d y).mem = d.mem ∧ (setSys d y).dly = d.dly ∧ (setSys d y).flt = d.flt ∧ (setSys d y).cvu = d.cvu ∧
      (setSys d y).tc = d.tc ∧ (setSys d y).lnk = d.lnk ∧ (setSys d y).sec = d.sec ∧ (setSys d y).meter = d.meter ∧ (setSys d
      y).mtr = d.mtr ∧ (setSys d y).fls = d.fls ∧ (setSys d y).map = d.map ∧ (setSys d y).ckp = d.ckp ∧ (setSys d y).posted =
      d.posted ∧ (setSys d y).out = d.out ∧ (setSys d y).fresh = d.fresh := by
  and_intros <;> rfl

@[simp] theorem setMeter_frame (d : Dev) (m : Meter) :
    (setMeter d m).sys = d.sys ∧ (setMeter d m).hst = d.hst ∧ (setMeter d m).regs = d.regs ∧ (setMeter d m).evts = d.evts ∧
      (setMeter d m).caps = d.caps ∧ (setMeter d m).seq = d.seq ∧ (setMeter d m).syn = d.syn ∧ (setMeter d m).fab = d.fab ∧
      (setMeter d m).ctx = d.ctx ∧ (setMeter d m).txt = d.txt ∧ (setMeter d m).mem = d.mem ∧ (setMeter d m).dly = d.dly ∧
      (setMeter d m).flt = d.flt ∧ (setMeter d m).cvu = d.cvu ∧ (setMeter d m).tc = d.tc ∧ (setMeter d m).lnk = d.lnk ∧
      (setMeter d m).sec = d.sec ∧ (setMeter d m).mtr = d.mtr ∧ (setMeter d m).fls = d.fls ∧ (setMeter d m).map = d.map ∧
      (setMeter d m).ckp = d.ckp ∧ (setMeter d m).posted = d.posted ∧ (setMeter d m).out = d.out ∧ (setMeter d m).fresh =
      d.fresh := by
  and_intros <;> rfl

@[simp] theorem setMtr_frame (d : Dev) (m : Mtr) :
    (setMtr d m).sys = d.sys ∧ (setMtr d m).hst = d.hst ∧ (setMtr d m).regs = d.regs ∧ (setMtr d m).evts = d.evts ∧ (setMtr d
      m).caps = d.caps ∧ (setMtr d m).seq = d.seq ∧ (setMtr d m).syn = d.syn ∧ (setMtr d m).fab = d.fab ∧ (setMtr d m).ctx =
      d.ctx ∧ (setMtr d m).txt = d.txt ∧ (setMtr d m).mem = d.mem ∧ (setMtr d m).dly = d.dly ∧ (setMtr d m).flt = d.flt ∧
      (setMtr d m).cvu = d.cvu ∧ (setMtr d m).tc = d.tc ∧ (setMtr d m).lnk = d.lnk ∧ (setMtr d m).sec = d.sec ∧ (setMtr d
      m).meter = d.meter ∧ (setMtr d m).fls = d.fls ∧ (setMtr d m).map = d.map ∧ (setMtr d m).ckp = d.ckp ∧ (setMtr d
      m).posted = d.posted ∧ (setMtr d m).out = d.out ∧ (setMtr d m).fresh = d.fresh := by
  and_intros <;> rfl

@[simp] theorem setTc_frame (d : Dev) (t : Tc) :
    (setTc d t).sys = d.sys ∧ (setTc d t).hst = d.hst ∧ (setTc d t).regs = d.regs ∧ (setTc d t).evts = d.evts ∧ (setTc d
      t).caps = d.caps ∧ (setTc d t).seq = d.seq ∧ (setTc d t).syn = d.syn ∧ (setTc d t).fab = d.fab ∧ (setTc d t).ctx = d.ctx
      ∧ (setTc d t).txt = d.txt ∧ (setTc d t).mem = d.mem ∧ (setTc d t).dly = d.dly ∧ (setTc d t).flt = d.flt ∧ (setTc d
      t).cvu = d.cvu ∧ (setTc d t).lnk = d.lnk ∧ (setTc d t).sec = d.sec ∧ (setTc d t).meter = d.meter ∧ (setTc d t).mtr =
      d.mtr ∧ (setTc d t).fls = d.fls ∧ (setTc d t).map = d.map ∧ (setTc d t).ckp = d.ckp ∧ (setTc d t).posted = d.posted ∧
      (setTc d t).out = d.out ∧ (setTc d t).fresh = d.fresh := by
  and_intros <;> rfl

@[simp] theorem setSq_frame (d : Dev) (n : Nat) (q : Sq) :
    (setSq d n q).sys = d.sys ∧ (setSq d n q).hst = d.hst ∧ (setSq d n q).regs = d.regs ∧ (setSq d n q).evts = d.evts ∧ (setSq
      d n q).caps = d.caps ∧ (setSq d n q).syn = d.syn ∧ (setSq d n q).fab = d.fab ∧ (setSq d n q).ctx = d.ctx ∧ (setSq d n
      q).txt = d.txt ∧ (setSq d n q).mem = d.mem ∧ (setSq d n q).dly = d.dly ∧ (setSq d n q).flt = d.flt ∧ (setSq d n q).cvu =
      d.cvu ∧ (setSq d n q).tc = d.tc ∧ (setSq d n q).lnk = d.lnk ∧ (setSq d n q).sec = d.sec ∧ (setSq d n q).meter = d.meter
      ∧ (setSq d n q).mtr = d.mtr ∧ (setSq d n q).fls = d.fls ∧ (setSq d n q).map = d.map ∧ (setSq d n q).ckp = d.ckp ∧ (setSq
      d n q).posted = d.posted ∧ (setSq d n q).out = d.out ∧ (setSq d n q).fresh = d.fresh := by
  and_intros <;> rfl

@[simp] theorem setCq_frame (d : Dev) (n : Nat) (q : Cq) :
    (setCq d n q).sys = d.sys ∧ (setCq d n q).hst = d.hst ∧ (setCq d n q).regs = d.regs ∧ (setCq d n q).evts = d.evts ∧ (setCq
      d n q).caps = d.caps ∧ (setCq d n q).syn = d.syn ∧ (setCq d n q).fab = d.fab ∧ (setCq d n q).ctx = d.ctx ∧ (setCq d n
      q).txt = d.txt ∧ (setCq d n q).mem = d.mem ∧ (setCq d n q).dly = d.dly ∧ (setCq d n q).flt = d.flt ∧ (setCq d n q).cvu =
      d.cvu ∧ (setCq d n q).tc = d.tc ∧ (setCq d n q).lnk = d.lnk ∧ (setCq d n q).sec = d.sec ∧ (setCq d n q).meter = d.meter
      ∧ (setCq d n q).mtr = d.mtr ∧ (setCq d n q).fls = d.fls ∧ (setCq d n q).map = d.map ∧ (setCq d n q).ckp = d.ckp ∧ (setCq
      d n q).posted = d.posted ∧ (setCq d n q).out = d.out ∧ (setCq d n q).fresh = d.fresh := by
  and_intros <;> rfl

@[simp] theorem setStr_frame (d : Dev) (n : Nat) (q : StrRing) :
    (setStr d n q).sys = d.sys ∧ (setStr d n q).hst = d.hst ∧ (setStr d n q).regs = d.regs ∧ (setStr d n q).evts = d.evts ∧
      (setStr d n q).caps = d.caps ∧ (setStr d n q).syn = d.syn ∧ (setStr d n q).fab = d.fab ∧ (setStr d n q).ctx = d.ctx ∧
      (setStr d n q).txt = d.txt ∧ (setStr d n q).mem = d.mem ∧ (setStr d n q).dly = d.dly ∧ (setStr d n q).flt = d.flt ∧
      (setStr d n q).cvu = d.cvu ∧ (setStr d n q).tc = d.tc ∧ (setStr d n q).lnk = d.lnk ∧ (setStr d n q).sec = d.sec ∧
      (setStr d n q).meter = d.meter ∧ (setStr d n q).mtr = d.mtr ∧ (setStr d n q).fls = d.fls ∧ (setStr d n q).map = d.map ∧
      (setStr d n q).ckp = d.ckp ∧ (setStr d n q).posted = d.posted ∧ (setStr d n q).out = d.out ∧ (setStr d n q).fresh =
      d.fresh := by
  and_intros <;> rfl

@[simp] theorem updAcct_frame (d : Dev) (c : Nat) (f : Acct → Acct) :
    (updAcct d c f).sys = d.sys ∧ (updAcct d c f).hst = d.hst ∧ (updAcct d c f).regs = d.regs ∧ (updAcct d c f).evts = d.evts
      ∧ (updAcct d c f).caps = d.caps ∧ (updAcct d c f).syn = d.syn ∧ (updAcct d c f).fab = d.fab ∧ (updAcct d c f).ctx =
      d.ctx ∧ (updAcct d c f).txt = d.txt ∧ (updAcct d c f).mem = d.mem ∧ (updAcct d c f).dly = d.dly ∧ (updAcct d c f).flt =
      d.flt ∧ (updAcct d c f).cvu = d.cvu ∧ (updAcct d c f).tc = d.tc ∧ (updAcct d c f).lnk = d.lnk ∧ (updAcct d c f).sec =
      d.sec ∧ (updAcct d c f).meter = d.meter ∧ (updAcct d c f).mtr = d.mtr ∧ (updAcct d c f).fls = d.fls ∧ (updAcct d c
      f).map = d.map ∧ (updAcct d c f).ckp = d.ckp ∧ (updAcct d c f).posted = d.posted ∧ (updAcct d c f).out = d.out ∧
      (updAcct d c f).fresh = d.fresh := by
  and_intros <;> rfl

@[simp] theorem setCvu_frame (d : Dev) (u : Nat) (c : CvuUnit) :
    (setCvu d u c).sys = d.sys ∧ (setCvu d u c).hst = d.hst ∧ (setCvu d u c).regs = d.regs ∧ (setCvu d u c).evts = d.evts ∧
      (setCvu d u c).caps = d.caps ∧ (setCvu d u c).seq = d.seq ∧ (setCvu d u c).syn = d.syn ∧ (setCvu d u c).fab = d.fab ∧
      (setCvu d u c).ctx = d.ctx ∧ (setCvu d u c).txt = d.txt ∧ (setCvu d u c).mem = d.mem ∧ (setCvu d u c).dly = d.dly ∧
      (setCvu d u c).flt = d.flt ∧ (setCvu d u c).tc = d.tc ∧ (setCvu d u c).lnk = d.lnk ∧ (setCvu d u c).sec = d.sec ∧
      (setCvu d u c).meter = d.meter ∧ (setCvu d u c).mtr = d.mtr ∧ (setCvu d u c).fls = d.fls ∧ (setCvu d u c).map = d.map ∧
      (setCvu d u c).ckp = d.ckp ∧ (setCvu d u c).posted = d.posted ∧ (setCvu d u c).out = d.out ∧ (setCvu d u c).fresh =
      d.fresh := by
  and_intros <;> rfl

@[simp] theorem setRec_frame (d : Dev) (i : Nat) (r : Rec) :
    (setRec d i r).sys = d.sys ∧ (setRec d i r).hst = d.hst ∧ (setRec d i r).regs = d.regs ∧ (setRec d i r).evts = d.evts ∧
      (setRec d i r).caps = d.caps ∧ (setRec d i r).seq = d.seq ∧ (setRec d i r).syn = d.syn ∧ (setRec d i r).fab = d.fab ∧
      (setRec d i r).txt = d.txt ∧ (setRec d i r).mem = d.mem ∧ (setRec d i r).dly = d.dly ∧ (setRec d i r).flt = d.flt ∧
      (setRec d i r).cvu = d.cvu ∧ (setRec d i r).tc = d.tc ∧ (setRec d i r).lnk = d.lnk ∧ (setRec d i r).sec = d.sec ∧
      (setRec d i r).meter = d.meter ∧ (setRec d i r).mtr = d.mtr ∧ (setRec d i r).fls = d.fls ∧ (setRec d i r).map = d.map ∧
      (setRec d i r).ckp = d.ckp ∧ (setRec d i r).posted = d.posted ∧ (setRec d i r).out = d.out ∧ (setRec d i r).fresh =
      d.fresh := by
  and_intros <;> rfl

@[simp] theorem updRec_frame (d : Dev) (i : Nat) (f : Rec → Rec) :
    (updRec d i f).sys = d.sys ∧ (updRec d i f).hst = d.hst ∧ (updRec d i f).regs = d.regs ∧ (updRec d i f).evts = d.evts ∧
      (updRec d i f).caps = d.caps ∧ (updRec d i f).seq = d.seq ∧ (updRec d i f).syn = d.syn ∧ (updRec d i f).fab = d.fab ∧
      (updRec d i f).txt = d.txt ∧ (updRec d i f).mem = d.mem ∧ (updRec d i f).dly = d.dly ∧ (updRec d i f).flt = d.flt ∧
      (updRec d i f).cvu = d.cvu ∧ (updRec d i f).tc = d.tc ∧ (updRec d i f).lnk = d.lnk ∧ (updRec d i f).sec = d.sec ∧
      (updRec d i f).meter = d.meter ∧ (updRec d i f).mtr = d.mtr ∧ (updRec d i f).fls = d.fls ∧ (updRec d i f).map = d.map ∧
      (updRec d i f).ckp = d.ckp ∧ (updRec d i f).posted = d.posted ∧ (updRec d i f).out = d.out ∧ (updRec d i f).fresh =
      d.fresh := by
  and_intros <;> rfl

@[simp] theorem setSlot_frame (d : Dev) (n : Nat) (x : Slot) :
    (setSlot d n x).sys = d.sys ∧ (setSlot d n x).hst = d.hst ∧ (setSlot d n x).regs = d.regs ∧ (setSlot d n x).evts = d.evts
      ∧ (setSlot d n x).caps = d.caps ∧ (setSlot d n x).seq = d.seq ∧ (setSlot d n x).syn = d.syn ∧ (setSlot d n x).fab =
      d.fab ∧ (setSlot d n x).txt = d.txt ∧ (setSlot d n x).mem = d.mem ∧ (setSlot d n x).dly = d.dly ∧ (setSlot d n x).flt =
      d.flt ∧ (setSlot d n x).cvu = d.cvu ∧ (setSlot d n x).tc = d.tc ∧ (setSlot d n x).lnk = d.lnk ∧ (setSlot d n x).sec =
      d.sec ∧ (setSlot d n x).meter = d.meter ∧ (setSlot d n x).mtr = d.mtr ∧ (setSlot d n x).fls = d.fls ∧ (setSlot d n
      x).map = d.map ∧ (setSlot d n x).ckp = d.ckp ∧ (setSlot d n x).posted = d.posted ∧ (setSlot d n x).out = d.out ∧
      (setSlot d n x).fresh = d.fresh := by
  and_intros <;> rfl

@[simp] theorem updSlot_frame (d : Dev) (n : Nat) (f : Slot → Slot) :
    (updSlot d n f).sys = d.sys ∧ (updSlot d n f).hst = d.hst ∧ (updSlot d n f).regs = d.regs ∧ (updSlot d n f).evts = d.evts
      ∧ (updSlot d n f).caps = d.caps ∧ (updSlot d n f).seq = d.seq ∧ (updSlot d n f).syn = d.syn ∧ (updSlot d n f).fab =
      d.fab ∧ (updSlot d n f).txt = d.txt ∧ (updSlot d n f).mem = d.mem ∧ (updSlot d n f).dly = d.dly ∧ (updSlot d n f).flt =
      d.flt ∧ (updSlot d n f).cvu = d.cvu ∧ (updSlot d n f).tc = d.tc ∧ (updSlot d n f).lnk = d.lnk ∧ (updSlot d n f).sec =
      d.sec ∧ (updSlot d n f).meter = d.meter ∧ (updSlot d n f).mtr = d.mtr ∧ (updSlot d n f).fls = d.fls ∧ (updSlot d n
      f).map = d.map ∧ (updSlot d n f).ckp = d.ckp ∧ (updSlot d n f).posted = d.posted ∧ (updSlot d n f).out = d.out ∧
      (updSlot d n f).fresh = d.fresh := by
  and_intros <;> rfl

@[simp] theorem setWork_frame (d : Dev) (n : Nat) (w : Work) :
    (setWork d n w).sys = d.sys ∧ (setWork d n w).hst = d.hst ∧ (setWork d n w).regs = d.regs ∧ (setWork d n w).evts = d.evts
      ∧ (setWork d n w).caps = d.caps ∧ (setWork d n w).seq = d.seq ∧ (setWork d n w).syn = d.syn ∧ (setWork d n w).fab =
      d.fab ∧ (setWork d n w).txt = d.txt ∧ (setWork d n w).mem = d.mem ∧ (setWork d n w).dly = d.dly ∧ (setWork d n w).flt =
      d.flt ∧ (setWork d n w).cvu = d.cvu ∧ (setWork d n w).tc = d.tc ∧ (setWork d n w).lnk = d.lnk ∧ (setWork d n w).sec =
      d.sec ∧ (setWork d n w).meter = d.meter ∧ (setWork d n w).mtr = d.mtr ∧ (setWork d n w).fls = d.fls ∧ (setWork d n
      w).map = d.map ∧ (setWork d n w).ckp = d.ckp ∧ (setWork d n w).posted = d.posted ∧ (setWork d n w).out = d.out ∧
      (setWork d n w).fresh = d.fresh := by
  and_intros <;> rfl

@[simp] theorem setRcp_frame (d : Dev) (n : Nat) (r : RSlot) :
    (setRcp d n r).sys = d.sys ∧ (setRcp d n r).hst = d.hst ∧ (setRcp d n r).regs = d.regs ∧ (setRcp d n r).evts = d.evts ∧
      (setRcp d n r).caps = d.caps ∧ (setRcp d n r).seq = d.seq ∧ (setRcp d n r).syn = d.syn ∧ (setRcp d n r).ctx = d.ctx ∧
      (setRcp d n r).txt = d.txt ∧ (setRcp d n r).mem = d.mem ∧ (setRcp d n r).dly = d.dly ∧ (setRcp d n r).flt = d.flt ∧
      (setRcp d n r).cvu = d.cvu ∧ (setRcp d n r).tc = d.tc ∧ (setRcp d n r).lnk = d.lnk ∧ (setRcp d n r).sec = d.sec ∧
      (setRcp d n r).meter = d.meter ∧ (setRcp d n r).mtr = d.mtr ∧ (setRcp d n r).fls = d.fls ∧ (setRcp d n r).map = d.map ∧
      (setRcp d n r).ckp = d.ckp ∧ (setRcp d n r).posted = d.posted ∧ (setRcp d n r).out = d.out ∧ (setRcp d n r).fresh =
      d.fresh := by
  and_intros <;> rfl

@[simp] theorem setSlice_frame (d : Dev) (n : Nat) (x : Slice) :
    (setSlice d n x).sys = d.sys ∧ (setSlice d n x).hst = d.hst ∧ (setSlice d n x).regs = d.regs ∧ (setSlice d n x).evts =
      d.evts ∧ (setSlice d n x).caps = d.caps ∧ (setSlice d n x).seq = d.seq ∧ (setSlice d n x).syn = d.syn ∧ (setSlice d n
      x).ctx = d.ctx ∧ (setSlice d n x).txt = d.txt ∧ (setSlice d n x).mem = d.mem ∧ (setSlice d n x).dly = d.dly ∧ (setSlice
      d n x).flt = d.flt ∧ (setSlice d n x).cvu = d.cvu ∧ (setSlice d n x).tc = d.tc ∧ (setSlice d n x).lnk = d.lnk ∧
      (setSlice d n x).sec = d.sec ∧ (setSlice d n x).meter = d.meter ∧ (setSlice d n x).mtr = d.mtr ∧ (setSlice d n x).fls =
      d.fls ∧ (setSlice d n x).map = d.map ∧ (setSlice d n x).ckp = d.ckp ∧ (setSlice d n x).posted = d.posted ∧ (setSlice d n
      x).out = d.out ∧ (setSlice d n x).fresh = d.fresh := by
  and_intros <;> rfl

@[simp] theorem updArr_frame (d : Dev) (a : Nat) (f : Arr → Arr) :
    (updArr d a f).sys = d.sys ∧ (updArr d a f).hst = d.hst ∧ (updArr d a f).regs = d.regs ∧ (updArr d a f).evts = d.evts ∧
      (updArr d a f).caps = d.caps ∧ (updArr d a f).seq = d.seq ∧ (updArr d a f).syn = d.syn ∧ (updArr d a f).ctx = d.ctx ∧
      (updArr d a f).txt = d.txt ∧ (updArr d a f).mem = d.mem ∧ (updArr d a f).dly = d.dly ∧ (updArr d a f).flt = d.flt ∧
      (updArr d a f).cvu = d.cvu ∧ (updArr d a f).tc = d.tc ∧ (updArr d a f).lnk = d.lnk ∧ (updArr d a f).sec = d.sec ∧
      (updArr d a f).meter = d.meter ∧ (updArr d a f).mtr = d.mtr ∧ (updArr d a f).fls = d.fls ∧ (updArr d a f).map = d.map ∧
      (updArr d a f).ckp = d.ckp ∧ (updArr d a f).posted = d.posted ∧ (updArr d a f).out = d.out ∧ (updArr d a f).fresh =
      d.fresh := by
  and_intros <;> rfl

@[simp] theorem updTeam_frame (d : Dev) (n : Nat) (f : Team → Team) :
    (updTeam d n f).sys = d.sys ∧ (updTeam d n f).hst = d.hst ∧ (updTeam d n f).regs = d.regs ∧ (updTeam d n f).evts = d.evts
      ∧ (updTeam d n f).caps = d.caps ∧ (updTeam d n f).seq = d.seq ∧ (updTeam d n f).syn = d.syn ∧ (updTeam d n f).ctx =
      d.ctx ∧ (updTeam d n f).txt = d.txt ∧ (updTeam d n f).mem = d.mem ∧ (updTeam d n f).dly = d.dly ∧ (updTeam d n f).flt =
      d.flt ∧ (updTeam d n f).cvu = d.cvu ∧ (updTeam d n f).tc = d.tc ∧ (updTeam d n f).lnk = d.lnk ∧ (updTeam d n f).sec =
      d.sec ∧ (updTeam d n f).meter = d.meter ∧ (updTeam d n f).mtr = d.mtr ∧ (updTeam d n f).fls = d.fls ∧ (updTeam d n
      f).map = d.map ∧ (updTeam d n f).ckp = d.ckp ∧ (updTeam d n f).posted = d.posted ∧ (updTeam d n f).out = d.out ∧
      (updTeam d n f).fresh = d.fresh := by
  and_intros <;> rfl

@[simp] theorem setTbl_frame (d : Dev) (n : Nat) (t : Tbl) :
    (setTbl d n t).sys = d.sys ∧ (setTbl d n t).hst = d.hst ∧ (setTbl d n t).regs = d.regs ∧ (setTbl d n t).evts = d.evts ∧
      (setTbl d n t).caps = d.caps ∧ (setTbl d n t).seq = d.seq ∧ (setTbl d n t).syn = d.syn ∧ (setTbl d n t).fab = d.fab ∧
      (setTbl d n t).ctx = d.ctx ∧ (setTbl d n t).mem = d.mem ∧ (setTbl d n t).dly = d.dly ∧ (setTbl d n t).flt = d.flt ∧
      (setTbl d n t).cvu = d.cvu ∧ (setTbl d n t).tc = d.tc ∧ (setTbl d n t).lnk = d.lnk ∧ (setTbl d n t).sec = d.sec ∧
      (setTbl d n t).meter = d.meter ∧ (setTbl d n t).mtr = d.mtr ∧ (setTbl d n t).fls = d.fls ∧ (setTbl d n t).map = d.map ∧
      (setTbl d n t).ckp = d.ckp ∧ (setTbl d n t).posted = d.posted ∧ (setTbl d n t).out = d.out ∧ (setTbl d n t).fresh =
      d.fresh := by
  and_intros <;> rfl

@[simp] theorem setCol_frame (d : Dev) (n : Nat) (t : Col) :
    (setCol d n t).sys = d.sys ∧ (setCol d n t).hst = d.hst ∧ (setCol d n t).regs = d.regs ∧ (setCol d n t).evts = d.evts ∧
      (setCol d n t).caps = d.caps ∧ (setCol d n t).seq = d.seq ∧ (setCol d n t).syn = d.syn ∧ (setCol d n t).fab = d.fab ∧
      (setCol d n t).ctx = d.ctx ∧ (setCol d n t).mem = d.mem ∧ (setCol d n t).dly = d.dly ∧ (setCol d n t).flt = d.flt ∧
      (setCol d n t).cvu = d.cvu ∧ (setCol d n t).tc = d.tc ∧ (setCol d n t).lnk = d.lnk ∧ (setCol d n t).sec = d.sec ∧
      (setCol d n t).meter = d.meter ∧ (setCol d n t).mtr = d.mtr ∧ (setCol d n t).fls = d.fls ∧ (setCol d n t).map = d.map ∧
      (setCol d n t).ckp = d.ckp ∧ (setCol d n t).posted = d.posted ∧ (setCol d n t).out = d.out ∧ (setCol d n t).fresh =
      d.fresh := by
  and_intros <;> rfl

@[simp] theorem setIdx_frame (d : Dev) (n : Nat) (i : Idx) :
    (setIdx d n i).sys = d.sys ∧ (setIdx d n i).hst = d.hst ∧ (setIdx d n i).regs = d.regs ∧ (setIdx d n i).evts = d.evts ∧
      (setIdx d n i).caps = d.caps ∧ (setIdx d n i).seq = d.seq ∧ (setIdx d n i).syn = d.syn ∧ (setIdx d n i).fab = d.fab ∧
      (setIdx d n i).ctx = d.ctx ∧ (setIdx d n i).txt = d.txt ∧ (setIdx d n i).mem = d.mem ∧ (setIdx d n i).dly = d.dly ∧
      (setIdx d n i).flt = d.flt ∧ (setIdx d n i).cvu = d.cvu ∧ (setIdx d n i).tc = d.tc ∧ (setIdx d n i).lnk = d.lnk ∧
      (setIdx d n i).sec = d.sec ∧ (setIdx d n i).meter = d.meter ∧ (setIdx d n i).mtr = d.mtr ∧ (setIdx d n i).map = d.map ∧
      (setIdx d n i).ckp = d.ckp ∧ (setIdx d n i).posted = d.posted ∧ (setIdx d n i).out = d.out ∧ (setIdx d n i).fresh =
      d.fresh := by
  and_intros <;> rfl

@[simp] theorem updGrp_frame (d : Dev) (g : Nat) (f : MoveGrp → MoveGrp) :
    (updGrp d g f).sys = d.sys ∧ (updGrp d g f).hst = d.hst ∧ (updGrp d g f).regs = d.regs ∧ (updGrp d g f).evts = d.evts ∧
      (updGrp d g f).caps = d.caps ∧ (updGrp d g f).seq = d.seq ∧ (updGrp d g f).syn = d.syn ∧ (updGrp d g f).fab = d.fab ∧
      (updGrp d g f).ctx = d.ctx ∧ (updGrp d g f).txt = d.txt ∧ (updGrp d g f).mem = d.mem ∧ (updGrp d g f).flt = d.flt ∧
      (updGrp d g f).cvu = d.cvu ∧ (updGrp d g f).tc = d.tc ∧ (updGrp d g f).lnk = d.lnk ∧ (updGrp d g f).sec = d.sec ∧
      (updGrp d g f).meter = d.meter ∧ (updGrp d g f).mtr = d.mtr ∧ (updGrp d g f).fls = d.fls ∧ (updGrp d g f).map = d.map ∧
      (updGrp d g f).ckp = d.ckp ∧ (updGrp d g f).posted = d.posted ∧ (updGrp d g f).out = d.out ∧ (updGrp d g f).fresh =
      d.fresh := by
  and_intros <;> rfl

@[simp] theorem setPort_frame (d : Dev) (p : Nat) (q : Port) :
    (setPort d p q).sys = d.sys ∧ (setPort d p q).hst = d.hst ∧ (setPort d p q).regs = d.regs ∧ (setPort d p q).evts = d.evts
      ∧ (setPort d p q).caps = d.caps ∧ (setPort d p q).seq = d.seq ∧ (setPort d p q).syn = d.syn ∧ (setPort d p q).fab =
      d.fab ∧ (setPort d p q).ctx = d.ctx ∧ (setPort d p q).txt = d.txt ∧ (setPort d p q).mem = d.mem ∧ (setPort d p q).dly =
      d.dly ∧ (setPort d p q).flt = d.flt ∧ (setPort d p q).cvu = d.cvu ∧ (setPort d p q).tc = d.tc ∧ (setPort d p q).sec =
      d.sec ∧ (setPort d p q).meter = d.meter ∧ (setPort d p q).mtr = d.mtr ∧ (setPort d p q).fls = d.fls ∧ (setPort d p
      q).map = d.map ∧ (setPort d p q).ckp = d.ckp ∧ (setPort d p q).posted = d.posted ∧ (setPort d p q).out = d.out ∧
      (setPort d p q).fresh = d.fresh := by
  and_intros <;> rfl

@[simp] theorem setLoan_frame (d : Dev) (n : Nat) (l : Loan) :
    (setLoan d n l).sys = d.sys ∧ (setLoan d n l).hst = d.hst ∧ (setLoan d n l).regs = d.regs ∧ (setLoan d n l).evts = d.evts
      ∧ (setLoan d n l).caps = d.caps ∧ (setLoan d n l).seq = d.seq ∧ (setLoan d n l).syn = d.syn ∧ (setLoan d n l).fab =
      d.fab ∧ (setLoan d n l).ctx = d.ctx ∧ (setLoan d n l).txt = d.txt ∧ (setLoan d n l).mem = d.mem ∧ (setLoan d n l).dly =
      d.dly ∧ (setLoan d n l).flt = d.flt ∧ (setLoan d n l).cvu = d.cvu ∧ (setLoan d n l).tc = d.tc ∧ (setLoan d n l).sec =
      d.sec ∧ (setLoan d n l).meter = d.meter ∧ (setLoan d n l).mtr = d.mtr ∧ (setLoan d n l).fls = d.fls ∧ (setLoan d n
      l).map = d.map ∧ (setLoan d n l).ckp = d.ckp ∧ (setLoan d n l).posted = d.posted ∧ (setLoan d n l).out = d.out ∧
      (setLoan d n l).fresh = d.fresh := by
  and_intros <;> rfl

@[simp] theorem setPeer_frame (d : Dev) (n : Nat) (p : MapPeer) :
    (setPeer d n p).sys = d.sys ∧ (setPeer d n p).hst = d.hst ∧ (setPeer d n p).regs = d.regs ∧ (setPeer d n p).evts = d.evts
      ∧ (setPeer d n p).caps = d.caps ∧ (setPeer d n p).seq = d.seq ∧ (setPeer d n p).syn = d.syn ∧ (setPeer d n p).fab =
      d.fab ∧ (setPeer d n p).ctx = d.ctx ∧ (setPeer d n p).txt = d.txt ∧ (setPeer d n p).mem = d.mem ∧ (setPeer d n p).dly =
      d.dly ∧ (setPeer d n p).flt = d.flt ∧ (setPeer d n p).cvu = d.cvu ∧ (setPeer d n p).tc = d.tc ∧ (setPeer d n p).lnk =
      d.lnk ∧ (setPeer d n p).sec = d.sec ∧ (setPeer d n p).meter = d.meter ∧ (setPeer d n p).mtr = d.mtr ∧ (setPeer d n
      p).fls = d.fls ∧ (setPeer d n p).ckp = d.ckp ∧ (setPeer d n p).posted = d.posted ∧ (setPeer d n p).out = d.out ∧
      (setPeer d n p).fresh = d.fresh := by
  and_intros <;> rfl

@[simp] theorem setHo_frame (d : Dev) (e : Nat) (h : HoOut) :
    (setHo d e h).sys = d.sys ∧ (setHo d e h).hst = d.hst ∧ (setHo d e h).regs = d.regs ∧ (setHo d e h).evts = d.evts ∧ (setHo
      d e h).caps = d.caps ∧ (setHo d e h).seq = d.seq ∧ (setHo d e h).syn = d.syn ∧ (setHo d e h).fab = d.fab ∧ (setHo d e
      h).ctx = d.ctx ∧ (setHo d e h).txt = d.txt ∧ (setHo d e h).mem = d.mem ∧ (setHo d e h).dly = d.dly ∧ (setHo d e h).flt =
      d.flt ∧ (setHo d e h).cvu = d.cvu ∧ (setHo d e h).tc = d.tc ∧ (setHo d e h).lnk = d.lnk ∧ (setHo d e h).sec = d.sec ∧
      (setHo d e h).meter = d.meter ∧ (setHo d e h).mtr = d.mtr ∧ (setHo d e h).fls = d.fls ∧ (setHo d e h).ckp = d.ckp ∧
      (setHo d e h).posted = d.posted ∧ (setHo d e h).out = d.out ∧ (setHo d e h).fresh = d.fresh := by
  and_intros <;> rfl

@[simp] theorem updIn_frame (d : Dev) (a b : Nat) (f : HoIn → HoIn) :
    (updIn d a b f).sys = d.sys ∧ (updIn d a b f).hst = d.hst ∧ (updIn d a b f).regs = d.regs ∧ (updIn d a b f).evts = d.evts
      ∧ (updIn d a b f).caps = d.caps ∧ (updIn d a b f).seq = d.seq ∧ (updIn d a b f).syn = d.syn ∧ (updIn d a b f).fab =
      d.fab ∧ (updIn d a b f).ctx = d.ctx ∧ (updIn d a b f).txt = d.txt ∧ (updIn d a b f).mem = d.mem ∧ (updIn d a b f).dly =
      d.dly ∧ (updIn d a b f).flt = d.flt ∧ (updIn d a b f).cvu = d.cvu ∧ (updIn d a b f).tc = d.tc ∧ (updIn d a b f).lnk =
      d.lnk ∧ (updIn d a b f).sec = d.sec ∧ (updIn d a b f).meter = d.meter ∧ (updIn d a b f).mtr = d.mtr ∧ (updIn d a b
      f).fls = d.fls ∧ (updIn d a b f).ckp = d.ckp ∧ (updIn d a b f).posted = d.posted ∧ (updIn d a b f).out = d.out ∧ (updIn
      d a b f).fresh = d.fresh := by
  and_intros <;> rfl

@[simp] theorem setRestore_frame (d : Dev) (i : Nat) (x : Restore) :
    (setRestore d i x).sys = d.sys ∧ (setRestore d i x).hst = d.hst ∧ (setRestore d i x).regs = d.regs ∧ (setRestore d i
      x).evts = d.evts ∧ (setRestore d i x).caps = d.caps ∧ (setRestore d i x).seq = d.seq ∧ (setRestore d i x).syn = d.syn ∧
      (setRestore d i x).fab = d.fab ∧ (setRestore d i x).ctx = d.ctx ∧ (setRestore d i x).txt = d.txt ∧ (setRestore d i
      x).mem = d.mem ∧ (setRestore d i x).dly = d.dly ∧ (setRestore d i x).flt = d.flt ∧ (setRestore d i x).cvu = d.cvu ∧
      (setRestore d i x).tc = d.tc ∧ (setRestore d i x).lnk = d.lnk ∧ (setRestore d i x).sec = d.sec ∧ (setRestore d i
      x).meter = d.meter ∧ (setRestore d i x).mtr = d.mtr ∧ (setRestore d i x).fls = d.fls ∧ (setRestore d i x).map = d.map ∧
      (setRestore d i x).posted = d.posted ∧ (setRestore d i x).out = d.out ∧ (setRestore d i x).fresh = d.fresh := by
  and_intros <;> rfl

@[simp] theorem setDev_frame (d : Dev) (v : Option DevRestore) :
    (setDev d v).sys = d.sys ∧ (setDev d v).hst = d.hst ∧ (setDev d v).regs = d.regs ∧ (setDev d v).evts = d.evts ∧ (setDev d
      v).caps = d.caps ∧ (setDev d v).seq = d.seq ∧ (setDev d v).syn = d.syn ∧ (setDev d v).fab = d.fab ∧ (setDev d v).ctx =
      d.ctx ∧ (setDev d v).txt = d.txt ∧ (setDev d v).mem = d.mem ∧ (setDev d v).dly = d.dly ∧ (setDev d v).flt = d.flt ∧
      (setDev d v).cvu = d.cvu ∧ (setDev d v).tc = d.tc ∧ (setDev d v).lnk = d.lnk ∧ (setDev d v).sec = d.sec ∧ (setDev d
      v).meter = d.meter ∧ (setDev d v).mtr = d.mtr ∧ (setDev d v).fls = d.fls ∧ (setDev d v).map = d.map ∧ (setDev d
      v).posted = d.posted ∧ (setDev d v).out = d.out ∧ (setDev d v).fresh = d.fresh := by
  and_intros <;> rfl

@[simp] theorem unguard_frame (d : Dev) (o : Nat) :
    (unguard d o).hst = d.hst ∧ (unguard d o).regs = d.regs ∧ (unguard d o).evts = d.evts ∧ (unguard d o).caps = d.caps ∧
      (unguard d o).seq = d.seq ∧ (unguard d o).syn = d.syn ∧ (unguard d o).fab = d.fab ∧ (unguard d o).ctx = d.ctx ∧ (unguard
      d o).txt = d.txt ∧ (unguard d o).mem = d.mem ∧ (unguard d o).dly = d.dly ∧ (unguard d o).flt = d.flt ∧ (unguard d o).cvu
      = d.cvu ∧ (unguard d o).tc = d.tc ∧ (unguard d o).lnk = d.lnk ∧ (unguard d o).sec = d.sec ∧ (unguard d o).meter =
      d.meter ∧ (unguard d o).mtr = d.mtr ∧ (unguard d o).fls = d.fls ∧ (unguard d o).map = d.map ∧ (unguard d o).ckp = d.ckp
      ∧ (unguard d o).posted = d.posted ∧ (unguard d o).out = d.out ∧ (unguard d o).fresh = d.fresh := by
  and_intros <;> rfl

@[simp] theorem updFlight_frame (d : Dev) (r i : Nat) (f : Flight → Flight) :
    (updFlight d r i f).sys = d.sys ∧ (updFlight d r i f).hst = d.hst ∧ (updFlight d r i f).regs = d.regs ∧ (updFlight d r i
      f).evts = d.evts ∧ (updFlight d r i f).caps = d.caps ∧ (updFlight d r i f).syn = d.syn ∧ (updFlight d r i f).fab = d.fab
      ∧ (updFlight d r i f).ctx = d.ctx ∧ (updFlight d r i f).txt = d.txt ∧ (updFlight d r i f).mem = d.mem ∧ (updFlight d r i
      f).dly = d.dly ∧ (updFlight d r i f).flt = d.flt ∧ (updFlight d r i f).cvu = d.cvu ∧ (updFlight d r i f).tc = d.tc ∧
      (updFlight d r i f).lnk = d.lnk ∧ (updFlight d r i f).sec = d.sec ∧ (updFlight d r i f).meter = d.meter ∧ (updFlight d r
      i f).mtr = d.mtr ∧ (updFlight d r i f).fls = d.fls ∧ (updFlight d r i f).map = d.map ∧ (updFlight d r i f).ckp = d.ckp ∧
      (updFlight d r i f).posted = d.posted ∧ (updFlight d r i f).out = d.out ∧ (updFlight d r i f).fresh = d.fresh := by
  and_intros <;> rfl

@[simp] theorem dispatched_frame (d : Dev) (r i : Nat) :
    (dispatched d r i).sys = d.sys ∧ (dispatched d r i).hst = d.hst ∧ (dispatched d r i).regs = d.regs ∧ (dispatched d r
      i).evts = d.evts ∧ (dispatched d r i).caps = d.caps ∧ (dispatched d r i).syn = d.syn ∧ (dispatched d r i).fab = d.fab ∧
      (dispatched d r i).ctx = d.ctx ∧ (dispatched d r i).txt = d.txt ∧ (dispatched d r i).mem = d.mem ∧ (dispatched d r
      i).dly = d.dly ∧ (dispatched d r i).flt = d.flt ∧ (dispatched d r i).cvu = d.cvu ∧ (dispatched d r i).tc = d.tc ∧
      (dispatched d r i).lnk = d.lnk ∧ (dispatched d r i).sec = d.sec ∧ (dispatched d r i).meter = d.meter ∧ (dispatched d r
      i).mtr = d.mtr ∧ (dispatched d r i).fls = d.fls ∧ (dispatched d r i).map = d.map ∧ (dispatched d r i).ckp = d.ckp ∧
      (dispatched d r i).posted = d.posted ∧ (dispatched d r i).out = d.out ∧ (dispatched d r i).fresh = d.fresh := by
  and_intros <;> rfl

@[simp] theorem markDone_frame (d : Dev) (r i a b : Nat) :
    (markDone d r i a b).sys = d.sys ∧ (markDone d r i a b).hst = d.hst ∧ (markDone d r i a b).regs = d.regs ∧ (markDone d r i
      a b).evts = d.evts ∧ (markDone d r i a b).caps = d.caps ∧ (markDone d r i a b).syn = d.syn ∧ (markDone d r i a b).fab =
      d.fab ∧ (markDone d r i a b).ctx = d.ctx ∧ (markDone d r i a b).txt = d.txt ∧ (markDone d r i a b).mem = d.mem ∧
      (markDone d r i a b).dly = d.dly ∧ (markDone d r i a b).flt = d.flt ∧ (markDone d r i a b).cvu = d.cvu ∧ (markDone d r i
      a b).tc = d.tc ∧ (markDone d r i a b).lnk = d.lnk ∧ (markDone d r i a b).sec = d.sec ∧ (markDone d r i a b).meter =
      d.meter ∧ (markDone d r i a b).mtr = d.mtr ∧ (markDone d r i a b).fls = d.fls ∧ (markDone d r i a b).map = d.map ∧
      (markDone d r i a b).ckp = d.ckp ∧ (markDone d r i a b).posted = d.posted ∧ (markDone d r i a b).out = d.out ∧ (markDone
      d r i a b).fresh = d.fresh := by
  and_intros <;> rfl

@[simp] theorem freshBelow_frame (d : Dev) (n : Nat) :
    (freshBelow d n).2.sys = d.sys ∧ (freshBelow d n).2.hst = d.hst ∧ (freshBelow d n).2.regs = d.regs ∧ (freshBelow d
      n).2.evts = d.evts ∧ (freshBelow d n).2.caps = d.caps ∧ (freshBelow d n).2.seq = d.seq ∧ (freshBelow d n).2.syn = d.syn
      ∧ (freshBelow d n).2.fab = d.fab ∧ (freshBelow d n).2.ctx = d.ctx ∧ (freshBelow d n).2.txt = d.txt ∧ (freshBelow d
      n).2.mem = d.mem ∧ (freshBelow d n).2.dly = d.dly ∧ (freshBelow d n).2.flt = d.flt ∧ (freshBelow d n).2.cvu = d.cvu ∧
      (freshBelow d n).2.tc = d.tc ∧ (freshBelow d n).2.lnk = d.lnk ∧ (freshBelow d n).2.sec = d.sec ∧ (freshBelow d
      n).2.meter = d.meter ∧ (freshBelow d n).2.mtr = d.mtr ∧ (freshBelow d n).2.fls = d.fls ∧ (freshBelow d n).2.map = d.map
      ∧ (freshBelow d n).2.ckp = d.ckp ∧ (freshBelow d n).2.posted = d.posted ∧ (freshBelow d n).2.out = d.out := by
  and_intros <;> rfl

/-! ### The device: what an update sets -/

@[simp] theorem setSys_sys (d : Dev) (y : Sys) : (setSys d y).sys = y := rfl
@[simp] theorem setMeter_meter (d : Dev) (m : Meter) : (setMeter d m).meter = m := rfl
@[simp] theorem setMtr_mtr (d : Dev) (m : Mtr) : (setMtr d m).mtr = m := rfl
@[simp] theorem setTc_tc (d : Dev) (t : Tc) : (setTc d t).tc = t := rfl
@[simp] theorem unguard_guards (d : Dev) (o : Nat) :
    (unguard d o).sys = { d.sys with guards := del d.sys.guards o } := rfl
@[simp] theorem send_out (d : Dev) (m : Msg) : (send d m).out = d.out ++ [m] := rfl

theorem sqOf_setSq (d : Dev) (n m : Nat) (q : Sq) : sqOf (setSq d n q) m = if m = n then q else sqOf d m := mget_mset ..
theorem cqOf_setCq (d : Dev) (n m : Nat) (q : Cq) : cqOf (setCq d n q) m = if m = n then q else cqOf d m := mget_mset ..
theorem strOf_setStr (d : Dev) (n m : Nat) (q : StrRing) : strOf (setStr d n q) m = if m = n then q else strOf d m := mget_mset ..
theorem cvuOf_setCvu (d : Dev) (n m : Nat) (c : CvuUnit) : cvuOf (setCvu d n c) m = if m = n then c else cvuOf d m := mget_mset ..
theorem recOf_setRec (d : Dev) (n m : Nat) (r : Rec) : recOf (setRec d n r) m = if m = n then r else recOf d m := mget_mset ..
theorem slotOf_setSlot (d : Dev) (n m : Nat) (x : Slot) : slotOf (setSlot d n x) m = if m = n then x else slotOf d m := mget_mset ..
theorem rcpOf_setRcp (d : Dev) (n m : Nat) (r : RSlot) : rcpOf (setRcp d n r) m = if m = n then r else rcpOf d m := mget_mset ..
theorem sliceOf_setSlice (d : Dev) (n m : Nat) (x : Slice) : sliceOf (setSlice d n x) m = if m = n then x else sliceOf d m :=
  mget_mset ..
theorem tblOf_setTbl (d : Dev) (n m : Nat) (t : Tbl) : tblOf (setTbl d n t) m = if m = n then t else tblOf d m := mget_mset ..
theorem colOf_setCol (d : Dev) (n m : Nat) (t : Col) : colOf (setCol d n t) m = if m = n then t else colOf d m := mget_mset ..
theorem idxOf_setIdx (d : Dev) (n m : Nat) (i : Idx) : idxOf (setIdx d n i) m = if m = n then i else idxOf d m := mget_mset ..
theorem portOf_setPort (d : Dev) (n m : Nat) (q : Port) : portOf (setPort d n q) m = if m = n then q else portOf d m := mget_mset ..
theorem peerOf_setPeer (d : Dev) (n m : Nat) (q : MapPeer) : peerOf (setPeer d n q) m = if m = n then q else peerOf d m := mget_mset ..
theorem hoOf_setHo (d : Dev) (n m : Nat) (h : HoOut) : hoOf (setHo d n h) m = if m = n then h else hoOf d m := mget_mset ..
theorem recOf_updRec (d : Dev) (n m : Nat) (f : Rec → Rec) : recOf (updRec d n f) m = if m = n then f (recOf d n) else recOf d m :=
  mget_mset ..
theorem slotOf_updSlot (d : Dev) (n m : Nat) (f : Slot → Slot) :
    slotOf (updSlot d n f) m = if m = n then f (slotOf d n) else slotOf d m := mget_mset ..
@[simp] theorem look_setLoan (d : Dev) (n m : Nat) (l : Loan) :
    look (setLoan d n l).lnk.loans m = if m = n then some l else look d.lnk.loans m := look_put ..

@[simp] theorem sqOf_setSq_same (d : Dev) (n : Nat) (q : Sq) : sqOf (setSq d n q) n = q := by simp [sqOf_setSq]
@[simp] theorem cqOf_setCq_same (d : Dev) (n : Nat) (q : Cq) : cqOf (setCq d n q) n = q := by simp [cqOf_setCq]
@[simp] theorem strOf_setStr_same (d : Dev) (n : Nat) (q : StrRing) : strOf (setStr d n q) n = q := by simp [strOf_setStr]
@[simp] theorem cvuOf_setCvu_same (d : Dev) (n : Nat) (c : CvuUnit) : cvuOf (setCvu d n c) n = c := by simp [cvuOf_setCvu]
@[simp] theorem recOf_setRec_same (d : Dev) (n : Nat) (r : Rec) : recOf (setRec d n r) n = r := by simp [recOf_setRec]
@[simp] theorem slotOf_setSlot_same (d : Dev) (n : Nat) (x : Slot) : slotOf (setSlot d n x) n = x := by simp [slotOf_setSlot]
@[simp] theorem recOf_updRec_same (d : Dev) (n : Nat) (f : Rec → Rec) : recOf (updRec d n f) n = f (recOf d n) := by
  simp [recOf_updRec]
@[simp] theorem portOf_setPort_same (d : Dev) (n : Nat) (q : Port) : portOf (setPort d n q) n = q := by simp [portOf_setPort]

/-- Sessions are not touched by what is done to rings, and rings not by what is done to sessions. -/
@[simp] theorem rings_setRec (d : Dev) (i n : Nat) (r : Rec) :
    sqOf (setRec d i r) n = sqOf d n ∧ cqOf (setRec d i r) n = cqOf d n ∧ strOf (setRec d i r) n = strOf d n
      ∧ slotOf (setRec d i r) n = slotOf d n := by
  and_intros <;> rfl
@[simp] theorem recs_setSlot (d : Dev) (i n : Nat) (x : Slot) : recOf (setSlot d i x) n = recOf d n := rfl
@[simp] theorem seq_setSq (d : Dev) (i n : Nat) (q : Sq) :
    cqOf (setSq d i q) n = cqOf d n ∧ strOf (setSq d i q) n = strOf d n ∧ recOf (setSq d i q) n = recOf d n := by
  and_intros <;> rfl
@[simp] theorem seq_setCq (d : Dev) (i n : Nat) (q : Cq) :
    sqOf (setCq d i q) n = sqOf d n ∧ strOf (setCq d i q) n = strOf d n ∧ recOf (setCq d i q) n = recOf d n := by
  and_intros <;> rfl
@[simp] theorem seq_setStr (d : Dev) (i n : Nat) (q : StrRing) :
    sqOf (setStr d i q) n = sqOf d n ∧ cqOf (setStr d i q) n = cqOf d n ∧ recOf (setStr d i q) n = recOf d n := by
  and_intros <;> rfl

/-! ### Register fields -/

theorem fget_congr {d e : Dev} (h : d.regs = e.regs) (f : Fd) (b : Nat) : fget d f b = fget e f b := by simp [fget, h]
theorem fbit_congr {d e : Dev} (h : d.regs = e.regs) (f : Fd) (b : Nat) : fbit d f b = fbit e f b := by simp [fbit, fget, h]

/-! ### Events (00 R9) -/

/-- All that recording an event changes: the event register and, for `GLB_EVT`, an interrupt. -/
@[simp] theorem raise_frame (d : Dev) (f : Fd) :
    (raise d f).sys = d.sys ∧ (raise d f).hst = d.hst ∧ (raise d f).regs = d.regs ∧ (raise d f).caps = d.caps ∧ (raise d
      f).seq = d.seq ∧ (raise d f).syn = d.syn ∧ (raise d f).fab = d.fab ∧ (raise d f).ctx = d.ctx ∧ (raise d f).txt = d.txt ∧
      (raise d f).mem = d.mem ∧ (raise d f).dly = d.dly ∧ (raise d f).flt = d.flt ∧ (raise d f).cvu = d.cvu ∧ (raise d f).tc =
      d.tc ∧ (raise d f).lnk = d.lnk ∧ (raise d f).sec = d.sec ∧ (raise d f).meter = d.meter ∧ (raise d f).mtr = d.mtr ∧
      (raise d f).fls = d.fls ∧ (raise d f).map = d.map ∧ (raise d f).ckp = d.ckp ∧ (raise d f).posted = d.posted ∧ (raise d
      f).fresh = d.fresh := by
  and_intros <;> (dsimp only [raise]; split <;> rfl)

theorem raise_evts (d : Dev) (f : Fd) : (raise d f).evts = (evRecord d f).evts := by dsimp only [raise]; split <;> rfl

/-- A recorded event is set. -/
@[simp] theorem evSet_evRecord (d : Dev) (f : Fd) : evSet (evRecord d f) f = true := by simp [evSet, evRecord]
@[simp] theorem evSet_raise (d : Dev) (f : Fd) : evSet (raise d f) f = true := by
  have := evSet_evRecord d f
  simpa [evSet, raise_evts] using this

/-- A register whose write was ignored changes only its event and its capture. -/
@[simp] theorem capture_frame (d : Dev) (f : Fd) (c a : Nat) :
    (capture d f c a).sys = d.sys ∧ (capture d f c a).hst = d.hst ∧ (capture d f c a).regs = d.regs ∧ (capture d f c a).seq =
      d.seq ∧ (capture d f c a).syn = d.syn ∧ (capture d f c a).fab = d.fab ∧ (capture d f c a).ctx = d.ctx ∧ (capture d f c
      a).txt = d.txt ∧ (capture d f c a).mem = d.mem ∧ (capture d f c a).dly = d.dly ∧ (capture d f c a).flt = d.flt ∧
      (capture d f c a).cvu = d.cvu ∧ (capture d f c a).tc = d.tc ∧ (capture d f c a).lnk = d.lnk ∧ (capture d f c a).sec =
      d.sec ∧ (capture d f c a).meter = d.meter ∧ (capture d f c a).mtr = d.mtr ∧ (capture d f c a).fls = d.fls ∧ (capture d f
      c a).map = d.map ∧ (capture d f c a).ckp = d.ckp ∧ (capture d f c a).posted = d.posted ∧ (capture d f c a).fresh =
      d.fresh := by
  and_intros <;> (dsimp only [capture]; split <;> simp)

@[simp] theorem cfgIgnored_frame (d : Dev) (a : Nat) :
    (cfgIgnored d a).sys = d.sys ∧ (cfgIgnored d a).hst = d.hst ∧ (cfgIgnored d a).regs = d.regs ∧ (cfgIgnored d a).seq =
      d.seq ∧ (cfgIgnored d a).syn = d.syn ∧ (cfgIgnored d a).fab = d.fab ∧ (cfgIgnored d a).ctx = d.ctx ∧ (cfgIgnored d
      a).txt = d.txt ∧ (cfgIgnored d a).mem = d.mem ∧ (cfgIgnored d a).dly = d.dly ∧ (cfgIgnored d a).flt = d.flt ∧
      (cfgIgnored d a).cvu = d.cvu ∧ (cfgIgnored d a).tc = d.tc ∧ (cfgIgnored d a).lnk = d.lnk ∧ (cfgIgnored d a).sec = d.sec
      ∧ (cfgIgnored d a).meter = d.meter ∧ (cfgIgnored d a).mtr = d.mtr ∧ (cfgIgnored d a).fls = d.fls ∧ (cfgIgnored d a).map
      = d.map ∧ (cfgIgnored d a).ckp = d.ckp ∧ (cfgIgnored d a).posted = d.posted ∧ (cfgIgnored d a).fresh = d.fresh :=
  capture_frame d _ _ a

@[simp] theorem postedOverrun_frame (d : Dev) (a : Nat) :
    (postedOverrun d a).sys = d.sys ∧ (postedOverrun d a).hst = d.hst ∧ (postedOverrun d a).regs = d.regs ∧ (postedOverrun d
      a).seq = d.seq ∧ (postedOverrun d a).syn = d.syn ∧ (postedOverrun d a).fab = d.fab ∧ (postedOverrun d a).ctx = d.ctx ∧
      (postedOverrun d a).txt = d.txt ∧ (postedOverrun d a).mem = d.mem ∧ (postedOverrun d a).dly = d.dly ∧ (postedOverrun d
      a).flt = d.flt ∧ (postedOverrun d a).cvu = d.cvu ∧ (postedOverrun d a).tc = d.tc ∧ (postedOverrun d a).lnk = d.lnk ∧
      (postedOverrun d a).sec = d.sec ∧ (postedOverrun d a).meter = d.meter ∧ (postedOverrun d a).mtr = d.mtr ∧ (postedOverrun
      d a).fls = d.fls ∧ (postedOverrun d a).map = d.map ∧ (postedOverrun d a).ckp = d.ckp ∧ (postedOverrun d a).posted =
      d.posted ∧ (postedOverrun d a).fresh = d.fresh :=
  capture_frame d _ _ a

@[simp] theorem accessInvalid_frame (d : Dev) (a : Nat) :
    (accessInvalid d a).sys = d.sys ∧ (accessInvalid d a).hst = d.hst ∧ (accessInvalid d a).regs = d.regs ∧ (accessInvalid d
      a).seq = d.seq ∧ (accessInvalid d a).syn = d.syn ∧ (accessInvalid d a).fab = d.fab ∧ (accessInvalid d a).ctx = d.ctx ∧
      (accessInvalid d a).txt = d.txt ∧ (accessInvalid d a).mem = d.mem ∧ (accessInvalid d a).dly = d.dly ∧ (accessInvalid d
      a).flt = d.flt ∧ (accessInvalid d a).cvu = d.cvu ∧ (accessInvalid d a).tc = d.tc ∧ (accessInvalid d a).lnk = d.lnk ∧
      (accessInvalid d a).sec = d.sec ∧ (accessInvalid d a).meter = d.meter ∧ (accessInvalid d a).mtr = d.mtr ∧ (accessInvalid
      d a).fls = d.fls ∧ (accessInvalid d a).map = d.map ∧ (accessInvalid d a).ckp = d.ckp ∧ (accessInvalid d a).posted =
      d.posted ∧ (accessInvalid d a).fresh = d.fresh :=
  capture_frame d _ _ a

@[simp] theorem guardFail_frame (d : Dev) (a : Nat) :
    (guardFail d a).sys = d.sys ∧ (guardFail d a).hst = d.hst ∧ (guardFail d a).regs = d.regs ∧ (guardFail d a).seq = d.seq ∧
      (guardFail d a).syn = d.syn ∧ (guardFail d a).fab = d.fab ∧ (guardFail d a).ctx = d.ctx ∧ (guardFail d a).txt = d.txt ∧
      (guardFail d a).mem = d.mem ∧ (guardFail d a).dly = d.dly ∧ (guardFail d a).flt = d.flt ∧ (guardFail d a).cvu = d.cvu ∧
      (guardFail d a).tc = d.tc ∧ (guardFail d a).lnk = d.lnk ∧ (guardFail d a).sec = d.sec ∧ (guardFail d a).meter = d.meter
      ∧ (guardFail d a).mtr = d.mtr ∧ (guardFail d a).fls = d.fls ∧ (guardFail d a).map = d.map ∧ (guardFail d a).ckp = d.ckp
      ∧ (guardFail d a).posted = d.posted ∧ (guardFail d a).fresh = d.fresh :=
  capture_frame d _ _ a

/-! ### Host memory -/

/-- A write to the host posts its bytes, and none in state ERROR. -/
@[simp] theorem hostWrite_frame (d : Dev) (r a : Nat) (b : List Byte) :
    (hostWrite d r a b).sys = d.sys ∧ (hostWrite d r a b).hst = d.hst ∧ (hostWrite d r a b).regs = d.regs ∧ (hostWrite d r a b).evts =
      d.evts ∧ (hostWrite d r a b).caps = d.caps ∧ (hostWrite d r a b).seq = d.seq ∧ (hostWrite d r a b).syn = d.syn ∧ (hostWrite d r a b).fab = d.fab ∧ (hostWrite d r a b).ctx = d.ctx ∧ (hostWrite d r a b).txt = d.txt ∧ (hostWrite d r a b).mem = d.mem ∧
      (hostWrite d r a b).dly = d.dly ∧ (hostWrite d r a b).flt = d.flt ∧ (hostWrite d r a b).cvu = d.cvu ∧ (hostWrite d r a b).tc =
      d.tc ∧ (hostWrite d r a b).lnk = d.lnk ∧ (hostWrite d r a b).sec = d.sec ∧ (hostWrite d r a b).meter = d.meter ∧ (hostWrite d r a b).mtr = d.mtr ∧ (hostWrite d r a b).fls = d.fls ∧ (hostWrite d r a b).map = d.map ∧ (hostWrite d r a b).ckp = d.ckp ∧
      (hostWrite d r a b).out = d.out ∧ (hostWrite d r a b).fresh = d.fresh := by
  unfold hostWrite; and_intros <;> (split <;> rfl)

theorem hostWrite_posted (d : Dev) (r a : Nat) (b : List Byte) (h : d.hst.tdisp ≠ .error) :
    (hostWrite d r a b).posted = d.posted ++ [⟨ringLink d r, a, b⟩] := by simp [hostWrite, h]

/-! ### Commands and steps -/

/-- Every command whose meaning is `lift` answers the state it settles. -/
@[simp] theorem lift_next (f : Dev → Dev) (s : State) : lift f s = .next (s.settled (f s.dev)) := rfl

/-- An idle block. -/
theorem step_idle (s : State) (h : s.pending = []) : step s = .next (s.settled (tick s.dev)) := by simp [step, h]

end Sys2Proof.Machine
end

