-- ==== Sys2Proof/Laws/Ops.lean ====
section
/-!
SUPPORT. Sys2Proof/Laws/Ops.lean: for each shared operation, all it can change. `OnlyLinks d e` says that `e` is `d` but for links,
events and messages sent; `OnlyReports` adds registers, rings, faults and posted writes; `OnlyRings` adds the sync objects.
-/

namespace Sys2Proof.Machine

/-! ### What may differ -/

/-- Only links, events and messages differ. -/
def OnlyLinks (d e : Dev) : Prop := e = { d with lnk := e.lnk, evts := e.evts, out := e.out }

/-- Only counters, rings and accounts, faults, posted writes and what `OnlyLinks` lets differ. -/
def OnlyReports (d e : Dev) : Prop :=
  e = { d with regs := e.regs, seq := e.seq, flt := e.flt, posted := e.posted, lnk := e.lnk, evts := e.evts, out := e.out }

/-- The sync objects, too. -/
def OnlyRings (d e : Dev) : Prop :=
  e = { d with
    syn := e.syn, regs := e.regs, seq := e.seq, flt := e.flt, posted := e.posted, lnk := e.lnk, evts := e.evts, out := e.out }

theorem OnlyLinks.rfl' (d : Dev) : OnlyLinks d d := rfl
theorem OnlyReports.rfl' (d : Dev) : OnlyReports d d := rfl
theorem OnlyRings.rfl' (d : Dev) : OnlyRings d d := rfl

theorem OnlyLinks.trans {a b c : Dev} (h : OnlyLinks a b) (k : OnlyLinks b c) : OnlyLinks a c := by
  unfold OnlyLinks at *; rw [k, h]
theorem OnlyReports.trans {a b c : Dev} (h : OnlyReports a b) (k : OnlyReports b c) : OnlyReports a c := by
  unfold OnlyReports at *; rw [k, h]
theorem OnlyRings.trans {a b c : Dev} (h : OnlyRings a b) (k : OnlyRings b c) : OnlyRings a c := by
  unfold OnlyRings at *; rw [k, h]

theorem OnlyLinks.reports {a b : Dev} (h : OnlyLinks a b) : OnlyReports a b := by
  unfold OnlyLinks OnlyReports at *; rw [h]
theorem OnlyReports.rings {a b : Dev} (h : OnlyReports a b) : OnlyRings a b := by
  unfold OnlyReports OnlyRings at *; rw [h]

/-- After a change of links. -/
theorem OnlyLinks.withLnk (d : Dev) (l : Lnk) {e : Dev} (h : OnlyLinks { d with lnk := l } e) : OnlyLinks d e := by
  unfold OnlyLinks at *; rw [h]
/-- After a change of faults. -/
theorem OnlyReports.withFlt (d : Dev) (x : Flt) {e : Dev} (h : OnlyReports { d with flt := x } e) : OnlyReports d e := by
  unfold OnlyReports at *; rw [h]

theorem onlyLinks_foldl {α : Type} (f : Dev → α → Dev) (hf : ∀ d a, OnlyLinks d (f d a)) (l : List α) :
    ∀ d, OnlyLinks d (l.foldl f d) := by
  induction l with
  | nil => intro d; rfl
  | cons a t ih => intro d; exact (hf d a).trans (ih _)

theorem onlyReports_ite {d a b : Dev} {p : Prop} [Decidable p] (h : OnlyReports d a) (k : OnlyReports d b) :
    OnlyReports d (if p then a else b) := by
  split
  · exact h
  · exact k

theorem onlyReports_foldl {α : Type} (f : Dev → α → Dev) (hf : ∀ d a, OnlyReports d (f d a)) (l : List α) :
    ∀ d, OnlyReports d (l.foldl f d) := by
  induction l with
  | nil => intro d; rfl
  | cons a t ih => intro d; exact (hf d a).trans (ih _)

/-! ### What is the same, field by field -/

theorem OnlyLinks.keeps {d e : Dev} (h : OnlyLinks d e) :
    e.sys = d.sys ∧ e.hst = d.hst ∧ e.regs = d.regs ∧ e.caps = d.caps ∧ e.seq = d.seq ∧ e.syn = d.syn ∧ e.fab = d.fab ∧ e.ctx
      = d.ctx ∧ e.txt = d.txt ∧ e.mem = d.mem ∧ e.dly = d.dly ∧ e.flt = d.flt ∧ e.cvu = d.cvu ∧ e.tc = d.tc ∧ e.sec = d.sec ∧
      e.meter = d.meter ∧ e.mtr = d.mtr ∧ e.fls = d.fls ∧ e.map = d.map ∧ e.ckp = d.ckp ∧ e.posted = d.posted ∧ e.fresh =
      d.fresh := by
  unfold OnlyLinks at h; rw [h]; and_intros <;> rfl

theorem OnlyReports.keeps {d e : Dev} (h : OnlyReports d e) :
    e.sys = d.sys ∧ e.hst = d.hst ∧ e.caps = d.caps ∧ e.syn = d.syn ∧ e.fab = d.fab ∧ e.ctx = d.ctx ∧ e.txt = d.txt ∧ e.mem =
      d.mem ∧ e.dly = d.dly ∧ e.cvu = d.cvu ∧ e.tc = d.tc ∧ e.sec = d.sec ∧ e.meter = d.meter ∧ e.mtr = d.mtr ∧ e.fls = d.fls
      ∧ e.map = d.map ∧ e.ckp = d.ckp ∧ e.fresh = d.fresh := by
  unfold OnlyReports at h; rw [h]; and_intros <;> rfl

theorem OnlyRings.keeps {d e : Dev} (h : OnlyRings d e) :
    e.sys = d.sys ∧ e.hst = d.hst ∧ e.caps = d.caps ∧ e.fab = d.fab ∧ e.ctx = d.ctx ∧ e.txt = d.txt ∧ e.mem = d.mem ∧ e.dly =
      d.dly ∧ e.cvu = d.cvu ∧ e.tc = d.tc ∧ e.sec = d.sec ∧ e.meter = d.meter ∧ e.mtr = d.mtr ∧ e.fls = d.fls ∧ e.map = d.map
      ∧ e.ckp = d.ckp ∧ e.fresh = d.fresh := by
  unfold OnlyRings at h; rw [h]; and_intros <;> rfl

/-! ### Links (12) -/

theorem onlyLinks_raise (d : Dev) (f : Fd) : OnlyLinks d (raise d f) := by
  dsimp only [raise]; split <;> rfl
theorem onlyLinks_send (d : Dev) (m : Msg) : OnlyLinks d (send d m) := rfl
theorem onlyLinks_setPort (d : Dev) (p : Nat) (q : Port) : OnlyLinks d (setPort d p q) := rfl

theorem onlyLinks_startFrame (d : Dev) (p c : Nat) : OnlyLinks d (startFrame d p c) := by
  dsimp only [startFrame]; split
  · rfl
  · exact (onlyLinks_setPort d p _).trans (onlyLinks_foldl _ (fun d _ => onlyLinks_send d _) _ _)

theorem onlyLinks_egressBy (n : Nat) : ∀ (d : Dev) (p : Nat), OnlyLinks d (egressBy n d p) := by
  induction n with
  | zero => intro d p; rfl
  | succ n ih =>
    intro d p; dsimp only [egressBy]; split
    · rfl
    · split
      · rfl
      · exact (onlyLinks_startFrame d p _).trans (ih _ p)

theorem onlyLinks_egress (d : Dev) (p : Nat) : OnlyLinks d (egress d p) := onlyLinks_egressBy _ d p

theorem onlyLinks_linkQueueOn (d : Dev) (f : GFrame) (p : Nat) : OnlyLinks d (linkQueueOn d f p) :=
  (onlyLinks_setPort d _ _).trans (onlyLinks_egress _ _)

theorem onlyLinks_linkQueue (d : Dev) (f : GFrame) : OnlyLinks d (linkQueue d f) := by
  dsimp only [linkQueue]; split
  · exact onlyLinks_raise d _
  · exact onlyLinks_linkQueueOn d f _

theorem onlyLinks_stampFrame (d : Dev) (f : GFrame) (y : Bool) : OnlyLinks d (stampFrame d f y).2 := rfl

theorem onlyLinks_joinClass (d : Dev) (f : GFrame) (y : Bool) : OnlyLinks d (joinClass d f y) :=
  (onlyLinks_stampFrame d f y).trans (onlyLinks_linkQueue _ _)

theorem onlyLinks_police {d e : Dev} {c k n : Nat} {y : Bool} (h : police d c k n = some (y, e)) : OnlyLinks d e := by
  dsimp only [police] at h
  split at h
  · cases h; rfl
  · split at h
    · cases h
    · split at h <;> cases h <;> rfl

theorem onlyLinks_passHead (d : Dev) (c k : Nat) : OnlyLinks d (passHead d c k) := by
  dsimp only [passHead]; split
  · rfl
  · split
    · rfl
    · rename_i e h
      exact (onlyLinks_police h).trans (OnlyLinks.withLnk e _ (onlyLinks_joinClass _ _ _))

theorem onlyLinks_policePassBy (n : Nat) : ∀ (d : Dev) (k : Nat), OnlyLinks d (policePassBy n d k) := by
  induction n with
  | zero => intro d k; rfl
  | succ n ih =>
    intro d k; dsimp only [policePassBy]; split
    · exact (onlyLinks_passHead d _ k).trans (ih _ k)
    · split
      · exact (onlyLinks_passHead d _ k).trans (ih _ k)
      · exact onlyLinks_foldl _ (fun d c => onlyLinks_passHead d c k) _ d

theorem onlyLinks_policePass (d : Dev) (k : Nat) : OnlyLinks d (policePass d k) := onlyLinks_policePassBy _ d k

/-- A frame that is sent. -/
theorem onlyLinks_sendFrame (d : Dev) (c p dst : Nat) (cl : Option Nat) (b : List Byte) :
    OnlyLinks d (sendFrame d c p dst cl b) := by
  dsimp only [sendFrame]; split
  · rfl
  · split
    · split
      · split
        · exact (onlyLinks_send d _).trans (OnlyLinks.withLnk _ _ (onlyLinks_passHead _ _ _))
        · rfl
      · exact (onlyLinks_send d _).trans (onlyLinks_joinClass _ _ _)
    · exact (onlyLinks_send d _).trans (onlyLinks_joinClass _ _ _)

theorem onlyLinks_mapSend (d : Dev) (dst : Nat) (b : List Byte) : OnlyLinks d (mapSend d dst b) := by
  unfold mapSend; split
  · rfl
  · exact onlyLinks_sendFrame _ _ _ _ _ _
theorem onlyLinks_loanSend (d : Dev) (dst : Nat) (b : List Byte) : OnlyLinks d (loanSend d dst b) := onlyLinks_sendFrame ..

@[simp] theorem sendFrame_frame (d : Dev) (c p dst : Nat) (cl : Option Nat) (b : List Byte) :
    (sendFrame d c p dst cl b).sys = d.sys ∧ (sendFrame d c p dst cl b).hst = d.hst ∧ (sendFrame d c p dst cl b).regs = d.regs
      ∧ (sendFrame d c p dst cl b).caps = d.caps ∧ (sendFrame d c p dst cl b).seq = d.seq ∧ (sendFrame d c p dst cl b).syn =
      d.syn ∧ (sendFrame d c p dst cl b).fab = d.fab ∧ (sendFrame d c p dst cl b).ctx = d.ctx ∧ (sendFrame d c p dst cl b).txt
      = d.txt ∧ (sendFrame d c p dst cl b).mem = d.mem ∧ (sendFrame d c p dst cl b).dly = d.dly ∧ (sendFrame d c p dst cl
      b).flt = d.flt ∧ (sendFrame d c p dst cl b).cvu = d.cvu ∧ (sendFrame d c p dst cl b).tc = d.tc ∧ (sendFrame d c p dst cl
      b).sec = d.sec ∧ (sendFrame d c p dst cl b).meter = d.meter ∧ (sendFrame d c p dst cl b).mtr = d.mtr ∧ (sendFrame d c p
      dst cl b).fls = d.fls ∧ (sendFrame d c p dst cl b).map = d.map ∧ (sendFrame d c p dst cl b).ckp = d.ckp ∧ (sendFrame d c
      p dst cl b).posted = d.posted ∧ (sendFrame d c p dst cl b).fresh = d.fresh :=
  (onlyLinks_sendFrame d c p dst cl b).keeps

@[simp] theorem mapSend_frame (d : Dev) (dst : Nat) (b : List Byte) :
    (mapSend d dst b).sys = d.sys ∧ (mapSend d dst b).hst = d.hst ∧ (mapSend d dst b).regs = d.regs ∧ (mapSend d dst b).caps =
      d.caps ∧ (mapSend d dst b).seq = d.seq ∧ (mapSend d dst b).syn = d.syn ∧ (mapSend d dst b).fab = d.fab ∧ (mapSend d dst
      b).ctx = d.ctx ∧ (mapSend d dst b).txt = d.txt ∧ (mapSend d dst b).mem = d.mem ∧ (mapSend d dst b).dly = d.dly ∧
      (mapSend d dst b).flt = d.flt ∧ (mapSend d dst b).cvu = d.cvu ∧ (mapSend d dst b).tc = d.tc ∧ (mapSend d dst b).sec =
      d.sec ∧ (mapSend d dst b).meter = d.meter ∧ (mapSend d dst b).mtr = d.mtr ∧ (mapSend d dst b).fls = d.fls ∧ (mapSend d
      dst b).map = d.map ∧ (mapSend d dst b).ckp = d.ckp ∧ (mapSend d dst b).posted = d.posted ∧ (mapSend d dst b).fresh =
      d.fresh :=
  (onlyLinks_mapSend d dst b).keeps

@[simp] theorem loanSend_frame (d : Dev) (dst : Nat) (b : List Byte) :
    (loanSend d dst b).sys = d.sys ∧ (loanSend d dst b).hst = d.hst ∧ (loanSend d dst b).regs = d.regs ∧ (loanSend d dst
      b).caps = d.caps ∧ (loanSend d dst b).seq = d.seq ∧ (loanSend d dst b).syn = d.syn ∧ (loanSend d dst b).fab = d.fab ∧
      (loanSend d dst b).ctx = d.ctx ∧ (loanSend d dst b).txt = d.txt ∧ (loanSend d dst b).mem = d.mem ∧ (loanSend d dst
      b).dly = d.dly ∧ (loanSend d dst b).flt = d.flt ∧ (loanSend d dst b).cvu = d.cvu ∧ (loanSend d dst b).tc = d.tc ∧
      (loanSend d dst b).sec = d.sec ∧ (loanSend d dst b).meter = d.meter ∧ (loanSend d dst b).mtr = d.mtr ∧ (loanSend d dst
      b).fls = d.fls ∧ (loanSend d dst b).map = d.map ∧ (loanSend d dst b).ckp = d.ckp ∧ (loanSend d dst b).posted = d.posted
      ∧ (loanSend d dst b).fresh = d.fresh :=
  (onlyLinks_loanSend d dst b).keeps

/-! ### Reports (18) -/

theorem onlyReports_fbump (d : Dev) (f : Fd) (n b : Nat) : OnlyReports d (fbump d f n b) := rfl
theorem onlyReports_hostWrite (d : Dev) (r a : Nat) (b : List Byte) : OnlyReports d (hostWrite d r a b) := by
  unfold hostWrite; split <;> rfl
theorem onlyReports_raise (d : Dev) (f : Fd) : OnlyReports d (raise d f) := (onlyLinks_raise d f).reports

theorem onlyReports_fltWrite (d : Dev) (g : Nat) (r : Report) (b : Bool) : OnlyReports d (fltWrite d g r b).1 := by
  dsimp only [fltWrite]
  split
  · split
    · dsimp only
      exact OnlyReports.withFlt d _ (onlyReports_raise _ _)
    · dsimp only
      split
      · exact OnlyReports.trans (onlyReports_hostWrite d _ _ _) rfl
      · exact OnlyReports.trans (onlyReports_hostWrite d _ _ _) (OnlyReports.withFlt _ _ (onlyReports_raise _ _))
  · rfl

theorem onlyReports_fltOperator (d : Dev) (r : Report) (b : Bool) : OnlyReports d (fltOperator d r b) := by
  dsimp only [fltOperator]
  refine OnlyReports.trans (onlyReports_fltWrite d 256 r b) ?_
  split
  · exact (onlyLinks_sendFrame _ _ _ _ _ _).reports
  · rfl

theorem onlyReports_fltCloseOp (d : Dev) (k : Nat) : OnlyReports d (fltCloseOp d k) := by
  dsimp only [fltCloseOp]; split
  · rfl
  · split
    · exact OnlyReports.withFlt d _ (onlyReports_fltOperator _ _ _)
    · rfl

theorem onlyReports_fltCloseClient (d : Dev) (p : Nat × FWin) : OnlyReports d (fltCloseClient d p) := by
  dsimp only [fltCloseClient]
  split
  · exact OnlyReports.withFlt d _ (onlyReports_fltWrite _ _ _ _)
  · rfl

theorem onlyReports_fltDueOp (d : Dev) (k : Nat) : OnlyReports d (fltDueOp d k) := by
  unfold fltDueOp; split
  · split
    · exact onlyReports_fltCloseOp _ _
    · rfl
  · rfl

theorem onlyReports_fltDueClient (d : Dev) (c : Nat) (r : Report) : OnlyReports d (fltDueClient d c r) := by
  unfold fltDueClient; split
  · split
    · exact onlyReports_fltCloseClient _ _
    · rfl
  · rfl

theorem onlyReports_fltOpView (d : Dev) (r : Report) : OnlyReports d (fltOpView d r) := by
  refine OnlyReports.trans (onlyReports_fltDueOp d (fltKey r)) ?_
  dsimp only [fltOpView]
  split
  · rfl
  · exact OnlyReports.trans (onlyReports_fltOperator _ _ _) rfl

theorem onlyReports_fltClientView (d : Dev) (c : Nat) (r : Report) : OnlyReports d (fltClientView d c r).1 := by
  refine OnlyReports.trans (onlyReports_fltDueClient d c r) ?_
  dsimp only [fltClientView]
  split
  · rfl
  · exact OnlyReports.trans (onlyReports_fltWrite _ _ _ _) rfl

/-- A report reaches the fault unit: counters, faults, events, records written, an account. -/
theorem onlyReports_reportWith (d : Dev) (r : Report) (a : Nat) : OnlyReports d (reportWith d r a).1 := by
  dsimp only [reportWith]
  split
  · exact (onlyReports_fbump d Fd.FLT_CNT_reports 1 0).trans (onlyReports_fltOpView _ _)
  · exact ((onlyReports_fbump d Fd.FLT_CNT_reports 1 0).trans (onlyReports_fltOpView _ _)).trans (onlyReports_fltClientView _ _ _)

theorem onlyReports_report (d : Dev) (r : Report) : OnlyReports d (report d r).1 := onlyReports_reportWith d r _

@[simp] theorem report_frame (d : Dev) (r : Report) :
    (report d r).1.sys = d.sys ∧ (report d r).1.hst = d.hst ∧ (report d r).1.caps = d.caps ∧ (report d r).1.syn =
      d.syn ∧ (report d r).1.fab = d.fab ∧ (report d r).1.ctx = d.ctx ∧ (report d r).1.txt = d.txt ∧ ((report d
      r).1).mem = d.mem ∧ (report d r).1.dly = d.dly ∧ (report d r).1.cvu = d.cvu ∧ (report d r).1.tc = d.tc ∧ ((report
      d r).1).sec = d.sec ∧ (report d r).1.meter = d.meter ∧ (report d r).1.mtr = d.mtr ∧ (report d r).1.fls = d.fls ∧
      (report d r).1.map = d.map ∧ (report d r).1.ckp = d.ckp ∧ (report d r).1.fresh = d.fresh :=
  (onlyReports_report d r).keeps

/-! ### Rings and sync objects (02) -/

theorem onlyReports_setSq (d : Dev) (n : Nat) (q : Sq) : OnlyReports d (setSq d n q) := rfl
theorem onlyReports_setCq (d : Dev) (n : Nat) (q : Cq) : OnlyReports d (setCq d n q) := rfl

theorem onlyReports_mirrorWrite (d : Dev) (c o : Nat) : OnlyReports d (mirrorWrite d c o) := by
  dsimp only [mirrorWrite]; split
  · exact onlyReports_hostWrite d _ _ _
  · rfl

theorem onlyReports_mirrorObj (d : Dev) (o : Nat) : OnlyReports d (mirrorObj d o) := by
  unfold mirrorObj; split
  · rfl
  · exact onlyReports_mirrorWrite d _ o

theorem onlyRings_syncPut (d : Dev) (o : Nat) (x : SynObj) : OnlyRings d (syncPut d o x) := rfl

/-- A sync object is stored, and its mirror written. -/
theorem onlyRings_syncStore (d : Dev) (o : Nat) (x : SynObj) : OnlyRings d (syncStore d o x) := by
  unfold syncStore; split
  · rfl
  · exact (onlyRings_syncPut d o x).trans (onlyReports_mirrorObj _ o).rings

/-- A signal is applied: its object, its mirror, and a report of class SYNC where it saturates. -/
theorem onlyRings_syncApply (d : Dev) (c r op v : Nat) (b m : Bool) : OnlyRings d (syncApply d c r op v b m) := by
  have put := fun o x => show OnlyRings d (if m then syncStore d o x else syncPut d o x) by
    split
    · exact onlyRings_syncStore d o x
    · exact onlyRings_syncPut d o x
  dsimp only [syncApply]; split
  · split
    · exact (put _ _).trans (onlyReports_reportWith _ _ _).rings
    · exact put _ _
  · rfl

theorem onlyReports_cqInterrupt (d : Dev) (c : Nat) : OnlyReports d (cqInterrupt d c) := by
  unfold cqInterrupt; split <;> rfl

/-- A completion is written. -/
theorem onlyReports_writeCompletion (d : Dev) (r : Nat) (f : Flight) : OnlyReports d (writeCompletion d r f) := by
  dsimp only [writeCompletion]; split
  · rfl
  · have key := fun q => (onlyReports_hostWrite d (sqCq d r)
      (fget d Fd.SEQ_CQ_BASE_base (sqCq d r) * 4096 + 16 * (cqOf d (sqCq d r)).tail)
      (fields [(dTag f.desc, 2), (f.status, 1), (b2n (cqOf d (sqCq d r)).phase, 1), (r, 2), (f.result, 4), (now d % 2 ^ 48, 6)])).trans
        (onlyReports_setCq _ (sqCq d r) q)
    exact onlyReports_ite ((key _).trans (onlyReports_cqInterrupt _ _)) (key _)

end Sys2Proof.Machine
end

