-- ==== Sys2Proof/WellFormed.lean ====
section
/-!
DEFINITION. Sys2Proof/WellFormed.lean: the operands a command may carry: a register number, ring, client or port that
exists, an access the window admits, a frame whose fields fit their widths.
-/

namespace Sys2Proof

/-- Why a command is ill-formed. -/
inductive Ill where
  /-- Not one of the 512 submission or completion rings (R46). -/
  | ring
  /-- Not one of the 4,096 stream rings, context slots (R46, R202). -/
  | stream
  /-- Not one of the 256 clients (R46). -/
  | client
  /-- An access that is not of 4 or 8 bytes, aligned, inside the 64 MiB window (R75, R76). -/
  | access
  /-- Not one of the 16 link ports (R342). -/
  | port
  /-- Not one of the 16 slices (R366). -/
  | slice
  /-- Not a near stack, far channel or flash channel (R302, R304, R311). -/
  | part
  /-- A flit that is not of 256 bytes (R343). -/
  | flit
  /-- A layer-exchange frame whose payload is not as long as its header says (R209). -/
  | frame
  /-- A traffic class above 7 (R348). -/
  | trafficClass
  /-- A length beyond the load buffer (R79, R89). -/
  | length
  deriving DecidableEq, Repr

/-- One check: the reason if it fails. -/
def need (ok : Bool) (e : Ill) : List Ill := if ok then [] else [e]

/-- The checks of each command, in the order of its operands. -/
def Instr.ill : Instr → List Ill
  | .registerWrite o n _ | .invalidAccess _ o n =>
    need ((n == 4 || n == 8) && o % n == 0 && o + n ≤ 2 ^ 26) .access
  | .eventWriteBack o _ | .guardWindowExpire o => need (o % 8 == 0 && o < 2 ^ 26) .access
  | .apertureWrite o bs => need (o + bs.length ≤ 2 ^ 22) .length
  | .loadFirmware n | .loadRepairRecord n | .loadMeterCal n | .loadReservedType n => need (n < 2 ^ 23) .length
  | .clientSyncWrite c _ => need (c < 256) .client
  | .sqOpen r _ | .cqOpen r _ | .doorbell r _ => need (r < 512) .ring
  | .sqClose r | .sqDrainEnd r | .sqResume r | .cqClose r | .msixHoldoffExpire r => need (r < 512) .ring
  | .strOpen r _ => need (r < 4096) .stream
  | .strClose r => need (r < 4096) .stream
  | .descriptorFetch r _ _ => need (r < 512) .ring
  | .sessionOpen r | .sessionClose r | .sessionPark r | .sessionResume r | .sessionCut r | .sessionTrim r
  | .sessionPause r | .sessionTtl r | .stepSubmit r _ | .objMove r | .objPlaceHint r | .objFree r | .tableSwap r
  | .indexFold r | .slateMark r | .restore r | .restoreDevice r | .syncSignal r | .syncWait r | .recipeUnload r
  | .stopSet r | .nop r | .syncWaitTimeout r | .spillWaitTimeout r => need (r < 512) .ring
  | .prefill r _ _ | .tuneStep r _ _ | .tableLoad r _ | .gatherPool r _ _ | .search r _ | .vecDelete r _ | .recipeLoad r _
  | .constraintLoad r _ | .checkValue r _ | .deadlineExpiry r _ => need (r < 512) .ring
  | .vecInsert r _ _ _ => need (r < 512) .ring
  | .entryStart n | .preemption n | .sliceApplyDone n => need (n < 16) .slice
  | .preemptSaveDone n _ | .entryHalt n _ _ => need (n < 4096) .stream
  | .savedRestore n | .lxTimeout n | .stepCommit n => need (n < 4096) .stream
  | .qkv f _ => need (f.payload.length == f.length) .frame
  | .hid f | .gradO f _ | .gradH f _ | .lxRefuse f => need (f.payload.length == f.length) .frame
  | .nearScrub n _ => need (n < 8) .part
  | .flashReclaim n _ => need (n < 32) .part
  | .eraseFarChannel n => need (n < 32) .part
  | .dataFlitReceived p f | .idleFlitReceived p f => need (p < 16) .port ++ need (f.length == 256) .flit
  | .nakReceived p _ | .laneFailure p _ => need (p < 16) .port
  | .ackTimer p | .frameForward p | .tcRespTimeout p => need (p < 16) .port
  | .portRetrainDone p _ _ => need (p < 16) .port
  | .tcReq p _ _ _ => need (p < 16) .port
  | .tcResp p _ _ _ _ _ => need (p < 16) .port
  | .policerRetest c k => need (c < 256) .client ++ need (k < 8) .trafficClass
  | _ => []

/-- The command is well-formed. -/
def Instr.wf (i : Instr) : Bool := i.ill.isEmpty

end Sys2Proof
end

