-- ==== Sys2Proof/Laws/PerInstr.lean ====
section
/-!
SUPPORT. Sys2Proof/Laws/PerInstr.lean: what the checks of a command's operands say of each command: no command is refused twice
for one reason.
-/

namespace Sys2Proof.Laws.Checks

/-- The reasons for refusing a command are different from each other. -/
def Statement (i : Instr) : Prop := i.ill.Nodup

theorem nodup_need (b : Bool) (e : Ill) : (need b e).Nodup := by cases b <;> simp [need]

theorem nodup_needs (b c : Bool) (e f : Ill) (h : e ≠ f) : (need b e ++ need c f).Nodup := by
  cases b <;> cases c <;> simp [need, h]

theorem resetNRelease (selfTestOk : Bool) : Statement (.resetNRelease selfTestOk) := List.nodup_nil
theorem resetNAssert : Statement .resetNAssert := List.nodup_nil
theorem railUndervoltage (rail : Nat) (removed : Bool) : Statement (.railUndervoltage rail removed) := List.nodup_nil
theorem thermAlert (temp sensor : Nat) : Statement (.thermAlert temp sensor) := List.nodup_nil
theorem thermClear (temp sensor : Nat) : Statement (.thermClear temp sensor) := List.nodup_nil
theorem thermTrip (temp sensor : Nat) : Statement (.thermTrip temp sensor) := List.nodup_nil
theorem ucieTrainingDone (failFirst failRetry : BitVec 8) : Statement (.ucieTrainingDone failFirst failRetry) := List.nodup_nil
theorem ucieModuleFailure (module : Nat) (comesBack : Bool) : Statement (.ucieModuleFailure module comesBack) := List.nodup_nil
theorem ideIntegrityFail : Statement .ideIntegrityFail := List.nodup_nil
theorem lockInterface : Statement .lockInterface := List.nodup_nil
theorem startInterface : Statement .startInterface := List.nodup_nil
theorem stopInterface : Statement .stopInterface := List.nodup_nil
theorem setIdStatement (statement : List Byte) : Statement (.setIdStatement statement) := List.nodup_nil
theorem getReport (nonce : BitVec 256) : Statement (.getReport nonce) := List.nodup_nil
theorem getKeyCerts : Statement .getKeyCerts := List.nodup_nil
theorem getMeasurements (index : Nat) : Statement (.getMeasurements index) := List.nodup_nil
theorem getCertificate (slot : Nat) : Statement (.getCertificate slot) := List.nodup_nil
theorem challenge (nonce : BitVec 256) : Statement (.challenge nonce) := List.nodup_nil
theorem keyExchange (clientKey : BitVec 256) : Statement (.keyExchange clientKey) := List.nodup_nil
theorem ideKmKeyProg (link : Nat) : Statement (.ideKmKeyProg link) := List.nodup_nil
theorem registerWrite (offset size : Nat) (value : Word) : Statement (.registerWrite offset size value) := nodup_need _ _
theorem invalidAccess (write : Bool) (offset size : Nat) : Statement (.invalidAccess write offset size) := nodup_need _ _
theorem eventWriteBack (offset : Nat) (value : BitVec 16) : Statement (.eventWriteBack offset value) := nodup_need _ _
theorem guardWindowExpire (offset : Nat) : Statement (.guardWindowExpire offset) := nodup_need _ _
theorem apertureWrite (offset : Nat) (data : List Byte) : Statement (.apertureWrite offset data) := nodup_need _ _
theorem loadFirmware (length : Nat) : Statement (.loadFirmware length) := nodup_need _ _
theorem loadRepairRecord (length : Nat) : Statement (.loadRepairRecord length) := nodup_need _ _
theorem loadMeterCal (length : Nat) : Statement (.loadMeterCal length) := nodup_need _ _
theorem loadReservedType (length : Nat) : Statement (.loadReservedType length) := nodup_need _ _
theorem loadComplete (uncovered : Bool) : Statement (.loadComplete uncovered) := List.nodup_nil
theorem calDeliveryTimeout : Statement .calDeliveryTimeout := List.nodup_nil
theorem meterCalAnswer (accept : Bool) : Statement (.meterCalAnswer accept) := List.nodup_nil
theorem bootCmdMem : Statement .bootCmdMem := List.nodup_nil
theorem bootCmdTime : Statement .bootCmdTime := List.nodup_nil
theorem bootCmdLinks : Statement .bootCmdLinks := List.nodup_nil
theorem bootCmdReady : Statement .bootCmdReady := List.nodup_nil
theorem stageComplete (outcome : StageOutcome) : Statement (.stageComplete outcome) := List.nodup_nil
theorem fwActivate (key : BitVec 32) : Statement (.fwActivate key) := List.nodup_nil
theorem fwActivateDone : Statement .fwActivateDone := List.nodup_nil
theorem unitReset (units : BitVec 32) : Statement (.unitReset units) := List.nodup_nil
theorem unitResetDrainTimeout (unit : Nat) : Statement (.unitResetDrainTimeout unit) := List.nodup_nil
theorem unitResetEnd (unit : Nat) (outcome : ResetOutcome) : Statement (.unitResetEnd unit outcome) := List.nodup_nil
theorem arrRetire (value : BitVec 32) : Statement (.arrRetire value) := List.nodup_nil
theorem eraseT0Free : Statement .eraseT0Free := List.nodup_nil
theorem eraseT1Free : Statement .eraseT1Free := List.nodup_nil
theorem eraseT2Free : Statement .eraseT2Free := List.nodup_nil
theorem eraseFarChannel (channel : Nat) : Statement (.eraseFarChannel channel) := nodup_need _ _
theorem eraseDone : Statement .eraseDone := List.nodup_nil
theorem lnkPortDisable (value : BitVec 32) : Statement (.lnkPortDisable value) := List.nodup_nil
theorem ckpDiscard (slate : Nat) : Statement (.ckpDiscard slate) := List.nodup_nil
theorem obsEnable : Statement .obsEnable := List.nodup_nil
theorem obsDisable : Statement .obsDisable := List.nodup_nil
theorem zeroiseSessionKeys : Statement .zeroiseSessionKeys := List.nodup_nil
theorem zeroiseWeightKeys : Statement .zeroiseWeightKeys := List.nodup_nil
theorem zeroiseStorageKeys : Statement .zeroiseStorageKeys := List.nodup_nil
theorem zeroiseLinkKeys : Statement .zeroiseLinkKeys := List.nodup_nil
theorem zeroiseDone : Statement .zeroiseDone := List.nodup_nil
theorem synInit (value : BitVec 32) : Statement (.synInit value) := List.nodup_nil
theorem clientSyncWrite (client : Nat) (value : Word) : Statement (.clientSyncWrite client value) := nodup_need _ _
theorem seqEnable : Statement .seqEnable := List.nodup_nil
theorem ctxEnable : Statement .ctxEnable := List.nodup_nil
theorem sqOpen (ring : Nat) (value : BitVec 32) : Statement (.sqOpen ring value) := nodup_need _ _
theorem sqClose (ring : Nat) : Statement (.sqClose ring) := nodup_need _ _
theorem sqDrainEnd (ring : Nat) : Statement (.sqDrainEnd ring) := nodup_need _ _
theorem sqResume (ring : Nat) : Statement (.sqResume ring) := nodup_need _ _
theorem cqOpen (ring : Nat) (value : BitVec 32) : Statement (.cqOpen ring value) := nodup_need _ _
theorem cqClose (ring : Nat) : Statement (.cqClose ring) := nodup_need _ _
theorem strOpen (ring : Nat) (value : BitVec 32) : Statement (.strOpen ring value) := nodup_need _ _
theorem strClose (ring : Nat) : Statement (.strClose ring) := nodup_need _ _
theorem faultRingOpen (operator : Bool) (value : BitVec 32) : Statement (.faultRingOpen operator value) := List.nodup_nil
theorem memClientShareWrite (value : Word) : Statement (.memClientShareWrite value) := List.nodup_nil
theorem lcQuotaWrite (value : Word) : Statement (.lcQuotaWrite value) := List.nodup_nil
theorem policerWrite (burst : Bool) (value : Word) : Statement (.policerWrite burst value) := List.nodup_nil
theorem envEntryWrite (value : Word) : Statement (.envEntryWrite value) := List.nodup_nil
theorem mtrTxCfgWrite (value : Word) : Statement (.mtrTxCfgWrite value) := List.nodup_nil
theorem gateSwitchArm (frame : Nat) : Statement (.gateSwitchArm frame) := List.nodup_nil
theorem lnkRecall (loan : BitVec 32) : Statement (.lnkRecall loan) := List.nodup_nil
theorem flsIdxStateWrite (value : BitVec 32) : Statement (.flsIdxStateWrite value) := List.nodup_nil
theorem mapSliceApply : Statement .mapSliceApply := List.nodup_nil
theorem sliceApplyDone (slice : Nat) : Statement (.sliceApplyDone slice) := nodup_need _ _
theorem mapHoGo : Statement .mapHoGo := List.nodup_nil
theorem mapLeave : Statement .mapLeave := List.nodup_nil
theorem cvuInit : Statement .cvuInit := List.nodup_nil
theorem cvuFeedB (value : Word) : Statement (.cvuFeedB value) := List.nodup_nil
theorem cvuFeedH (value : Word) : Statement (.cvuFeedH value) := List.nodup_nil
theorem cvuFeedW (value : Word) : Statement (.cvuFeedW value) := List.nodup_nil
theorem cvuRunWrite (value : Word) : Statement (.cvuRunWrite value) := List.nodup_nil
theorem cvuUnitCfgWrite (value : Word) : Statement (.cvuUnitCfgWrite value) := List.nodup_nil
theorem doorbell (ring : Nat) (value : BitVec 32) : Statement (.doorbell ring value) := nodup_need _ _
theorem descriptorFetch (ring : Nat) (descriptor : Desc) (list : List Byte) : Statement (.descriptorFetch ring descriptor list) := nodup_need _ _
theorem msixHoldoffExpire (ring : Nat) : Statement (.msixHoldoffExpire ring) := nodup_need _ _
theorem sessionOpen (ring : Nat) : Statement (.sessionOpen ring) := nodup_need _ _
theorem sessionClose (ring : Nat) : Statement (.sessionClose ring) := nodup_need _ _
theorem sessionPark (ring : Nat) : Statement (.sessionPark ring) := nodup_need _ _
theorem sessionResume (ring : Nat) : Statement (.sessionResume ring) := nodup_need _ _
theorem sessionCut (ring : Nat) : Statement (.sessionCut ring) := nodup_need _ _
theorem sessionTrim (ring : Nat) : Statement (.sessionTrim ring) := nodup_need _ _
theorem sessionPause (ring : Nat) : Statement (.sessionPause ring) := nodup_need _ _
theorem sessionTtl (ring : Nat) : Statement (.sessionTtl ring) := nodup_need _ _
theorem stepSubmit (ring : Nat) (incidents : List (Nat × Incident)) : Statement (.stepSubmit ring incidents) := nodup_need _ _
theorem prefill (ring : Nat) (input : List Byte) (incidents : List Incident) : Statement (.prefill ring input incidents) := nodup_need _ _
theorem tuneStep (ring : Nat) (span : List Byte) (incidents : List Incident) : Statement (.tuneStep ring span incidents) := nodup_need _ _
theorem objMove (ring : Nat) : Statement (.objMove ring) := nodup_need _ _
theorem objPlaceHint (ring : Nat) : Statement (.objPlaceHint ring) := nodup_need _ _
theorem objFree (ring : Nat) : Statement (.objFree ring) := nodup_need _ _
theorem tableLoad (ring : Nat) (rows : List Byte) : Statement (.tableLoad ring rows) := nodup_need _ _
theorem tableSwap (ring : Nat) : Statement (.tableSwap ring) := nodup_need _ _
theorem gatherPool (ring : Nat) (indices : List Byte) (incidents : List Incident) : Statement (.gatherPool ring indices incidents) := nodup_need _ _
theorem search (ring : Nat) (queries : List Byte) : Statement (.search ring queries) := nodup_need _ _
theorem searchComplete (query : Nat) (incidents : List Incident) : Statement (.searchComplete query incidents) := List.nodup_nil
theorem vecInsert (ring : Nat) (vectors params : List Byte) (incidents : List Incident) : Statement (.vecInsert ring vectors params incidents) := nodup_need _ _
theorem vecDelete (ring : Nat) (nodes : List Byte) : Statement (.vecDelete ring nodes) := nodup_need _ _
theorem indexFold (ring : Nat) : Statement (.indexFold ring) := nodup_need _ _
theorem indexFoldPublish (index : Nat) (incidents : List Incident) : Statement (.indexFoldPublish index incidents) := List.nodup_nil
theorem slateMark (ring : Nat) : Statement (.slateMark ring) := nodup_need _ _
theorem restore (ring : Nat) : Statement (.restore ring) := nodup_need _ _
theorem restoreDevice (ring : Nat) : Statement (.restoreDevice ring) := nodup_need _ _
theorem restoreComplete (handle : BitVec 32) (incidents : List Incident) : Statement (.restoreComplete handle incidents) := List.nodup_nil
theorem syncSignal (ring : Nat) : Statement (.syncSignal ring) := nodup_need _ _
theorem syncWait (ring : Nat) : Statement (.syncWait ring) := nodup_need _ _
theorem recipeLoad (ring : Nat) (container : List Byte) : Statement (.recipeLoad ring container) := nodup_need _ _
theorem recipeUnload (ring : Nat) : Statement (.recipeUnload ring) := nodup_need _ _
theorem constraintLoad (ring : Nat) (list : List Byte) : Statement (.constraintLoad ring list) := nodup_need _ _
theorem stopSet (ring : Nat) : Statement (.stopSet ring) := nodup_need _ _
theorem checkValue (ring : Nat) (input : List Byte) : Statement (.checkValue ring input) := nodup_need _ _
theorem nop (ring : Nat) : Statement (.nop ring) := nodup_need _ _
theorem deadlineExpiry (ring entry : Nat) : Statement (.deadlineExpiry ring entry) := nodup_need _ _
theorem syncWaitTimeout (ring : Nat) : Statement (.syncWaitTimeout ring) := nodup_need _ _
theorem ttlExpiry (record : Nat) : Statement (.ttlExpiry record) := List.nodup_nil
theorem holdThreshold (record : Nat) : Statement (.holdThreshold record) := List.nodup_nil
theorem parkAfterThreshold (record : Nat) : Statement (.parkAfterThreshold record) := List.nodup_nil
theorem entryStart (slice : Nat) : Statement (.entryStart slice) := nodup_need _ _
theorem preemption (slice : Nat) : Statement (.preemption slice) := nodup_need _ _
theorem preemptSaveDone (slot : Nat) (storeError : Bool) : Statement (.preemptSaveDone slot storeError) := nodup_need _ _
theorem savedRestore (slot : Nat) : Statement (.savedRestore slot) := nodup_need _ _
theorem entryHalt (slot cycles : Nat) (incidents : List Incident) : Statement (.entryHalt slot cycles incidents) := nodup_need _ _
theorem qkv (frame : LxFrame) (incidents : List Incident) : Statement (.qkv frame incidents) := nodup_need _ _
theorem hid (frame : LxFrame) : Statement (.hid frame) := nodup_need _ _
theorem gradO (frame : LxFrame) (incidents : List Incident) : Statement (.gradO frame incidents) := nodup_need _ _
theorem gradH (frame : LxFrame) (incidents : List Incident) : Statement (.gradH frame incidents) := nodup_need _ _
theorem lxRefuse (frame : LxFrame) : Statement (.lxRefuse frame) := nodup_need _ _
theorem lxTimeout (slot : Nat) : Statement (.lxTimeout slot) := nodup_need _ _
theorem stepCommit (slot : Nat) : Statement (.stepCommit slot) := nodup_need _ _
theorem spillWaitTimeout (ring : Nat) : Statement (.spillWaitTimeout ring) := nodup_need _ _
theorem pageMoveStart : Statement .pageMoveStart := List.nodup_nil
theorem pageMoveDone (mover : Nat) (incidents : List Incident) : Statement (.pageMoveDone mover incidents) := List.nodup_nil
theorem nearScrub (stack : Nat) (incidents : List Incident) : Statement (.nearScrub stack incidents) := nodup_need _ _
theorem flashRefresh (pair : Nat) (corrected : Bool) (incidents : List Incident) : Statement (.flashRefresh pair corrected incidents) := List.nodup_nil
theorem flashReclaim (channel : Nat) (incidents : List Incident) : Statement (.flashReclaim channel incidents) := nodup_need _ _
theorem dataFlitReceived (port : Nat) (flit : List Byte) : Statement (.dataFlitReceived port flit) := nodup_needs _ _ _ _ (by decide)
theorem nakReceived (port sequence : Nat) : Statement (.nakReceived port sequence) := nodup_need _ _
theorem ackTimer (port : Nat) : Statement (.ackTimer port) := nodup_need _ _
theorem laneFailure (port lane : Nat) : Statement (.laneFailure port lane) := nodup_need _ _
theorem portRetrainDone (port : Nat) (lanes : BitVec 4) (peer : Nat) : Statement (.portRetrainDone port lanes peer) := nodup_need _ _
theorem frameForward (port : Nat) : Statement (.frameForward port) := nodup_need _ _
theorem policerRetest (client cls : Nat) : Statement (.policerRetest client cls) := nodup_needs _ _ _ _ (by decide)
theorem gateEntryChange : Statement .gateEntryChange := List.nodup_nil
theorem gateListSwitch : Statement .gateListSwitch := List.nodup_nil
theorem loanRequest (src pages : Nat) : Statement (.loanRequest src pages) := List.nodup_nil
theorem loanGrant (src loan tier pages deadline : Nat) (refused : Bool) : Statement (.loanGrant src loan tier pages deadline refused) := List.nodup_nil
theorem loanPut (src loan page : Nat) (mask : BitVec 8) (tiles : List Byte) : Statement (.loanPut src loan page mask tiles) := List.nodup_nil
theorem loanPutAck (src loan page : Nat) : Statement (.loanPutAck src loan page) := List.nodup_nil
theorem loanGet (src loan page : Nat) (mask : BitVec 8) : Statement (.loanGet src loan page mask) := List.nodup_nil
theorem loanData (src loan page : Nat) (gone : Bool) (tiles : List Byte) : Statement (.loanData src loan page gone tiles) := List.nodup_nil
theorem loanFree (src loan page : Nat) : Statement (.loanFree src loan page) := List.nodup_nil
theorem loanRecall (src loan deadline : Nat) : Statement (.loanRecall src loan deadline) := List.nodup_nil
theorem loanReturn (src loan : Nat) : Statement (.loanReturn src loan) := List.nodup_nil
theorem loanRecallDeadline (src loan : Nat) (lent : Bool) : Statement (.loanRecallDeadline src loan lent) := List.nodup_nil
theorem buddyPut (src slate name copy : Nat) (tiles : List Byte) : Statement (.buddyPut src slate name copy tiles) := List.nodup_nil
theorem buddyPutAck (src slate name copy : Nat) (refused : Bool) : Statement (.buddyPutAck src slate name copy refused) := List.nodup_nil
theorem buddyRelease (src origin slate : Nat) : Statement (.buddyRelease src origin slate) := List.nodup_nil
theorem buddyFetch (src origin slate name copy : Nat) : Statement (.buddyFetch src origin slate name copy) := List.nodup_nil
theorem buddyData (src origin slate name copy : Nat) (gone verifies : Bool) (item : BuddyItem) : Statement (.buddyData src origin slate name copy gone verifies item) := List.nodup_nil
theorem shardQuery (src query group index shard metric dim k beam budget : Nat) (test : Bool) (vector : List F32) (incidents : List Incident) : Statement (.shardQuery src query group index shard metric dim k beam budget test vector incidents) := List.nodup_nil
theorem shardReply (src query shard status base sequence : Nat) (entries : List (Nat × Nat × F32)) : Statement (.shardReply src query shard status base sequence entries) := List.nodup_nil
theorem shardTimeout (query shard : Nat) : Statement (.shardTimeout query shard) := List.nodup_nil
theorem offer (msg : MapMsg) (wrappedKey : List Byte) : Statement (.offer msg wrappedKey) := List.nodup_nil
theorem objectTransfer (src handoff : Nat) (image : SessImage) (incidents : List Incident) : Statement (.objectTransfer src handoff image incidents) := List.nodup_nil
theorem accept (msg : MapMsg) : Statement (.accept msg) := List.nodup_nil
theorem handoffRefuse (msg : MapMsg) : Statement (.handoffRefuse msg) := List.nodup_nil
theorem commit (msg : MapMsg) : Statement (.commit msg) := List.nodup_nil
theorem handoffRelease (msg : MapMsg) : Statement (.handoffRelease msg) := List.nodup_nil
theorem abort (msg : MapMsg) : Statement (.abort msg) := List.nodup_nil
theorem publish (msg : MapMsg) : Statement (.publish msg) := List.nodup_nil
theorem confirm (msg : MapMsg) : Statement (.confirm msg) := List.nodup_nil
theorem publishRepeat (name : Nat) : Statement (.publishRepeat name) := List.nodup_nil
theorem register (msg : MapMsg) : Statement (.register msg) := List.nodup_nil
theorem registerWaitExpire (name : Nat) : Statement (.registerWaitExpire name) := List.nodup_nil
theorem handoffAcceptTimeout (entry : Nat) : Statement (.handoffAcceptTimeout entry) := List.nodup_nil
theorem handoffCommitTimeout (src handoff : Nat) : Statement (.handoffCommitTimeout src handoff) := List.nodup_nil
theorem handoffReleaseTimeout (entry : Nat) : Statement (.handoffReleaseTimeout entry) := List.nodup_nil
theorem join (src device domain : Nat) : Statement (.join src device domain) := List.nodup_nil
theorem joinAck (msg : MapMsg) (members : List Nat) : Statement (.joinAck msg members) := List.nodup_nil
theorem leave (msg : MapMsg) : Statement (.leave msg) := List.nodup_nil
theorem member (msg : MapMsg) (joined failed departed : Bool) : Statement (.member msg joined failed departed) := List.nodup_nil
theorem suspect (msg : MapMsg) : Statement (.suspect msg) := List.nodup_nil
theorem fence (msg : MapMsg) : Statement (.fence msg) := List.nodup_nil
theorem evict (msg : MapMsg) : Statement (.evict msg) := List.nodup_nil
theorem heartbeat (src compat domainEpoch domain digest hops : Nat) (isolated : Bool) (peers : List Nat) : Statement (.heartbeat src compat domainEpoch domain digest hops isolated peers) := List.nodup_nil
theorem heartbeatSend : Statement .heartbeatSend := List.nodup_nil
theorem heartbeatMiss (device : Nat) : Statement (.heartbeatMiss device) := List.nodup_nil
theorem isolation : Statement .isolation := List.nodup_nil
theorem stewardFailWait (device : Nat) : Statement (.stewardFailWait device) := List.nodup_nil
theorem memberFailDeclare (device : Nat) : Statement (.memberFailDeclare device) := List.nodup_nil
theorem keyAnnouncement (src device : Nat) (statement attCert kemCert kemKey : List Byte) : Statement (.keyAnnouncement src device statement attCert kemCert kemKey) := List.nodup_nil
theorem faultRecordForward (src : Nat) (record : BitVec 512) : Statement (.faultRecordForward src record) := List.nodup_nil
theorem faultWindowClose (unit cls : Nat) : Statement (.faultWindowClose unit cls) := List.nodup_nil
theorem slateMarkFire (incidents : List Incident) : Statement (.slateMarkFire incidents) := List.nodup_nil
theorem slateCommit : Statement .slateCommit := List.nodup_nil
theorem slateAbandon : Statement .slateAbandon := List.nodup_nil
theorem buddyWaitExpire : Statement .buddyWaitExpire := List.nodup_nil
theorem tcPpsEdge (deviationNs : Int) (minuteMarker : Bool) : Statement (.tcPpsEdge deviationNs minuteMarker) := List.nodup_nil
theorem tcExchange : Statement .tcExchange := List.nodup_nil
theorem tcReq (port t1 t2 t3 : Nat) : Statement (.tcReq port t1 t2 t3) := nodup_need _ _
theorem tcResp (port t1 t2 t3 t4 hops : Nat) : Statement (.tcResp port t1 t2 t3 t4 hops) := nodup_need _ _
theorem tcRespTimeout (port : Nat) : Statement (.tcRespTimeout port) := nodup_need _ _
theorem tcHoldoverEntry : Statement .tcHoldoverEntry := List.nodup_nil
theorem tcUnlock : Statement .tcUnlock := List.nodup_nil
theorem envelopeMinuteBoundary : Statement .envelopeMinuteBoundary := List.nodup_nil
theorem throttleStep (meanPower : Nat) : Statement (.throttleStep meanPower) := List.nodup_nil
theorem railSample (watts : Nat) : Statement (.railSample watts) := List.nodup_nil
theorem energyApportion (minute : Nat) : Statement (.energyApportion minute) := List.nodup_nil
theorem tenantRecordWrite : Statement .tenantRecordWrite := List.nodup_nil
theorem meterPowerUp : Statement .meterPowerUp := List.nodup_nil
theorem minuteMarker : Statement .minuteMarker := List.nodup_nil
theorem meterFreeRunClose : Statement .meterFreeRunClose := List.nodup_nil
theorem mainsCycleEnd (importMj exportMj : Nat) (rms : List Nat) (freqMhz : Nat) : Statement (.mainsCycleEnd importMj exportMj rms freqMhz) := List.nodup_nil
theorem halfCycleEnd (phaseMv : List Nat) : Statement (.halfCycleEnd phaseMv) := List.nodup_nil
theorem senseFault (channel : Nat) : Statement (.senseFault channel) := List.nodup_nil
theorem meterNotice (cls : Nat) (start : Bool) (halfCycles : Nat) : Statement (.meterNotice cls start halfCycles) := List.nodup_nil
theorem supplyClear : Statement .supplyClear := List.nodup_nil
theorem meterRecordReceived (record : List Byte) : Statement (.meterRecordReceived record) := List.nodup_nil
theorem meterFeedSilent : Statement .meterFeedSilent := List.nodup_nil
theorem mtrTxSend : Statement .mtrTxSend := List.nodup_nil
theorem idleFlitReceived (port : Nat) (flit : List Byte) : Statement (.idleFlitReceived port flit) := nodup_needs _ _ _ _ (by decide)
theorem shadowRead (kind ring consumer : Nat) : Statement (.shadowRead kind ring consumer) := List.nodup_nil
theorem meterRailLoss : Statement .meterRailLoss := List.nodup_nil

end Sys2Proof.Laws.Checks
end

