-- ==== Sys2Proof/Tests/Slice0.lean ====
section
/-!
SUPPORT. Sys2Proof/Tests/Slice0.lean: tests of the model on small states: for each group of statements a theorem (`wit_…`) that
shows a state and operands which meet its hypotheses; a command that each well-formedness check refuses; and values that the spec
works out itself (`test_…`).
-/

namespace Sys2Proof.Tests

open Sys2Proof Sys2Proof.Machine

set_option Elab.async false

/-! ### Small states -/

/-- A device in a stage, out of reset, with its host port up. -/
def tStage (n : Nat) : Dev :=
  { State.reset.dev with sys := { resetLow := false, rom := true, portUp := true, stage := n } }

/-- Set a list of fields of bank 0. -/
def tSet (d : Dev) (fs : List (Fd × Nat)) : Dev := fs.foldl (fun d f => fset d f.1 f.2) d

/-- A device in stage READY with locked timecode, every unit enabled and its host links keyed. -/
def tReady : Dev :=
  { tSet (tStage 8) [(Fd.HST_CTL_enable, 1), (Fd.SEQ_CTL_enable, 1), (Fd.CTX_CTL_enable, 1), (Fd.MAP_CTL_enable, 1), (Fd.CKP_CTL_enable, 1), (Fd.LNK_CTL_enable, 1),
      (Fd.MTR_CTL_enable, 1), (Fd.DLY_CTL_enable, 1), (Fd.FLS_CTL_enable, 1), (Fd.SEQ_SQ_CFG_open, 1), (Fd.SEQ_CQ_CFG_open, 1)] with
    tc := { up := 65536000, loaded := true, acquired := true, state := 2 }
    hst := { moduleUp := 0xFF, ideActive := true } }

/-- A device at some count of subframes. -/
def tTick (n : Nat) (d : Dev) : Dev := { d with tc := { d.tc with up := n } }

/-- A state with a device. -/
def tState (d : Dev) : State := { State.reset with dev := d }

/-- A descriptor from an opcode and values at byte offsets. -/
def tDesc (op : Nat) (vs : List (Nat × Nat)) : Desc := BitVec.ofNat 512 (op + sumN (vs.map (fun v => v.2 * 2 ^ (8 * v.1))))

/-- A fetched descriptor. -/
def tFl (op : Nat) (vs : List (Nat × Nat) := []) (list : List Byte := []) : Flight :=
  { id := 0, desc := tDesc op vs, list := list, fetchTc := 0 }

/-- A device with a descriptor next on ring 0. -/
def tAt (d : Dev) (f : Flight) : Dev := setSq d 0 { flights := [f] }

/-! ### Witnesses: registers, bring-up, guarded writes -/

theorem wit_step : (State.popped { State.reset with pending := [.nop 0] } [.nop 0]).pending = [Instr.nop 0] := rfl
theorem wit_idle : State.reset.pending = [] ∧ State.reset.dev.sys.resetLow = true ∧ (tState tReady).dev.sys.resetLow = false
    ∧ (tState tReady).dev.tc.slew = 0 ∧ ({ slew := 1, slewAge := 156 } : Tc).slew ≠ 0 ∧ 157 ≤ ({ slew := 1, slewAge := 156 } : Tc).slewAge + 1 := by
  decide +kernel
theorem wit_host_path : hostPath tReady = true ∧ hostPath (tStage 1) = false ∧ (tStage 1).hst.tdisp ≠ .error := by decide +kernel
theorem wit_sound : State.reset.sound = true ∧ step State.reset = .next (State.reset.settled (tick State.reset.dev)) := ⟨by decide +kernel, rfl⟩
theorem wit_field : Fd.GLB_CTL_enable.lo + Fd.GLB_CTL_enable.width ≤ 64 ∧ Fd.GLB_CTL_enable.reset < 2 ^ Fd.GLB_CTL_enable.width
    ∧ (0 : Nat) < 2 ^ 24 ∧ Fd.SEQ_CTL_enable.off ≠ Fd.GLB_CTL_enable.off := by decide +kernel
theorem wit_event : tReady.sys.portUp = true ∧ isEvt Fd.CTX_EVT_ttl_expired.off = true ∧ Fd.CTX_EVT_ttl_expired.off ≠ Rg.GLB_EVT
    ∧ Fd.SEC_EVT_sig_failed.off ≠ Fd.CTX_EVT_ttl_expired.off := by decide +kernel
theorem wit_window : Rg.SEQ_CTL < windowSize ∧ writeValid Rg.SEQ_CTL 8 = true ∧ inDoorbells Rg.SEQ_CTL = false ∧ inAperture Rg.SEQ_CTL = false
    ∧ (regAt (Rg.SEQ_CTL / 8 * 8)).isSome = true ∧ writeValid 3 4 = false ∧ readValid 3 4 = false
    ∧ evSet tReady Fd.GLB_EVT_access_invalid = false ∧ evSet (raise tReady Fd.GLB_EVT_access_invalid) Fd.GLB_EVT_access_invalid = true := by
  decide +kernel
theorem wit_aperture : apertureOk 0 4 = true ∧ apertureOk (2 ^ 22 - 8) 8 = true ∧ apertureOk 254 4 = false ∧ tReady.sys.portUp = true
    ∧ tReady.sys.load = none := by decide +kernel

/-- A load under way. -/
def tJob (typ result tries : Nat) : LoadJob := { typ := typ, length := 0, sentAt := 0, result := result, tries := tries }
/-- A device with a load under way. -/
def tLoad (n typ result tries : Nat) : Dev :=
  let d := { tStage n with tc := { up := 50 * 65536 } }
  setSys d { d.sys with load := some (tJob typ result tries) }

/-- A device with the first write of a pair taken. -/
def tGuard (n : Nat) : Dev := tTick n (setSys tReady { tReady.sys with guards := [(Rg.MEM_ERASE_A, (7, 0))] })

theorem wit_guard : (tLoad 1 1 0 0).sys.load ≠ none ∧ look (tGuard 14).sys.guards Rg.MEM_ERASE_A = some (7, 0) ∧ up (tGuard 14) < 0 + 15
    ∧ 0 + 13 ≤ up (tGuard 13) ∧ up (tGuard 12) < 0 + 13 := by decide +kernel
theorem wit_interface : tReady.hst.tdisp = .configUnlocked ∧ ({ tReady with hst := { tdisp := .configLocked } } : Dev).hst.tdisp = .configLocked
    ∧ tReady.sys.debugExposed = false ∧ (setSys tReady { tReady.sys with debugExposed := true }).sys.debugExposed = true := by decide +kernel

/-- The host port before it is trained, and with its modules up. -/
def tRom : Dev := { State.reset.dev with sys := { resetLow := false, rom := true, stage := 0 } }

theorem wit_link : tRom.sys.rom = true ∧ tRom.sys.stage = 0 ∧ tRom.sys.portUp = false ∧ tRom.hst.moduleRetired = 0 ∧ tReady.sys.portUp = true
    ∧ maskBit tReady.hst.moduleRetired.toNat 7 = false ∧ maskBit tReady.hst.failedOnce.toNat 7 = false
    ∧ maskBit ({ failedOnce := 0x80 } : Hst).failedOnce.toNat 7 = true ∧ (relink (retireModule tReady 7)).hst.moduleUp ≠ 0
    ∧ (relink (retireModule { tReady with hst := { moduleUp := 1, moduleRetired := 0xFE } } 0)).hst.moduleUp = 0
    ∧ ideKeyed { tReady with sec := { ideLinks := [(0, true)] } } = true := by decide +kernel
theorem wit_resets : State.reset.dev.sys.resetLow = true ∧ State.reset.dev.sys.railHold = false
    ∧ (setSys State.reset.dev { State.reset.dev.sys with railHold := true }).sys.railHold = true ∧ (8 : Nat) < 9 ∧ 110 ≤ (110 : Nat)
    ∧ tReady.sys.resetLow = false ∧ 100 ≤ (100 : Nat) ∧ (94 : Nat) < 95 := by decide +kernel
theorem wit_loads : (tStage 1).sys.load = none ∧ (tStage 1).sys.portUp = true ∧ (tLoad 1 1 3 0).sys.load = some (tJob 1 3 0)
    ∧ (tJob 1 3 0).result ≠ 0 ∧ (tJob 1 0 0).result = 0 ∧ (tJob 1 0 0).typ = 1 ∧ (tLoad 1 1 0 0).sys.stage = 1 ∧ (tLoad 8 1 0 0).sys.stage = 8
    ∧ (tLoad 8 1 0 0).sys.load = some (tJob 1 0 0) ∧ (tLoad 2 2 0 0).sys.load = some (tJob 2 0 0) ∧ (tJob 2 0 0).typ = 2 := by decide +kernel

/-- A calibration record whose fields pass, in the load buffer of a device whose meter is up. -/
def tCal : List Byte := exactly 14988 (fields ([(0x4C41434D, 4), (1, 2), (1, 1), (0, 1), (7, 8), (0, 8), (230000, 4), (50, 2), (0, 2)]
  ++ [(0, 112)] ++ [(1, 1), (0, 15), (14988, 4)]))
def tCalDev : Dev :=
  let d := tLoad 4 3 0 1
  { setSys d { d.sys with aperture := setBytes [] 0 (tCal.take 168), load := some { tJob 3 0 1 with length := 14988 } } with
    meter := { rail := true } }

theorem wit_calibration : (tJob 3 0 1).tries = 1 ∧ (tJob 3 0 1).sentAt + 50 * 65536 ≤ up (tLoad 4 3 0 1) ∧ (tJob 3 0 2).tries = 2
    ∧ up (tTick 0 (tLoad 4 3 0 1)) < (tJob 3 0 1).sentAt + 50 * 65536 ∧ (tJob 3 0 1).tries ≠ 0 ∧ tCalDev.meter.rail = true ∧ calFieldsOk (loadImage tCalDev 14988) = true
    ∧ tCalDev.meter.cal ≠ some (loadImage tCalDev 14988) ∧ calFieldsOk (loadImage tCalDev 100) = false := by decide +kernel

theorem wit_stages : (tStage 3).sys.stageCmd = none ∧ (tStage 2).sys.stage ≠ 3 ∧ (tStage 3).sys.stage = 3 ∧ (tStage 5).sys.stage = 5
    ∧ fbit (tStage 5) Fd.MTR_TC_CFG_role = false ∧ fbit (tSet (tStage 5) [(Fd.MTR_TC_CFG_role, 1)]) Fd.MTR_TC_CFG_role = true
    ∧ fget (tSet (tStage 5) [(Fd.MTR_TC_INIT_frame, 3000)]) Fd.MTR_TC_INIT_frame % 1000 = 0
    ∧ fget (tSet (tStage 5) [(Fd.MTR_TC_INIT_frame, 3001)]) Fd.MTR_TC_INIT_frame % 1000 ≠ 0 ∧ (tStage 6).sys.stage = 6 ∧ (tStage 7).sys.stage = 7
    ∧ fbit (tSet (tStage 6) [(Fd.MAP_CFG_found, 1)]) Fd.MAP_CFG_found = true ∧ (tStage 6).sec.stmtLoaded = false
    ∧ ({ tStage 6 with sec := { stmtLoaded := true } } : Dev).sec.stmtLoaded = true := by decide +kernel

/-- A device with a stage command under way. -/
def tCmd (n : Nat) : Dev := { setSys tReady { tReady.sys with stage := n - 1, stageCmd := some n } with tc := tReady.tc }

theorem wit_stage_ends : (tCmd 4).sys.stageCmd = some 4 ∧ 2 < (maskBits (0x07#8 &&& 0x07#8).toNat 8).length
    ∧ (maskBits (0x03#8 &&& 0x07#8).toNat 8).length ≤ 2 ∧ farFitted (tCmd 4) = 0 ∧ flashFitted (tCmd 4) = 0
    ∧ BitVec.ofNat 32 (farFitted (tSet (tCmd 4) [(Fd.MEM_FAR_POP_fitted, 3)])) = 3#32
    ∧ BitVec.ofNat 32 (flashFitted (tSet (tCmd 4) [(Fd.FLS_POP_fitted, 1)])) = 1#32 ∧ (tCmd 6).sys.stageCmd = some 6 ∧ (tCmd 6).tc.state = 2 ∧ (tStage 6).tc.state ≠ 2
    ∧ (tCmd 7).sys.stageCmd = some 7 ∧ (tCmd 7).map.member = false ∧ (tCmd 7).sys.joinRetried = false
    ∧ ({ tCmd 7 with map := { member := true } } : Dev).map.member = true := by decide +kernel

/-- A device with a staged image, idle or activating. -/
def tFw (a : Bool) : Dev := setSys tReady { tReady.sys with fwStaged := some (2, 0), fwActivating := a }
/-- A device with a unit in reset. -/
def tUnit (u : Nat) (draining : Bool) : Dev :=
  { setSys tReady { tReady.sys with unitRst := [(u, { start := 0, draining := draining })] } with tc := { tReady.tc with up := 16 * 65536 } }

theorem wit_firmware : tReady.sys.portUp = true ∧ (tFw false).sys.fwStaged.isSome = true ∧ quiescent (setSys (tStage 8) (tFw false).sys) = true ∧ quiescent (tFw false) = false ∧ tReady.sys.fwStaged = none
    ∧ (tFw true).sys.fwActivating = true ∧ (tFw true).sys.fwStaged = some (2, 0) := by decide +kernel
theorem wit_units : tReady.sys.stage = 8 ∧ (tStage 7).sys.stage ≠ 8 ∧ look (tUnit 8 true).sys.unitRst 8 = some { start := 0, draining := true }
    ∧ look (tUnit 3 false).sys.unitRst 3 = some { start := 0, draining := false } ∧ (0 : Nat) + 16 * 65536 ≤ up (tUnit 3 true)
    ∧ up (tTick 5 (tUnit 3 true)) < 0 + 16 * 65536 ∧ unitBusy (tUnit 3 true) 3 = false
    ∧ unitBusy { tUnit 5 true with ckp := { devRestore := some { ring := 0, flight := 0, failed := 3, buddy := 4, want := 0 } } } 5 = true
    ∧ up { tUnit 5 true with ckp := { devRestore := some { ring := 0, flight := 0, failed := 3, buddy := 4, want := 0 } } } = 16 * 65536 := by
  decide +kernel

theorem wit_retire : (143#32).toNat % 256 ≤ 143 ∧ 3 ≤ tReady.sys.stage ∧ tReady.sys.stage ≠ 15 ∧ arrRetired tReady 143 = false
    ∧ tReady.fab.teams = [] ∧ 143 < (144#32).toNat % 256 ∧ (tStage 2).sys.stage < 3 ∧ arrRetired (retireArray tReady 143 4) 143 = true := by
  decide +kernel
/-- A session with a page in far channel 1. -/
def tFar : Dev := { tReady with ctx := { recs := [(0, { state := .parked, pages := [(0, { tier := 2, frame := 2 ^ 20 })] })] } }

theorem wit_erase : (31 : Nat) < 32 ∧ tReady.mem.erase = none ∧ (∀ f ∈ usedFrames tReady 2, f / 2 ^ 20 ≠ 31)
    ∧ ({ tReady with mem := { erase := some (1, 0) } } : Dev).mem.erase ≠ none ∧ tReady.ctx.recs = [] ∧ tReady.ckp.devRestore = none
    ∧ maskBit tFar.mem.farRetired.toNat 1 = false ∧ (usedFrames tFar 2).any (fun f => f / 2 ^ 20 == 1) = true := by decide +kernel

/-- A device with one port in service. -/
def tPort (q : Port) : Dev := { tReady with lnk := { ports := [(15, q)] } }

theorem wit_disable : (15 : Nat) < 16 ∧ 7 ≤ tReady.sys.stage ∧ tReady.sys.stage ≠ 15 ∧ (portOf (tPort { up := true }) 15).up = true
    ∧ (portOf (tPort { up := true }) 15).disabling = false ∧ (portOf (tPort { up := true }) 15).inflight = []
    ∧ (portOf (tPort { up := true, inflight := [(0, ⟨1, 2, []⟩)] }) 15).inflight ≠ [] ∧ (portOf tReady 15).up = false
    ∧ (tStage 6).sys.stage < 7 := by decide +kernel

/-- A slate without shards, kept or open. -/
def tSlate (n : Nat) : Slate :=
  { num := n, prev := 0, mark := 0, emergency := false, fold := false, domEpoch := 1, digest := 0, shards := [], own := [], buddy := false }
def tKept : Dev := { tReady with ckp := { kept := [tSlate 1] } }

theorem wit_discard : tKept.ckp.kept.any (fun x => x.num == 1) = true ∧ slateRead tKept 1 = false ∧ ckpState tKept ≠ 3
    ∧ tReady.ckp.kept.any (fun x => x.num == 1) = false
    ∧ ckpState { tKept with ckp := { kept := [tSlate 1], emergency := true } } = 3 := by decide +kernel
theorem wit_zeroise : 2 ≤ (tStage 2).sys.stage ∧ (tStage 1).sys.stage < 2
    ∧ ({ tReady with sec := { zeroing := some 1 } } : Dev).sec.zeroing ≠ none
    ∧ (∀ i, (recOf { tReady with ctx := { recs := [(0, { state := .parked })] } } i).slot = none)
    ∧ (recOf { tReady with ctx := { recs := [(0, { state := .parked })] } } 0).state ≠ .closed ∧ tReady.hst.tdisp ≠ .error := by
  refine ⟨by decide, by decide, by decide, fun i => ?_, by decide, by decide⟩
  unfold recOf mget look
  by_cases h : (0 : Nat) = i <;> simp [h, look]

theorem wit_spdm : unitInReset tReady 6 = false ∧ (measurement tReady 1).isSome = true ∧ (measurement tReady 1).getD [] ≠ []
    ∧ measurement tReady 200 = none ∧ (1 : Nat) ≠ 0xFF ∧ ({ tReady with sec := { session := true } } : Dev).sec.session = true
    ∧ unitInReset (tUnit 6 false) 6 = true := by decide +kernel
theorem wit_leaf : tReady.sec.attUsed < leaves ∧ leaves - 1 - 1024 + 1 + 1024 = leaves
    ∧ ({ tReady with sec := { attUsed := leaves, attNext := some (0, []) } } : Dev).sec.attUsed = leaves
    ∧ ({ tReady with sec := { attUsed := leaves, attNext := some (0, []) } } : Dev).sec.attNext = some (0, []) := by decide +kernel

/-! ### Witnesses: register writes that do something -/

theorem wit_syn : tReady.syn.busyUntil ≤ up tReady ∧ up tReady < ({ tReady with syn := { busyUntil := up tReady + 1 } } : Dev).syn.busyUntil
    ∧ syncObj tReady ((0x20000#32).toNat % 2 ^ 17) = {} ∧ syncObj { tReady with syn := { objs := [(0, { mark := some 1 })] } } 0 ≠ {} := by
  decide +kernel
theorem wit_client_sync : (255 : Nat) < 256 ∧ (131071#64).toNat % 2 ^ 17 + (131071#64).toNat / 2 ^ 17 % 2 ^ 18 ≤ 131072
    ∧ fbit (tStage 4) Fd.SEQ_CTL_enable = false ∧ 131072 < (262144#64 + 131071#64).toNat % 2 ^ 17 + (262144#64 + 131071#64).toNat / 2 ^ 17 % 2 ^ 18 := by
  decide +kernel
theorem wit_enables : 4 ≤ (tStage 4).sys.stage ∧ fget (tSet (tStage 4) [(Fd.SEQ_SCHED_CFG_acct_minutes, 60)]) Fd.SEQ_SCHED_CFG_acct_minutes = 60
    ∧ fget (tSet (tStage 4) [(Fd.SEQ_SCHED_CFG_acct_minutes, 1)]) Fd.SEQ_SCHED_CFG_acct_minutes = 1
    ∧ 60 < fget (tSet (tStage 4) [(Fd.SEQ_SCHED_CFG_acct_minutes, 61)]) Fd.SEQ_SCHED_CFG_acct_minutes ∧ (tStage 3).sys.stage < 4
    ∧ fbit (tStage 4) Fd.SEQ_CTL_enable = false ∧ fbit tReady Fd.SEQ_CTL_enable = true ∧ fbit tReady Fd.CTX_CTL_enable = true
    ∧ fbit (tStage 4) Fd.CTX_CTL_enable = false
    ∧ fget (tSet (tStage 4) [(Fd.CTX_REC_CFG_records_log2, 10)]) Fd.CTX_REC_CFG_records_log2 = 10
    ∧ fget (tSet (tStage 4) [(Fd.CTX_REC_CFG_records_log2, 24)]) Fd.CTX_REC_CFG_records_log2 = 24
    ∧ fget (tSet (tStage 4) [(Fd.CTX_REC_CFG_records_log2, 25)]) Fd.CTX_REC_CFG_records_log2 = 25
    ∧ fget (tSet (tStage 4) [(Fd.CTX_REC_CFG_records_log2, 9)]) Fd.CTX_REC_CFG_records_log2 < 10 := by decide +kernel
theorem wit_shares : (∀ t, t < 4 → shareSum (regWrite tReady (regDef Rg.MEM_CLIENT_SHARE) 0 Rg.MEM_CLIENT_SHARE 0 false) t
      ≤ tierCap (regWrite tReady (regDef Rg.MEM_CLIENT_SHARE) 0 Rg.MEM_CLIENT_SHARE 0 false) t)
    ∧ (let d := regWrite tReady (regDef Rg.MEM_CLIENT_SHARE) 0 Rg.MEM_CLIENT_SHARE (2 ^ 64 - 1) false
       tierCap d 1 < shareSum d 1 ∧ shareOf tReady 0 1 ≠ shareOf d 0 1)
    ∧ sumN (clients.map (lcQuota (fset tReady Fd.SEQ_LC_QUOTA_lc_arrays 0 (lcBank 0 0)) 0)) ≤ (sliceArrays tReady 0).length
    ∧ (sliceArrays tReady 0).length < sumN (clients.map (lcQuota (fset tReady Fd.SEQ_LC_QUOTA_lc_arrays 255 (lcBank 0 0)) 0)) := by decide +kernel
theorem wit_policer : policed (fget (tSet tReady [(Fd.LNK_POL_SEL_class, 3)]) Fd.LNK_POL_SEL_class) = true
    ∧ policed (fget (tSet tReady [(Fd.LNK_POL_SEL_class, 6)]) Fd.LNK_POL_SEL_class) = true
    ∧ policed (fget (tSet tReady [(Fd.LNK_POL_SEL_class, 7)]) Fd.LNK_POL_SEL_class) = false := by decide +kernel
/-- A device with an envelope entry in force. -/
def tCap : Dev := tSet tReady [(Fd.MTR_ENV_ENT_valid, 1)]

theorem wit_envelope : envEntry tReady (minuteOf tReady) = none
    ∧ envEntry tCap (minuteOf tCap) = some 0 ∧ envEntry (fset tCap Fd.MTR_ENV_ENT_valid 0) (minuteOf tCap) ≠ some 0
    ∧ fget (fset tCap Fd.MTR_ENV_ENT_cap 9) Fd.MTR_ENV_ENT_cap ≠ fget tCap Fd.MTR_ENV_ENT_cap ∧ tReady.mtr.busyUntil ≤ up tReady
    ∧ up tReady < ({ tReady with mtr := { busyUntil := up tReady + 1 } } : Dev).mtr.busyUntil ∧ (2 ^ 48 - 1 : Nat) < 2 ^ 48
    ∧ gateValid (gateEntries (tSet tReady [(Fd.LNK_GATE_CFG_len_a_m1, 0), (Fd.LNK_GATE_CFG_len_b_m1, 0)]) 1) = false := by decide +kernel


/-- A device whose second gate list is valid. -/
def tGate : Dev := fset (fset tReady Fd.LNK_GATE_CFG_len_b_m1 0) (gateFd Fd.LNK_GATE_ENT_duration 64) 65536 64

theorem wit_gate : gateValid (gateEntries tGate (1 - tGate.lnk.gateList)) = true ∧ tGate.sys.portUp = true
    ∧ fbit (fset tGate Fd.LNK_GATE_SWITCH_arm 1) Fd.LNK_GATE_SWITCH_arm = true
    ∧ cycleStart (gateEntries tGate (1 - tGate.lnk.gateList)) 0 ≤ frame tGate ∧ fbit tGate Fd.LNK_CTL_enable = true := by decide +kernel
/-- A slice whose staged composition takes an array and a bank away, one with an entry on that array, one whose page has no other place, and one
whose page is bound by work. -/
def tApply (banks : List Nat) : Dev :=
  { tReady with mem := { nearUp := 0xFF }, fab := { slice := [(0, { arrays := [0, 3], banks := banks, next := some ([3], [1]) })] } }
def tRuns : Dev :=
  let d := tApply [0]
  { d with fab := { d.fab with teams := [{ slot := 0, kind := 0, slice := 0, client := 0, lc := true, size := 1, order := 0, arrays := [0],
                                           running := true }] } }
def tPage (w : Option Work) (m : Mem) : Dev :=
  { tApply [0] with
    mem := m
    ctx := { recs := [(0, { state := .active, slot := some 0, pages := [(0, { tier := 0, frame := 0 })] })],
             slots := [(0, { state := .running, rcd := 0, work := w })] } }
def tTight : Dev := tPage none {}
def tHeld : Dev := tPage (some { kind := .step, ring := 0, flight := 0, entry := 0, bound := 0, rows := [] }) { nearUp := 0xFF }

theorem wit_slices : fget tReady Fd.MAP_SLICE_SEL_slice = 0 ∧ (sliceOf tReady 0).next = none
    ∧ applyResult tReady 0 (stagedArrays tReady 0) (stagedBanks tReady 0) = 0
    ∧ applyResult (tStage 7) 0 (stagedArrays (tStage 7) 0) (stagedBanks (tStage 7) 0) ≠ 0 ∧ tReady.sys.resetLow = false := by decide +kernel
theorem wit_slice_applied : (sliceOf (tApply [0]) 0).next = some ([3], [1]) ∧ (tApply [0]).fab.teams = []
    ∧ (vacate (tApply [0]) [0]).any (fun d => !bankHeld (publishMoved d) [0]) = true
    ∧ (∃ t ∈ tRuns.fab.teams, ∃ a ∈ t.arrays, a ∈ (sliceOf tRuns 0).arrays ∧ a ∉ [3]) ∧ (sliceOf tRuns 0).next = some ([3], [1]) := by
  decide +kernel
theorem wit_slice_waits : vacate tTight [0] = none ∧ (vacate tHeld [0]).any (fun d => bankHeld (publishMoved d) [0]) = true := by decide +kernel

/-- A member of a domain with a session parked, lent memory, an index and a handoff asked for. -/
def tMember : Dev :=
  { tSet tReady [(Fd.MAP_HO_REQ_handle, 0), (Fd.MAP_HO_REQ_dest, 3)] with
    lnk := { loans := [(5, { borrower := 3, tier := 1, frames := [7] })] }, fls := { idx := [(0, { state := 1 })] },
    map := { member := true, members := [0, 3], digest := 0, peers := [] }, ctx := { recs := [(0, { state := .parked })] } }

theorem wit_loans_indexes_handoffs : look tMember.lnk.loans (5#32).toNat = some { borrower := 3, tier := 1, frames := [7] }
    ∧ (5#32).toNat ≠ 0xFFFFFFFF ∧ look tMember.lnk.loans (6#32).toNat = none
    ∧ look (recallLoan tMember 5).lnk.loans 5 ≠ some { borrower := 3, tier := 1, frames := [7] }
    ∧ (idxOf tMember (fget tMember Fd.FLS_IDX_SEL_index)).state ≠ 0 ∧ (idxOf tReady (fget tReady Fd.FLS_IDX_SEL_index)).state = 0
    ∧ (3#32).toNat % 8 ∈ [1, 2, 3] ∧ (4#32).toNat % 8 ∉ [1, 2, 3] ∧ mapServes tMember = true ∧ tMember.map.member = true
    ∧ unitInReset tMember 6 = false ∧ tMember.map.isolated = false ∧ hoOpen (hoOf tMember (fget tMember Fd.MAP_HO_SEL_entry)) = false
    ∧ hoOpen (hoOf { tMember with map := { out := [(0, { state := 1 })] } } 0) = true := by decide +kernel
theorem wit_handoff_refused : hoCheck tMember (fget tMember Fd.MAP_HO_SEL_entry) ≠ 0 := by decide +kernel

/-- The same device with the peer's key and its configuration digest, equal to the own. -/
def tHandoff : Dev :=
  { tMember with map := { tMember.map with peers := [(3, { digest := some 0 })] }, sec := { peers := [(3, { kem := [] })] } }

theorem wit_handoff_offered : hoCheck tHandoff 0 = 0 ∧ hoOpen (hoOf tHandoff 0) = false := by decide +kernel

/-! ### Witnesses: rings, descriptors, sync, check values -/

/-- A device with one completion, submission and stream ring that may open, and a free host link. -/
def tRings : Dev := tSet tReady [(Fd.SEQ_SQ_CFG_open, 0)]

theorem wit_sq : sqOpenBit tRings 0 = false ∧ (sqOf tRings 0).draining = false ∧ tRings.hst.ideActive = true
    ∧ (let e := regWrite tRings (regDef Rg.SEQ_SQ_CFG) 0 (sqCfgAddr 0) ((8#32).toNat ||| 1) false
       4 ≤ fget e Fd.SEQ_SQ_CFG_size_log2 0 ∧ fget e Fd.SEQ_SQ_CFG_size_log2 0 ≤ 16 ∧ sqCq e 0 < 512 ∧ cqOpenBit e (sqCq e 0) = true
         ∧ fget e Fd.SEQ_SQ_BASE_base 0 * 4096 + 64 * 2 ^ fget e Fd.SEQ_SQ_CFG_size_log2 0 ≤ 2 ^ 64)
    ∧ fget (regWrite tRings (regDef Rg.SEQ_SQ_CFG) 0 (sqCfgAddr 0) ((2#32).toNat ||| 1) false) Fd.SEQ_SQ_CFG_size_log2 0 < 4
    ∧ sqOpenBit tReady 0 = true ∧ (sqOf tReady 0).draining = false ∧ (sqOf tReady 0).flights = []
    ∧ (sqOf (setSq tReady 0 { draining := true }) 0).draining = true ∧ (sqOf (setSq tReady 0 { stalled := true }) 0).stalled = true := by
  decide +kernel
theorem wit_cq : cqOpenBit tRings 7 = false ∧ tRings.hst.ideActive = true
    ∧ (let e := regWrite tRings (regDef Rg.SEQ_CQ_CFG) 7 (copyAddr Rg.SEQ_CQ_CFG 0x40 7) ((16#32).toNat ||| 1) false
       6 ≤ fget e Fd.SEQ_CQ_CFG_size_log2 7 ∧ fget e Fd.SEQ_CQ_CFG_size_log2 7 ≤ 20
         ∧ fget e Fd.SEQ_CQ_BASE_base 7 * 4096 + 16 * 2 ^ fget e Fd.SEQ_CQ_CFG_size_log2 7 ≤ 2 ^ 64
         ∧ fget e Fd.SEQ_CQ_SHADOW_shadow 7 * 8 + 8 ≤ 2 ^ 64)
    ∧ cqOpenBit tReady 0 = true ∧ sqCq tReady 0 = 0 ∧ sqOpenBit tReady 0 = true ∧ cqOpenBit tRings 0 = true
    ∧ (∀ i, i < 512 → sqCq tRings i = 0 → sqOpenBit tRings i = false ∧ (sqOf tRings i).draining = false) := by decide +kernel
theorem wit_str : strOpenBit tRings 4095 = false
    ∧ (let e := regWrite tRings (regDef Rg.SEQ_STR_CFG) 4095 (copyAddr Rg.SEQ_STR_CFG 0x40 4095) ((8#32).toNat ||| 1) false
       4 ≤ fget e Fd.SEQ_STR_CFG_size_log2 4095 ∧ fget e Fd.SEQ_STR_CFG_size_log2 4095 ≤ 16
         ∧ fget e Fd.SEQ_STR_BASE_base 4095 * 4096 + 64 * 2 ^ fget e Fd.SEQ_STR_CFG_size_log2 4095 ≤ 2 ^ 64
         ∧ fget e Fd.SEQ_STR_SHADOW_shadow 4095 * 8 + 8 ≤ 2 ^ 64)
    ∧ strOpenBit (fset tRings Fd.SEQ_STR_CFG_open 1 4) 4 = true ∧ (slotOf tRings 4).state = .free
    ∧ (slotOf { tRings with ctx := { slots := [(4, { state := .opened })] } } 4).state ≠ .free := by decide +kernel
theorem wit_fault_ring : fbit tReady Fd.FLT_LOG_CFG_open 0 = false ∧ fbit tReady Fd.FLT_CLIENT_CFG_open 0 = false
    ∧ (let e := regWrite tReady (regDef Rg.FLT_LOG_CFG) 0 Rg.FLT_LOG_CFG ((13#32).toNat ||| 1) false
       6 ≤ (fltRingCfg e 256).2.1 ∧ (fltRingCfg e 256).2.1 ≤ 20 ∧ (fltRingCfg e 256).2.2 + 64 * 2 ^ (fltRingCfg e 256).2.1 ≤ 2 ^ 64
         ∧ fget e Fd.FLT_LOG_SHADOW_shadow * 8 + 8 ≤ 2 ^ 64)
    ∧ (fltRingCfg (regWrite tReady (regDef Rg.FLT_LOG_CFG) 0 Rg.FLT_LOG_CFG ((1#32).toNat ||| 1) false) 256).2.1 < 6
    ∧ (fltRingCfg (regWrite tReady (regDef Rg.FLT_CLIENT_CFG) 0 Rg.FLT_CLIENT_CFG ((1#32).toNat ||| 1) false) 0).2.1 < 4 := by decide +kernel

/-- A device whose ring 0 holds a descriptor that waits to be fetched. -/
def tFetch : Dev := setSq (tSet tReady [(Fd.SEQ_SQ_CFG_size_log2, 4), (Fd.SEQ_CQ_CFG_size_log2, 6)]) 0 { tail := 1 }

theorem wit_fetch : seqHalted tFetch = false ∧ hostPath tFetch = true ∧ sqOpenBit tFetch 0 = true ∧ (sqOf tFetch 0).stalled = false
    ∧ (sqOf tFetch 0).head ≠ (sqOf tFetch 0).tail ∧ (sqOf tFetch 0).flights.length ≤ 256 ∧ 0 < cqFree tFetch (sqCq tFetch 0)
    ∧ firstCheck tFetch (sqClient tFetch 0) (tDesc 0xF0 []) [] = none ∧ firstCheck tFetch (sqClient tFetch 0) (tDesc 0xEE []) [] = some (stInvalidOpcode, 0)
    ∧ (sqOf tReady 0).head = (sqOf tReady 0).tail := by decide +kernel
theorem wit_doorbell : sqOpenBit tFetch 0 = true ∧ (15#32).toNat % 2 ^ 16 < 2 ^ fget tFetch Fd.SEQ_SQ_CFG_size_log2 0
    ∧ 2 ^ fget tFetch Fd.SEQ_SQ_CFG_size_log2 0 ≤ (16#32).toNat % 2 ^ 16 ∧ sqOpenBit tFetch 511 = false ∧ tFetch.hst.tdisp ≠ .error
    ∧ ({ tFetch with hst := { tdisp := .error } } : Dev).hst.tdisp = .error := by decide +kernel
theorem wit_completion : (sqOf (tAt tReady { tFl 0xF0 with phase := .done }) 0).flights = [{ tFl 0xF0 with phase := .done }]
    ∧ dQuiet (tFl 0xF0).desc = false ∧ (dSignal (tFl 0xF0).desc).2.1 = 0 ∧ (sqOf (tAt tReady (tFl 0xF0)) 0).stalled = false
    ∧ (tFl 0xF0).changed = false ∧ tReady.hst.tdisp ≠ .error ∧ dQuiet (tFl 0xF0 [(1, 1)]).desc = true
    ∧ (tFl 0xF0 [(1, 1)]).status = stOK := by decide +kernel

/-- A completion ring with a hold-off that has run out. -/
def tHold : Dev := { setCq (fset tReady Fd.SEQ_CQ_MOD_holdoff 1) 0 { since := 1 } with tc := { tReady.tc with up := 1024 } }

theorem wit_holdoff : fget tHold Fd.SEQ_CQ_MOD_holdoff 0 ≠ 0 ∧ 0 < (cqOf tHold 0).since
    ∧ (cqOf tHold 0).firstAt + fget tHold Fd.SEQ_CQ_MOD_holdoff 0 * 1024 ≤ up tHold
    ∧ up (tTick 1023 tHold) < (cqOf tHold 0).firstAt + fget tHold Fd.SEQ_CQ_MOD_holdoff 0 * 1024 ∧ tHold.sys.resetLow = false ∧ hostPath tHold = true
    ∧ cqOpenBit tHold 0 = true ∧ strOpenBit (fset tReady Fd.SEQ_STR_CFG_open 1 0) 0 = true
    ∧ (fltRingCfg (fset tReady Fd.FLT_LOG_CFG_open 1) 256).1 = true := by decide +kernel
theorem wit_nop : atDispatch (tAt tReady (tFl 0xF0)) 0 0xF0 (tFl 0xF0) := by unfold atDispatch; decide +kernel
theorem wit_signal : atDispatch (tAt tReady (tFl 0x60)) 0 0x60 (tFl 0x60) := by unfold atDispatch; decide +kernel
theorem wit_wait : atDispatch (tAt tReady (tFl 0x61)) 0 0x61 (tFl 0x61) ∧ (tFl 0x61).testedAt = none := by unfold atDispatch; decide +kernel

/-- A wait whose timeout has run out, and a prefill and a batch whose deadline has. -/
def tWaited : Flight := { tFl 0x61 [(32, 1)] with testedAt := some 0 }
def tLate : Flight := { tFl 0x11 [(44, 1)] with fetchTc := 0 }
def tLateBatch : Flight := { tFl 0x10 [(52, 1)] with entries := [{ handle := 0, single := false }] }

theorem wit_expiries : ((sqOf (tAt tReady tWaited) 0).flights.find? (fun g => g.phase == .waiting)) = some tWaited ∧ tWaited.testedAt = some 0
    ∧ dOp tWaited.desc = 0x61 ∧ db tWaited.desc 32 4 ≠ 0 ∧ 0 + db tWaited.desc 32 4 * 65536 ≤ up (tAt tReady tWaited)
    ∧ up (tTick 65535 (tAt tReady tWaited)) < 0 + db tWaited.desc 32 4 * 65536
    ∧ (sqOf (tAt tReady tLate) 0).flights = [] ++ tLate :: [] ∧ tLate.phase = .waiting ∧ dOp tLate.desc = 0x11 ∧ db tLate.desc 44 4 ≠ 0
    ∧ tLate.fetchTc + db tLate.desc 44 4 * 65536 ≤ up (tAt tReady tLate)
    ∧ tLateBatch.phase ≠ .done ∧ dOp tLateBatch.desc = 0x10 ∧ db tLateBatch.desc 52 4 ≠ 0
    ∧ tLateBatch.fetchTc + db tLateBatch.desc 52 4 * 65536 ≤ up (tAt tReady tLateBatch)
    ∧ tLateBatch.entries[0]? = some { handle := 0, single := false } := by decide +kernel

/-- A descriptor that waits for value 5 of object 0, which failed at 3, has not got there, or needs unit 3 in reset. -/
def tWaits : Flight := tFl 0x03 [(8, 2 ^ 17 + 5 * 2 ^ 19)]
def tWaitDev (o : SynObj) : Dev := { tAt tReady tWaits with syn := { objs := [(0, o)] } }

theorem wit_failed_wait : stageThree (tWaitDev { mark := some 3 }) 0 = some (tWaits, .fails 3)
    ∧ stageThree (tWaitDev { ctr := 4 }) 0 = some (tWaits, .waits)
    ∧ stageThree (tWaitDev { ctr := 5 }) 0 = some (tWaits, .ready tWaits)
    ∧ stageThree (tAt tReady (tFl 0xF0)) 5 = none ∧ stageThree (tAt (tUnit 3 true) (tFl 0x20)) 0 = some (tFl 0x20, .ready (tFl 0x20))
    ∧ (unitsOf (tAt (tUnit 3 true) (tFl 0x20)) (tFl 0x20).desc []).any (unitInReset (tAt (tUnit 3 true) (tFl 0x20))) = true := by decide +kernel
theorem wit_gated : atDispatch (tAt { tSet (tStage 7) [(Fd.SEQ_CTL_enable, 1), (Fd.SEQ_SQ_CFG_open, 1)] with tc := {} } (tFl 0x01)) 0 0x01 (tFl 0x01)
    ∧ (tStage 7).map.isolated = false ∧ (tStage 7).tc.acquired = false ∧ (tStage 7).sys.stage ≠ 8
    ∧ atDispatch (tAt { tReady with map := { isolated := true } } (tFl 0x10)) 0 0x10 (tFl 0x10)
    ∧ ({ tReady with map := { isolated := true } } : Dev).map.isolated = true := by unfold atDispatch; decide +kernel

theorem wit_cvu : cvuSel tReady = 0 ∧ (cvuOf { tReady with cvu := [(0, { regMode := true })] } 0).regMode = true
    ∧ (cvuOf tReady 0).regMode = false ∧ unitInReset tReady 7 = false ∧ (0x401#64).toNat / 256 % 256 = 4 ∧ 4 < (0x500#64).toNat / 256 % 256
    ∧ cvuBusy tReady 0 = false
    ∧ atDispatch (tAt tReady (tFl 0x80 [(36, 9), (40, 4096), (52, 1)])) 0 0x80 (tFl 0x80 [(36, 9), (40, 4096), (52, 1)])
    ∧ (checkOp (tFl 0x80 [(36, 9), (40, 4096), (52, 1)]).desc).length = 9 ∧ 1 ≤ (checkOp (tFl 0x80 [(52, 1)]).desc).alg
    ∧ (checkOp (tFl 0x80 [(52, 1)]).desc).part = false ∧ (checkOp (tFl 0x80 [(52, 1)]).desc).chain = false := by
  unfold atDispatch; decide +kernel
theorem wit_check_algorithm : (crcAlg 1).isSome = true ∧ (0#8) ≠ 1#8 := by decide +kernel

/-! ### Witnesses: sessions and their work -/

/-- A recipe whose entries each run on one array. -/
def tRecipe : RSlot := { state := .loaded, entries := (List.range 8).map (fun k => ⟨k, 1, 0, 0, 0⟩) }
/-- An order-1 table for the recipe. -/
def tBytes : TVer := { num := 1, recipe := 0, kind := 1, fmt := 0, dim := 64, rowsM1 := 0, r := 1, combine := 0, order := 1, tier := 1 }

/-- A device with memory, one recipe, a slice of four arrays, and a placed session 0 with some work. -/
def tSess (r : Rec) (state : CtxState) (work : Option Work) : Dev :=
  { tSet tReady [(Fd.SEQ_STR_CFG_open, 1), (Fd.SEQ_STR_CFG_size_log2, 8), (Fd.MEM_CLIENT_SHARE_t1, 255), (Fd.CTX_CLIENT_LIM_max_records, 8)] with
    mem := { nearUp := 0xFF }, fab := { rcp := [(0, tRecipe)], slice := [(0, { arrays := [0, 1, 2, 3] })] },
    txt := { tbl := [(0, { cur := some tBytes })] },
    ctx := { tableLog2 := some 10, recs := [(0, r)], slots := [(0, { state := state, rcd := 0, work := work })] } }

/-- An active best-effort session in slot 0 with its next symbol. -/
def tRec : Rec := { state := .active, slot := some 0, cls := 1, kv := [{}], out := { pending := some 65 } }
/-- Work of a step with one row. -/
def tWork : Work := { kind := .step, ring := 0, flight := 0, entry := 0, bound := 0, rows := [{ sym := 65, pos := 0 }] }
/-- The device with the session idle or at work, and a descriptor next on ring 0. -/
def tIdle (f : Flight) : Dev := tAt (tSess tRec .opened none) f
def tBusy (f : Flight) : Dev := tAt (tSess tRec .running (some tWork)) f

/-- A device without a session. -/
def tEmpty (f : Flight) : Dev := tAt { tSess tRec .opened none with ctx := { tableLog2 := some 10 } } f

theorem wit_open_gate : pastGate (tEmpty (tFl 0x01)) 0 0x01 (tFl 0x01) ∧ rcpCurrent (tEmpty (tFl 0x01)) (db (tFl 0x01).desc 24 2) = true
    ∧ rcpServes (rcpOf (tEmpty (tFl 0x01)) (rcpIndex (db (tFl 0x01).desc 24 2))) = true
    ∧ recordsOf (tEmpty (tFl 0x01)) 0 < fget (tEmpty (tFl 0x01)) Fd.CTX_CLIENT_LIM_max_records 0
    ∧ freeSlots (tEmpty (tFl 0x01)) 0 = [0] := by unfold pastGate atDispatch; decide +kernel
theorem pickSlot_single {d : Dev} {c a : Nat} (h : freeSlots d c = [a]) : pickSlot d c = (some a, { d with fresh := d.fresh + 1 }) := by
  unfold pickSlot freshBelow
  rw [h]
  simp only [List.isEmpty_cons, Bool.false_eq_true, if_false, List.length_singleton, Nat.mod_one]
  rfl
theorem wit_open_slot : pickSlot (tEmpty (tFl 0x01)) 0 = (some 0, { tEmpty (tFl 0x01) with fresh := 1 })
    ∧ (usedRecords { tEmpty (tFl 0x01) with fresh := 1 }).length < 2 ^ (tEmpty (tFl 0x01)).ctx.tableLog2.getD 0 :=
  ⟨pickSlot_single wit_open_gate.2.2.2.2, by decide +kernel⟩
theorem wit_open_refused : rcpCurrent (tEmpty (tFl 0x01 [(24, 0x100)])) (db (tFl 0x01 [(24, 0x100)]).desc 24 2) = false
    ∧ rcpCurrent (tEmpty (tFl 0x01 [(24, 1)])) (db (tFl 0x01 [(24, 1)]).desc 24 2) = true
    ∧ rcpServes (rcpOf (tEmpty (tFl 0x01 [(24, 1)])) (rcpIndex (db (tFl 0x01 [(24, 1)]).desc 24 2))) = false
    ∧ fget (fset (tEmpty (tFl 0x01)) Fd.CTX_CLIENT_LIM_max_records 0) Fd.CTX_CLIENT_LIM_max_records 0 ≤ recordsOf (tEmpty (tFl 0x01)) 0 := by
  decide +kernel

/-- The record of the new session under some key. -/
def tNew (key : BitVec 256) : Rec := newRec { tEmpty (tFl 0x01) with fresh := 3 } (tFl 0x01).desc 0 0 (tEmpty (tFl 0x01)).mem.nextSerial key

theorem wit_open_pages (key : BitVec 256) : (wantPages {} (tNew key)).length = 7 := by
  have hk : ∀ (d : Dev) (x : Desc) (c g n : Nat), (newRec d x c g n key).kv = List.replicate (rcpOf d (rcpIndex (db x 24 2))).model.layers {} :=
    fun _ _ _ _ _ => rfl
  have hl : ∀ (d : Dev) (x : Desc) (c g n : Nat), (newRec d x c g n key).len = 0 := fun _ _ _ _ _ => rfl
  unfold wantPages tNew
  rw [hk, hl]
  decide +kernel
theorem wit_open_room : ∃ fs d4, alloc { tEmpty (tFl 0x01) with fresh := 3 } 0 1 7 = .ok fs d4 := by
  unfold alloc
  rw [if_neg (by decide), if_neg (by decide +kernel)]
  have h1 : overShare { tEmpty (tFl 0x01) with fresh := 3 } 0 1 (pageSize * 7) = none := by decide +kernel
  have h2 : overFree { tEmpty (tFl 0x01) with fresh := 3 } 1 (pageSize * 7) = none := by decide +kernel
  simp only [h1, h2, if_true, if_neg (show ¬((1 : Nat) = 4) by decide)]
  exact ⟨_, _, rfl⟩

/-- A `STOP_SET` that names colander table 0. -/
def tColander : Flight := tFl 0x79 [(37, 2)]

theorem wit_commands : pastGate (tIdle (tFl 0x02)) 0 0x02 (tFl 0x02) ∧ namesRecord (tIdle (tFl 0x02)) (tFl 0x02) 0
    ∧ (recOf (tIdle (tFl 0x02)) 0).state = .active ∧ (recOf (tIdle (tFl 0x02)) 0).slot = some 0 ∧ (recOf (tIdle (tFl 0x02)) 0).rewound = false
    ∧ (recOf (tIdle (tFl 0x07)) 0).pausing = none ∧ (recOf (tIdle (tFl 0x07)) 0).parking = none
    ∧ pastGate (tIdle (tFl 0x08)) 0 0x08 (tFl 0x08) ∧ pastGate (tIdle (tFl 0x07)) 0 0x07 (tFl 0x07)
    ∧ pastGate (tIdle (tFl 0x79)) 0 0x79 (tFl 0x79) ∧ (outCfgOf (tFl 0x79)).colander = false
    ∧ ctxStateOf (tIdle (tFl 0x02)) 0 ≠ .running ∧ ctxStateOf (tIdle (tFl 0x02)) 0 ≠ .saved ∧ sessGroups (tIdle (tFl 0x02)) 0 = []
    ∧ sessGroups { tIdle (tFl 0x02) with dly := { groups := [{ id := 0, why := .hint, obj := .session 0, left := [0] }] } } 0 ≠ []
    ∧ sessWork (tIdle (tFl 0x07)) 0 = none := by unfold pastGate atDispatch namesRecord; decide +kernel
theorem wit_colander_refused : pastGate (tIdle tColander) 0 0x79 tColander ∧ (outCfgOf tColander).colander = true
    ∧ (colOf (tIdle tColander) (outCfgOf tColander).table).cur = none
    ∧ (let d := setCol (tIdle tColander) 0 { client := 2, cur := some { num := 1, seqs := [], states := 1 } }
       (outCfgOf tColander).table = 0 ∧ (colOf d 0).cur.isSome = true ∧ (colOf d 0).client ≠ sqClient d 0) := by
  unfold pastGate atDispatch; decide +kernel
/-- A session at work with a pause noted. -/
def tNoted : Dev := tAt (tSess { tRec with pausing := some (1, 0) } .running (some tWork)) (tFl 0x03)

theorem wit_commands_at_work : pastGate (tBusy (tFl 0x07)) 0 0x07 (tFl 0x07) ∧ namesRecord (tBusy (tFl 0x07)) (tFl 0x07) 0
    ∧ (sessWork (tBusy (tFl 0x07)) 0).isSome = true ∧ pastGate (tBusy (tFl 0x79)) 0 0x79 (tFl 0x79)
    ∧ pastGate (tBusy (tFl 0x02)) 0 0x02 (tFl 0x02) ∧ ctxStateOf (tBusy (tFl 0x02)) 0 = .running
    ∧ pastGate (tBusy (tFl 0x03)) 0 0x03 (tFl 0x03) ∧ pastGate tNoted 0 0x03 (tFl 0x03) ∧ (recOf tNoted 0).pausing.isSome = true := by
  unfold pastGate atDispatch namesRecord; decide +kernel

/-- A session without pages faster than the park tier, and a paused one that is placed. -/
def tParks : Dev := tAt (tSess { tRec with pages := [] } .opened none) (tFl 0x03 [(24, 2)])
def tPaused (vs : List (Nat × Nat)) (state : RecState) : Dev := tAt (tSess { tRec with state := state } .paused none) (tFl 0x04 vs)
/-- A parked session, rewound if its resume acknowledges that, with some moves. -/
def tParked (vs : List (Nat × Nat)) (gs : List MoveGrp) : Dev :=
  { tAt (tSess { tRec with state := .parked, slot := none, rewound := !vs.isEmpty } .free none) (tFl 0x04 vs) with dly := { groups := gs } }
def tSession : MoveGrp := { id := 0, why := .objMove, obj := .session 0, left := [0] }

theorem wit_park : pastGate tParks 0 0x03 (tFl 0x03 [(24, 2)]) ∧ namesRecord tParks (tFl 0x03 [(24, 2)]) 0
    ∧ (parkNow (dispatched tParks 0 0) 0 (db (tFl 0x03 [(24, 2)]).desc 24 1) (some (0, 0))).2.1 = true
    ∧ pastGate (tPaused [] .paused) 0 0x04 (tFl 0x04) ∧ (recOf (tPaused [] .paused) 0).state = .paused ∧ (recOf (tPaused [] .paused) 0).slot = some 0
    ∧ bitOf (db (tFl 0x04).desc 25 1) 1 = false ∧ bitOf (db (tFl 0x04).desc 25 1) 0 = false
    ∧ bitOf (db (tFl 0x04 [(25, 1)]).desc 25 1) 0 = true ∧ pastGate (tPaused [(25, 1)] .paused) 0 0x04 (tFl 0x04 [(25, 1)])
    ∧ rcpCurrent (tPaused [(25, 1)] .paused) (db (tFl 0x04 [(25, 1)]).desc 26 2) = true
    ∧ (rcpOf (tPaused [(25, 1)] .paused) (rcpIndex (db (tFl 0x04 [(25, 1)]).desc 26 2))).state = .loaded := by
  unfold pastGate atDispatch namesRecord; decide +kernel
theorem wit_resume : pastGate (tParked [] []) 0 0x04 (tFl 0x04) ∧ (recOf (tParked [] []) 0).state = .parked ∧ (recOf (tParked [] []) 0).slot = none
    ∧ sessGroups (tParked [] []) 0 = [] ∧ pickSlot (tParked [] []) 0 = (some 0, { tParked [] [] with fresh := 1 })
    ∧ bringPages (recOf (tParked [] []) 0) 0 = [] ∧ makeRoom { tParked [] [] with fresh := 1 } [] 0 (pageSize * 0) = .ok { tParked [] [] with fresh := 1 }
    ∧ alloc { tParked [] [] with fresh := 1 } 0 1 0 = .ok [] { tParked [] [] with fresh := 1 } :=
  ⟨by unfold pastGate atDispatch; decide +kernel, by decide +kernel, by decide +kernel, by decide +kernel, pickSlot_single (by decide +kernel),
    by decide +kernel, by decide +kernel, by decide +kernel⟩
theorem wit_resume_waits : pastGate (tParked [] [tSession]) 0 0x04 (tFl 0x04) ∧ sessGroups (tParked [] [tSession]) 0 ≠ []
    ∧ pickSlot (fset (tParked [] []) Fd.SEQ_STR_CFG_open 0) 0 = (none, fset (tParked [] []) Fd.SEQ_STR_CFG_open 0)
    ∧ (recOf (tParked [(25, 2)] []) 0).rewound = true ∧ bitOf (db (tFl 0x04 [(25, 2)]).desc 25 1) 1 = true
    ∧ pastGate (tParked [(25, 2)] []) 0 0x04 (tFl 0x04 [(25, 2)]) := by unfold pastGate atDispatch; decide +kernel
theorem wit_cut_and_trim : pastGate (tIdle (tFl 0x05)) 0 0x05 (tFl 0x05) ∧ pastGate (tIdle (tFl 0x06)) 0 0x06 (tFl 0x06)
    ∧ db (tFl 0x06).desc 24 4 ≤ (recOf (tIdle (tFl 0x06)) 0).len ∧ pastGate (tIdle (tFl 0x06 [(24, 1)])) 0 0x06 (tFl 0x06 [(24, 1)])
    ∧ (recOf (tIdle (tFl 0x06 [(24, 1)])) 0).len < db (tFl 0x06 [(24, 1)]).desc 24 4
    ∧ pastGate (tAt (tSess tRec .cutPending (some tWork)) (tFl 0x05)) 0 0x05 (tFl 0x05)
    ∧ ctxStateOf (tAt (tSess tRec .cutPending (some tWork)) (tFl 0x05)) 0 = .cutPending := by unfold pastGate atDispatch; decide +kernel

/-- A paused session whose times have run out. -/
def tTimes : Rec := { state := .paused, releasedAt := some 0, ttlFrom := some 0, ttl := 5, parkAfter := 5, pausedAt := some 0, hold := 5 }

theorem wit_times : (let d := precede (tSess tTimes .free none) 3 (handleOf (tSess tTimes .free none) 0)
       (recOf d 0).ttlFrom = some 0 ∧ 0 + (recOf d 0).ttl ≤ frame d ∧ (recOf d 0).slot = none ∧ (recOf d 0).state = .paused ∧ sessGroups d 0 = []
         ∧ resumeWaits d 0 = false)
    ∧ (let s := tTick 5 (tSess tTimes .free none)
       frame (precede s 3 (handleOf s 0)) < 0 + (recOf (precede s 3 (handleOf s 0)) 0).ttl) := by decide +kernel
theorem wit_auto_park : (let s := tSess { tTimes with ttl := 0 } .free none
       let d := precede s 5 (handleOf s 0)
       (recOf d 0).releasedAt = some 0 ∧ 0 + (recOf d 0).parkAfter ≤ frame d ∧ (recOf d 0).state = .paused ∧ (recOf d 0).slot = none
         ∧ (recOf d 0).ttl = 0 ∧ (parkNow d 0 (recOf d 0).parkTier none).2.2 = true)
    ∧ (let s := tTick 5 (tSess tTimes .free none)
       frame (precede s 5 (handleOf s 0)) < 0 + (recOf (precede s 5 (handleOf s 0)) 0).parkAfter) := by decide +kernel
theorem wit_hold : (let s := tSess { tTimes with slot := some 0 } .paused none
       let d := precede s 4 (handleOf s 0)
       (recOf d 0).pausedAt = some 0 ∧ (recOf d 0).state = .paused ∧ (recOf d 0).slot = some 0 ∧ (slotOf d 0).state = .paused
         ∧ (recOf d 0).hold ≠ 0 ∧ 0 + (recOf d 0).hold ≤ frame d)
    ∧ (let s := tTick 5 (tSess { tTimes with slot := some 0 } .paused none)
       frame (precede s 4 (handleOf s 0)) < 0 + (recOf (precede s 4 (handleOf s 0)) 0).hold) := by decide +kernel

/-- Is the set-up of work ready, with the session still in its slot? -/
def tSetUp (d : Dev) (f : Flight) (bytes : Nat) : Bool :=
  match setUp d 0 f 0 bytes with
  | .ready e => (recOf e 0).slot == some 0
  | _ => false

/-- A batch of one entry. -/
def tBatch : Flight := { tFl 0x10 with entries := [{ handle := 0, single := true }] }

theorem wit_step_starts : pastGate (tIdle tBatch) 0 0x10 tBatch ∧ strReady (tIdle tBatch) 0 = true
    ∧ tBatch.entries = [{ handle := 0, single := true }] ∧ (recOf (tIdle tBatch) 0).slot = some 0 := by unfold pastGate atDispatch; decide +kernel
theorem wit_step_checked : stepCheck (tIdle tBatch) [] 0 (stepOk (tIdle tBatch)) = .ok 0 := by decide +kernel
theorem wit_step_set_up : (let m := modelFor (tIdle tBatch) (recOf (tIdle tBatch) 0)
    tSetUp (tIdle tBatch) tBatch (stageBytes m 1 + growBytes m (recOf (tIdle tBatch) 0) 1)) = true := by decide +kernel

/-- A prefill of two symbols, a tuning step over position 0 and one that discards. -/
def tPrefill : Flight := tFl 0x11 [(36, 2)]
def tTune : Flight := tFl 0x12 [(28, 1), (52, 1), (54, 1)]
def tDiscard : Flight := tFl 0x12 [(28, 1), (54, 3)]
/-- The device with a session of one position. -/
def tOne (f : Flight) : Dev := tAt (tSess { tRec with len := 1, log := [65], kv := [{}] } .opened none) f

theorem wit_prefill_starts : pastGate (tIdle tPrefill) 0 0x11 tPrefill ∧ bitOf (db tPrefill.desc 40 1) 0 = false
    ∧ stepCheck (tIdle tPrefill) [] (dSel tPrefill.desc) (prefillOk (tIdle tPrefill) 2 false) = .ok 0
    ∧ tSetUp (tIdle tPrefill) tPrefill (let m := modelFor (tIdle tPrefill) (recOf (tIdle tPrefill) 0)
        stageBytes m 3 + growBytes m (recOf (tIdle tPrefill) 0) 3) = true
    ∧ stepCheck (tBusy tPrefill) [] (dSel tPrefill.desc) (prefillOk (tBusy tPrefill) 2 false) = .waits
    ∧ (match stepCheck (tIdle tPrefill) [] 0x1000000 (prefillOk (tIdle tPrefill) 2 false) with | .fail _ _ => true | _ => false) = true := by
  unfold pastGate atDispatch; decide +kernel
theorem wit_tune_starts : pastGate (tOne tTune) 0 0x12 tTune ∧ (recOf (tOne tTune) 0).edits.any Edit.needed = false
    ∧ stepCheck (tOne tTune) [] (dSel tTune.desc) (tuneOk (tOne tTune) tTune.desc) = .ok 0 ∧ bitOf (db tTune.desc 54 1) 1 = false
    ∧ (let x := recOf (tOne tTune) 0
       let m := modelFor (tOne tTune) x
       tSetUp (tOne tTune) tTune (stageBytes m 1 + saveBytes m 1
         + pageSize * (missingPages m { x with kv := withTuning x.kv (tuningFrom m x tTune.desc) }).length)) = true
    ∧ pastGate (tOne tDiscard) 0 0x12 tDiscard ∧ stepCheck (tOne tDiscard) [] (dSel tDiscard.desc) (tuneOk (tOne tDiscard) tDiscard.desc) = .ok 0
    ∧ bitOf (db tDiscard.desc 54 1) 1 = true := by unfold pastGate atDispatch; decide +kernel

/-- A prefill that has waited for room that its client's share does not give. -/
def tStarved : Dev := tAt (fset (tSess tRec .opened none) Fd.MEM_CLIENT_SHARE_t1 0 0) { tPrefill with testedAt := some 0 }

theorem wit_spill_wait : (sqOf tStarved 0).flights = [{ tPrefill with testedAt := some 0 }] ∧ tPrefill.phase = .waiting
    ∧ 0 + fget tStarved Fd.ATN_SPILL_WAIT_frames * 65536 ≤ up tStarved
    ∧ (lackT1 tStarved (recOf tStarved 0).client (stageBytes (modelFor tStarved (recOf tStarved 0)) (prefillRows (recOf tStarved 0) 2)
        + growBytes (modelFor tStarved (recOf tStarved 0)) (recOf tStarved 0) (prefillRows (recOf tStarved 0) 2))).isSome = true := by
  decide +kernel

/-- A team of one array that runs in slot 0, on a slice that has no other array. -/
def tAlone (cores : List ArrCore) : Team :=
  { slot := 0, kind := 0, slice := 0, client := 0, lc := true, size := 1, order := 0, arrays := [0], running := true, cores := cores }
def tLone (w : Option Work) (cores : List ArrCore) : Dev :=
  let d := tSess tRec .running w
  { d with fab := { d.fab with slice := [(0, { arrays := [0] })], teams := [tAlone cores] } }

/-- The last eight bytes of a layer block of some size. -/
def tFrame (typ layer attempt total : Nat) : LxFrame :=
  let bs : List Byte := List.replicate 8 0
  { exchange := 0, stepSeq := 0, rows := 1, layer := layer, typ := typ, attempt := attempt, offset := total - 8, length := 8, total := total,
    crc := crc32c bs, payload := bs }
def tRefuse : LxFrame :=
  { exchange := 0, stepSeq := 0, rows := 1, layer := 0, typ := 10, attempt := 0, offset := 0, length := 0, total := 0, crc := crc32c [], payload := [] }
/-- The device with work in a phase, all but the last eight bytes of its block received, or none. -/
def tPhase (p : WPhase) (w : Work) : Dev := tSess tRec .running (some { w with phase := p })
def tPart (n : Nat) (w : Work) : Work := { w with rx := [(0, List.replicate (n - 8) 0)] }

theorem wit_layer_frames : lxFor (tPhase .qkv tWork) (tFrame 9 0 0 464) 2 = none
    ∧ lxFor (tPhase .qkv (tPart 464 tWork)) (tFrame 2 0 0 464) 2 = some (0, tPart 464 tWork)
    ∧ lxFor (tPhase .qkv tWork) (tFrame 2 0 0 464) 2 = some (0, tWork)
    ∧ (covered 464 ((tPart 464 tWork).rx ++ [(456, (tFrame 2 0 0 464).payload)])).isSome = true
    ∧ covered 464 (tWork.rx ++ [(456, (tFrame 2 0 0 464).payload)]) = none
    ∧ lxFor (tPhase .hid tWork) (tFrame 4 1 0 260) 4 = some (0, { tWork with phase := .hid }) := by decide +kernel
theorem wit_gradient_frames : lxFor (tPhase .dO tWork) (tFrame 6 0 0 516) 6 = some (0, { tWork with phase := .dO })
    ∧ teamFits (tPhase .qkv tWork) (rcpFor (tPhase .qkv tWork) tRec) (attnKind .step) = true
    ∧ teamFits (tPhase .dO tWork) (rcpFor (tPhase .dO tWork) tRec) 4 = true ∧ teamFits (tPhase .dH tWork) (rcpFor (tPhase .dH tWork) tRec) 5 = true
    ∧ lxFor (tPhase .dH { tWork with layer := 1 }) (tFrame 8 1 0 260) 8 = some (0, { tWork with phase := .dH, layer := 1 })
    ∧ lxFor (tPhase .qkv tWork) tRefuse 10 = some (0, tWork) ∧ tWork.attempt = 0 := by decide +kernel
theorem wit_layer_faults : (let d := tPhase .qkv tWork
       (sufferWork d 0 [.tileLasting 3]).2 = some tWork ∧ lastingTile [.tileLasting 3] = some 3 ∧ lastingTile [] = none
         ∧ (sufferWork d 0 []).2 = some tWork)
    ∧ (sufferWork (tLone (some tWork) []) 0 [.ckLasting 0 1]).2 = none := by decide +kernel
theorem wit_layer_timeout : workOf (tPhase .qkv { tWork with attempt := 1 }) 0 = some { tWork with attempt := 1 }
    ∧ (awaited (modelFor (tPhase .qkv tWork) tRec) tWork).isSome = true
    ∧ (0 : Nat) + max 1 (fget (tPhase .qkv tWork) Fd.CTX_LX_TIMEOUT_frames) ≤ frame (tPhase .qkv tWork)
    ∧ frame (tTick 0 (tPhase .qkv tWork)) < 0 + max 1 (fget (tPhase .qkv tWork) Fd.CTX_LX_TIMEOUT_frames)
    ∧ awaited (modelFor (tPhase .qkv tWork) tRec) { tWork with phase := .ready } = none := by decide +kernel
theorem wit_commit : workOf (tPhase .ready tWork) 0 = some { tWork with phase := .ready }
    ∧ (slotOf (tPhase .ready tWork) 0).state = .running ∧ tWork.kind ≠ .tune ∧ tWork.phase ≠ .ready := by decide +kernel

/-- An entry of slot 0 that waits, runs or is saved. -/
def tTeam (n : Nat) : Team := { slot := 0, kind := 0, slice := 0, client := 0, lc := true, size := n, order := 0 }
def tVictim : Team := { slot := 1, kind := 0, slice := 0, client := 0, lc := false, size := 4, order := 1, arrays := [0, 1, 2, 3], running := true }
def tTeams (ts : List Team) : Dev :=
  let d := fset (tSess tRec .running (some tWork)) Fd.SEQ_LC_QUOTA_lc_arrays 4 (lcBank 0 0)
  { d with fab := { d.fab with teams := ts } }

theorem wit_entry_start : lcNext (tTeams [tTeam 2]) 0 = some (tTeam 2) ∧ teamRoom (tTeams [tTeam 2]) (tTeam 2) = true
    ∧ (∀ x ∈ (tTeams [tTeam 2]).fab.teams, strandedTeam (tTeams [tTeam 2]) x = false)
    ∧ (tTeams [tTeam 5]).fab.teams.find? (fun x => x.slice == 0 && !x.running && !x.saving && strandedTeam (tTeams [tTeam 5]) x) = some (tTeam 5)
    ∧ (let t : Team := { tVictim with arrays := [], running := false }
       lcNext (tTeams [t]) 0 = none ∧ firstTeam (tTeams [t]) false (waitingTeams (tTeams [t]) 0 false) = some t ∧ teamRoom (tTeams [t]) t = true
         ∧ savedTeams (tTeams [t]) 0 = [] ∧ strandedTeam (tTeams [t]) t = false) := by decide +kernel
theorem wit_preemption : lcNext (tTeams [tTeam 2, tVictim]) 0 = some (tTeam 2) ∧ teamRoom (tTeams [tTeam 2, tVictim]) (tTeam 2) = false
    ∧ victims (tTeams [tTeam 2, tVictim]) 0 = [tVictim] ∧ heldT1 (tTeams [tTeam 2, tVictim]) (savedBytes (tTeams [tTeam 2, tVictim]) tVictim) = false
    ∧ lackT1 (tTeams [tTeam 2, tVictim]) 0 (savedBytes (tTeams [tTeam 2, tVictim]) tVictim) = none
    ∧ comingArrays (tTeams [tTeam 2, tVictim]) 0 = 0 ∧ (idleArrays (tTeams [tTeam 2, tVictim]) 0).length < 2
    ∧ (let ts := [tTeam 2, { tVictim with lc := true, client := 1 }]
       victims (tTeams ts) 0 = [] ∧ comingArrays (tTeams ts) 0 = 0 ∧ lcNext (tTeams ts) 0 = some (tTeam 2) ∧ teamRoom (tTeams ts) (tTeam 2) = false
         ∧ (tTeam 2).short = false) := by decide +kernel
theorem wit_saved : teamOf (tTeams [{ tTeam 2 with saving := true }]) 0 = some { tTeam 2 with saving := true }
    ∧ teamOf (tTeams [{ tTeam 2 with saved := true }]) 0 = some { tTeam 2 with saved := true }
    ∧ (lcNext (tTeams [{ tTeam 2 with saved := true }]) 0).filter (teamRoom (tTeams [{ tTeam 2 with saved := true }])) = none
    ∧ (savedTeams (tTeams [{ tTeam 2 with saved := true }]) 0).head?.map (fun x => x.slot) = some 0
    ∧ teamRoom (tTeams [{ tTeam 2 with saved := true }]) { tTeam 2 with saved := true } = true
    := by decide +kernel
theorem wit_entry_halt : teamOf (tLone (some tWork) [{ halted := true }]) 0 = some (tAlone [{ halted := true }])
    ∧ (slotOf (tLone (some tWork) [{ halted := true }]) 0).work = some tWork
    ∧ (runCores (tLone (some tWork) [{ halted := true }]) (tAlone [{ halted := true }]) runBound).cores.map (fun c => c.halted) = [true] := by
  decide +kernel

/-! ### Witnesses: objects, recipes, tables, indexes -/

/-- A move of one page of table 0, version 1, queued, or with a mover. -/
def tMove (frame await : Nat) : QPage := { group := 0, page := 0, dest := { tier := 1, frame := frame }, queued := 0, since := 0, await := await }
def tGroup : MoveGrp := { id := 0, why := .objMove, obj := .table 0 1, left := [0] }
def tMoves (p : QPage) (moving : Bool) (ps : NMap Loc) : Dev :=
  { tSess tRec .opened none with
    txt := { tbl := [(0, { cur := some { tBytes with pages := ps } })] },
    dly := { groups := [tGroup], queues := if moving then [] else [(6, [p])], movers := if moving then [(0, p)] else [] } }

/-- A device with a table, an index, a recipe and a session, of one client, and a descriptor next on ring 0. -/
def tObj (t : Tbl) (i : Idx) (f : Flight) : Dev :=
  tAt { tSess { tRec with slot := none } .free none with txt := { tbl := [(0, t)] }, fls := { idx := [(0, i)] } } f

theorem wit_hints : pastGate (tObj {} {} (tFl 0x21 [(24, 0x10)])) 0 0x21 (tFl 0x21 [(24, 0x10)])
    ∧ db (tFl 0x21 [(24, 0x10)]).desc 24 1 = 0x10 ∧ tblForeign (tObj { cur := some tBytes } {} (tFl 0x21)) 0 0 = false
    ∧ tblForeign (tObj { cur := some tBytes, client := 2 } {} (tFl 0x21)) 0 0 = true ∧ db (tFl 0x21).desc 24 1 ≠ 0x10
    ∧ namesSession (tObj {} {} (tFl 0x21)) (tFl 0x21) 0 ∧ (recOf (tObj {} {} (tFl 0x21)) 0).state = .active
    ∧ pastGate (tObj {} {} (tFl 0x21)) 0 0x21 (tFl 0x21) := by unfold pastGate atDispatch namesSession namesRecord; decide +kernel
theorem wit_frees : pastGate (tObj {} {} (tFl 0x22 [(24, 0x10), (36, 1)])) 0 0x22 (tFl 0x22 [(24, 0x10), (36, 1)])
    ∧ (tblOf (tObj { staged := some tBytes } {} (tFl 0x22)) 0).staged = some tBytes
    ∧ tBytes.num = db (tFl 0x22 [(24, 0x10), (36, 1)]).desc 36 4 ∧ (tObj {} {} (tFl 0x22)).dly.groups = []
    ∧ (∃ g ∈ (tMoves (tMove 3 0) false []).dly.groups, g.obj = .table 0 tBytes.num)
    ∧ pastGate (tObj {} { state := 1 } (tFl 0x22 [(24, 0x20)])) 0 0x22 (tFl 0x22 [(24, 0x20)])
    ∧ idxForeign (tObj {} { state := 1 } (tFl 0x22 [(24, 0x20)])) 0 0 = false
    ∧ idxNamed (tObj {} { state := 1 } (tFl 0x22 [(24, 0x20)])) 0 0 0 = false ∧ pastGate (tObj {} {} (tFl 0x22)) 0 0x22 (tFl 0x22)
    ∧ db (tFl 0x22).desc 24 1 ≠ 0x10 ∧ db (tFl 0x22).desc 24 1 ≠ 0x20 ∧ namesSession (tObj {} {} (tFl 0x22)) (tFl 0x22) 0 := by
  unfold pastGate atDispatch namesSession namesRecord; decide +kernel
theorem wit_moves : pastGate (tObj { cur := some tBytes } {} (tFl 0x20 [(24, 0x10)])) 0 0x20 (tFl 0x20 [(24, 0x10)])
    ∧ namedVersion { cur := some tBytes } 0 = some tBytes ∧ movingPages (tObj { cur := some tBytes } {} (tFl 0x20)) (.table 0 1) = []
    ∧ (∃ k ∈ keys [(0, ({ tier := 2, frame := 0 } : Loc))], k ∈ movingPages (tMoves (tMove 3 0) false []) (.table 0 1))
    ∧ pastGate (tObj {} { state := 1 } (tFl 0x20 [(24, 0x20)])) 0 0x20 (tFl 0x20 [(24, 0x20)])
    ∧ (idxOf (tObj {} { state := 1 } (tFl 0x20)) 0).folding = none ∧ idxForeign (tObj {} { state := 1 } (tFl 0x20)) 0 0 = false
    ∧ idxForeign (tObj {} { state := 1, client := 2 } (tFl 0x20)) 0 0 = true
    ∧ pastGate (tObj {} {} (tFl 0x20)) 0 0x20 (tFl 0x20) ∧ namesSession (tObj {} {} (tFl 0x20)) (tFl 0x20) 0 := by
  unfold pastGate atDispatch namesSession namesRecord; decide +kernel
theorem wit_unload : pastGate (tObj {} {} (tFl 0x71)) 0 0x71 (tFl 0x71) ∧ rcpServes (rcpOf (tObj {} {} (tFl 0x71)) 0) = true
    ∧ rcpBound (tObj {} {} (tFl 0x71)) 0 ≠ 0 ∧ pastGate (tEmpty (tFl 0x71)) 0 0x71 (tFl 0x71) ∧ rcpBound (tEmpty (tFl 0x71)) 0 = 0
    ∧ rcpServes (rcpOf (tEmpty (tFl 0x71)) 0) = true ∧ rcpRuns (tEmpty (tFl 0x71)) 0 = false
    ∧ rcpServes (rcpOf (tEmpty (tFl 0x71)) 5) = false
    ∧ (let d := { tEmpty (tFl 0x71) with fab := (tLone none []).fab }
       rcpRuns d 0 = true ∧ rcpBound d 0 = 0 ∧ rcpServes (rcpOf d 0) = true) := by unfold pastGate atDispatch; decide +kernel

/-- A recipe container: the three entries that a step needs, each a `halt`, no object and no constant. -/
def tCtr : List Byte := fields ([(0x45504352, 4), (1, 2), (3, 1), (0, 1), (9, 8), (1, 4), (0, 2), (0, 2), (0, 8), (0, 4), (3, 4), (176, 4),
  (200, 4), (0, 4), (0, 4), (200 + sigBytes, 4), (0, 4)] ++ [(1, 2), (1, 2), (1, 1), (0, 1), (1, 1), (0, 1), (1, 1), (0, 1), (0, 4), (1, 2), (0, 48)]
  ++ (List.range 3).flatMap (fun k => [(k + 1, 2), (1, 2), (k, 4), (1, 4), (1, 2), (0, 2)]) ++ List.replicate 3 (3 * 2 ^ 54, 8))
/-- A load of it into an empty slot, and of its slot once it is taken. -/
def tLoadRcp : Flight := tFl 0x70 [(4, 1), (32, 200 + sigBytes)]

theorem wit_recipe_load : pastGate (tIdle tLoadRcp) 0 0x70 tLoadRcp ∧ dSel tLoadRcp.desc % 64 = 1 ∧ (rcpOf (tIdle tLoadRcp) 1).state = .empty
    ∧ (rcpOf (tIdle (tFl 0x70)) 0).state ≠ .empty ∧ (sliceArrays (tIdle tLoadRcp) 0).isEmpty = false
    ∧ mise (tIdle tLoadRcp) (readCtr tCtr) (200 + sigBytes) 0 = []
    ∧ mise (tIdle tLoadRcp) (readCtr [1]) (200 + sigBytes) 0 ≠ [] ∧ (readCtr tCtr).keyOff = 0
    ∧ allSome ((ctrObjs (readCtr tCtr)).map (openObj (readCtr tCtr) none)) = some []
    ∧ (pickFrom (readCtr tCtr).footprint (freeBanks (tIdle tLoadRcp) 0) (tIdle tLoadRcp)).1 = []
    ∧ (vacate (pickFrom (readCtr tCtr).footprint (freeBanks (tIdle tLoadRcp) 0) (tIdle tLoadRcp)).2 []).any
        (fun d => !bankHeld (publishMoved d) []) = true := by
  unfold pastGate atDispatch; decide +kernel

/-- A version of a gather table of 64 rows of 64 FP32 elements, with its first rows loaded. -/
def tRows : TVer := { tBytes with num := 2, kind := 2, fmt := 1, order := 0, rowsM1 := 63, chunks := [(2 ^ 40, [[0]]), (2 ^ 41, [[0]])] }

/-- A table with a current and a staged version, and a gather of one bag. -/
def tTwo : Tbl := { staged := some tRows, cur := some tBytes }
def tBag : Flight := tFl 0x32 [(56, 256), (60, 1)] (leBytes 4 1)

theorem wit_tables : pastGate (tObj { client := 2, cur := some tRows } {} (tFl 0x30)) 0 0x30 (tFl 0x30)
    ∧ pastGate (tObj {} {} (tFl 0x31)) 0 0x31 (tFl 0x31) ∧ (tblOf (tObj tTwo {} (tFl 0x31)) 0).staged = some tRows ∧ db (tFl 0x31).desc 28 1 = 0
    ∧ tblForeign (tObj tTwo {} (tFl 0x31)) 0 0 = false ∧ fullyLoaded tRows = true ∧ tblBound (tObj tTwo {} (tFl 0x31)) 0 1 = false
    ∧ bitOf (db (tFl 0x31 [(28, 1)]).desc 28 1) 0 = true ∧ tBytes.num ≠ db (tFl 0x31 [(28, 1)]).desc 24 4
    ∧ bitOf (db (tFl 0x31 [(28, 2)]).desc 28 1) 1 = true ∧ 2 ≤ ({ tTwo with old := [tBytes, tBytes] } : Tbl).old.length
    ∧ ({ tTwo with old := [tBytes, tBytes] } : Tbl).cur ≠ none := by unfold pastGate atDispatch; decide +kernel
theorem wit_gather : pastGate (tObj { cur := some tRows } {} tBag) 0 0x32 tBag ∧ tblForeign (tObj { cur := some tRows } {} tBag) 0 0 = false
    ∧ tRows.damaged = false ∧ ({ tRows with damaged := true } : TVer).damaged = true ∧ 4 * tRows.dim * db tBag.desc 60 2 = db tBag.desc 56 4
    ∧ db (tFl 0x32 [(56, 255), (60, 1)]).desc 56 4 < 4 * tRows.dim * db (tFl 0x32 [(56, 255), (60, 1)]).desc 60 2
    ∧ lastingTile [.tileLasting 0] ≠ none ∧ lastingTile [] = none
    ∧ pastGate (tObj { cur := some tRows } {} (tFl 0x32 [(56, 255), (60, 1)])) 0 0x32 (tFl 0x32 [(56, 255), (60, 1)]) := by
  unfold pastGate atDispatch; decide +kernel

/-- A load of four rows into a staged version. -/
def tLoadRow : Flight := tFl 0x30 [(36, 1024), (44, 1), (48, 63), (52, 64), (54, 2), (55, 1), (56, 1), (62, 1)]
def tStaged : Tbl := { staged := some { tRows with pages := [(2 ^ 40, { tier := 1, frame := 0 })] } }

theorem wit_table_load : pastGate (tObj tStaged {} tLoadRow) 0 0x30 tLoadRow ∧ tblForeign (tObj tStaged {} tLoadRow) 0 0 = false
    ∧ loadConflict (tObj tStaged {} tLoadRow) 0 tLoadRow.desc = false
    ∧ (rowPages tRows (db tLoadRow.desc 44 1) (db tLoadRow.desc 40 4) (db tLoadRow.desc 36 4 / max 1 (rowBytes tRows.fmt tRows.dim))) = [2 ^ 40]
    ∧ alloc (tObj tStaged {} tLoadRow) 0 1 0 = .ok [] (tObj tStaged {} tLoadRow)
    ∧ db tLoadRow.desc 61 1 = 0 ∧ db tLoadRow.desc 45 1 = 0 ∧ (loadRows (tObj tStaged {} tLoadRow) tLoadRow.desc [7]).isSome = true := by
  unfold pastGate atDispatch; decide +kernel

/-- A constraint list of one free sequence of one byte. -/
def tSeqs : List Byte := fields [(1, 1), (0, 1), (1, 2), (0, 4), (65, 1), (0, 7)]
def tLists : Flight := tFl 0x78 [(36, 16), (40, 1)]

theorem wit_constraint : pastGate (tIdle tLists) 0 0x78 tLists ∧ (colOf (tIdle tLists) 0).cur = none ∧ bitOf (db tLists.desc 42 1) 0 = false
    ∧ colParse (db tLists.desc 40 2) (tSeqs.take (db tLists.desc 36 4)) = some [⟨false, 0, [65]⟩] ∧ colConflict [⟨false, 0, [65]⟩] = false
    ∧ colStates [⟨false, 0, [65]⟩] = 2 ∧ heldT1 (tIdle tLists) (576 * 2) = false ∧ colParse 1 [1] = none
    ∧ colConflict [⟨true, 1, [65, 66]⟩, ⟨true, 1, [65, 67]⟩] = true
    ∧ lackT1 (setCol (tIdle tLists) 0 { colOf (tIdle tLists) 0 with client := 0, cur := none }) 0 (576 * 2) = none := by
  unfold pastGate atDispatch; decide +kernel

/-- An index that serves, and commands on it. -/
def tIdx : Idx := { state := 1 }
def tQuery : Flight := tFl 0x40 [(56, 64), (58, 1)]

/-- A search with one shard asked, in flight. -/
def tSearch : Search := { ring := 0, flight := 0, index := 0, base := 0, seq := 0, k := 1, vecs := [[]], asked := [1] }

theorem wit_search : pastGate (tObj {} tIdx tQuery) 0 0x40 tQuery ∧ idxForeign (tObj {} tIdx tQuery) 0 0 = false
    ∧ idxForeign (tObj {} { tIdx with client := 2 } tQuery) 0 0 = true ∧ (idxOf (tObj {} {} tQuery) 0).state = 0
    ∧ ({ tIdx with damaged := true } : Idx).damaged = true ∧ tIdx.state ∈ [1, 2, 3] ∧ tIdx.dim = db tQuery.desc 56 2
    ∧ (∀ q ∈ queryVecs tQuery.desc [], vecFault tIdx.metric q = 0)
    ∧ queriesInFlight (tObj {} tIdx tQuery) + db tQuery.desc 58 1 ≤ 2048 ∧ bitOf (db tQuery.desc 59 1) 0 = false
    ∧ 2048 < queriesInFlight { tObj {} tIdx tQuery with fls := { idx := [(0, tIdx)], search := [(0, { tSearch with vecs := List.replicate 2048 [] })] } }
        + db tQuery.desc 58 1 := by unfold pastGate atDispatch; decide +kernel
/-- An insert of one vector of 64 elements. -/
def tInsert : Flight := tFl 0x41 [(60, 1), (62, 64)]

theorem wit_index_commands : pastGate (tObj {} tIdx tInsert) 0 0x41 tInsert ∧ db tInsert.desc 40 8 = 0 ∧ tIdx.dim = db tInsert.desc 62 2
    ∧ lackT1 (tObj {} tIdx tInsert) 0 (db tInsert.desc 60 2 * (nodeSize tIdx + 8 * tIdx.degree)) = none
    ∧ heldT1 (tObj {} tIdx tInsert) (db tInsert.desc 60 2 * (nodeSize tIdx + 8 * tIdx.degree)) = false
    ∧ tIdx.next + goodVectors tIdx.metric tIdx.dim [List.replicate 264 0] ≤ 2 ^ 36
    ∧ sumN ((vals (tObj {} tIdx tInsert).fls.idx).map liveVectors) + goodVectors tIdx.metric tIdx.dim [List.replicate 264 0] ≤ 2 ^ 36
    ∧ pastGate (tObj {} tIdx (tFl 0x42 [(40, 1)])) 0 0x42 (tFl 0x42 [(40, 1)]) ∧ db (tFl 0x42 [(40, 1)]).desc 48 8 = 0
    ∧ pastGate (tObj {} tIdx (tFl 0x43)) 0 0x43 (tFl 0x43) ∧ tIdx.folding = none ∧ (tObj {} tIdx (tFl 0x43)).dly.groups = [] ∧ tIdx.damaged = false
    ∧ alloc (tObj {} tIdx (tFl 0x43)) 0 tIdx.tier (foldChunks tIdx (foldBase tIdx)).1.length = .ok [] (tObj {} tIdx (tFl 0x43)) := by
  unfold pastGate atDispatch; decide +kernel

/-- A device with a search of one shard asked, in flight. -/
def tAsked : Dev := { tObj {} { tIdx with list := [(4, 0), (9, 0)], folding := some (0, 0, {}) } tQuery with
  fls := { idx := [(0, { tIdx with list := [(4, 0), (9, 0)], folding := some (0, 0, {}) })], search := [(0, tSearch)] },
  tc := { tReady.tc with up := 2 ^ 40 } }

theorem wit_shards : look tAsked.fls.search (0 / 64) = some tSearch ∧ tSearch.asked.contains 1 = true ∧ 0 % 64 < tSearch.vecs.length
    ∧ replyOf tSearch 1 (0 % 64) = none ∧ ((idxOf tAsked tSearch.index).list.getD 1 (0, 0)).1 = 9 ∧ searchReady tSearch = false
    ∧ tSearch.sentAt + fget tAsked Fd.FLS_SHARD_TIMEOUT_frames * 65536 ≤ up tAsked
    ∧ up (tTick 0 tAsked) < tSearch.sentAt + fget tAsked Fd.FLS_SHARD_TIMEOUT_frames * 65536
    ∧ (idxOf tAsked 0).folding = some (0, 0, {}) ∧ (idxOf (suffer tAsked []) 0).folding = some (0, 0, {}) ∧ (idxOf tAsked 0).damaged = false
    ∧ searchReady { tSearch with asked := [] } = true ∧ look (suffer tAsked []).fls.search 0 = some tSearch ∧ tAsked.sys.resetLow = false
    ∧ (Incident.writeLasting ∉ []) ∧ look tAsked.fls.search 9 = none := by decide +kernel
theorem wit_shard_query : tAsked.sys.resetLow = false ∧ tAsked.sys.fatal = false ∧ (idxOf tAsked 7).state = 0 ∧ tAsked.lnk.fenced.contains 9 = false
    ∧ (let d := tObj {} { tIdx with state := 2 } tQuery
       (idxOf d 0).state = 2 ∧ (idxOf d 0).damaged = false ∧ (idxOf d 0).group = 0 ∧ (idxOf d 0).dim = 64 ∧ (idxOf d 0).metric = 0
         ∧ fbit d Fd.FLS_CTL_enable = true ∧ unitInReset d 4 = false ∧ queriesInFlight d < 2048) := by decide +kernel

/-! ### Witnesses: moves, links, loans, slates -/

/-- A session with a page in flash pair 0, which has been read often. -/
def tFlash : Dev :=
  { tReady with
    ctx := { recs := [(0, { state := .parked, pages := [(0, { tier := 4, frame := 0 })] })] }
    fls := { pairs := [(0, { reads := 2 ^ 40 })] } }

theorem wit_page_moves : idleMover (tMoves (tMove 3 0) false []) = some 0 ∧ nextPage (tMoves (tMove 3 0) false []) = some (6, tMove 3 0)
    ∧ grpOf (tMoves (tMove 3 0) false []) 0 = some tGroup ∧ (tMoves (tMove 3 0) false []).sys.resetLow = false
    ∧ (tMoves (tMove 3 0) false []).sys.fatal = false ∧ look (tMoves (tMove 3 0) false []).sys.unitRst 3 = none
    ∧ fbit (tMoves (tMove 3 0) false []) Fd.DLY_CTL_enable = true ∧ nextPage tReady = none
    ∧ look (tMoves (tMove 3 0) true []).dly.movers 0 = some (tMove 3 0) ∧ (tMove 3 0).await = 0
    ∧ (look (suffer (tMoves (tMove 3 0) true []) []).dly.movers 0).isSome = true
    ∧ look (tMoves (tMove 3 2) true []).dly.movers 0 = some (tMove 3 2) ∧ (tMove 3 2).await ≠ 0
    ∧ writeFailed (tMove 3 0).dest [] = false ∧ writeFailed (tMove 3 0).dest [.writeTransient] = true
    ∧ ({ tGroup with left := [0, 1] } : MoveGrp).left.erase 0 ≠ [] := by decide +kernel
theorem wit_write_again : writeAgain { tMoves (tMove 3 0) true [] with dly := {} } 0 (tMove 3 0) = none
    ∧ lastingTile [.tileLasting 0] = some 0 ∧ lastingTile [.writeLasting] = none := by decide +kernel
theorem wit_flash : flsServes tFlash = true ∧ livePages tFlash 0 ≠ 0 ∧ fget tFlash Fd.FLS_REFRESH_reads < (mget tFlash.fls.pairs {} 0).reads
    ∧ (mget tFlash.fls.pairs {} 5).reads ≤ fget tFlash Fd.FLS_REFRESH_reads ∧ livePages tReady 0 = 0 ∧ flsServes (tStage 8) = false
    ∧ livePages (suffer tFlash []) 0 ≠ 0 ∧ maskBit (tSess tRec .opened none).mem.nearUp.toNat 7 = true
    ∧ maskBit (tSess tRec .opened none).mem.nearRetired.toNat 7 = false ∧ maskBit tReady.mem.nearUp.toNat 7 = false := by decide +kernel

/-- A flit with its check value. -/
def tFlit (w : Nat) : List Byte := let b := padTo 252 (leBytes 4 w); b ++ leBytes 4 (crc32c b)
/-- A port in service. -/
def tUp (q : Port) : Dev := tPort { q with up := true, trained := true }

theorem wit_flit_good : flitGood (tFlit (2 ^ 12)) = true := by decide +kernel
theorem wit_flits : flitGood [1] = false ∧ bitsOf (leAt (tFlit (2 ^ 12)) 0 4) 12 4 = 1 ∧ leAt (tFlit (2 ^ 12)) 0 4 % 4096 = (portOf (tUp {}) 15).rxSeq
    ∧ leAt (tFlit (2 ^ 12)) 0 4 % 4096 ≠ (portOf (tUp { rxSeq := 9 }) 15).rxSeq
    ∧ bitOf (leAt (tFlit (2 ^ 12)) 0 4) 20 = false ∧ bitsOf (leAt (tFlit 0) 0 4) 12 4 ∈ [0, 2] ∧ bitsOf (leAt (tFlit (2 ^ 12)) 0 4) 12 4 ∉ [0, 2]
    ∧ (portOf (tUp {}) 15).up = true ∧ (portOf (tUp {}) 15).retraining = false ∧ (portOf tReady 15).up = false
    ∧ (portOf (tUp { lastNak := some 7 }) 15).lastNak = some (7 % 4096) ∧ (portOf (tUp {}) 15).lastNak ≠ some (7 % 4096) := by decide +kernel
theorem wit_flit_idle : flitGood (tFlit 0) = true := by decide +kernel
theorem wit_lanes : 0 < (portOf (tUp { rxSince := 1 }) 15).rxSince ∧ (portOf (tUp {}) 15).rxSince = 0 ∧ bitOf (portOf (tUp {}) 15).lanes 3 = true
    ∧ bitOf (portOf (tUp { lanes := 7 }) 15).lanes 3 = false ∧ (portOf (tUp { retraining := true }) 15).retraining = true
    ∧ (portOf (tUp {}) 15).lanes &&& (0#4).toNat = 0 ∧ (portOf (tUp {}) 15).lanes &&& (15#4).toNat = (portOf (tUp {}) 15).lanes
    ∧ (portOf (tUp {}) 15).lanes &&& (7#4).toNat ≠ (portOf (tUp {}) 15).lanes ∧ (portOf (tUp {}) 15).lanes &&& (7#4).toNat ≠ 0
    ∧ (portOf (tUp { peer := 4 }) 15).peer ≠ 5 := by decide +kernel
theorem wit_forward : (portOf (tUp { forward := [[1, 0, 2, 0, 0, 0, 0]] }) 15).forward = [[1, 0, 2, 0, 0, 0, 0]] ∧ (portOf (tUp {}) 15).forward = []
    ∧ leAt ([1, 0, 2, 0, 0, 0, 0] : List Byte) 6 1 = 0 ∧ leAt ([1, 0, 2, 0, 0, 0, 9] : List Byte) 6 1 ≠ 0
    ∧ (tUp {}).lnk.fenced.contains 1 = false ∧ (tUp {}).lnk.fenced.contains 2 = false
    ∧ ({ fenced := [1] } : Lnk).fenced.contains (leAt ([1, 0, 2, 0, 0, 0, 0] : List Byte) 0 2) = true := by decide +kernel
theorem wit_gates : fbit (precede tGate 1 1) Fd.LNK_CTL_enable = true
    ∧ (let d := precede (fset tGate Fd.LNK_GATE_SWITCH_arm 1) 1 0
       fbit d Fd.LNK_GATE_SWITCH_arm = true ∧ cycleStart (gateEntries d (1 - d.lnk.gateList)) (fget d Fd.LNK_GATE_SWITCH_frame) ≤ frame d)
    ∧ fbit (precede tGate 1 0) Fd.LNK_GATE_SWITCH_arm = false := by decide +kernel

/-- Memory lent to device 3 and borrowed from it. -/
def tLent : Dev :=
  { tSet (tSess { tRec with slot := none } .free none) [(Fd.LNK_LEND_t1_mib, 64)] with
    lnk := { loans := [(5, { borrower := 3, tier := 1, frames := [7], tiles := [(0, [1])] })], borrows := [(loanKey 3 5, { tier := 1, pages := 2 })],
             asked := [3] } }

theorem wit_lender : linksServe tLent = true ∧ tLent.map.leaving = false ∧ lendRoom tLent 1 ≠ 0
    ∧ lendRoom (tSet tLent [(Fd.LNK_LEND_t1_mib, 0)]) 1 = 0 ∧ lendRoom (tSet tLent [(Fd.LNK_LEND_t1_mib, 0)]) 2 = 0
    ∧ (let d := { tSet tLent [(Fd.LNK_LEND_t1_mib, 0), (Fd.LNK_LEND_t2_mib, 64)] with mem := { nearUp := 0xFF, farUp := 1 } }
       lendRoom d 1 = 0 ∧ lendRoom d 2 ≠ 0)
    ∧ (loanPage tLent 3 5 0).isSome = true ∧ loanPage tLent 4 5 0 = none ∧ loanPage tLent 3 5 1 = none
    ∧ (∀ t ∈ maskBits (1#8).toNat 8, (look ({ borrower := 3, tier := 1, frames := [7], tiles := [(0, [1])] } : Loan).tiles (0 * 8 + t)).isSome = true)
    ∧ (∃ t ∈ maskBits (2#8).toNat 8, look ({ borrower := 3, tier := 1, frames := [7], tiles := [(0, [1])] } : Loan).tiles (0 * 8 + t) = none)
    ∧ look tLent.lnk.loans 6 = none ∧ (look tLent.lnk.loans 5).map (fun l => l.borrower) = some 3 := by decide +kernel
theorem wit_borrower : tLent.lnk.asked.contains 3 = true ∧ tReady.lnk.asked.contains 3 = false ∧ (look tLent.lnk.borrows (loanKey 3 5)).isSome = true
    ∧ (∀ i ∈ keys tLent.ctx.recs, ∀ l ∈ recLocs (recOf tLent i), l.tier = 3 → t3Key l ≠ loanKey 3 5) ∧ look tReady.lnk.borrows (loanKey 3 5) = none
    ∧ recallOver (tTick 65536 tLent) (some (0, 1)) = true ∧ recallOver (tTick 65535 tLent) (some (0, 1)) = false ∧ tLent.sys.resetLow = false
    ∧ tLent.lnk.fenced.contains 3 = false ∧ ({ fenced := [3] } : Lnk).fenced.contains 3 = true := by decide +kernel

/-- A page of a loan on its way home, or out to the lender. -/
def tAway (await : Nat) : Dev :=
  tMoves { tMove 3 await with dest := if await = 2 then { tier := 3, frame := loanKey 3 5 * 2 ^ 32 } else { tier := 1, frame := 3 } } true
    [(0, { tier := 3, frame := loanKey 3 5 * 2 ^ 32 })]

/-- A page of a loan on its way to a loan of another lender. -/
def tOnward : Dev :=
  tMoves { tMove 3 1 with dest := { tier := 3, frame := loanKey 4 6 * 2 ^ 32 } } true [(0, { tier := 3, frame := loanKey 3 5 * 2 ^ 32 })]

theorem wit_loan_movers : (loanMover (tAway 2) (loanKey 3 5) 0 false).isSome = true ∧ loanMover tReady (loanKey 3 5) 0 false = none
    ∧ (loanMover (tAway 1) (loanKey 3 5) 0 true).map (fun m => m.2.dest.tier) = some 1 ∧ loanMover tReady (loanKey 3 5) 0 true = none
    ∧ (loanMover tOnward (loanKey 3 5) 0 true).map (fun m => m.2.dest.tier) = some 3 ∧ grpOf tOnward 0 = some tGroup := by decide +kernel

/-- A device with a slate open, or a mark scheduled. -/
def tOpen : Slating := { slate := tSlate 1, startedAt := 0, sentAt := 0, waiting := [], buddy := false, manifest := some [] }
def tMark (o : Option Slating) : Dev :=
  let d := tAt (tSess tRec .opened none) (tFl 0x50 [(24, 100000)])
  { d with ckp := { schedule := some (0, 10, 0, false), openSlate := o }, tc := { tReady.tc with up := 2 ^ 40 } }

theorem wit_slate_mark : pastGate (tMark none) 0 0x50 (tFl 0x50 [(24, 100000)])
    ∧ sqClient (tMark none) 0 = fget (tMark none) Fd.CKP_CFG_client ∧ sqClient (fset (tMark none) Fd.CKP_CFG_client 4) 0
        ≠ fget (fset (tMark none) Fd.CKP_CFG_client 4) Fd.CKP_CFG_client
    ∧ bitOf (db (tFl 0x50 [(40, 1)]).desc 40 1) 0 = true ∧ bitOf (db (tFl 0x50 [(24, 100000)]).desc 40 1) 0 = false
    ∧ db (tFl 0x50 [(24, 100000)]).desc 24 6 ≤ frame (tMark none)
    ∧ frame (tTick 0 (tMark none)) < db (tFl 0x50 [(24, 100000)]).desc 24 6 := by unfold pastGate atDispatch; decide +kernel
theorem wit_slates : (let d := precede (tMark none) 6 0
       ckpServes d = true ∧ waitsErase d (fget d Fd.CKP_CFG_tier) 1 = false ∧ d.ckp.emergency = false ∧ d.ckp.openSlate = none
         ∧ d.ckp.schedule = some (0, 10, 0, false) ∧ 0 ≤ frame d)
    ∧ (precede (tMark (some tOpen)) 6 0).ckp.openSlate.isSome = true
    ∧ (let d := precede { tMark none with ckp := { emergency := true } } 6 0
       d.ckp.emergency = true ∧ d.ckp.openSlate = none ∧ d.ckp.emergencyAt ≤ frame d ∧ ckpServes d = true)
    ∧ (precede tReady 6 0).ckp.emergency = false ∧ (precede tReady 6 0).ckp.schedule = none := by decide +kernel
theorem wit_slate_open : (tMark (some tOpen)).ckp.openSlate = some tOpen ∧ ckpServes (tMark (some tOpen)) = true
    ∧ tOpen.full = false ∧ tOpen.waiting = [] ∧ tOpen.buddy = false ∧ tOpen.manifest = some [] ∧ (tMark (some tOpen)).sys.resetLow = false
    ∧ tOpen.startedAt + fget (tMark none) Fd.CKP_CFG_max_frames * 65536 ≤ up (tMark none)
    ∧ up (tTick 0 (fset (tMark none) Fd.CKP_CFG_max_frames 1)) < tOpen.startedAt + fget (fset (tMark none) Fd.CKP_CFG_max_frames 1) Fd.CKP_CFG_max_frames * 65536
    ∧ tOpen.sentAt + fget (tMark none) Fd.CKP_CFG_buddy_wait * 65536 ≤ up (tMark none) := by decide +kernel
theorem wit_buddy_waits : (tMark none).lnk.fenced.contains (ownBuddy (tMark none)) = false ∧ tReady.ckp.openSlate = none
    ∧ ({ tOpen with buddy := true, waiting := [{ name := 1, copy := 2 }] } : Slating).buddy = true
    ∧ ({ tOpen with buddy := true, waiting := [{ name := 1, copy := 2 }] } : Slating).waiting ≠ [] := by decide +kernel

/-- A restore whose room is reserved, of a slate that holds the session. -/
def tShard : Shard :=
  { name := 0, kind := 0x10, epoch := 0, client := 0, folded := false, carried := false, rewound := false, recipeId := 0, version := 0,
    sess := some tRec, index := none, pages := [], image := [], digest := 0 }
def tRestore : Restore :=
  { slate := 1, name := 0, ring := 0, flight := 0, answers := true, fetching := false, reserved := true, before := .parked }
def tRestoring : Dev :=
  let d := tSess { tRec with slot := none, state := .moving, restoring := true } .free none
  { d with ckp := { kept := [{ tSlate 1 with shards := [tShard] }],
                    restores := [(0, tRestore)] } }

theorem wit_restore : look tRestoring.ckp.restores 0 = some tRestore ∧ handleOf tRestoring 0 = (0#32).toNat ∧ ckpServes tRestoring = true
    ∧ (restoreShard tRestoring tRestore).map (fun h => h.2) = some tShard ∧ tShard.sess = some tRec ∧ tRestore.fetching = false
    ∧ tRestore.reserved = true ∧ tRestore.answers = true ∧ ({ tRestore with answers := false } : Restore).copied = false
    ∧ tRestoring.dly.groups = [] ∧ ({ tRestore with fetching := true } : Restore).fetching = true ∧ look tReady.ckp.restores 0 = none
    ∧ slateRead tRestoring 1 = true := by decide +kernel
theorem wit_restore_commands : pastGate (tIdle (tFl 0x51)) 0 0x51 (tFl 0x51) ∧ namesSession (tIdle (tFl 0x51)) (tFl 0x51) 0
    ∧ bitOf (db (tFl 0x51).desc 28 1) 0 = false ∧ ctxStateOf (tIdle (tFl 0x51)) 0 ≠ .running ∧ ctxStateOf (tIdle (tFl 0x51)) 0 ≠ .saved
    ∧ sessGroups (tIdle (tFl 0x51)) 0 = [] ∧ bestSlate (tIdle (tFl 0x51)) (recOf (tIdle (tFl 0x51)) 0).name 0 = none
    ∧ sessGroups (tParked [] [tSession]) 0 ≠ []
    ∧ (let d := { tIdle (tFl 0x51) with ckp := { kept := [{ tSlate 1 with shards := [tShard] }] } }
       bestSlate d (recOf d 0).name 0 = some ({ tSlate 1 with shards := [tShard] }, tShard, true))
    ∧ (let h : Shard := { tShard with image := [(1, 0)] }
       let x : Slate := { tSlate 1 with shards := [h], buddy := true }
       let d := { fset (tSet (tIdle (tFl 0x51)) [(Fd.CKP_CFG_buddy, 3), (Fd.CKP_CFG_buddy_valid, 1)]) Fd.LNK_ROUTE_ports (2 ^ 15) 3 with
                  ckp := { kept := [x] }, lnk := { ports := [(15, { up := true, peer := 3 })] } }
       bestSlate d (recOf d 0).name 0 = some (x, h, false))
    ∧ pastGate (tIdle (tFl 0x51 [(28, 1), (30, 7)])) 0 0x51 (tFl 0x51 [(28, 1), (30, 7)])
    ∧ bitOf (db (tFl 0x51 [(28, 1), (30, 7)]).desc 28 1) 0 = true ∧ 7 ∉ (tIdle (tFl 0x51)).map.members
    ∧ ckpState (tIdle (tFl 0x51)) ≤ 1 ∧ sqClient (tIdle (tFl 0x51)) 0 = fget (tIdle (tFl 0x51)) Fd.CKP_CFG_client := by
  unfold pastGate atDispatch namesSession namesRecord; decide +kernel
theorem wit_buddy : ckpServes tReady = true ∧ tReady.lnk.fenced.contains 3 = false ∧ tReady.ckp.held = [] ∧ 9 ∉ tReady.map.members
    ∧ fget (fset tReady Fd.CKP_BUDDY_LIM_mib 0) Fd.CKP_BUDDY_LIM_mib * 2 ^ 20 < heldBytes tReady + pageSize * 1
    ∧ (let d := { fset (tSess tRec .opened none) Fd.CKP_BUDDY_LIM_mib 64 with mem := { nearUp := 0xFF, farUp := 1 } }
       heldBytes d + pageSize * 1 ≤ fget d Fd.CKP_BUDDY_LIM_mib * 2 ^ 20 ∧ (slateFrames d 1).isSome = true)
    ∧ ([{ origin := 3, slate := 1, name := 5, copy := 0, data := [1], locs := [] }] : List Held).find?
        (fun h => h.origin == 3 && h.slate == 1 && h.name == 5 && h.copy == 0) ≠ none := by decide +kernel

/-! ### Witnesses: handoff, membership, faults, time, power, meter, arithmetic -/

/-- A message of device 3 about handoff 1, and a domain of four devices. -/
def tMsg (device epoch : Nat) : MapMsg :=
  { src := 3, reason := 2, handoff := 1, name := 77, epoch := epoch, device := device, client := 0, recipeId := 0, recipeVersion := 0, pages := 0,
    handle := 9, domainEpoch := 4, compat := 0, digest := 0 }
def tDom (m : MapSt) : Dev :=
  { tSess { tRec with slot := none, state := .moving, name := 77 } .free none with
    map := { m with member := true, domEpoch := 4, members := [0, 1, 3, 9] }, tc := { tReady.tc with up := 2 ^ 40 } }
/-- The same domain seen by device 3. -/
def tThree (m : MapSt) : Dev := tSet (tDom m) [(Fd.MAP_CFG_device, 3)]
/-- An entry of the sender and of the receiver of handoff 1. -/
def tOut (state : Nat) : HoOut := { state := state, id := 1, rcd := 0, name := 77, dest := 3 }
def tIn (rcd : Option Nat) (p : Bool) : HoIn :=
  { src := 3, id := 1, name := 77, epoch := 0, client := 0, recipeId := 0, version := 0, pages := 0, key := 0, rcd := rcd, published := p }

theorem wit_offer : mapServes (tDom {}) = true ∧ (tDom {}).lnk.fenced.contains 3 = false ∧ unitInReset (tDom {}) 6 = false
    ∧ (tDom {}).map.members.contains 3 = true ∧ inFor (tDom {}) 3 1 = none ∧ inFor (noteMsg (tDom {}) (tMsg 3 1)) 3 1 = none
    ∧ hoFor (noteMsg (tDom {}) (tMsg 3 1)) 3 1 = none ∧ offerReason (noteMsg (tDom {}) { tMsg 3 1 with compat := 5 }) { tMsg 3 1 with compat := 5 } [] = 2
    ∧ mapServes (tStage 1) = false ∧ ({ fenced := [3] } : Lnk).fenced.contains 3 = true := by decide +kernel
theorem wit_sender : hoFor (noteMsg (tDom { out := [(2, tOut 1)] }) (tMsg 3 1)) 3 1 = some 2
    ∧ hoOf (noteMsg (tDom { out := [(2, tOut 1)] }) (tMsg 3 1)) 2 = tOut 1 ∧ hoHolds (noteMsg (tDom { out := [(2, tOut 1)] }) (tMsg 3 1)) (tOut 1) = true
    ∧ hoHolds { tDom {} with ctx := {} } (tOut 1) = false
    ∧ hoFor (noteMsg (tDom { out := [(2, tOut 3)] }) (tMsg 3 1)) 3 1 = some 2 ∧ hoOf (noteMsg (tDom { out := [(2, tOut 3)] }) (tMsg 3 1)) 2 = tOut 3
    ∧ acceptDue (precede (tDom { out := [(2, tOut 1)] }) 2 77) 2 = true ∧ acceptDue (precede (tDom {}) 2 0) 2 = false
    ∧ releaseDue (precede (tDom { out := [(2, tOut 3)] }) 2 77) 2 = true ∧ releaseDue (precede (tDom {}) 2 0) 2 = false := by decide +kernel
theorem wit_receiver : inFor (noteMsg (tDom { inb := [tIn (some 4) false] }) (tMsg 3 1)) 3 1 = some (tIn (some 4) false) ∧ (tIn (some 4) false).rcd.isSome = true
    ∧ inFor (tDom { inb := [tIn none false] }) 3 1 = some (tIn none false) ∧ (tIn none false).rcd = none ∧ (tIn none false).name = 77
    ∧ inFor (precede (tDom { inb := [tIn (some 4) false] }) 2 77) 3 1 = some (tIn (some 4) false)
    ∧ commitDue (tDom { inb := [tIn (some 4) false] }) (tIn (some 4) false) = true ∧ commitDue (tDom {}) (tIn (some 4) true) = false
    ∧ loadedRecipe (tDom {}) 0 0 = some 0 ∧ loadedRecipe (tDom {}) 5 0 = none ∧ recordQuota (tDom {}) 0 = true
    ∧ recordQuota (fset (tDom {}) Fd.CTX_CLIENT_LIM_max_records 0) 0 = false ∧ (freeRecord (tDom {})).isSome = true
    ∧ freeRecord { tDom {} with ctx := { tableLog2 := some 0, recs := [(0, { state := .parked })] } } = none := by decide +kernel
theorem wit_claims : look (noteMsg (tDom { claims := [(77, { epoch := 1, sentAt := 0, why := .inbound 3 1 })] }) (tMsg 3 1)).map.claims 77
        = some { epoch := 1, sentAt := 0, why := .inbound 3 1 }
    ∧ (look (noteMsg (tDom { claims := [(77, { epoch := 1, sentAt := 0, why := .reclaim 2 })] }) (tMsg 0 1)).map.claims 77).map (fun c => c.why) = some (.reclaim 2)
    ∧ (look (noteMsg (tDom { claims := [(77, { epoch := 1, sentAt := 0, why := .restore })] }) (tMsg 0 1)).map.claims 77).map (fun c => c.why) = some .restore
    ∧ (tMsg 0 1).device = ownDevice (tDom {}) ∧ look (noteMsg (tDom {}) (tMsg 3 1)).map.claims 77 = none := by decide +kernel

/-- An image without pages. -/
def tImage : SessImage :=
  { name := 77, epoch := 0, client := 0, recipeId := 0, version := 0, cls := 0, policy := 0, hold := 0, parkAfter := 0, parkTier := 0, ttl := 0,
    ttlLeft := 0, seed := 0, raw := false, key := 0, len := 0, ptGen := 0, stepSeq := 0, strOff := 0, strEpoch := 0, rebuildTo := none,
    hint := none, carry := [], log := [], kv := [], out := {}, pages := [], underflow := 0, precCount := 0, lastStep := 0, folded := false,
    wasPaused := false, freshSel := false }

theorem wit_transfer (d : Dev) : hoPlace d 0 tImage.pages = some (.ok ([], d)) := rfl

theorem wit_registrar : mapEntry (noteMsg (tDom { reg := [(77, { home := 1, epoch := 0 })] }) (tMsg 3 1)) 77 = some { home := 1, epoch := 0 }
    ∧ (0 : Nat) + 1 = (tMsg 3 1).epoch ∧ (0 : Nat) + 1 ≠ (tMsg 3 2).epoch ∧ (tMsg 3 0).epoch ≤ 0 ∧ 0 < (tMsg 3 1).epoch
    ∧ mapEntry (noteMsg (tDom {}) { tMsg 3 1 with name := 99 }) 99 = none ∧ regWaits (noteMsg (tDom {}) (tMsg 3 1)) = false
    ∧ regWaits (noteMsg (tDom { regWait := some (2 ^ 40) }) (tMsg 3 1)) = true ∧ regWaits (tDom { regWait := some (2 ^ 40) }) = true
    ∧ mapEntry (noteMsg (tDom { regWait := some (2 ^ 40) }) { tMsg 3 1 with name := 99 }) 99 = none
    ∧ look (tDom { claims := [(77, { epoch := 1, sentAt := 0, why := .restore })] }).map.claims 77 = some { epoch := 1, sentAt := 0, why := .restore }
    ∧ (0 : Nat) + 4 * 65536 ≤ up (tDom {}) ∧ up (tTick 9 (tDom {})) < 0 + 4 * 65536 := by decide +kernel
theorem wit_membership : mapServes (tDom {}) = true ∧ (tDom {}).map.member = true ∧ isSteward (tDom {}) = true ∧ isSteward (tThree {}) = false
    ∧ (tDom {}).map.members.contains 3 = true ∧ (tDom {}).map.members.contains 7 = false ∧ (tDom {}).map.domEpoch < ({ tMsg 3 1 with domainEpoch := 5 } : MapMsg).domainEpoch
    ∧ (tMsg 3 1).domainEpoch ≤ (tDom {}).map.domEpoch ∧ fget (tDom {}) Fd.MAP_DOM_domain ≠ 7 ∧ stewardFor (tDom {}) (some 3) = ownDevice (tDom {})
    ∧ (3 : Nat) ≠ ownDevice (tDom {}) ∧ look (tDom { suspects := [(3, (0, [9]))], fencedAt := [(3, 0)] }).map.suspects 3 = some (0, [9])
    ∧ look (tDom { suspects := [(3, (0, [9]))], fencedAt := [(3, 0)] }).map.fencedAt 3 = some 0
    ∧ 0 + fget (tDom {}) Fd.MAP_HB_fail_wait * 65536 ≤ up (tDom {}) ∧ 0 + missSpan (tDom {}) + 65536 ≤ up (tDom {})
    ∧ up (tTick 0 (tDom {})) < 0 + fget (tDom {}) Fd.MAP_HB_fail_wait * 65536 ∧ up (tTick 0 (tDom {})) < 0 + missSpan (tDom {}) + 65536
    ∧ (tDom {}).lnk.fenced.contains 9 = false ∧ (tDom {}).sys.resetLow = false := by decide +kernel

theorem wit_suspect : (peerOf (tThree { peers := [(9, { heard := some 0 })] }) 9).heard = some 0 ∧ 0 + missSpan (tThree {}) ≤ up (tThree {})
    ∧ (peerOf (tThree { peers := [(9, { heard := some 0 })] }) 9).suspected = false ∧ (tThree {}).map.members.contains 9 = true
    ∧ (9 : Nat) ≠ ownDevice (tThree {}) ∧ stewardFor (tThree {}) (some 9) ≠ ownDevice (tThree {}) ∧ up (tTick 0 (tThree {})) < 0 + missSpan (tThree {}) := by
  decide +kernel
theorem wit_join : (tCmd 7).map.member = false ∧ (tCmd 7).sys.stageCmd = some 7 ∧ mapServes (tCmd 7) = true ∧ fbit (tCmd 7) Fd.MAP_CFG_found = false
    ∧ (tDom {}).map.sentAt + fget (tDom {}) Fd.MAP_HB_period * 65536 ≤ up (tDom {})
    ∧ up (tTick 0 (tDom {})) < (tDom {}).map.sentAt + fget (tDom {}) Fd.MAP_HB_period * 65536 ∧ 2 ≤ (tDom {}).map.members.length
    ∧ (tDom {}).map.isolated = false ∧ (tDom {}).map.anyAt + missSpan (tDom {}) ≤ up (tDom {})
    ∧ up (tTick 0 (tDom {})) < (tDom {}).map.anyAt + missSpan (tDom {}) ∧ (tMsg 0 1).device = ownDevice (tDom {}) := by decide +kernel

/-- A report, and its open window. -/
def tReport : Report := { cls := 3, unit := 12, action := 1 }
def tWindow (n : Nat) : FWin := { first := tReport, count := n, due := 10, seq := 0 }
def tWindows (n : Nat) : Dev := { tReady with flt := { wins := [(12 * 256 + 3, tWindow n)] } }

theorem wit_windows : look (tWindows 1).flt.wins (12 * 256 + 3) = some (tWindow 1) ∧ (tWindow 1).due ≤ up (tWindows 1) ∧ (tWindows 1).flt.cwins = []
    ∧ look (tTick 0 (tWindows 1)).flt.wins (fltKey tReport) = some (tWindow 1) ∧ up (tTick 0 (tWindows 1)) < (tWindow 1).due
    ∧ 1 < (tWindow 2).count ∧ tReport.client = none ∧ ({ tReport with client := some 5 } : Report).client = some 5
    ∧ (tWindows 1).flt.cwins.find? (cwinFor 5 { tReport with client := some 5 }) = none
    ∧ tReady.lnk.fenced.contains 3 = false ∧ tReady.sys.resetLow = false := by decide +kernel

/-- A master and a follower in stage TIME, and a locked one without a reference. -/
def tTime (role : Nat) (t : Tc) (q : Port) : Dev := { tSet (tCmd 6) [(Fd.MTR_TC_CFG_role, role)] with tc := t, lnk := { ports := [(15, q)] } }

theorem wit_time : tcServes (tTime 1 {} {}) = true ∧ tcMaster (tTime 1 {} {}) = true ∧ timeStage (tTime 1 {} {}) = true ∧ (tTime 1 {} {}).tc.loaded = false
    ∧ (tTime 1 { loaded := true, state := 1, good := 1 } {}).tc.good = 1 ∧ (20 : Int).natAbs ≤ 20 ∧ 1000 < (1001 : Int).natAbs
    ∧ onMinute (tTime 1 { up := 2 ^ 26 } {}) = false ∧ tcMaster (tTime 0 {} {}) = false
    ∧ (tTime 0 { state := 1 } {}).tc.state ≠ 0 ∧ (portOf (tTime 0 {} { trained := true }) 15).trained = true
    ∧ (portOf (tTime 0 {} { trained := true }) 15).retired = false ∧ (portOf (tTime 0 {} {}) 3).trained = false
    ∧ tcLost (tTime 0 { state := 2 } {}) = true ∧ tcLost (tTime 0 { state := 2 } { trained := true, hops := 1 }) = false
    ∧ (0 : Nat) + fget (tTime 0 {} {}) Fd.MTR_TC_CFG_holdover * 65536 ≤ (tTime 0 { state := 3, up := 2 ^ 40 } {}).tc.up := by decide +kernel
theorem wit_time_response : (portOf (tTime 0 {} { trained := true, reqAt := some 0 }) 15).reqAt = some 0 ∧ (portOf (tTime 0 {} {}) 15).reqAt = none
    ∧ up (tTime 0 { up := 65536 } {}) ≤ 0 + 65536 ∧ 0 + 65536 < up (tTime 0 { up := 65537 } {}) ∧ 0 + 65536 ≤ up (tTime 0 { up := 65536 } {})
    ∧ tcBest (tTime 0 {} { trained := true, hops := 1 }) = some 15 ∧ tcBest (tTime 0 {} {}) = none := by decide +kernel

theorem wit_throttle : (14 : Nat) ≤ 14 ∧ 500 < (501 : Nat) ∧ (100 : Nat) * 100 < 97 * 104 ∧ (97 : Nat) * 100 ≤ 97 * 100 := by decide
theorem wit_power : mtrServes tReady = true ∧ mtrServes (tStage 1) = false ∧ envEntry tReady (minuteOf tReady) = none
    ∧ minuteOf (tTick (2 ^ 40) tReady) ≠ (tTick (2 ^ 40) tReady).mtr.envMinute ∧ frame tReady % 4 = 0 ∧ frame (tTick 65536 tReady) % 4 ≠ 0
    ∧ tReady.mtr.warning = false ∧ tReady.sys.alert = false ∧ 650 < (651 : Nat) ∧ ({ over650 := 9 } : Mtr).over650 = 9 ∧ tReady.mtr.over650 ≠ 9
    ∧ warns tReady 2 230 = false ∧ warns tReady 3 0 = true ∧ leAt ([0, 0, 0, 0, 0, 0, 1] : List Byte) 6 1 = 1
    ∧ leAt ([0, 0, 0, 0, 0, 0, 2] : List Byte) 6 1 ≠ 1 ∧ fbit tReady Fd.MTR_LOG_BASE_log_en = false
    ∧ fbit (fset tReady Fd.MTR_LOG_BASE_log_en 1) Fd.MTR_LOG_BASE_log_en = true ∧ tReady.hst.tdisp ≠ .error ∧ tReady.mtr.lost = false
    ∧ tReady.mtr.stepAt ≠ some (frame tReady) ∧ ({ stepAt := some (frame tReady) } : Mtr).stepAt = some (frame tReady) ∧ tReady.meter.feed = []
    ∧ ({ feed := [([1], some 2)] } : Meter).feed = ([1], some 2) :: [] ∧ (0 : Nat) % 16 = tReady.mtr.cons ∧ 3 % 16 ≠ tReady.mtr.cons
    ∧ tReady.mtr.feedAt + 120000 * 65536 ≤ up (tTick (2 ^ 40) tReady) ∧ up tReady < tReady.mtr.feedAt + 120000 * 65536 := by decide +kernel
theorem wit_supply : ({ tReady with mtr := { warning := true } } : Dev).mtr.warning = true ∧ tReady.mtr.active = []
    ∧ tReady.mtr.quietFrom + fget tReady Fd.MTR_SUPPLY_CFG_clear_frames * 65536 ≤ up (tTick (2 ^ 40) tReady)
    ∧ up (tTick 0 (fset tReady Fd.MTR_SUPPLY_CFG_clear_frames 1)) < tReady.mtr.quietFrom + fget (fset tReady Fd.MTR_SUPPLY_CFG_clear_frames 1) Fd.MTR_SUPPLY_CFG_clear_frames * 65536 := by
  decide +kernel
theorem wit_accounts : look tReady.seq.minuteE 0 = none ∧ 0 + 3 ≤ minuteOf (tTick (3 * 65536 * 60000) tReady) ∧ minuteOf tReady < 0 + 3
    ∧ minuteSettled (tTick (3 * 65536 * 60000) tReady) 0 = false ∧ minuteSettled tReady 4 = false
    ∧ minuteSettled ({ tReady with seq := { settled := [4] } } : Dev) 4 = true ∧ tReady.seq.energyFrom = none
    ∧ ({ energyFrom := some 0 } : SeqSt).energyFrom = some 0 ∧ (0 : Nat) ≤ 0 ∧ ({ energyFrom := some 5 } : SeqSt).energyFrom = some 5 ∧ 4 < (5 : Nat)
    ∧ look ({ tReady with seq := { minuteE := [(4, 100)] } } : Dev).seq.minuteE 4 = some 100 ∧ tReady.tc.acquired = true ∧ tReady.sys.resetLow = false
    ∧ tReady.seq.periodFrom = none ∧ fbit (fset tReady Fd.SEQ_CLIENT_ACCT_acct_en 1 255) Fd.SEQ_CLIENT_ACCT_acct_en 255 = true
    ∧ tReady.hst.tdisp ≠ .error ∧ ({ periodFrom := some 0 } : SeqSt).periodFrom = some 0
    ∧ minuteOf tReady / max 1 (fget tReady Fd.SEQ_SCHED_CFG_acct_minutes) * max 1 (fget tReady Fd.SEQ_SCHED_CFG_acct_minutes) ≤ 0 := by decide +kernel
theorem wit_meter : tReady.meter.rail = false ∧ ({ rail := true, keyUsed := 5 } : Meter).keyUsed + 1024 < leaves - 2
    ∧ ({ rail := true, keyUsed := 5 } : Meter).calNext = none ∧ ({ rail := true } : Meter).cal = none ∧ ({ rail := true } : Meter).txq = []
    ∧ ({ rail := true, cal := some tCal } : Meter).cal.isSome = true ∧ 6 < (7 : Nat) ∧ 11499 * 100 < 5 * calUdin { cal := some tCal }
    ∧ 90 * calUdin { cal := some tCal } ≤ 207000 * 100 ∧ ({ txq := [[1]] } : Meter).txq = [[1]] ∧ ({ cal := some tCal } : Meter).intr = none
    ∧ ({ cal := some tCal } : Meter).sag = none := by decide +kernel
theorem wit_arithmetic : nonFinite 0x3F800000 = false ∧ (fAdd 0x3F800000 0x40000000).ovf = false ∧ (fAdd 0x3F800000 0x40000000).und = 0
    ∧ (fMul 0x3F800000 0x40000000).ovf = false ∧ (fMul 0x3F800000 0x40000000).und = 0 := by decide +kernel

/-- A team of one member that has halted, in a working region of one byte. -/
def tRun : TeamRun := { cores := [{ halted := true, working := [(0, 1)] }] }
def tEnv : ArrEnv := { code := [], objects := [], staticSize := 0, work := 1, kind := 0, pass := 0, rows := 1, takes := 0, input := [], key := [] }

theorem wit_team : teamHalted tRun = true ∧ 0 < tEnv.work ∧ storesInside tEnv tRun = true := by decide +kernel

/-! ### Each well-formedness check refuses an ill-formed command -/

theorem test_ill_ring : (Instr.doorbell 512 0).ill = [.ring] ∧ (Instr.doorbell 511 0).wf = true := by decide
theorem test_ill_stream : (Instr.strClose 4096).ill = [.stream] ∧ (Instr.strClose 4095).wf = true := by decide
theorem test_ill_client : (Instr.clientSyncWrite 256 0).ill = [.client] ∧ (Instr.clientSyncWrite 255 0).wf = true := by decide
theorem test_ill_access : (Instr.registerWrite 4 8 0).ill = [.access] ∧ (Instr.registerWrite (2 ^ 26) 4 0).ill = [.access]
    ∧ (Instr.registerWrite 4 4 0).wf = true := by decide
theorem test_ill_port : (Instr.ackTimer 16).ill = [.port] ∧ (Instr.ackTimer 15).wf = true := by decide
theorem test_ill_slice : (Instr.entryStart 16).ill = [.slice] ∧ (Instr.entryStart 15).wf = true := by decide
theorem test_ill_part : (Instr.nearScrub 8 []).ill = [.part] ∧ (Instr.eraseFarChannel 32).ill = [.part] ∧ (Instr.nearScrub 7 []).wf = true := by
  decide
theorem test_ill_flit : (Instr.dataFlitReceived 16 []).ill = [.port, .flit]
    ∧ (Instr.idleFlitReceived 0 (List.replicate 256 0)).wf = true := by decide +kernel
theorem test_ill_frame : (Instr.hid { tRefuse with length := 1 }).ill = [.frame] ∧ (Instr.hid tRefuse).wf = true := by decide
theorem test_ill_traffic_class : (Instr.policerRetest 0 8).ill = [.trafficClass] ∧ (Instr.policerRetest 255 7).wf = true := by decide
theorem test_ill_length : (Instr.loadFirmware (2 ^ 23)).ill = [.length] ∧ (Instr.apertureWrite (2 ^ 22) [1]).ill = [.length] := by decide

/-! ### Values that the spec gives -/

/-- 18 R480: the check values over "123456789". -/
theorem test_check_values : crcOf 1 [0x31, 0x32, 0x33, 0x34, 0x35, 0x36, 0x37, 0x38, 0x39] = 0xE3069283
    ∧ crcOf 2 [0x31, 0x32, 0x33, 0x34, 0x35, 0x36, 0x37, 0x38, 0x39] = 0xCBF43926
    ∧ crcOf 3 [0x31, 0x32, 0x33, 0x34, 0x35, 0x36, 0x37, 0x38, 0x39] = 0x995DC9BBDF1939FA
    ∧ crcOf 4 [0x31, 0x32, 0x33, 0x34, 0x35, 0x36, 0x37, 0x38, 0x39] = 0x29B1 := by decide +kernel

/-- 18 R484: the running value over them, and the answer of APPEND. -/
theorem test_running_value :
    cvuFeedRun 1 (cvuInit 1) [0x31, 0x32, 0x33, 0x34, 0x35, 0x36, 0x37, 0x38, 0x39] = 0x1CF96D7C
    ∧ (checkResult (checkOp (tFl 0x80 [(36, 9), (52, 1), (53, 1)]).desc) [0x31, 0x32, 0x33, 0x34, 0x35, 0x36, 0x37, 0x38, 0x39]).1
      = [0x31, 0x32, 0x33, 0x34, 0x35, 0x36, 0x37, 0x38, 0x39, 0x83, 0x92, 0x06, 0xE3] := by decide +kernel

/-- Sums and products whose exact value is an FP32 number: 1 + 2 = 3, 1.5 times 2 = 3, the largest number doubled clamps (04 R124). -/
theorem test_float : (fAdd 0x3F800000 0x40000000).v = 0x40400000 ∧ (fMul 0x3FC00000 0x40000000).v = 0x40400000
    ∧ (fAdd 0x7F7FFFFF 0x7F7FFFFF).v = 0x7F7FFFFF := by decide +kernel

/-- A condition on the device after a step. -/
def after (o : Host.Outcome State Fault Refusal) (p : State → Bool) : Bool := match o with | .next t => p t | _ => false

/-- 02 R59: tag, status, phase and ring of the completion of a `NOP`. -/
theorem test_nop_completes : after (exec (.nop 0) (tState (tAt tReady (tFl 0xF0 [(2, 0x1234)])))) (fun t =>
    look t.hostMem 0 == some 0x34 && look t.hostMem 1 == some 0x12 && look t.hostMem 3 == some 1 && (sqOf t.dev 0).flights.isEmpty) = true := by
  decide +kernel
/-- 02 R71: an operation that adds 3 to an object that holds 4. -/
theorem test_signal_adds : after (exec (.syncSignal 0) (tState { tAt tReady (tFl 0x60 [(24, 3), (36, 1)]) with syn := { objs := [(0, { ctr := 4 })] } }))
    (fun t => (syncObj t.dev 0).ctr == 7) = true := by decide +kernel
/-- 03 R85 to R87: release of RESET_N runs stage ROM, training ends it. -/
theorem test_boot : after (exec (.ucieTrainingDone 0 0) (tState tRom)) (fun t => t.dev.sys.stage == 1 && t.dev.sys.portUp) = true := by
  decide +kernel
/-- 07 R226: a trim of the idle session to its own length leaves a session of that length. -/
theorem test_trim : (trimRec {} 1 { tRec with len := 2, log := [65, 66] }).v.log = [65] := by decide +kernel
/-- 12 R361: a recalled loan is told its borrower. -/
theorem test_pins_in_reset : obsPins State.reset.dev = 0 ∧ thermAlertN State.reset.dev = true ∧ farDriven State.reset.dev 0 = false := ⟨rfl, rfl, rfl⟩
theorem test_recall : after (exec (.lnkRecall 5) (tState tLent)) (fun t => ((look t.dev.lnk.loans 5).bind (fun l => l.recalled)).isSome) = true := by
  decide +kernel
/-- 17 R464: 1 % above the cap raises the level by one. -/
theorem test_throttle : throttleRule 3 505 500 500 false = 4 ∧ throttleRule 3 480 500 500 false = 2 ∧ throttleRule 14 600 500 500 false = 14 := by
  decide
/-- 02 R48: a doorbell of a ring that has never been opened. -/
theorem test_closed_ring : after (exec (.doorbell 3 1) (tState tReady)) (fun t => evSet t.dev Fd.SEQ_EVT_doorbell_closed) = true := by decide +kernel

end Sys2Proof.Tests
end

section
/-!
PROOFS. Events (00 R9) and accesses to the register window: what a write-back clears, what a capture register keeps, where a
window or aperture write goes, and when the window of a guarded pair is closed.
-/

namespace Sys2Proof.Machine

/-! ### Entries of a table that are kept for their value -/

section Table

variable {α : Type}

theorem eq_or_mem_of_mem_put {m : NMap α} {k : Nat} {v : α} {e : Nat × α} (h : e ∈ put m k v) : e = (k, v) ∨ e ∈ m := by
  induction m with
  | nil => simpa [put] using h
  | cons x t ih =>
    simp only [put] at h
    split at h
    · simpa using h
    · split at h
      · rcases List.mem_cons.1 h with h | h
        · exact .inl h
        · exact .inr (List.mem_cons_of_mem _ h)
      · rcases List.mem_cons.1 h with h | h
        · exact .inr (h ▸ List.mem_cons_self ..)
        · exact (ih h).imp_right (List.mem_cons_of_mem _)

/-- A key whose entries all have one value: a filter on values keeps it or loses it as that value says. -/
theorem look_filter_value {m : NMap α} {k : Nat} {v : α} (p : α → Bool) (hk : ∀ e ∈ m, e.1 = k → e.2 = v) :
    look (m.filter (fun e => p e.2)) k = if p v then look m k else none := by
  induction m with
  | nil => simp
  | cons x t ih =>
    obtain ⟨a, w⟩ := x
    have hx : a = k → w = v := hk (a, w) (List.mem_cons_self ..)
    have ht := ih (fun e he => hk e (List.mem_cons_of_mem _ he))
    by_cases ha : a = k
    · obtain rfl := hx ha
      by_cases hp : p w = true
      · simp [hp, look, ha]
      · simpa [hp] using ht
    · by_cases hp : p w = true <;> simp [hp, look, ha, ht]

/-- The same for the value that replaces what stood at a key. -/
theorem look_filter_put_del (m : NMap α) (k : Nat) (v : α) (p : α → Bool) :
    look ((put (del m k) k v).filter (fun e => p e.2)) k = if p v then some v else none := by
  have only : ∀ e ∈ put (del m k) k v, e.1 = k → e.2 = v := by
    intro e he hk
    rcases eq_or_mem_of_mem_put he with rfl | he
    · rfl
    · simp [del, hk] at he
  simpa using look_filter_value p only

/-- A byte written into the load buffer reads back. -/
theorem mget_setBytes_inside (bs : List Byte) : ∀ (m : NMap Byte) (a i : Nat), i < bs.length →
    mget (setBytes m a bs) 0 (a + i) = bs.getD i 0 := by
  induction bs with
  | nil => intro m a i h; simp at h
  | cons b t ih =>
    intro m a i h
    simp only [setBytes]
    cases i with
    | zero => rw [mget_setBytes_outside _ _ _ _ (by omega)]; simp
    | succ n => simpa [Nat.add_right_comm, Nat.add_assoc] using ih (mset m 0 a b) (a + 1) n (by simpa using h)

end Table

/-! ### Recording and clearing events (00 R9) -/

theorem raise_seq (d : Dev) (f : Fd) : (mget (raise d f).evts {} f.off).seq = (mget d.evts {} f.off).seq + 1 := by
  simp [raise_evts, evRecord]

theorem evSet_raise_other (d : Dev) {f g : Fd} (h : g.off ≠ f.off) : evSet (raise d f) g = evSet d g := by
  simp [evSet, raise_evts, evRecord, h]

theorem clearedBy_self (v : BitVec 16) : clearedBy v v = true := by simp [clearedBy]

theorem clearedBy_next (v : BitVec 16) : clearedBy v (v + 1) = false := by simp [clearedBy]

theorem evWriteBack_of_ne_glb (d : Dev) {off : Nat} (v : BitVec 16) (h : off ≠ Rg.GLB_EVT) :
    evWriteBack d off v = { d with evts := mset d.evts {} off { mget d.evts {} off with
      bits := (mget d.evts {} off).bits.filter (fun b => !clearedBy v b.2) } } := by
  simp [evWriteBack, h]

@[simp] theorem evWriteBack_regs_of_ne_glb (d : Dev) {off : Nat} (v : BitVec 16) (h : off ≠ Rg.GLB_EVT) :
    (evWriteBack d off v).regs = d.regs := by rw [evWriteBack_of_ne_glb d v h]

/-- Whether a write-back leaves the event just recorded is decided by that event's own number. -/
theorem evSet_evWriteBack_evRecord (d : Dev) (f : Fd) (v : BitVec 16) (h : f.off ≠ Rg.GLB_EVT) :
    evSet (evWriteBack (evRecord d f) f.off v) f = !clearedBy v ((mget d.evts {} f.off).seq + 1) := by
  rw [evWriteBack_of_ne_glb _ v h]
  simp only [evSet, evRecord, mget_mset_same, look_filter_put_del _ _ _ (fun n => !clearedBy v n)]
  cases clearedBy v ((mget d.evts {} f.off).seq + 1) <;> rfl

theorem exec_eventWriteBack (s : State) {off : Nat} (v : BitVec 16) (hp : s.dev.sys.portUp = true) (he : isEvt off = true) :
    exec (.eventWriteBack off v) s = .next (s.settled (evWriteBack s.dev off v)) := by
  change execEventWriteBack off v s = _
  simp [execEventWriteBack, hp, he]

/-- Settles O8: a record takes the next number by `raise_seq`, and a write-back tells the number it was given from the next one. -/
theorem eventsAreRecordedAndClearedBySequence : Obligations.EventsAreRecordedAndClearedBySequence := by
  refine ⟨fun d f => ⟨evSet_raise d f, raise_seq d f, fun g => evSet_raise_other d, by simp⟩, fun s f hp he hg => ?_⟩
  have run := fun v => exec_eventWriteBack { s with dev := evRecord s.dev f } v (by simpa using hp) he
  have newest : (mget (evRecord s.dev f).evts {} f.off).seq = (mget s.dev.evts {} f.off).seq + 1 := by simp [evRecord]
  constructor
  · exact ⟨_, run _, by rw [evSet_evWriteBack_evRecord _ f _ hg, clearedBy_next, Bool.not_false], by simp [hg]⟩
  · exact ⟨_, run _, by rw [evSet_evWriteBack_evRecord _ f _ hg, newest, clearedBy_self, Bool.not_true], by simp [hg]⟩

/-! ### Capture registers (03 R80) -/

theorem evSet_capture (d : Dev) (f : Fd) (cap a : Nat) : evSet (capture d f cap a) f = true := by
  unfold capture
  split
  · assumption
  · exact evSet_raise _ f

theorem capture_caps_first (d : Dev) {f : Fd} (cap a : Nat) (h : evSet d f = false) :
    mget (capture d f cap a).caps {} cap = { addr := a % 2 ^ 26, count := 1 } := by simp [capture, h]

theorem capture_caps_later (d : Dev) {f : Fd} (cap a : Nat) (h : evSet d f = true) :
    mget (capture d f cap a).caps {} cap = { mget d.caps {} cap with count := min ((mget d.caps {} cap).count + 1) 0xFFFF } := by
  simp [capture, h]

/-! ### The window and the aperture (03 R75, R76, R79, R81) -/

theorem exec_registerWrite (s : State) {off : Nat} (size : Nat) (v : Word) (hp : s.dev.sys.portUp = true) (ho : off < windowSize) :
    exec (.registerWrite off size v) s = .next (s.settled (windowWrite s.dev off size (v.toNat % 2 ^ (8 * size)))) := by
  change execRegisterWrite off size v s = _
  simp [execRegisterWrite, hp, ho]

theorem windowWrite_invalid (d : Dev) {off size : Nat} (v : Nat) (h : writeValid off size = false) :
    windowWrite d off size v = accessInvalid d off := by simp [windowWrite, h]

theorem windowWrite_register (d : Dev) {off size n : Nat} {r : RegDef} (v : Nat) (h : writeValid off size = true)
    (hd : inDoorbells off = false) (ha : inAperture off = false) (hr : regAt (off / 8 * 8) = some (r, n)) :
    windowWrite d off size v = regWriteAt d r n off size v := by simp [windowWrite, h, hd, ha, hr]

theorem exec_invalidAccess (s : State) (write : Bool) {off size : Nat} (hp : s.dev.sys.portUp = true) (ho : off < windowSize)
    (h : (if write then writeValid off size else readValid off size) = false) :
    exec (.invalidAccess write off size) s = .next (s.settled (accessInvalid s.dev off)) := by
  change execInvalidAccess write off size s = _
  simp [execInvalidAccess, hp, Nat.not_le.2 ho, h]

theorem exec_apertureWrite (s : State) {off : Nat} (bs : List Byte) (hp : s.dev.sys.portUp = true) (ho : off < 2 ^ 22) :
    exec (.apertureWrite off bs) s = .next (s.settled (aperturePut s.dev off bs)) := by
  change execApertureWrite off bs s = _
  simp only [execApertureWrite, lift_next, hp, ho, and_self, if_true]

theorem aperturePut_invalid (d : Dev) {off : Nat} {bs : List Byte} (h : apertureOk off bs.length = false) :
    aperturePut d off bs = accessInvalid d (apertureLo + off) := by simp [aperturePut, h]

theorem aperturePut_busy (d : Dev) {off : Nat} {bs : List Byte} (h : apertureOk off bs.length = true) (hl : d.sys.load ≠ none) :
    aperturePut d off bs = postedOverrun d (apertureLo + off) := by simp [aperturePut, h, Option.isSome_iff_ne_none.2 hl]

theorem aperturePut_idle (d : Dev) {off : Nat} {bs : List Byte} (h : apertureOk off bs.length = true) (hl : d.sys.load = none) :
    aperturePut d off bs = setSys d { d.sys with aperture := setBytes d.sys.aperture off bs } := by simp [aperturePut, h, hl]

/-! ### Guarded pairs (00 R11, log entry 78) -/

theorem guardClose_due {d : Dev} {a w t age : Nat} (h : look d.sys.guards a = some (w, t)) (ht : t + age ≤ up d) :
    guardClose d age a = guardFail (unguard d a) a := by simp [guardClose, h, ht]

theorem guardClose_early {d : Dev} {a w t age : Nat} (h : look d.sys.guards a = some (w, t)) (ht : up d < t + age) :
    guardClose d age a = d := by simp [guardClose, h, Nat.not_le.2 ht]

theorem guardSecond_open {d : Dev} {a w t : Nat} (v : Nat) (h : look d.sys.guards a = some (w, t)) (ht : up d < t + 15) :
    guardSecond d a v = if w + v = 2 ^ 32 - 1 then guardEffect d a w else guardFail (unguard d a) (a + 8) := by
  simp [guardSecond, guardClose_early h ht, h]

theorem exec_guardWindowExpire (s : State) (off : Nat) :
    exec (.guardWindowExpire off) s = .next (s.settled (guardClose s.dev 13 off)) := rfl

theorem evSet_guardFail (d : Dev) (a : Nat) : evSet (guardFail d a) Fd.GLB_EVT_guard_fail = true := evSet_capture ..

/-- Settles O9, each clause by the lemma of the access it speaks of. -/
theorem windowApertureAndGuardWindow : Obligations.WindowApertureAndGuardWindow := by
  refine ⟨fun s off size v hp ho => ⟨fun hv hd ha r n hr => ?_, fun hv => ⟨?_, ?_⟩, fun hv => ?_, ?_, ?_⟩,
    fun s off bs => ⟨fun hp ho hok hl => ⟨?_, ?_, ?_⟩, fun hp ho hok hl => ?_, fun hp ho hok => ?_, fun w t v => guardSecond_open v,
      fun w t hg => ⟨fun ht => ?_, fun ht => ?_⟩⟩⟩
  · rw [exec_registerWrite s size v hp ho, windowWrite_register _ _ hv hd ha hr]
  · rw [exec_registerWrite s size v hp ho, windowWrite_invalid _ _ hv]
  · exact exec_invalidAccess s true hp ho hv
  · exact exec_invalidAccess s false hp ho hv
  · exact capture_caps_first s.dev _ off
  · exact capture_caps_later s.dev _ off
  · rw [exec_apertureWrite s bs hp ho, aperturePut_idle _ hok hl]
  · exact fun i => mget_setBytes_inside bs _ off i
  · exact fun a => mget_setBytes_outside bs _ off a
  · rw [exec_apertureWrite s bs hp ho, aperturePut_busy _ hok hl]
  · rw [exec_apertureWrite s bs hp ho, aperturePut_invalid _ hok]
  · refine ⟨_, exec_guardWindowExpire s off, guardClose_due hg ht, ?_⟩
    rw [guardClose_due hg ht]
    exact ⟨by simp, fun a ha => by simp [ha], evSet_guardFail _ off, by simp, by simp⟩
  · rw [exec_guardWindowExpire, guardClose_early hg ht]

end Sys2Proof.Machine
end

section
/-!
PROOFS. A step (01 R15, log entries 1 and 5): the command that it carries out, what it can do to the block, and that it keeps the
block sound.
-/

namespace Sys2Proof.Machine

/-! ### A step settles an effect on the device -/

/-- The dispatch gives every command a meaning that is an effect on the device, lifted to the block. -/
theorem exec_settles (c : Instr) (s : State) : ∃ d : Dev, exec c s = .next (s.settled d) := by
  cases c <;> exact ⟨_, rfl⟩

/-- A command is carried out with the queue's rest in place. -/
theorem step_front {s : State} {c : Instr} {rest : List Instr} (h : s.pending = c :: rest) : step s = exec c (s.popped rest) := by
  simp [step, h]

/-- All that a step can do to host memory is to settle some device over it. -/
theorem step_settles {s t : State} (h : step s = .next t) : ∃ (u : State) (d : Dev), u.hostMem = s.hostMem ∧ t = u.settled d := by
  cases hq : s.pending with
  | nil =>
    rw [step_idle s hq] at h
    injection h with h
    exact ⟨s, tick s.dev, rfl, h.symm⟩
  | cons c rest =>
    obtain ⟨d, hd⟩ := exec_settles c (s.popped rest)
    rw [step_front hq, hd] at h
    injection h with h
    exact ⟨s.popped rest, d, rfl, h.symm⟩

/-! ### A settled block is sound (02 R39, R44) -/

/-- Settling changes neither the data path's enable nor its links. -/
@[simp] theorem hostPath_settled (s : State) (d : Dev) : hostPath (s.settled d).dev = hostPath d := rfl

/-- While the data path is open, no posted write is held back (02 R39). -/
theorem heldBack_of_hostPath {d : Dev} (h : hostPath d = true) : heldBack d = [] := by simp [heldBack, h]

theorem sound_iff (s : State) : s.sound = true ↔ Memory.wf none s.hostMem = true ∧ (hostPath s.dev = true → s.dev.posted = []) := by
  unfold State.sound
  cases hostPath s.dev <;> simp

/-- Whatever the device became, settling it over a host memory in canonical form leaves the block sound. -/
theorem sound_settled {s : State} (d : Dev) (h : Memory.wf none s.hostMem = true) : (s.settled d).sound = true :=
  (sound_iff _).2 ⟨settled_wf s d h, fun hp => heldBack_of_hostPath (by simpa using hp)⟩

/-- Settles O6: a step settles a device over the host memory it found, and that leaves the block sound. -/
theorem stepKeepsTheBlockSound : Obligations.StepKeepsTheBlockSound := by
  intro s t hs hst
  obtain ⟨wf, -⟩ := (sound_iff s).1 hs
  obtain ⟨u, d, hu, rfl⟩ := step_settles hst
  exact sound_settled d (hu ▸ wf)

/-- Settles O1: the step of a queue that is not empty. -/
theorem stepRunsTheFrontCommand : Obligations.StepRunsTheFrontCommand := fun _ _ _ => step_front

end Sys2Proof.Machine
end

section
/-!
PROOFS. Register fields (03 R75, R78; 00 R7, R8): what a field reads after a write to it or to another field, what a write of a
whole register does, and the registers whose bit 0 opens a ring (02 R54).
-/

namespace Sys2Proof.Machine

/-! ### Bits of a number -/

theorem testBit_bitsOf (v lo w i : Nat) : (bitsOf v lo w).testBit i = (decide (i < w) && v.testBit (lo + i)) := by
  rw [bitsOf, Nat.testBit_mod_two_pow, Nat.testBit_div_two_pow, Nat.add_comm]

/-- The bits above the replaced ones, the new ones and those below. -/
theorem withBits_eq (v lo w x : Nat) : withBits v lo w x = 2 ^ lo * (2 ^ w * (v / 2 ^ lo / 2 ^ w) + x % 2 ^ w) + v % 2 ^ lo := by
  have hv : 2 ^ lo * (v / 2 ^ lo) + v % 2 ^ lo = v := Nat.div_add_mod ..
  have hm : 2 ^ w * (v / 2 ^ lo / 2 ^ w) + v / 2 ^ lo % 2 ^ w = v / 2 ^ lo := Nat.div_add_mod ..
  have hs : v = 2 ^ lo * (2 ^ w * (v / 2 ^ lo / 2 ^ w)) + v / 2 ^ lo % 2 ^ w * 2 ^ lo + v % 2 ^ lo := by
    rw [Nat.mul_comm _ (2 ^ lo), ← Nat.mul_add, hm, hv]
  rw [withBits, bitsOf, Nat.mul_add, Nat.mul_comm (2 ^ lo) (x % 2 ^ w)]
  omega

theorem testBit_withBits (v lo w x i : Nat) :
    (withBits v lo w x).testBit i = if lo ≤ i ∧ i < lo + w then x.testBit (i - lo) else v.testBit i := by
  have below : v % 2 ^ lo < 2 ^ lo := Nat.mod_lt _ (Nat.two_pow_pos lo)
  have inside : x % 2 ^ w < 2 ^ w := Nat.mod_lt _ (Nat.two_pow_pos w)
  rw [withBits_eq, Nat.testBit_two_pow_mul_add _ below]
  by_cases hl : i < lo
  · simp [hl, Nat.testBit_mod_two_pow]
  · rw [if_neg hl, Nat.testBit_two_pow_mul_add _ inside]
    by_cases hw : i - lo < w
    · simp [hw, Nat.testBit_mod_two_pow, show lo ≤ i ∧ i < lo + w by omega]
    · simp [hw, Nat.testBit_div_two_pow, show ¬ (lo ≤ i ∧ i < lo + w) by omega, show i - lo - w + w + lo = i by omega]

theorem bitsOf_withBits_same (v lo w x : Nat) : bitsOf (withBits v lo w x) lo w = x % 2 ^ w := by
  apply Nat.eq_of_testBit_eq
  intro i
  by_cases hi : i < w <;> simp [testBit_bitsOf, testBit_withBits, Nat.testBit_mod_two_pow, hi]

/-- Bits that share no place with the replaced ones. -/
theorem bitsOf_withBits_apart {lo w lo' w' : Nat} (v x : Nat) (h : lo' + w' ≤ lo ∨ lo + w ≤ lo') :
    bitsOf (withBits v lo w x) lo' w' = bitsOf v lo' w' := by
  apply Nat.eq_of_testBit_eq
  intro i
  by_cases hi : i < w'
  · simp [testBit_bitsOf, testBit_withBits, show ¬ (lo ≤ lo' + i ∧ lo' + i < lo + w) by omega]
  · simp [testBit_bitsOf, hi]

theorem withBits_lt {v lo w n : Nat} (x : Nat) (hv : v < 2 ^ n) (h : lo + w ≤ n) : withBits v lo w x < 2 ^ n := by
  apply Nat.lt_pow_two_of_testBit
  intro i hi
  rw [testBit_withBits, if_neg (by omega)]
  exact Nat.testBit_lt_two_pow (hv.trans_le (Nat.pow_le_pow_right (by omega) hi))

/-! ### One field -/

theorem fget_lt (d : Dev) {f : Fd} (b : Nat) (hr : f.reset < 2 ^ f.width) : fget d f b < 2 ^ f.width :=
  Nat.xor_lt_two_pow (Nat.mod_lt _ (Nat.two_pow_pos _)) hr

/-- The stored word of a register that a field was written in. -/
theorem stored_fset (d : Dev) {f : Fd} (v b : Nat) (hf : f.lo + f.width ≤ 64) :
    (mget (fset d f v b).regs 0 (regKey f.off b)).toNat
      = withBits (mget d.regs 0 (regKey f.off b)).toNat f.lo f.width ((v % 2 ^ f.width) ^^^ f.reset) := by
  rw [fset, mget_mset_same, BitVec.toNat_ofNat]
  exact Nat.mod_eq_of_lt (withBits_lt _ (BitVec.isLt _) hf)

theorem fget_fset_same (d : Dev) {f : Fd} (v b : Nat) (hf : f.lo + f.width ≤ 64) (hr : f.reset < 2 ^ f.width) :
    fget (fset d f v b) f b = v % 2 ^ f.width := by
  have hx : (v % 2 ^ f.width) ^^^ f.reset < 2 ^ f.width := Nat.xor_lt_two_pow (Nat.mod_lt _ (Nat.two_pow_pos _)) hr
  rw [fget, stored_fset d v b hf, bitsOf_withBits_same, Nat.mod_eq_of_lt hx, Nat.xor_assoc, Nat.xor_self, Nat.xor_zero]

/-- A field of the same register that shares no bit with the written one. -/
theorem fget_fset_apart (d : Dev) {f g : Fd} (v b : Nat) (hf : f.lo + f.width ≤ 64) (ho : g.off = f.off)
    (h : g.lo + g.width ≤ f.lo ∨ f.lo + f.width ≤ g.lo) : fget (fset d f v b) g b = fget d g b := by
  simp only [fget]
  rw [ho, stored_fset d v b hf, bitsOf_withBits_apart _ _ h]

/-! ### A whole register -/

/-- Only stored registers differ. -/
def OnlyRegs (d e : Dev) : Prop := e = { d with regs := e.regs }

theorem OnlyRegs.trans {a b c : Dev} (h : OnlyRegs a b) (k : OnlyRegs b c) : OnlyRegs a c := by
  unfold OnlyRegs at *; rw [k, h]

theorem OnlyRegs.keeps {d e : Dev} (h : OnlyRegs d e) :
    e.sys = d.sys ∧ e.hst = d.hst ∧ e.evts = d.evts ∧ e.caps = d.caps ∧ e.seq = d.seq ∧ e.syn = d.syn ∧ e.fab = d.fab ∧ e.ctx =
      d.ctx ∧ e.txt = d.txt ∧ e.mem = d.mem ∧ e.dly = d.dly ∧ e.flt = d.flt ∧ e.cvu = d.cvu ∧ e.tc = d.tc ∧ e.lnk = d.lnk ∧
      e.sec = d.sec ∧ e.meter = d.meter ∧ e.mtr = d.mtr ∧ e.fls = d.fls ∧ e.map = d.map ∧ e.ckp = d.ckp ∧ e.posted = d.posted ∧
      e.out = d.out ∧ e.fresh = d.fresh := by
  unfold OnlyRegs at h; rw [h]; and_intros <;> rfl

/-- All that a write can do to one field: nothing, ignore it in an enabled block, or set it (00 R7, R8). -/
theorem fieldWrite_cases (off bank word : Nat) (en : Bool) (s : Dev × Bool) (f : FldDef) :
    fieldWrite off bank word en s f = s ∨ (en = true ∧ fieldWrite off bank word en s f = (s.1, true)) ∨
      fieldWrite off bank word en s f = (fset s.1 ⟨off, f.lo, f.width, f.reset⟩ (bitsOf word f.lo f.width) bank, s.2) := by
  dsimp only [fieldWrite]
  split
  · exact .inr (.inr rfl)
  · exact .inr (.inr rfl)
  · split
    · exact .inl rfl
    · split
      · exact .inr (.inl ⟨‹_›, rfl⟩)
      · exact .inr (.inr rfl)
  · exact .inl rfl

theorem onlyRegs_fieldWrite (off bank word : Nat) (en : Bool) (s : Dev × Bool) (f : FldDef) :
    OnlyRegs s.1 (fieldWrite off bank word en s f).1 := by
  rcases fieldWrite_cases off bank word en s f with h | ⟨-, h⟩ | h <;> rw [h] <;> rfl

theorem onlyRegs_foldl_fieldWrite (off bank word : Nat) (en : Bool) (fs : List FldDef) :
    ∀ s : Dev × Bool, OnlyRegs s.1 (fs.foldl (fieldWrite off bank word en) s).1 := by
  induction fs with
  | nil => intro s; rfl
  | cons f t ih => intro s; exact (onlyRegs_fieldWrite off bank word en s f).trans (ih _)

theorem onlyRegs_regStore (d : Dev) (r : RegDef) (bank word : Nat) (en : Bool) : OnlyRegs d (regStore d r bank word en).1 :=
  onlyRegs_foldl_fieldWrite r.off bank word en r.flds (d, false)

/-- In a block that is not enabled no field ignores a write (00 R8). -/
theorem foldl_fieldWrite_disabled (off bank word : Nat) (fs : List FldDef) :
    ∀ s : Dev × Bool, (fs.foldl (fieldWrite off bank word false) s).2 = s.2 := by
  induction fs with
  | nil => intro s; rfl
  | cons f t ih =>
    intro s
    rw [List.foldl_cons, ih]
    rcases fieldWrite_cases off bank word false s f with h | ⟨⟨⟩, -⟩ | h <;> rw [h]

theorem regWrite_disabled (d : Dev) (r : RegDef) (bank addr word : Nat) :
    regWrite d r bank addr word false = (regStore d r bank word false).1 := by
  have : (regStore d r bank word false).2 = false := foldl_fieldWrite_disabled r.off bank word r.flds (d, false)
  simp [regWrite, this]

/-- A write of some fields leaves a field that shares no bit with them. -/
theorem fget_foldl_fieldWrite_apart {off bank word : Nat} {en : Bool} {g : Fd} (ho : g.off = off) (fs : List FldDef) :
    ∀ s : Dev × Bool, (∀ f ∈ fs, f.lo + f.width ≤ 64 ∧ (g.lo + g.width ≤ f.lo ∨ f.lo + f.width ≤ g.lo)) →
      fget (fs.foldl (fieldWrite off bank word en) s).1 g bank = fget s.1 g bank := by
  induction fs with
  | nil => intro s _; rfl
  | cons f t ih =>
    intro s h
    obtain ⟨fits, apart⟩ := h f (List.mem_cons_self ..)
    rw [List.foldl_cons, ih _ (fun x hx => h x (List.mem_cons_of_mem _ hx))]
    rcases fieldWrite_cases off bank word en s f with h | ⟨-, h⟩ | h <;> rw [h]
    exact fget_fset_apart s.1 _ bank fits ho apart

/-- WD fields that are written with what they hold are no change, and none ignores the write (00 R8). -/
theorem foldl_fieldWrite_unchanged {off bank word : Nat} {en : Bool} {s : Dev × Bool} {fs : List FldDef}
    (h : ∀ f ∈ fs, f.acc = .wd ∧ fget s.1 ⟨off, f.lo, f.width, f.reset⟩ bank = bitsOf word f.lo f.width) :
    fs.foldl (fieldWrite off bank word en) s = s := by
  induction fs with
  | nil => rfl
  | cons f t ih =>
    obtain ⟨wd, same⟩ := h f (List.mem_cons_self ..)
    have step : fieldWrite off bank word en s f = s := by simp [fieldWrite, wd, same]
    rw [List.foldl_cons, step]
    exact ih fun x hx => h x (List.mem_cons_of_mem _ hx)

/-- Numbers set side by side, in ascending places, are read back each from its own place. -/
theorem bitsOf_sum_apart {x : FldDef → Nat} (fs : List FldDef) (hx : ∀ f ∈ fs, x f < 2 ^ f.width)
    (apart : fs.Pairwise (fun a b => a.lo + a.width ≤ b.lo)) :
    ∀ f ∈ fs, bitsOf (fs.map (fun f => x f * 2 ^ f.lo)).sum f.lo f.width = x f := by
  induction fs with
  | nil => intro f hf; cases hf
  | cons a t ih =>
    obtain ⟨above, apart⟩ := List.pairwise_cons.1 apart
    have ha := hx a (List.mem_cons_self ..)
    obtain ⟨m, hm⟩ : 2 ^ (a.lo + a.width) ∣ (t.map (fun f => x f * 2 ^ f.lo)).sum := by
      apply List.dvd_sum
      intro y hy
      obtain ⟨f, hf, rfl⟩ := List.mem_map.1 hy
      exact Dvd.dvd.mul_left (Nat.pow_dvd_pow 2 (above f hf)) _
    have parts : x a * 2 ^ a.lo + 2 ^ (a.lo + a.width) * m = 2 ^ a.lo * (2 ^ a.width * m + x a) := by rw [Nat.pow_add]; ring
    intro f hf
    rw [List.map_cons, List.sum_cons]
    rcases List.mem_cons.1 hf with rfl | hf
    · rw [hm, parts, bitsOf, Nat.mul_div_cancel_left _ (Nat.two_pow_pos _), Nat.mul_add_mod, Nat.mod_eq_of_lt ha]
    · rw [← ih (fun f hf => hx f (List.mem_cons_of_mem _ hf)) apart f hf, hm, parts]
      obtain ⟨j, hj⟩ := Nat.exists_eq_add_of_le (above f hf)
      simp only [bitsOf, hj, Nat.pow_add, ← Nat.div_div_eq_div_mul, Nat.mul_assoc,
        Nat.mul_div_cancel_left _ (Nat.two_pow_pos a.lo), Nat.mul_div_cancel_left _ (Nat.two_pow_pos a.width)]
      rw [Nat.mul_add_div (Nat.two_pow_pos _), Nat.div_eq_of_lt ha, Nat.add_zero]

end Sys2Proof.Machine
end

section
/-!
PROOFS. Submission rings (02 R18, R42, R54 to R56, R59, R502): the register that opens a ring, the sequencer that it is bound to, and
what opening, closing, draining and resuming do.
-/

namespace Sys2Proof.Machine

/-! ### Registers whose bit 0 opens a ring (02 R54) -/

/-- A register of an `open` bit and of WD fields above it, in ascending places. -/
structure OpenReg (r : RegDef) (rest : List FldDef) : Prop where
  flds : r.flds = ⟨0, 1, .rw, 0⟩ :: rest
  wd : ∀ f ∈ rest, f.acc = .wd
  fits : ∀ f ∈ rest, 1 ≤ f.lo ∧ f.lo + f.width ≤ 64 ∧ f.reset < 2 ^ f.width
  apart : rest.Pairwise (fun a b => a.lo + a.width ≤ b.lo)

section OpenReg

variable {r : RegDef} {rest : List FldDef}

theorem fieldWrite_open (off bank word : Nat) (en : Bool) (s : Dev × Bool) :
    fieldWrite off bank word en s ⟨0, 1, .rw, 0⟩ = (fset s.1 ⟨off, 0, 1, 0⟩ (bitsOf word 0 1) bank, s.2) := rfl

theorem OpenReg.regStore_eq (h : OpenReg r rest) (d : Dev) (bank word : Nat) (en : Bool) :
    regStore d r bank word en
      = rest.foldl (fieldWrite r.off bank word en) (fset d ⟨r.off, 0, 1, 0⟩ (bitsOf word 0 1) bank, false) := by
  rw [regStore, h.flds, List.foldl_cons, fieldWrite_open]

/-- The open bit takes bit 0 of the word, whatever the WD fields do. -/
theorem OpenReg.fget_regStore_open (h : OpenReg r rest) (d : Dev) (bank word : Nat) (en : Bool) :
    fget (regStore d r bank word en).1 ⟨r.off, 0, 1, 0⟩ bank = bitsOf word 0 1 := by
  have apart : ∀ f ∈ rest, f.lo + f.width ≤ 64 ∧ (0 + 1 ≤ f.lo ∨ f.lo + f.width ≤ 0) := fun f hf =>
    ⟨(h.fits f hf).2.1, .inl (h.fits f hf).1⟩
  rw [h.regStore_eq, fget_foldl_fieldWrite_apart (g := ⟨r.off, 0, 1, 0⟩) rfl rest _ apart, fget_fset_same _ _ _ (by simp) (by simp)]
  simp [bitsOf]

/-- The word of such a register holds each WD field in its place. -/
theorem OpenReg.bitsOf_rawWord (h : OpenReg r rest) (d : Dev) (bank : Nat) {f : FldDef} (hf : f ∈ rest) :
    bitsOf (rawWord d r bank) f.lo f.width = fget d ⟨r.off, f.lo, f.width, f.reset⟩ bank := by
  have stored : ∀ g ∈ r.flds, g.acc = .rw ∨ g.acc = .wd := by
    rw [h.flds]
    exact List.forall_mem_cons.2 ⟨.inl rfl, fun g hg => .inr (h.wd g hg)⟩
  have word : rawWord d r bank = (r.flds.map (fun g => fget d ⟨r.off, g.lo, g.width, g.reset⟩ bank * 2 ^ g.lo)).sum := by
    rw [rawWord, sumN, ← List.sum_eq_foldl]
    congr 1
    apply List.map_congr_left
    intro g hg
    rcases stored g hg with e | e <;> simp [e]
  rw [word]
  refine bitsOf_sum_apart (x := fun g => fget d ⟨r.off, g.lo, g.width, g.reset⟩ bank) r.flds (fun g hg => ?_) ?_ f
    (h.flds ▸ List.mem_cons_of_mem _ hf)
  · rw [h.flds] at hg
    rcases List.mem_cons.1 hg with rfl | hg
    · exact fget_lt _ _ (by simp)
    · exact fget_lt _ _ (h.fits g hg).2.2
  · rw [h.flds]
    exact List.pairwise_cons.2 ⟨fun g hg => (h.fits g hg).1, h.apart⟩

/-- Writing back the word without its open bit clears that bit, and nothing is ignored (02 R56). -/
theorem OpenReg.regWrite_clear (h : OpenReg r rest) (d : Dev) (bank addr : Nat) (en : Bool) :
    regWrite d r bank addr (withBits (rawWord d r bank) 0 1 0) en = fset d ⟨r.off, 0, 1, 0⟩ 0 bank := by
  have same : ∀ f ∈ rest, f.acc = .wd ∧ fget (fset d ⟨r.off, 0, 1, 0⟩ 0 bank) ⟨r.off, f.lo, f.width, f.reset⟩ bank
      = bitsOf (withBits (rawWord d r bank) 0 1 0) f.lo f.width := by
    intro f hf
    obtain ⟨above, -, -⟩ := h.fits f hf
    refine ⟨h.wd f hf, ?_⟩
    rw [fget_fset_apart d (f := ⟨r.off, 0, 1, 0⟩) (g := ⟨r.off, f.lo, f.width, f.reset⟩) 0 bank (by simp) rfl (.inr above),
      bitsOf_withBits_apart _ _ (.inr above), h.bitsOf_rawWord d bank hf]
  have bit : bitsOf (withBits (rawWord d r bank) 0 1 0) 0 1 = 0 := bitsOf_withBits_same ..
  have store : regStore d r bank (withBits (rawWord d r bank) 0 1 0) en = (fset d ⟨r.off, 0, 1, 0⟩ 0 bank, false) := by
    rw [h.regStore_eq, bit]
    exact foldl_fieldWrite_unchanged (s := (fset d ⟨r.off, 0, 1, 0⟩ 0 bank, false)) same
  simp [regWrite, store]

end OpenReg

theorem bitOf_zero (v : Nat) : bitOf v 0 = (bitsOf v 0 1 == 1) := by simp [bitOf, bitsOf]

theorem bitOf_or_one (v : Nat) : bitOf (v ||| 1) 0 = true := by simp [bitOf]

theorem bitOf_withBits_clear (v : Nat) : bitOf (withBits v 0 1 0) 0 = false := by
  rw [bitOf_zero, bitsOf_withBits_same]; rfl

/-! ### Submission rings: the commands and the register that they write (02 R54 to R56, R59) -/

theorem openReg_sqCfg : OpenReg (regDef Rg.SEQ_SQ_CFG) [⟨1, 5, .wd, 0⟩, ⟨6, 9, .wd, 0⟩, ⟨15, 1, .wd, 0⟩, ⟨16, 8, .wd, 0⟩] :=
  ⟨rfl, by decide, by decide, by decide⟩

theorem exec_sqOpen {s : State} {r : Nat} (v : BitVec 32) (hr : r < 512) (hp : s.dev.sys.portUp = true) :
    exec (.sqOpen r v) s = .next (s.settled (sqCfgWrite s.dev r (v.toNat ||| 1) (sqCfgAddr r))) := by
  change execSqOpen r v s = _
  simp only [execSqOpen, lift_next, hr, hp, and_self, if_true]

theorem exec_sqClose {s : State} {r : Nat} (hr : r < 512) (hp : s.dev.sys.portUp = true) :
    exec (.sqClose r) s
      = .next (s.settled (sqCfgWrite s.dev r (withBits (rawWord s.dev (regDef Rg.SEQ_SQ_CFG) r) 0 1 0) (sqCfgAddr r))) := by
  change execSqClose r s = _
  simp only [execSqClose, lift_next, hr, hp, and_self, if_true]

theorem exec_sqDrainEnd (s : State) (r : Nat) :
    exec (.sqDrainEnd r) s = .next (s.settled (if (sqOf s.dev r).draining = true ∧ (sqOf s.dev r).flights = [] then
      setSq s.dev r { sqOf s.dev r with draining := false } else s.dev)) := rfl

theorem exec_sqResume {s : State} (r : Nat) (hp : s.dev.sys.portUp = true) :
    exec (.sqResume r) s = .next (s.settled (if (sqOf s.dev r).stalled = true then
      settle (setSq s.dev r { sqOf s.dev r with stalled := false }) else s.dev)) := by
  change execSqResume r s = _
  simp only [execSqResume, lift_next, hp, and_true]

section Write

variable {d : Dev} {n word : Nat} (addr : Nat)

theorem sqCfgWrite_draining (hs : bitOf word 0 = true) (hd : (sqOf d n).draining = true) :
    sqCfgWrite d n word addr = cfgIgnored d addr := by simp [sqCfgWrite, hs, hd]

theorem sqCfgWrite_open (hs : bitOf word 0 = true) (hd : (sqOf d n).draining = false) (ho : sqOpenBit d n = true) :
    sqCfgWrite d n word addr = regWrite d (regDef Rg.SEQ_SQ_CFG) n addr word true := by simp [sqCfgWrite, hs, hd, ho]

theorem sqCfgWrite_closes (hs : bitOf word 0 = false) (ho : sqOpenBit d n = true) :
    sqCfgWrite d n word addr = sqClose (regWrite d (regDef Rg.SEQ_SQ_CFG) n addr word true) n := by simp [sqCfgWrite, hs, ho]

theorem sqCfgWrite_refused (hs : bitOf word 0 = true) (hd : (sqOf d n).draining = false) (ho : sqOpenBit d n = false)
    (h : sqOpenRefused (regWrite d (regDef Rg.SEQ_SQ_CFG) n addr word false) n = true) :
    sqCfgWrite d n word addr
      = cfgIgnored (fset (regWrite d (regDef Rg.SEQ_SQ_CFG) n addr word false) Fd.SEQ_SQ_CFG_open 0 n) addr := by
  simp [sqCfgWrite, hs, hd, ho, h]

theorem sqCfgWrite_opens (hs : bitOf word 0 = true) (hd : (sqOf d n).draining = false) (ho : sqOpenBit d n = false) {e : Dev}
    (he : e = regWrite d (regDef Rg.SEQ_SQ_CFG) n addr word false) (h : sqOpenRefused e n = false) :
    sqCfgWrite d n word addr = bindSequencer (setSq e n { sqOf e n with head := 0, tail := 0, stalled := false }) n := by
  subst he
  simp [sqCfgWrite, hs, hd, ho, h]

end Write

/-- What refuses an opening (02 R42, R55, R502). -/
theorem sqOpenRefused_iff (d : Dev) (n : Nat) : sqOpenRefused d n = true ↔
    d.hst.ideActive = false ∨ fget d Fd.SEQ_SQ_CFG_size_log2 n < 4 ∨ 16 < fget d Fd.SEQ_SQ_CFG_size_log2 n ∨ 512 ≤ sqCq d n ∨
      cqOpenBit d (sqCq d n) = false ∨
      2 ^ 64 < fget d Fd.SEQ_SQ_BASE_base n * 4096 + 64 * 2 ^ fget d Fd.SEQ_SQ_CFG_size_log2 n := by
  simp only [sqOpenRefused, areaWraps, Bool.or_eq_true, Bool.not_eq_true', Bool.and_eq_false_iff, decide_eq_true_eq,
    decide_eq_false_iff_not, Nat.not_le, ge_iff_le]
  tauto

/-! ### The control sequencer that a ring is bound to (02 R18) -/

/-- How many open rings other than `n` a sequencer serves. -/
def servedBut (d : Dev) (n k : Nat) : Nat :=
  ((List.range 512).filter (fun r => r != n && sqOpenBit d r && (sqOf d r).sequencer == some k)).length

/-- Of 32 sequencers one serves fewer than 16 of the other 511 rings. -/
theorem exists_sequencer_with_room (d : Dev) {n : Nat} (hn : n < 512) : ∃ k < 32, servedBut d n k < 16 := by
  let others := (Finset.range 512).erase n
  have few : others.card < ((Finset.range 32).map Function.Embedding.some).card * 16 := by
    rw [Finset.card_erase_of_mem (Finset.mem_range.2 hn), Finset.card_map, Finset.card_range, Finset.card_range]
    omega
  obtain ⟨y, hy, hfew⟩ := Finset.exists_card_fiber_lt_of_card_lt_mul (f := fun r => (sqOf d r).sequencer) few
  obtain ⟨k, hk, rfl⟩ := Finset.mem_map.1 hy
  refine ⟨k, Finset.mem_range.1 hk, lt_of_le_of_lt ?_ hfew⟩
  rw [servedBut, ← List.toFinset_card_of_nodup (List.nodup_range.filter _)]
  refine Finset.card_le_card fun r hr => ?_
  simp only [List.mem_toFinset, List.mem_filter, List.mem_range, Bool.and_eq_true, bne_iff_ne, beq_iff_eq] at hr
  obtain ⟨lt, ⟨ne, -⟩, serves⟩ := hr
  exact Finset.mem_filter.2 ⟨Finset.mem_erase.2 ⟨ne, Finset.mem_range.2 lt⟩, serves⟩

/-- The sequencers that have room for a ring. -/
def withRoom (d : Dev) (n : Nat) : List Nat := (List.range 32).filter (fun k => decide (servedBut d n k < 16))

theorem mem_withRoom (d : Dev) (n k : Nat) : k ∈ withRoom d n ↔ k < 32 ∧ servedBut d n k < 16 := by simp [withRoom]

theorem bindSequencer_eq (d : Dev) (n : Nat) : bindSequencer d n = setSq { d with fresh := d.fresh + 1 } n
    { sqOf d n with sequencer := (withRoom d n)[Config.free d.fresh % (withRoom d n).length]? } := rfl

/-- A ring that opens is bound to a sequencer with room. -/
theorem bindSequencer_binds (d : Dev) {n : Nat} (hn : n < 512) : ∃ k < 32, servedBut d n k < 16 ∧
    sqOf (bindSequencer d n) n = { sqOf d n with sequencer := some k } := by
  obtain ⟨j, hj⟩ := exists_sequencer_with_room d hn
  have pick := Nat.mod_lt (Config.free d.fresh) (List.length_pos_of_mem ((mem_withRoom d n j).2 hj))
  obtain ⟨k, hk⟩ : ∃ k, (withRoom d n)[Config.free d.fresh % (withRoom d n).length]? = some k :=
    ⟨_, List.getElem?_eq_getElem pick⟩
  obtain ⟨lt, few⟩ := (mem_withRoom d n k).1 (List.mem_of_getElem? hk)
  exact ⟨k, lt, few, by rw [bindSequencer_eq, hk, sqOf_setSq_same]⟩

theorem sqOf_bindSequencer_other (d : Dev) {n i : Nat} (h : i ≠ n) : sqOf (bindSequencer d n) i = sqOf d i :=
  (sqOf_setSq _ n i _).trans (if_neg h)

@[simp] theorem bindSequencer_frame (d : Dev) (n : Nat) :
    (bindSequencer d n).regs = d.regs ∧ (bindSequencer d n).evts = d.evts ∧ (bindSequencer d n).ctx = d.ctx := by
  simp [bindSequencer_eq]

theorem sqOpenBit_congr {d e : Dev} (h : d.regs = e.regs) (n : Nat) : sqOpenBit d n = sqOpenBit e n := fbit_congr h _ n

theorem servedBut_congr {d e : Dev} {n : Nat} (k : Nat) (hr : d.regs = e.regs) (hq : ∀ i, i ≠ n → sqOf d i = sqOf e i) :
    servedBut d n k = servedBut e n k := by
  have same : ∀ i ∈ List.range 512, (i != n && sqOpenBit d i && (sqOf d i).sequencer == some k)
      = (i != n && sqOpenBit e i && (sqOf e i).sequencer == some k) := by
    intro i _
    by_cases hi : i = n
    · simp [hi]
    · rw [sqOpenBit_congr hr, hq i hi]
  rw [servedBut, List.filter_congr same, servedBut]

/-! ### Opening and closing (02 R54 to R56) -/

/-- The open bit takes bit 0 of a word that is written while the ring is closed, and only registers change. -/
theorem regWrite_sqCfg_closed (d : Dev) (n addr word : Nat) :
    sqOpenBit (regWrite d (regDef Rg.SEQ_SQ_CFG) n addr word false) n = bitOf word 0 ∧
      OnlyRegs d (regWrite d (regDef Rg.SEQ_SQ_CFG) n addr word false) := by
  rw [regWrite_disabled, bitOf_zero]
  exact ⟨congrArg (· == 1) (openReg_sqCfg.fget_regStore_open d n word false), onlyRegs_regStore ..⟩

/-- A ring that may open does, at index 0, bound to a sequencer that has room. -/
theorem sqCfgWrite_binds {d e : Dev} {n word : Nat} (addr : Nat) (hn : n < 512) (hs : bitOf word 0 = true)
    (hd : (sqOf d n).draining = false) (ho : sqOpenBit d n = false)
    (he : e = regWrite d (regDef Rg.SEQ_SQ_CFG) n addr word false) (hok : sqOpenRefused e n = false) {x : Dev}
    (hx : x = sqCfgWrite d n word addr) :
    ∃ k, sqOpenBit x n = true ∧
      sqOf x n = { sqOf d n with head := 0, tail := 0, stalled := false, sequencer := some k } ∧ k < 32 ∧ servedBut x n k < 16 ∧
      (∀ i, i ≠ n → sqOf x i = sqOf d i) ∧ x.regs = e.regs ∧ x.evts = d.evts ∧ x.ctx = d.ctx := by
  obtain ⟨opened, regs⟩ := regWrite_sqCfg_closed d n addr word
  rw [← he] at opened regs
  obtain ⟨-, -, evts, -, seq, -, -, ctx, -⟩ := regs.keeps
  have rings : ∀ i, sqOf e i = sqOf d i := fun i => by simp [sqOf, seq]
  let y := setSq e n { sqOf e n with head := 0, tail := 0, stalled := false }
  obtain ⟨yregs, yevts, yctx⟩ := bindSequencer_frame y n
  obtain ⟨k, hk, few, bound⟩ := bindSequencer_binds y hn
  obtain rfl : x = bindSequencer y n := hx.trans (sqCfgWrite_opens addr hs hd ho he hok)
  refine ⟨k, ?_, ?_, hk, ?_, fun i hi => ?_, yregs, yevts.trans evts, yctx.trans ctx⟩
  · exact (sqOpenBit_congr (e := e) yregs n).trans (opened.trans hs)
  · rw [bound, sqOf_setSq_same, rings]
  · rwa [servedBut_congr k yregs fun i => sqOf_bindSequencer_other y]
  · rw [sqOf_bindSequencer_other y hi, sqOf_setSq, if_neg hi, rings]

theorem sqOpenBit_fset_clear (d : Dev) (n : Nat) : sqOpenBit (fset d Fd.SEQ_SQ_CFG_open 0 n) n = false :=
  congrArg (· == 1) (fget_fset_same d (f := Fd.SEQ_SQ_CFG_open) 0 n (by decide) (by decide))

/-- What a close leaves of a ring before its completions are written (02 R56). -/
def cutRing (q : Sq) : Sq :=
  { q with tail := q.head, stalled := false, sequencer := none, flights := q.flights.map (fun f =>
    if f.phase = .waiting then { f with phase := .done, status := stCut, result := 0 } else f) }

/-- A ring drains while flights are left. -/
def drainRest (d : Dev) (n : Nat) : Dev := setSq d n { sqOf d n with draining := decide ((sqOf d n).flights ≠ []) }

theorem sqClose_eq (d : Dev) (n : Nat) : sqClose d n = drainRest (settle (setSq d n (cutRing (sqOf d n)))) n := by
  have drains : ∀ l : List Flight, (!l.isEmpty) = decide (l ≠ []) := fun l => by cases l <;> rfl
  simp only [sqClose, drains]
  rfl

theorem exec_sqClose_open {s : State} {r : Nat} (hr : r < 512) (hp : s.dev.sys.portUp = true) (ho : sqOpenBit s.dev r = true) :
    exec (.sqClose r) s = .next (s.settled
      (drainRest (settle (setSq (fset s.dev Fd.SEQ_SQ_CFG_open 0 r) r (cutRing (sqOf s.dev r)))) r)) := by
  rw [exec_sqClose hr hp, sqCfgWrite_closes _ (bitOf_withBits_clear _) ho, openReg_sqCfg.regWrite_clear, sqClose_eq]
  rfl

/-- Settles O24, each clause by the lemma of the write that it speaks of. The indices at an open and the end of a stall at a close are
as log entries 75 and 77 choose. -/
theorem submissionRingsOpenAndClose : Obligations.SubmissionRingsOpenAndClose := by
  intro s r v q hr hp hq
  subst hq
  have sets : bitOf (v.toNat ||| 1) 0 = true := bitOf_or_one _
  refine ⟨fun e k cq ho hd he hk hcq => ?_, fun hd => ?_, fun hd ho => ?_, fun ho => ?_, fun hd hf => ?_, fun h => ?_, fun h => ?_,
    fun h => ?_⟩
  · subst hk hcq
    obtain ⟨-, hst, -⟩ := OnlyRegs.keeps (he ▸ (regWrite_sqCfg_closed s.dev r (sqCfgAddr r) (v.toNat ||| 1)).2)
    have refuses := sqOpenRefused_iff e r
    rw [hst] at refuses
    constructor
    · intro ide k4 k16 c512 cqo wrap
      have ok : ¬ sqOpenRefused e r = true := by
        rw [refuses]
        simpa [ide, cqo, Nat.not_lt.2 k4, Nat.not_lt.2 k16, Nat.not_le.2 c512] using wrap
      obtain ⟨n, spec⟩ := sqCfgWrite_binds (sqCfgAddr r) hr sets hd ho he (Bool.eq_false_iff.2 ok) rfl
      exact ⟨_, n, exec_sqOpen v hr hp, spec⟩
    · intro h
      rw [exec_sqOpen v hr hp, sqCfgWrite_refused _ sets hd ho (he ▸ refuses.2 h), he]
  · rw [exec_sqOpen v hr hp, sqCfgWrite_draining _ sets hd]
  · rw [exec_sqOpen v hr hp, sqCfgWrite_open _ sets hd ho]
  · exact ⟨setSq (fset s.dev Fd.SEQ_SQ_CFG_open 0 r) r (cutRing (sqOf s.dev r)), _, sqOpenBit_fset_clear s.dev r, rfl, rfl,
      fun i hi => (sqOf_setSq _ r i _).trans (if_neg hi), sqOf_setSq_same .., rfl, exec_sqClose_open hr hp ho⟩
  · rw [exec_sqDrainEnd, if_pos ⟨hd, hf⟩]
  · rw [exec_sqDrainEnd, if_neg]
    rintro ⟨hd, hf⟩
    simp [hd, hf] at h
  · rw [exec_sqResume r hp, if_pos h]
  · rw [exec_sqResume r hp, if_neg (by simp [h])]

end Sys2Proof.Machine
end

section
/-!
PROOFS. What commands do to the host's side (02 R39, R44): the queue stays, and host memory holds the last byte posted.
-/

namespace Sys2Proof.Machine

/-- Settles O3, the model's choice of log entry 1: each command settles a device, and settling leaves the queue. -/
theorem everyCommandAnswersNextAndKeepsTheQueue : Obligations.EveryCommandAnswersNextAndKeepsTheQueue := by
  intro c s
  obtain ⟨d, run⟩ := exec_settles c s
  exact ⟨d, run, settled_pending s d⟩

/-! ### Host memory (02 R39) -/

/-- The byte that one posted write leaves at an address, if it covers it. -/
def postedByte (w : Posted) (a : Nat) : Option Byte := if w.addr ≤ a then w.bytes[a - w.addr]? else none

theorem look_putBytes (m : List Host.Cell) (w : Posted) (a : Nat) :
    look (putBytes m w.addr w.bytes) a = (postedByte w a).or (look m a) := by
  by_cases below : a < w.addr
  · rw [look_putBytes_outside _ _ _ _ (.inl below), postedByte, if_neg (Nat.not_le.2 below), Option.none_or]
  · obtain ⟨i, rfl⟩ := Nat.exists_eq_add_of_le (Nat.not_lt.1 below)
    rw [postedByte, if_pos (Nat.le_add_right ..), Nat.add_sub_cancel_left]
    by_cases inside : i < w.bytes.length
    · rw [look_putBytes_inside _ _ _ _ inside, List.getElem?_eq_getElem inside, Option.some_or]
    · rw [look_putBytes_outside _ _ _ _ (.inr (by omega)), List.getElem?_eq_none (Nat.not_lt.1 inside), Option.none_or]

/-- Of several posted writes, the first one counts where no later one covers the address. -/
theorem lastPosted_cons (w : Posted) (ws : List Posted) (a : Nat) :
    lastPosted (w :: ws) a = (lastPosted ws a).or (postedByte w a) := by
  simp [lastPosted, postedByte, List.findSome?_append]

theorem look_land (ws : List Posted) (a : Nat) : ∀ m : List Host.Cell, look (land m ws) a = (lastPosted ws a).or (look m a) := by
  induction ws with
  | nil => intro m; rfl
  | cons w ws ih =>
    intro m
    change look (land (putBytes m w.addr w.bytes) ws) a = _
    rw [ih, look_putBytes, lastPosted_cons, Option.or_assoc]

/-- Settles O4: posted writes land in order while the data path is open, and none lands while it is closed. That they wait is log
entry 76. -/
theorem hostMemoryHoldsTheLastPostedByte : Obligations.HostMemoryHoldsTheLastPostedByte := by
  refine fun s d a => ⟨fun hp => ⟨?_, heldBack_of_hostPath hp⟩, fun hp => ⟨?_, ?_⟩⟩
  · rw [settled_hostMem, landed, if_pos hp, look_land]
  · rw [settled_hostMem, landed, if_neg (by simp [hp])]
  · change heldBack d = _
    simp [heldBack, hp]

end Sys2Proof.Machine
end

section
/-!
PROOFS. The end of a descriptor (02 R51, R59, R68 to R73): delivery, signals and waits touch rings, sync objects, reports and links only.
-/

namespace Sys2Proof.Machine

theorem onlyRings_setSq (d : Dev) (n : Nat) (q : Sq) : OnlyRings d (setSq d n q) := rfl

theorem onlyRings_ite {d a b : Dev} {p : Prop} [Decidable p] (h : OnlyRings d a) (k : OnlyRings d b) :
    OnlyRings d (if p then a else b) := by
  split
  · exact h
  · exact k

theorem onlyReports_mirrorObjOn (d : Dev) (o r : Nat) : OnlyReports d (mirrorObj d o r) := by
  unfold mirrorObj mirrorWrite
  split
  · rfl
  · exact onlyReports_ite (onlyReports_hostWrite d _ _ _) rfl

theorem onlyRings_syncStoreOn (d : Dev) (o : Nat) (x : SynObj) (r : Nat) : OnlyRings d (syncStore d o x r) :=
  onlyRings_ite rfl ((onlyRings_syncPut d o x).trans (onlyReports_mirrorObjOn _ o r).rings)

theorem onlyRings_syncApplyOn (d : Dev) (c rel op v : Nat) (b m : Bool) (r : Nat) : OnlyRings d (syncApply d c rel op v b m r) := by
  have put := fun o x => show OnlyRings d (if m then syncStore d o x r else syncPut d o x) from
    onlyRings_ite (onlyRings_syncStoreOn d o x r) (onlyRings_syncPut d o x)
  dsimp only [syncApply]
  exact onlyRings_ite (onlyRings_ite ((put _ _).trans (onlyReports_reportWith _ _ _).rings) (put _ _)) rfl

/-! ### The parts of a delivery (02 R51, R59, R68, R72) -/

/-- The oldest flight leaves its ring. -/
def dropOldest (d : Dev) (r : Nat) : Dev := setSq d r { sqOf d r with flights := (sqOf d r).flights.drop 1 }

/-- The mirror write of what the flight's own operation changed (R72). -/
def mirrorOwn (d : Dev) (r : Nat) (f : Flight) : Dev :=
  if f.changed then mirrorObj d (syncAbs d (sqClient d r) (dbits f.desc 4 0 17)) r else d

/-- The descriptor's signal (R68). -/
def signalAfter (d : Dev) (r : Nat) (f : Flight) : Dev :=
  if f.noSignal then d
  else syncApply d (sqClient d r) (dSignal f.desc).1 (dSignal f.desc).2.1 (dSignal f.desc).2.2 (!isOk f.status) true r

/-- The stall after an error (R59). -/
def stallAfter (d : Dev) (r : Nat) (f : Flight) : Dev :=
  if stalls f.status ∧ fbit d Fd.SEQ_SQ_CFG_stop_on_error r ∧ !(sqOf d r).stalled then
    raise (setSq d r { sqOf d r with stalled := true, stallTag := dTag f.desc, stallStatus := f.status }) Fd.SEQ_EVT_ring_stalled
  else d

theorem deliverOne_eq (d : Dev) (r : Nat) (f : Flight) :
    deliverOne d r f = stallAfter (signalAfter (mirrorOwn (writeCompletion (dropOldest d r) r f) r f) r f) r f := rfl

theorem onlyRings_mirrorOwn (d : Dev) (r : Nat) (f : Flight) : OnlyRings d (mirrorOwn d r f) :=
  onlyRings_ite (onlyReports_mirrorObjOn d _ r).rings (OnlyRings.rfl' d)

theorem onlyRings_signalAfter (d : Dev) (r : Nat) (f : Flight) : OnlyRings d (signalAfter d r f) :=
  onlyRings_ite (OnlyRings.rfl' d) (onlyRings_syncApplyOn d _ _ _ _ _ _ r)

theorem onlyRings_stallAfter (d : Dev) (r : Nat) (f : Flight) : OnlyRings d (stallAfter d r f) :=
  onlyRings_ite ((onlyRings_setSq d r _).trans (onlyReports_raise _ _).rings) (OnlyRings.rfl' d)

theorem onlyRings_deliverOne (d : Dev) (r : Nat) (f : Flight) : OnlyRings d (deliverOne d r f) := by
  rw [deliverOne_eq]
  exact (onlyRings_setSq d r _).trans <| (onlyReports_writeCompletion _ r f).rings.trans <| (onlyRings_mirrorOwn _ r f).trans <|
    (onlyRings_signalAfter _ r f).trans (onlyRings_stallAfter _ r f)

/-! ### Settling (02 R51, R69, R71) -/

theorem onlyRings_updFlight (d : Dev) (r i : Nat) (g : Flight → Flight) : OnlyRings d (updFlight d r i g) := rfl

/-- One move towards rest is a delivery, a decided wait or a met one (R51, R69, R71). -/
theorem onlyRings_settleOne {d e : Dev} (h : settleOne d = some e) : OnlyRings d e := by
  unfold settleOne at h
  split at h
  · cases h; exact onlyRings_deliverOne d _ _
  · split at h
    · cases h; exact onlyRings_updFlight d _ _ _
    · split at h
      · cases h; exact onlyRings_updFlight d _ _ _
      · cases h; exact onlyRings_updFlight d _ _ _
      · cases h

theorem onlyRings_settleBy (n : Nat) : ∀ d : Dev, OnlyRings d (settleBy n d) := by
  induction n with
  | zero => intro d; rfl
  | succ n ih =>
    intro d
    unfold settleBy
    split
    · rfl
    · exact (onlyRings_settleOne ‹_›).trans (ih _)

theorem onlyRings_settle (d : Dev) : OnlyRings d (settle d) := onlyRings_settleBy _ d

theorem onlyRings_finish (d : Dev) (r id st res : Nat) : OnlyRings d (finish d r id st res) :=
  (onlyRings_updFlight d r id _).trans (onlyRings_settle _)

/-- Settles O33: the end marks the flight and settles, and each move of that touches rings, sync objects, reports and links only. -/
theorem endingADescriptorTouchesNoOtherState : Obligations.EndingADescriptorTouchesNoOtherState :=
  fun d r id st res => ⟨finish d r id st res, rfl, onlyRings_finish d r id st res⟩

end Sys2Proof.Machine
end

section
/-!
PROOFS. Registers that set up sync objects, clients and enables (02 R54, R70, R73, R510; 03 R81, R95; 07 R195; 15 R425).
-/

namespace Sys2Proof.Machine

/-! ### Fields of another register or bank (03 R75) -/

theorem regKey_ne {o o' b b' : Nat} (hb : b < 2 ^ 24) (hb' : b' < 2 ^ 24) (h : o ≠ o' ∨ b ≠ b') : regKey o b ≠ regKey o' b' := by
  unfold regKey
  omega

theorem fget_fset_elsewhere (d : Dev) {f g : Fd} (v : Nat) {b c : Nat} (h : regKey g.off c ≠ regKey f.off b) :
    fget (fset d f v b) g c = fget d g c := by
  simp only [fget, fset, mget_mset_other _ _ _ h]

theorem fget_regStore_elsewhere (d : Dev) (r : RegDef) {bank word c : Nat} {en : Bool} {g : Fd}
    (h : regKey g.off c ≠ regKey r.off bank) : fget (regStore d r bank word en).1 g c = fget d g c := by
  suffices ∀ (fs : List FldDef) (s : Dev × Bool), fget (fs.foldl (fieldWrite r.off bank word en) s).1 g c = fget s.1 g c from
    this r.flds (d, false)
  intro fs
  induction fs with
  | nil => intro s; rfl
  | cons f t ih =>
    intro s
    rw [List.foldl_cons, ih]
    rcases fieldWrite_cases r.off bank word en s f with k | ⟨-, k⟩ | k <;> rw [k]
    exact fget_fset_elsewhere s.1 _ h

/-- A WD field of a block that is not enabled takes its bits of the word (00 R8). -/
theorem fget_fieldWrite_wd {off bank word : Nat} (s : Dev × Bool) {f : FldDef} (wd : f.acc = .wd) (fits : f.lo + f.width ≤ 64)
    (hr : f.reset < 2 ^ f.width) :
    fget (fieldWrite off bank word false s f).1 ⟨off, f.lo, f.width, f.reset⟩ bank = bitsOf word f.lo f.width := by
  simp only [fieldWrite, wd]
  split
  · assumption
  · rw [if_neg (by simp), fget_fset_same s.1 (f := ⟨off, f.lo, f.width, f.reset⟩) _ _ fits hr]
    exact Nat.mod_mod _ _

/-! ### A client's range of sync objects (02 R510) -/

theorem syncRange_congr {d e : Dev} (h : d.regs = e.regs) (c : Nat) : syncRange d c = syncRange e c := by
  simp only [syncRange, fget_congr h]

theorem syncRange_regStore_same (d : Dev) (c word : Nat) :
    syncRange (regStore d (regDef Rg.SEQ_CLIENT_SYNC) c word false).1 c = (bitsOf word 0 17, bitsOf word 17 18) := by
  let base : FldDef := ⟨0, 17, .wd, 0⟩
  let count : FldDef := ⟨17, 18, .wd, 0⟩
  have writes : (regStore d (regDef Rg.SEQ_CLIENT_SYNC) c word false).1 =
      (fieldWrite 0x201000 c word false (fieldWrite 0x201000 c word false (d, false) base) count).1 := rfl
  have kept := fget_foldl_fieldWrite_apart (off := 0x201000) (bank := c) (word := word) (en := false)
    (g := Fd.SEQ_CLIENT_SYNC_sync_base) rfl [count] (fieldWrite 0x201000 c word false (d, false) base) (by decide)
  rw [writes]
  exact Prod.ext (kept.trans (fget_fieldWrite_wd _ (f := base) rfl (by decide) (by decide)))
    (fget_fieldWrite_wd _ (f := count) rfl (by decide) (by decide))

theorem syncRange_regStore_other (d : Dev) {c e : Nat} (word : Nat) (en : Bool) (h : e ≠ c) :
    syncRange (regStore d (regDef Rg.SEQ_CLIENT_SYNC) c word en).1 e = syncRange d e := by
  have key : regKey 0x201000 e ≠ regKey 0x201000 c := fun k => h (by unfold regKey at k; omega)
  exact Prod.ext (fget_regStore_elsewhere d _ (g := Fd.SEQ_CLIENT_SYNC_sync_base) key)
    (fget_regStore_elsewhere d _ (g := Fd.SEQ_CLIENT_SYNC_sync_count) key)

theorem exec_clientSyncWrite {s : State} {c : Nat} (v : Word) (hp : s.dev.sys.portUp = true) (hc : c < 256) :
    exec (.clientSyncWrite c v) s = .next (s.settled (clientSyncWrite s.dev c v.toNat (copyAddr Rg.SEQ_CLIENT_SYNC 0x20 c))) := by
  change execClientSyncWrite c v s = _
  simp only [execClientSyncWrite, lift_next, hc, hp, and_self, if_true]

theorem clientSyncWrite_taken {d : Dev} {word : Nat} (c addr : Nat) (h : bitsOf word 0 17 + bitsOf word 17 18 ≤ syncCount)
    (he : fbit d Fd.SEQ_CTL_enable = false) :
    clientSyncWrite d c word addr = (regStore d (regDef Rg.SEQ_CLIENT_SYNC) c word false).1 := by
  rw [clientSyncWrite, if_neg (Nat.not_lt.2 h), he, regWrite_disabled]

theorem clientSyncWrite_beyond {d : Dev} {word : Nat} (c addr : Nat) (h : syncCount < bitsOf word 0 17 + bitsOf word 17 18) :
    clientSyncWrite d c word addr = cfgIgnored d addr := if_pos h

theorem evSet_cfgIgnored (d : Dev) (a : Nat) : evSet (cfgIgnored d a) Fd.GLB_EVT_cfg_ignored = true := evSet_capture ..

theorem bitsOf_low (v w : Nat) : bitsOf v 0 w = v % 2 ^ w := by simp [bitsOf]

/-- Settles O20: a range that fits is stored in its client's register alone, and any other write is captured and no more. -/
theorem clientSyncRanges : Obligations.ClientSyncRanges := by
  intro s c v hp hc
  rw [← bitsOf_low v.toNat 17]
  refine ⟨fun fits off => ⟨_, exec_clientSyncWrite v hp hc, ?_⟩, fun beyond => ⟨?_, evSet_cfgIgnored .., fun e => ?_⟩⟩
  · rw [clientSyncWrite_taken c _ fits off]
    obtain ⟨-, -, evts, -, seq, syn, -⟩ := (onlyRegs_regStore s.dev (regDef Rg.SEQ_CLIENT_SYNC) c v.toNat false).keeps
    exact ⟨syncRange_regStore_same .., fun e _ he => syncRange_regStore_other s.dev _ false he, syn, seq, evts⟩
  · rw [exec_clientSyncWrite v hp hc, clientSyncWrite_beyond c _ beyond]
    rfl
  · exact syncRange_congr (by simp) e

/-! ### `SYN_INIT` (02 R70, R73; 03 R81) -/

theorem up_congr {d e : Dev} (h : d.tc = e.tc) : up d = up e := by simp only [up, now, stamp, h]

/-- What a `SYN_INIT` write makes of its object. -/
def synInitObj (d : Dev) (word : Nat) (old : SynObj) : SynObj :=
  { ctr := if bitOf word 18 then BitVec.ofNat 64 (fget d Fd.SYN_INIT_VALUE_value) else old.ctr
    mark := if bitOf word 17 then none else old.mark }

/-- A posted set-up write is in progress for a free time below 4 subframes (R81). -/
def busyFor (e : Dev) : Dev := { (freshBelow e 4).2 with syn := { e.syn with busyUntil := up e + (freshBelow e 4).1 } }

theorem busyFor_frame (e : Dev) : (busyFor e).syn = { e.syn with busyUntil := up e + (freshBelow e 4).1 } ∧ (busyFor e).ctx = e.ctx ∧
    (busyFor e).seq = e.seq ∧ (busyFor e).evts = e.evts := ⟨rfl, rfl, rfl, rfl⟩

/-- The device while a `SYN_INIT` write is busy, before its object is stored. -/
def synInitBusy (d : Dev) (word : Nat) : Dev := busyFor (regWrite d (regDef Rg.SYN_INIT) 0 Rg.SYN_INIT word false)

theorem synInitBusy_frame {d b : Dev} {word : Nat} (hb : b = synInitBusy d word) : b.syn = { d.syn with busyUntil := b.syn.busyUntil } ∧
    up d ≤ b.syn.busyUntil ∧ b.syn.busyUntil < up d + 4 ∧ b.ctx = d.ctx ∧ b.seq = d.seq ∧ b.evts = d.evts := by
  rw [synInitBusy, regWrite_disabled] at hb
  have regs := onlyRegs_regStore d (regDef Rg.SYN_INIT) 0 word false
  generalize (regStore d (regDef Rg.SYN_INIT) 0 word false).1 = e at hb regs
  subst hb
  obtain ⟨-, -, evts, -, seq, syn, -, ctx, -, -, -, -, -, tc, -⟩ := regs.keeps
  obtain ⟨bsyn, bctx, bseq, bevts⟩ := busyFor_frame e
  have below : (freshBelow e 4).1 < 4 := Nat.mod_lt _ (by decide)
  rw [bsyn, up_congr tc, syn]
  exact ⟨rfl, Nat.le_add_right .., Nat.add_lt_add_left below _, bctx.trans ctx, bseq.trans seq, bevts.trans evts⟩

theorem syncObj_congr {d e : Dev} (h : d.syn.objs = e.syn.objs) (o : Nat) : syncObj d o = syncObj e o := by simp only [syncObj, h]

theorem syncObj_synInitBusy (d : Dev) (word o : Nat) : syncObj (synInitBusy d word) o = syncObj d o :=
  syncObj_congr (by rw [(synInitBusy_frame rfl).1]) o

/-- A write that is not an overrun stores its object if it changes it. -/
theorem synInitWrite_eq {d : Dev} {word n : Nat} {o : SynObj} (h : d.syn.busyUntil ≤ up d) (hn : n = bitsOf word 0 17)
    (ho : o = synInitObj d word (syncObj d n)) :
    synInitWrite d word = if o = syncObj d n then synInitBusy d word else settle (syncStore (synInitBusy d word) n o) := by
  have differs : ∀ p q : SynObj, p.ctr ≠ q.ctr ∨ p.mark ≠ q.mark ↔ ¬ p = q := fun p q => by
    cases p; cases q; simp only [SynObj.mk.injEq]; tauto
  subst hn ho
  rw [synInitWrite, if_neg (Nat.not_lt.2 h)]
  by_cases same : synInitObj d word (syncObj d (bitsOf word 0 17)) = syncObj d (bitsOf word 0 17)
  · rw [if_pos same]
    exact if_neg fun c => (differs _ _).1 c same
  · rw [if_neg same]
    exact if_pos ((differs _ _).2 same)

theorem exec_synInit {s : State} (v : BitVec 32) (hp : s.dev.sys.portUp = true) :
    exec (.synInit v) s = .next (s.settled (synInitWrite s.dev v.toNat)) := by
  change execSynInit v s = _
  simp only [execSynInit, lift_next, hp, if_true]

theorem syncObj_syncPut (d : Dev) (o p : Nat) (x : SynObj) : syncObj (syncPut d o x) p = if p = o then x else syncObj d p := mget_mset ..

theorem bitOf_toNat {w : Nat} (v : BitVec w) {n : Nat} (h : n < w) : bitOf v.toNat n = v[n] := by
  rw [BitVec.getElem_eq_testBit_toNat, Nat.testBit_eq_decide_div_mod_eq]
  rfl

/-! ### `SEQ_CTL` and `CTX_CTL` (03 R95; 07 R195; 15 R425) -/

theorem exec_seqEnable {s : State} (hp : s.dev.sys.portUp = true) : exec .seqEnable s = .next (s.settled (seqCtlWrite s.dev 1)) := by
  change execSeqEnable s = _
  simp only [execSeqEnable, lift_next, hp, if_true]

theorem exec_ctxEnable {s : State} (hp : s.dev.sys.portUp = true) : exec .ctxEnable s = .next (s.settled (ctxCtlWrite s.dev 1)) := by
  change execCtxEnable s = _
  simp only [execCtxEnable, lift_next, hp, if_true]

/-- What refuses the enable of the sequencer. -/
def seqEnableRefused (d : Dev) : Prop :=
  d.sys.stage < 4 ∨ d.sys.stage = 15 ∨ fget d Fd.SEQ_SCHED_CFG_acct_minutes < 1 ∨ 60 < fget d Fd.SEQ_SCHED_CFG_acct_minutes

theorem seqCtlWrite_set {d : Dev} (h : fbit d Fd.SEQ_CTL_enable = true ∨ ¬ seqEnableRefused d) :
    seqCtlWrite d 1 = fset d Fd.SEQ_CTL_enable 1 := by
  cases on : fbit d Fd.SEQ_CTL_enable
  · have ok := h.resolve_left (by simp [on])
    simp only [seqEnableRefused, not_or, Nat.not_lt] at ok
    obtain ⟨stage, failed, lo, hi⟩ := ok
    simp [seqCtlWrite, on, bitOf, Nat.not_lt.2 stage, failed, lo, hi]
  · simp [seqCtlWrite, on]

theorem seqCtlWrite_refused {d : Dev} (off : fbit d Fd.SEQ_CTL_enable = false) (h : seqEnableRefused d) :
    seqCtlWrite d 1 = cfgIgnored d Rg.SEQ_CTL := by
  have refused : d.sys.stage < 4 ∨ d.sys.stage = 15 ∨ (!(1 ≤ fget d Fd.SEQ_SCHED_CFG_acct_minutes ∧
      fget d Fd.SEQ_SCHED_CFG_acct_minutes ≤ 60 : Bool)) = true := by
    simp only [seqEnableRefused] at h
    simp only [Bool.not_eq_true', decide_eq_false_iff_not]
    omega
  simp only [seqCtlWrite, off]
  exact if_pos refused

theorem ctxCtlWrite_on {d : Dev} (on : fbit d Fd.CTX_CTL_enable = true) : ctxCtlWrite d 1 = fset d Fd.CTX_CTL_enable 1 := by
  simp [ctxCtlWrite, on]

theorem ctxCtlWrite_first {d : Dev} (off : fbit d Fd.CTX_CTL_enable = false) (lo : 10 ≤ fget d Fd.CTX_REC_CFG_records_log2)
    (hi : fget d Fd.CTX_REC_CFG_records_log2 ≤ 24) : ctxCtlWrite d 1 = { fset d Fd.CTX_CTL_enable 1 with ctx := { d.ctx with
      tableLog2 := some (d.ctx.tableLog2.getD (fget d Fd.CTX_REC_CFG_records_log2)) } } := by
  simp [ctxCtlWrite, off, bitOf, lo, hi]

theorem ctxCtlWrite_refused {d : Dev} (off : fbit d Fd.CTX_CTL_enable = false)
    (h : fget d Fd.CTX_REC_CFG_records_log2 < 10 ∨ 24 < fget d Fd.CTX_REC_CFG_records_log2) :
    ctxCtlWrite d 1 = cfgIgnored d Rg.CTX_CTL := by
  have bad : ¬ (10 ≤ fget d Fd.CTX_REC_CFG_records_log2 ∧ fget d Fd.CTX_REC_CFG_records_log2 ≤ 24) := by omega
  simp [ctxCtlWrite, off, bitOf, bad]

theorem fbit_fset_one (d : Dev) {f : Fd} (b : Nat) (hf : f.lo + f.width ≤ 64) (hr : f.reset < 2 ^ f.width) (hw : f.width = 1) :
    fbit (fset d f 1 b) f b = true := by
  simp [fbit, fget_fset_same d 1 b hf hr, hw]

/-- Settles O19. That `busy` stays for a free time is log entry 25, and that the mirror is written only where the object changes log
entry 48. -/
theorem syncObjectsAndEnables : Obligations.SyncObjectsAndEnables := by
  refine ⟨fun s v n old o hp hn hold ho => ⟨fun idle => ?_, fun busy => ?_⟩,
    fun s hp => ⟨fun h => ?_, fun off h => ?_, fun on => ?_, fun off lo hi => ?_, fun off h => ?_⟩⟩
  · obtain ⟨syn, lo, hi, ctx, seq, evts⟩ := synInitBusy_frame (d := s.dev) (word := v.toNat) rfl
    have hn : n = bitsOf v.toNat 0 17 := hn.trans (bitsOf_low ..).symm
    have ho : o = synInitObj s.dev v.toNat old := by
      rw [ho, synInitObj, bitOf_toNat v (by decide), bitOf_toNat v (by decide)]
    have run := exec_synInit v hp
    rw [synInitWrite_eq idle hn (hold ▸ ho), ← hold] at run
    refine ⟨synInitBusy s.dev v.toNat, syn, lo, hi, ctx, seq, evts, fun same => ?_, fun changed => ⟨?_, ?_, ?_, fun m hm => ?_⟩⟩
    · rw [run, if_pos same]
    · rw [run, if_neg changed]
    · rw [syncStore, syncObj_synInitBusy, ← hold, if_neg changed]
    · rw [syncObj_syncPut, if_pos rfl]
    · rw [syncObj_syncPut, if_neg hm, syncObj_synInitBusy]
  · exact ⟨by rw [exec_synInit v hp, synInitWrite, if_pos busy], by simp⟩
  · have taken : fbit s.dev Fd.SEQ_CTL_enable = true ∨ ¬ seqEnableRefused s.dev := h.imp_right fun ok => by
      simp only [seqEnableRefused]
      omega
    exact ⟨by rw [exec_seqEnable hp, seqCtlWrite_set taken], fbit_fset_one s.dev 0 (by decide) (by decide) rfl⟩
  · rw [exec_seqEnable hp, seqCtlWrite_refused off h]
  · rw [exec_ctxEnable hp, ctxCtlWrite_on on]
  · exact ⟨by rw [exec_ctxEnable hp, ctxCtlWrite_first off lo hi], fbit_fset_one s.dev 0 (by decide) (by decide) rfl⟩
  · rw [exec_ctxEnable hp, ctxCtlWrite_refused off h]

end Sys2Proof.Machine
end

section
/-!
PROOFS. Completion, stream and fault rings (02 R42, R50, R55, R502; 18 R477): what opens, refuses and closes them.
-/

namespace Sys2Proof.Machine

/-! ### What the three kinds of ring share -/

/-- The open bit takes bit 0 of a word that is written while the ring is closed, and only registers change. -/
theorem OpenReg.regWrite_closed {r : RegDef} {rest : List FldDef} (h : OpenReg r rest) (d : Dev) (bank addr word : Nat) :
    fbit (regWrite d r bank addr word false) ⟨r.off, 0, 1, 0⟩ bank = bitOf word 0 ∧ OnlyRegs d (regWrite d r bank addr word false) := by
  rw [regWrite_disabled, bitOf_zero]
  exact ⟨congrArg (· == 1) (h.fget_regStore_open d bank word false), onlyRegs_regStore ..⟩

theorem fbit_fset_zero (d : Dev) {f : Fd} (b : Nat) (hf : f.lo + f.width ≤ 64) (hr : f.reset < 2 ^ f.width) :
    fbit (fset d f 0 b) f b = false := by
  simp [fbit, fget_fset_same d 0 b hf hr]

/-- What refuses the opening of a ring (R42, R55, R502). -/
def ringRefused (ide : Bool) (k lo hi base entry shadow : Nat) : Bool :=
  !ide || !(lo ≤ k && k ≤ hi) || areaWraps base (entry * 2 ^ k) || areaWraps shadow 8

theorem ringRefused_iff (ide : Bool) (k lo hi base entry shadow : Nat) : ringRefused ide k lo hi base entry shadow = true ↔
    ide = false ∨ k < lo ∨ hi < k ∨ 2 ^ 64 < base + entry * 2 ^ k ∨ 2 ^ 64 < shadow + 8 := by
  simp only [ringRefused, areaWraps, Bool.or_eq_true, Bool.not_eq_true', Bool.and_eq_false_iff, decide_eq_true_eq,
    decide_eq_false_iff_not, Nat.not_le]
  tauto

theorem ringRefused_false {ide : Bool} {k lo hi base entry shadow : Nat} (h : ide = true) (hl : lo ≤ k) (hh : k ≤ hi)
    (hb : base + entry * 2 ^ k ≤ 2 ^ 64) (hs : shadow + 8 ≤ 2 ^ 64) : ¬ ringRefused ide k lo hi base entry shadow = true := by
  simp only [ringRefused_iff, not_or]
  exact ⟨by simp [h], Nat.not_lt.2 hl, Nat.not_lt.2 hh, Nat.not_lt.2 hb, Nat.not_lt.2 hs⟩

/-! ### Completion rings -/

theorem openReg_cqCfg : OpenReg (regDef Rg.SEQ_CQ_CFG) [⟨1, 5, .wd, 0⟩, ⟨6, 1, .wd, 0⟩, ⟨7, 11, .wd, 0⟩] :=
  ⟨rfl, by decide, by decide, by decide⟩

theorem exec_cqOpen {s : State} {r : Nat} (v : BitVec 32) (hr : r < 512) (hp : s.dev.sys.portUp = true) :
    exec (.cqOpen r v) s = .next (s.settled (cqCfgWrite s.dev r (v.toNat ||| 1) (copyAddr Rg.SEQ_CQ_CFG 0x40 r))) := by
  change execCqOpen r v s = _
  simp only [execCqOpen, lift_next, hr, hp, and_self, if_true]

theorem exec_cqClose {s : State} {r : Nat} (hr : r < 512) (hp : s.dev.sys.portUp = true) :
    exec (.cqClose r) s = .next (s.settled (cqCfgWrite s.dev r (withBits (rawWord s.dev (regDef Rg.SEQ_CQ_CFG) r) 0 1 0)
      (copyAddr Rg.SEQ_CQ_CFG 0x40 r))) := by
  change execCqClose r s = _
  simp only [execCqClose, lift_next, hr, hp, and_self, if_true]

theorem cqInUse_iff (d : Dev) (n : Nat) :
    cqInUse d n = true ↔ ∃ i, i < 512 ∧ sqCq d i = n ∧ (sqOpenBit d i = true ∨ (sqOf d i).draining = true) := by
  simp [cqInUse]

section CqWrite

variable {d e : Dev} {n word : Nat} (addr : Nat)

theorem cqCfgWrite_open (hs : bitOf word 0 = true) (ho : cqOpenBit d n = true) :
    cqCfgWrite d n word addr = regWrite d (regDef Rg.SEQ_CQ_CFG) n addr word true := by simp [cqCfgWrite, hs, ho]

theorem cqCfgWrite_inUse (hs : bitOf word 0 = false) (ho : cqOpenBit d n = true) (hu : cqInUse d n = true) :
    cqCfgWrite d n word addr = cfgIgnored d addr := by simp [cqCfgWrite, hs, ho, hu]

theorem cqCfgWrite_closes (hs : bitOf word 0 = false) (ho : cqOpenBit d n = true) (hu : ¬ cqInUse d n = true) :
    cqCfgWrite d n word addr = regWrite d (regDef Rg.SEQ_CQ_CFG) n addr word true := by simp [cqCfgWrite, hs, ho, hu]

/-- A closed completion ring whose open bit is written opens, or is refused. -/
theorem cqCfgWrite_closed (hs : bitOf word 0 = true) (ho : cqOpenBit d n = false)
    (he : e = regWrite d (regDef Rg.SEQ_CQ_CFG) n addr word false) :
    cqCfgWrite d n word addr = if ringRefused e.hst.ideActive (fget e Fd.SEQ_CQ_CFG_size_log2 n) 6 20
        (fget e Fd.SEQ_CQ_BASE_base n * 4096) 16 (fget e Fd.SEQ_CQ_SHADOW_shadow n * 8) then
      cfgIgnored (fset e Fd.SEQ_CQ_CFG_open 0 n) addr else setCq e n {} := by
  subst he
  simp only [cqCfgWrite, hs, ho]
  rfl

end CqWrite

theorem exec_cqClose_unused {s : State} {r : Nat} (hr : r < 512) (hp : s.dev.sys.portUp = true) (ho : cqOpenBit s.dev r = true)
    (hu : ¬ cqInUse s.dev r = true) : exec (.cqClose r) s = .next (s.settled (fset s.dev Fd.SEQ_CQ_CFG_open 0 r)) := by
  rw [exec_cqClose hr hp, cqCfgWrite_closes _ (bitOf_withBits_clear _) ho hu, openReg_cqCfg.regWrite_clear]
  rfl

/-! ### Stream rings -/

theorem openReg_strCfg : OpenReg (regDef Rg.SEQ_STR_CFG) [⟨1, 5, .wd, 0⟩, ⟨6, 8, .wd, 0⟩] := ⟨rfl, by decide, by decide, by decide⟩

theorem exec_strOpen {s : State} {r : Nat} (v : BitVec 32) (hr : r < 4096) (hp : s.dev.sys.portUp = true) :
    exec (.strOpen r v) s = .next (s.settled (strCfgWrite s.dev r (v.toNat ||| 1) (copyAddr Rg.SEQ_STR_CFG 0x40 r))) := by
  change execStrOpen r v s = _
  simp only [execStrOpen, lift_next, hr, hp, and_self, if_true]

theorem exec_strClose {s : State} {r : Nat} (hr : r < 4096) (hp : s.dev.sys.portUp = true) :
    exec (.strClose r) s = .next (s.settled (strCfgWrite s.dev r (withBits (rawWord s.dev (regDef Rg.SEQ_STR_CFG) r) 0 1 0)
      (copyAddr Rg.SEQ_STR_CFG 0x40 r))) := by
  change execStrClose r s = _
  simp only [execStrClose, lift_next, hr, hp, and_self, if_true]

theorem slotHeld_iff (d : Dev) (n : Nat) : slotHeld d n = true ↔ (slotOf d n).state ≠ .free := by simp [slotHeld, slotOf]

section StrWrite

variable {d e : Dev} {n word : Nat} (addr : Nat)

theorem strCfgWrite_open (hs : bitOf word 0 = true) (ho : strOpenBit d n = true) :
    strCfgWrite d n word addr = regWrite d (regDef Rg.SEQ_STR_CFG) n addr word true := by simp [strCfgWrite, hs, ho]

theorem strCfgWrite_held (hs : bitOf word 0 = false) (ho : strOpenBit d n = true) (hu : slotHeld d n = true) :
    strCfgWrite d n word addr = cfgIgnored d addr := by simp [strCfgWrite, hs, ho, hu]

theorem strCfgWrite_closes (hs : bitOf word 0 = false) (ho : strOpenBit d n = true) (hu : ¬ slotHeld d n = true) :
    strCfgWrite d n word addr = regWrite d (regDef Rg.SEQ_STR_CFG) n addr word true := by simp [strCfgWrite, hs, ho, hu]

/-- A closed stream ring whose open bit is written opens, or is refused. -/
theorem strCfgWrite_closed (hs : bitOf word 0 = true) (ho : strOpenBit d n = false)
    (he : e = regWrite d (regDef Rg.SEQ_STR_CFG) n addr word false) :
    strCfgWrite d n word addr = if ringRefused e.hst.ideActive (fget e Fd.SEQ_STR_CFG_size_log2 n) 4 16
        (fget e Fd.SEQ_STR_BASE_base n * 4096) 64 (fget e Fd.SEQ_STR_SHADOW_shadow n * 8) then
      cfgIgnored (fset e Fd.SEQ_STR_CFG_open 0 n) addr else setStr e n {} := by
  subst he
  simp only [strCfgWrite, hs, ho]
  rfl

end StrWrite

theorem exec_strClose_free {s : State} {r : Nat} (hr : r < 4096) (hp : s.dev.sys.portUp = true) (ho : strOpenBit s.dev r = true)
    (hu : ¬ slotHeld s.dev r = true) : exec (.strClose r) s = .next (s.settled (fset s.dev Fd.SEQ_STR_CFG_open 0 r)) := by
  rw [exec_strClose hr hp, strCfgWrite_closes _ (bitOf_withBits_clear _) ho hu, openReg_strCfg.regWrite_clear]
  rfl

/-! ### Fault rings -/

/-- The open bit of the operator log or of a client's fault ring. -/
def fltOpenFd (op : Bool) : Fd := if op then Fd.FLT_LOG_CFG_open else Fd.FLT_CLIENT_CFG_open

theorem fltOpenFd_eq (op : Bool) : fltOpenFd op = ⟨(fltOpenFd op).off, 0, 1, 0⟩ := by cases op <;> rfl

theorem fltOpenFd_off (op : Bool) : (fltOpenFd op).off = if op then Rg.FLT_LOG_CFG else Rg.FLT_CLIENT_CFG := by cases op <;> rfl

theorem regDef_fltOpenFd_off (op : Bool) : (regDef (fltOpenFd op).off).off = (fltOpenFd op).off := by cases op <;> rfl

theorem openReg_fltCfg (op : Bool) : OpenReg (regDef (fltOpenFd op).off) [⟨1, 5, .wd, if op then 0xa else 6⟩] := by
  cases op <;> exact ⟨rfl, by decide, by decide, by decide⟩

theorem exec_faultRingOpen {s : State} (op : Bool) (v : BitVec 32) (hp : s.dev.sys.portUp = true) :
    exec (.faultRingOpen op v) s = .next (s.settled (fltCfgWrite s.dev op (v.toNat ||| 1) (fltOpenFd op).off)) := by
  change execFaultRingOpen op v s = _
  rw [fltOpenFd_off]
  simp only [execFaultRingOpen, lift_next, hp, if_true]

/-- A fault ring opens at its first entry; its sequence goes on (R477). -/
def fltRestart (d : Dev) (ring : Nat) : Dev :=
  { d with flt := { d.flt with rings := mset d.flt.rings {} ring { mget d.flt.rings {} ring with tail := 0, phase := true, cons := 0 } } }

section FltWrite

variable {d e : Dev} {op : Bool} {word bank ring : Nat} (addr : Nat)

theorem fltCfgWrite_open (hs : bitOf word 0 = true) (hb : bank = if op then 0 else fget d Fd.FLT_CLIENT_SEL_client)
    (ho : fbit d (fltOpenFd op) bank = true) :
    fltCfgWrite d op word addr = regWrite d (regDef (fltOpenFd op).off) bank addr word true := by
  subst hb
  rw [fltOpenFd_off]
  unfold fltOpenFd at ho
  simp only [fltCfgWrite, hs, ho]
  rfl

/-- A closed fault ring whose open bit is written opens, or is refused. -/
theorem fltCfgWrite_closed (hs : bitOf word 0 = true) (hb : bank = if op then 0 else fget d Fd.FLT_CLIENT_SEL_client)
    (hr : ring = if op then 256 else bank) (ho : fbit d (fltOpenFd op) bank = false)
    (he : e = regWrite d (regDef (fltOpenFd op).off) bank addr word false) :
    fltCfgWrite d op word addr = if ringRefused e.hst.ideActive (fltRingCfg e ring).2.1 (if op then 6 else 4) (if op then 20 else 16)
        (fltRingCfg e ring).2.2 64
        ((if op then fget e Fd.FLT_LOG_SHADOW_shadow else fget e Fd.FLT_CLIENT_SHADOW_shadow bank) * 8) then
      cfgIgnored (fset e (fltOpenFd op) 0 bank) addr else fltRestart e ring := by
  subst hr hb he
  rw [fltOpenFd_off]
  unfold fltOpenFd at ho
  simp only [fltCfgWrite, hs, ho]
  rfl

end FltWrite

/-- Settles O25, each kind of ring by the lemmas of the write to its register. -/
theorem completionStreamAndFaultRingsOpenAndClose : Obligations.CompletionStreamAndFaultRingsOpenAndClose := by
  refine ⟨fun s r v hp => ?_, fun s op v bank ring sh f e hp hb hr hf => ?_⟩
  · have sets : bitOf (v.toNat ||| 1) 0 = true := bitOf_or_one _
    refine ⟨fun e k hn ho he hk => ?_, fun hn ho => ⟨?_, fun unused => ?_, fun i hi hcq busy => ?_⟩,
      fun e k hn ho he hk => ?_, fun hn ho => ⟨?_, fun free => ?_, fun held => ?_⟩⟩
    · obtain ⟨opened, regs⟩ := openReg_cqCfg.regWrite_closed s.dev r (copyAddr Rg.SEQ_CQ_CFG 0x40 r) (v.toNat ||| 1)
      rw [← he] at opened regs
      obtain ⟨-, hst, evts, -, seq, -, -, ctx, -⟩ := regs.keeps
      have sq : e.seq.sq = s.dev.seq.sq := congrArg SeqSt.sq seq
      have run := exec_cqOpen v hn hp
      rw [cqCfgWrite_closed _ sets ho he, hst, ← hk] at run
      constructor
      · intro ide lo hi base shadow
        rw [if_neg (ringRefused_false ide lo hi base shadow)] at run
        refine ⟨_, run, opened.trans sets, cqOf_setCq_same .., fun q hq => ?_, sq, rfl, evts, ctx⟩
        rw [cqOf_setCq, if_neg hq, cqOf, seq, cqOf]
      · intro refused
        rw [run, if_pos ((ringRefused_iff ..).2 refused)]
    · rw [exec_cqOpen v hn hp, cqCfgWrite_open _ sets ho]
    · have idle : ¬ cqInUse s.dev r = true := by
        rw [cqInUse_iff]
        rintro ⟨i, hi, hcq, busy⟩
        simp [unused i hi hcq] at busy
      exact ⟨_, exec_cqClose_unused hn hp ho idle, fbit_fset_zero s.dev r (by decide) (by decide), rfl, rfl⟩
    · rw [exec_cqClose hn hp, cqCfgWrite_inUse _ (bitOf_withBits_clear _) ho ((cqInUse_iff ..).2 ⟨i, hi, hcq, busy⟩)]
    · obtain ⟨opened, regs⟩ := openReg_strCfg.regWrite_closed s.dev r (copyAddr Rg.SEQ_STR_CFG 0x40 r) (v.toNat ||| 1)
      rw [← he] at opened regs
      obtain ⟨-, hst, evts, -, seq, -, -, ctx, -⟩ := regs.keeps
      have sq : e.seq.sq = s.dev.seq.sq := congrArg SeqSt.sq seq
      have run := exec_strOpen v hn hp
      rw [strCfgWrite_closed _ sets ho he, hst, ← hk] at run
      constructor
      · intro ide lo hi base shadow
        rw [if_neg (ringRefused_false ide lo hi base shadow)] at run
        refine ⟨_, run, opened.trans sets, strOf_setStr_same .., fun q hq => ?_, sq, rfl, evts, ctx⟩
        rw [strOf_setStr, if_neg hq, strOf, seq, strOf]
      · intro refused
        rw [run, if_pos ((ringRefused_iff ..).2 refused)]
    · rw [exec_strOpen v hn hp, strCfgWrite_open _ sets ho]
    · have unheld : ¬ slotHeld s.dev r = true := by simp [slotHeld_iff, free]
      exact ⟨_, exec_strClose_free hn hp ho unheld, fbit_fset_zero s.dev r (by decide) (by decide), rfl, rfl⟩
    · rw [exec_strClose hn hp, strCfgWrite_held _ (bitOf_withBits_clear _) ho ((slotHeld_iff ..).2 held)]
  · have sets : bitOf (v.toNat ||| 1) 0 = true := bitOf_or_one _
    obtain rfl : f = fltOpenFd op := hf
    have run := exec_faultRingOpen op v hp
    refine ⟨fun ho => ?_, fun ho he hsh => ?_⟩
    · rw [run, fltCfgWrite_open _ sets hb ho]
    · obtain ⟨opened, regs⟩ := (openReg_fltCfg op).regWrite_closed s.dev bank (fltOpenFd op).off (v.toNat ||| 1)
      rw [regDef_fltOpenFd_off, ← fltOpenFd_eq, ← he] at opened
      rw [← he] at regs
      obtain ⟨-, hst, evts, -, seq, -, -, ctx, -, -, -, flt, -⟩ := regs.keeps
      rw [fltCfgWrite_closed _ sets hb hr ho he, hst, ← hsh] at run
      constructor
      · intro ide lo hi base shadow
        rw [if_neg (ringRefused_false ide lo hi base shadow)] at run
        refine ⟨_, run, opened.trans sets, ?_, fun q hq => ?_, rfl, evts, seq, ctx⟩
        · rw [← flt]
          exact mget_mset_same ..
        · rw [← flt]
          exact mget_mset_other _ _ _ hq
      · intro refused
        rw [run, if_pos ((ringRefused_iff ..).2 refused)]

end Sys2Proof.Machine
end

section
/-!
PROOFS. The host interface and its link (02 R41 to R44; 03 R85; 16 R447; 18 R470): a stop closes every ring, and modules that fail are
retired.
-/

namespace Sys2Proof.Machine

/-! ### Closing many rings (02 R44) -/

/-- A one-bit field is cleared in several banks. -/
def clearBanks (d : Dev) (f : Fd) (l : List Nat) : Dev := l.foldl (fun d n => fset d f 0 n) d

theorem onlyRegs_clearBanks (f : Fd) (l : List Nat) : ∀ d : Dev, OnlyRegs d (clearBanks d f l) := by
  induction l with
  | nil => intro d; rfl
  | cons a t ih => intro d; exact OnlyRegs.trans (b := fset d f 0 a) rfl (ih _)

theorem fbit_clearBanks_elsewhere {f g : Fd} {c : Nat} (l : List Nat) :
    ∀ d : Dev, (∀ n ∈ l, regKey g.off c ≠ regKey f.off n) → fbit (clearBanks d f l) g c = fbit d g c := by
  induction l with
  | nil => intro d _; rfl
  | cons a t ih =>
    intro d h
    obtain ⟨ha, ht⟩ := List.forall_mem_cons.1 h
    exact (ih _ ht).trans (congrArg (· == 1) (fget_fset_elsewhere d 0 ha))

/-- A field of another register is as before. -/
theorem fbit_clearBanks_other {f g : Fd} {c : Nat} {l : List Nat} (d : Dev) (ho : g.off ≠ f.off) (hc : c < 2 ^ 24)
    (hl : ∀ n ∈ l, n < 2 ^ 24) : fbit (clearBanks d f l) g c = fbit d g c :=
  fbit_clearBanks_elsewhere l d fun n hn => regKey_ne hc (hl n hn) (.inl ho)

theorem fbit_clearBanks_cleared {f : Fd} (hf : f.lo + f.width ≤ 64) (hr : f.reset < 2 ^ f.width) (n : Nat) (l : List Nat) :
    ∀ d : Dev, n ∈ l ∨ fbit d f n = false → fbit (clearBanks d f l) f n = false := by
  induction l with
  | nil => intro d h; exact h.resolve_left (by simp)
  | cons a t ih =>
    intro d h
    refine ih _ ?_
    by_cases same : n = a
    · subst same
      exact .inr (fbit_fset_zero d n hf hr)
    · have key : regKey f.off n ≠ regKey f.off a := fun k => same (by unfold regKey at k; omega)
      have kept : fbit (fset d f 0 a) f n = fbit d f n := congrArg (· == 1) (fget_fset_elsewhere d 0 key)
      rw [kept]
      exact h.imp_left fun m => (List.mem_cons.1 m).resolve_left same

theorem lt_of_mem_filter_range {p : Nat → Bool} {n : Nat} (hn : n ≤ 4096) : ∀ i ∈ (List.range n).filter p, i < 2 ^ 24 := fun i hi => by
  have := List.mem_range.1 (List.mem_filter.1 hi).1
  omega

theorem fbit_clearBanks_filter_range (d : Dev) {f : Fd} {p : Nat → Bool} (hf : f.lo + f.width ≤ 64) (hr : f.reset < 2 ^ f.width)
    {i n : Nat} (hi : i < n) (hp : p i = fbit d f i) : fbit (clearBanks d f ((List.range n).filter p)) f i = false := by
  refine fbit_clearBanks_cleared hf hr i _ d ?_
  cases h : p i
  · exact .inr (hp.symm.trans h)
  · exact .inl (List.mem_filter.2 ⟨List.mem_range.2 hi, h⟩)

/-! ### A stop of the interface -/

/-- The registers after submission, completion and stream rings are closed. -/
def closedSq (d : Dev) : Dev := clearBanks d Fd.SEQ_SQ_CFG_open ((List.range 512).filter (sqOpenBit d))
def closedCq (d : Dev) : Dev := clearBanks (closedSq d) Fd.SEQ_CQ_CFG_open ((List.range 512).filter (cqOpenBit (closedSq d)))
def closedStr (d : Dev) : Dev := clearBanks (closedCq d) Fd.SEQ_STR_CFG_open ((List.range 4096).filter (strOpenBit (closedCq d)))
/-- And after the fault rings. -/
def closedFlt (d : Dev) : Dev := clearBanks (fset (closedStr d) Fd.FLT_LOG_CFG_open 0) Fd.FLT_CLIENT_CFG_open clients

theorem closeRings_eq (d : Dev) : closeRings d = { closedFlt d with seq := { (closedFlt d).seq with sq := [], cq := [], str := [] } } := by
  simp only [closeRings, closedFlt, closedStr, closedCq, closedSq, clearBanks]

theorem onlyRegs_closedFlt (d : Dev) : OnlyRegs d (closedFlt d) :=
  (onlyRegs_clearBanks _ _ d).trans <| (onlyRegs_clearBanks _ _ _).trans <| (onlyRegs_clearBanks _ _ _).trans <|
    OnlyRegs.trans (b := fset (closedStr d) Fd.FLT_LOG_CFG_open 0) rfl (onlyRegs_clearBanks _ _ _)

theorem lt_of_mem_clients : ∀ c ∈ clients, c < 2 ^ 24 := fun c hc => by
  have := List.mem_range.1 hc
  omega

/-- What the fault rings' closing leaves. -/
theorem fbit_closedFlt_of_closedStr (d : Dev) {g : Fd} {c : Nat} (hl : g.off ≠ 0x1e00020) (hg : g.off ≠ 0x1e00048) (hc : c < 2 ^ 24) :
    fbit (closedFlt d) g c = fbit (closedStr d) g c := by
  rw [closedFlt, fbit_clearBanks_other _ hg hc lt_of_mem_clients]
  exact congrArg (· == 1) (fget_fset_elsewhere _ 0 (regKey_ne hc (by decide) (.inl hl)))

/-- Every ring is closed. -/
theorem closedFlt_closed (d : Dev) : (∀ n, n < 512 → sqOpenBit (closedFlt d) n = false ∧ cqOpenBit (closedFlt d) n = false) ∧
    (∀ n, n < 4096 → strOpenBit (closedFlt d) n = false) ∧ (∀ g, g < 256 → fbit (closedFlt d) Fd.FLT_CLIENT_CFG_open g = false) ∧
    fbit (closedFlt d) Fd.FLT_LOG_CFG_open = false := by
  have bound : ∀ {n m : Nat}, n < m → m ≤ 4096 → n < 2 ^ 24 := fun h k => by omega
  refine ⟨fun n hn => ⟨?_, ?_⟩, fun n hn => ?_, fun g hg => ?_, ?_⟩
  · rw [sqOpenBit, fbit_closedFlt_of_closedStr d (by decide) (by decide) (bound hn (by decide)), closedStr,
      fbit_clearBanks_other _ (by decide) (bound hn (by decide)) (lt_of_mem_filter_range (by decide)), closedCq,
      fbit_clearBanks_other _ (by decide) (bound hn (by decide)) (lt_of_mem_filter_range (by decide)), closedSq]
    exact fbit_clearBanks_filter_range d (by decide) (by decide) hn rfl
  · rw [cqOpenBit, fbit_closedFlt_of_closedStr d (by decide) (by decide) (bound hn (by decide)), closedStr,
      fbit_clearBanks_other _ (by decide) (bound hn (by decide)) (lt_of_mem_filter_range (by decide)), closedCq]
    exact fbit_clearBanks_filter_range _ (by decide) (by decide) hn rfl
  · rw [strOpenBit, fbit_closedFlt_of_closedStr d (by decide) (by decide) (bound hn (by decide)), closedStr]
    exact fbit_clearBanks_filter_range _ (by decide) (by decide) hn rfl
  · exact fbit_clearBanks_cleared (by decide) (by decide) g clients _ (.inl (List.mem_range.2 hg))
  · rw [closedFlt, fbit_clearBanks_other _ (by decide) (by decide) lt_of_mem_clients]
    exact fbit_fset_zero _ 0 (by decide) (by decide)

theorem closeRings_closes (d : Dev) : (∀ n, n < 512 → sqOpenBit (closeRings d) n = false ∧ cqOpenBit (closeRings d) n = false) ∧
    (∀ n, n < 4096 → strOpenBit (closeRings d) n = false) ∧ (∀ g, g < 256 → (fltRingCfg (closeRings d) g).1 = false) ∧
    (fltRingCfg (closeRings d) 256).1 = false := by
  obtain ⟨rings, strs, clientRings, log⟩ := closedFlt_closed d
  have regs : (closeRings d).regs = (closedFlt d).regs := by rw [closeRings_eq]
  refine ⟨fun n hn => ?_, fun n hn => ?_, fun g hg => ?_, ?_⟩
  · rw [sqOpenBit, cqOpenBit, fbit_congr regs, fbit_congr regs]
    exact rings n hn
  · rw [strOpenBit, fbit_congr regs]
    exact strs n hn
  · rw [fltRingCfg, if_neg (by omega), fbit_congr regs]
    exact clientRings g hg
  · rw [fltRingCfg, if_pos rfl, fbit_congr regs]
    exact log

theorem closeRings_keeps (d : Dev) : (closeRings d).hst = d.hst ∧ (closeRings d).ctx = d.ctx ∧ (closeRings d).mem = d.mem ∧
    (closeRings d).sec = d.sec ∧ (closeRings d).evts = d.evts := by
  obtain ⟨-, hst, evts, -, -, -, -, ctx, -, mem, -, -, -, -, -, sec, -⟩ := (onlyRegs_closedFlt d).keeps
  rw [closeRings_eq]
  generalize closedFlt d = e at *
  exact ⟨hst, ctx, mem, sec, evts⟩

theorem exec_stopInterface {s : State} (hp : s.dev.sys.portUp = true) : exec .stopInterface s
    = .next (s.settled (closeRings { s.dev with hst := { s.dev.hst with tdisp := .configUnlocked } })) := by
  change execStopInterface s = _
  simp only [execStopInterface, lift_next, hp, if_true]

theorem exec_lockInterface {s : State} (hp : s.dev.sys.portUp = true) : exec .lockInterface s
    = .next (s.settled (if s.dev.hst.tdisp = .configUnlocked then { s.dev with hst := { s.dev.hst with tdisp := .configLocked } }
      else s.dev)) := by
  change execLockInterface s = _
  simp only [execLockInterface, lift_next, hp, true_and]

theorem exec_startInterface {s : State} (hp : s.dev.sys.portUp = true) : exec .startInterface s
    = .next (s.settled (if s.dev.hst.tdisp = .configLocked ∧ s.dev.sys.debugExposed = false then
      { s.dev with hst := { s.dev.hst with tdisp := .run } } else s.dev)) := by
  change execStartInterface s = _
  simp only [execStartInterface, lift_next, hp, true_and, Bool.not_eq_true']

/-! ### Modules (02 R41) -/

/-- The modules of a list join those that are marked. -/
def markModules (x : BitVec 8) (l : List Nat) : BitVec 8 := l.foldl (fun x m => x ||| BitVec.ofNat 8 (2 ^ m)) x

theorem markModules_maskBits : ∀ c : BitVec 8, markModules 0 (maskBits c.toNat 8) = c := by decide +kernel

theorem retireModule_frame (d : Dev) (m : Nat) :
    (retireModule d m).hst = { d.hst with moduleRetired := d.hst.moduleRetired ||| BitVec.ofNat 8 (2 ^ m) } ∧
      (retireModule d m).sys = d.sys := by
  simp [retireModule]

theorem retrainModule_frame (d : Dev) (m : Nat) :
    (retrainModule d m).hst = { d.hst with failedOnce := d.hst.failedOnce ||| BitVec.ofNat 8 (2 ^ m) } ∧
      (retrainModule d m).sys = d.sys := by
  simp [retrainModule]

theorem foldl_retireModule (l : List Nat) : ∀ d : Dev,
    (l.foldl retireModule d).hst = { d.hst with moduleRetired := markModules d.hst.moduleRetired l } ∧
      (l.foldl retireModule d).sys = d.sys := by
  induction l with
  | nil => intro d; exact ⟨rfl, rfl⟩
  | cons m t ih =>
    intro d
    obtain ⟨hst, sys⟩ := retireModule_frame d m
    rw [List.foldl_cons, (ih _).1, (ih _).2, hst, sys]
    exact ⟨rfl, rfl⟩

theorem foldl_retrainModule (l : List Nat) : ∀ d : Dev,
    (l.foldl retrainModule d).hst.moduleRetired = d.hst.moduleRetired ∧ (l.foldl retrainModule d).sys = d.sys := by
  induction l with
  | nil => intro d; exact ⟨rfl, rfl⟩
  | cons m t ih =>
    intro d
    obtain ⟨hst, sys⟩ := retrainModule_frame d m
    rw [List.foldl_cons, (ih _).1, (ih _).2, hst, sys]
    exact ⟨rfl, rfl⟩

/-- The modules in use when those of a mask are retired. -/
def modulesUp (retired : BitVec 8) : BitVec 8 :=
  BitVec.ofNat 8 (maskOf 8 (linkSet (fun m => !maskBit retired.toNat m) 0 ++ linkSet (fun m => !maskBit retired.toNat m) 1))

/-- No module is in use just if all are retired. -/
theorem modulesUp_eq_zero_iff : ∀ c : BitVec 8, modulesUp c = 0 ↔ c = 0xFF := by decide +kernel

theorem relink_frame (d : Dev) : (relink d).hst.moduleRetired = d.hst.moduleRetired ∧
    (relink d).hst.moduleUp = modulesUp d.hst.moduleRetired ∧ (relink d).sys = d.sys := ⟨rfl, rfl, rfl⟩

/-- The device after training, before stage 1 is reported (R85). -/
def trained (d : Dev) (a b : BitVec 8) : Dev :=
  relink ((maskBits (a &&& ~~~b).toNat 8).foldl retrainModule ((maskBits (a &&& b).toNat 8).foldl retireModule d))

theorem trained_frame {d : Dev} (a b : BitVec 8) (h : d.hst.moduleRetired = 0) : (trained d a b).hst.moduleRetired = a &&& b ∧
    (trained d a b).hst.moduleUp = modulesUp (a &&& b) ∧ (trained d a b).sys = d.sys := by
  let retired := (maskBits (a &&& b).toNat 8).foldl retireModule d
  obtain ⟨rhst, rsys⟩ := foldl_retireModule (maskBits (a &&& b).toNat 8) d
  obtain ⟨thst, tsys⟩ := foldl_retrainModule (maskBits (a &&& ~~~b).toNat 8) retired
  have mask : retired.hst.moduleRetired = a &&& b := by
    rw [rhst, h]
    exact markModules_maskBits (a &&& b)
  obtain ⟨hr, hu, hs⟩ := relink_frame ((maskBits (a &&& ~~~b).toNat 8).foldl retrainModule retired)
  rw [thst, mask] at hr hu
  exact ⟨hr, hu, hs.trans (tsys.trans rsys)⟩

theorem exec_ucieTrainingDone {s : State} (a b : BitVec 8) (hr : s.dev.sys.rom = true) (hs : s.dev.sys.stage = 0)
    (hp : s.dev.sys.portUp = false) : exec (.ucieTrainingDone a b) s = .next (s.settled (if (trained s.dev a b).hst.moduleUp = 0 then
      trained s.dev a b else stageDone (setSys (trained s.dev a b) { (trained s.dev a b).sys with portUp := true }) 1)) := by
  change execUcieTrainingDone a b s = _
  simp only [execUcieTrainingDone, lift_next, hr, hs, hp]
  rfl

theorem stageDone_frame (d : Dev) (n : Nat) : (stageDone d n).hst = d.hst ∧
    (stageDone d n).sys = { d.sys with stage := n, stageCmd := none } ∧ evSet (stageDone d n) Fd.GLB_EVT_stage_done = true :=
  ⟨by simp [stageDone], by simp [stageDone], evSet_raise ..⟩

theorem exec_ucieModuleFailure {s : State} {m : Nat} (back : Bool) (hp : s.dev.sys.portUp = true) (hm : m < 8)
    (hr : maskBit s.dev.hst.moduleRetired.toNat m = false) : exec (.ucieModuleFailure m back) s = .next (s.settled
      (if back = true ∧ maskBit s.dev.hst.failedOnce.toNat m = false then retrainModule s.dev m
      else if (relink (retireModule s.dev m)).hst.moduleUp = 0 then
        reap (fatalFault (setSys (relink (retireModule s.dev m)) { (relink (retireModule s.dev m)).sys with portUp := false }) 0)
      else relink (retireModule s.dev m))) := by
  change execUcieModuleFailure m back s = _
  simp only [execUcieModuleFailure, lift_next, hp, hr, Nat.not_le.2 hm, Bool.not_eq_true']
  rfl

theorem maskBit_retireModule (d : Dev) {m : Nat} (hm : m < 8) : maskBit (retireModule d m).hst.moduleRetired.toNat m = true := by
  rw [(retireModule_frame d m).1, maskBit, bitOf_toNat _ hm, BitVec.getElem_or, BitVec.getElem_eq_testBit_toNat (BitVec.ofNat 8 _),
    BitVec.toNat_ofNat, Nat.testBit_mod_two_pow, Nat.testBit_two_pow_self]
  simp [hm]

theorem exec_ideIntegrityFail {s : State} (hp : s.dev.sys.portUp = true) (hk : ideKeyed s.dev = true) :
    exec .ideIntegrityFail s = .next (s.settled (enterError (raise s.dev Fd.HST_EVT_ide_fail))) := by
  change execIdeIntegrityFail s = _
  simp only [execIdeIntegrityFail, lift_next, hp, hk, and_self, if_true]

/-- Settles O10. That a stop closes every ring from whatever state it comes is log entry 43; that a lock or start elsewhere changes
nothing, log entry 1. -/
theorem hostInterfaceAndLink : Obligations.HostInterfaceAndLink := by
  refine ⟨fun s hp => ⟨fun unlocked => ?_, fun other => ?_, fun locked unexposed => ?_, fun other => ?_, ?_⟩,
    fun s a b works hrom hstage hport hret hw => ?_, fun s m back hp hm hr => ⟨fun hb hf => ⟨?_, ?_⟩, fun h e he => ?_⟩,
    fun s hp hk => exec_ideIntegrityFail hp hk⟩
  · rw [exec_lockInterface hp, if_pos unlocked]
  · rw [exec_lockInterface hp, if_neg other]
  · rw [exec_startInterface hp, if_pos ⟨locked, unexposed⟩]
  · rw [exec_startInterface hp, if_neg]
    rintro ⟨locked, unexposed⟩
    simp [locked, unexposed] at other
  · have run := exec_stopInterface hp
    generalize hd : ({ s.dev with hst := { s.dev.hst with tdisp := .configUnlocked } } : Dev) = d at run
    obtain ⟨rings, strs, clientRings, log⟩ := closeRings_closes d
    obtain ⟨hst, ctx, mem, sec, evts⟩ := closeRings_keeps d
    subst hd
    exact ⟨_, run, hst, rings, strs, clientRings, log, ctx, mem, sec, evts⟩
  · subst hw
    obtain ⟨retired, inUse, sys⟩ := trained_frame a b hret
    have run := exec_ucieTrainingDone a b hrom hstage hport
    by_cases all : a &&& b = 0xFF
    · rw [if_pos (by rw [inUse]; exact (modulesUp_eq_zero_iff _).2 all)] at run
      exact ⟨_, run, retired, inUse, fun some => absurd all some, fun _ => sys⟩
    · rw [if_neg (by rw [inUse]; exact fun z => all ((modulesUp_eq_zero_iff _).1 z))] at run
      obtain ⟨hst, staged, event⟩ := stageDone_frame (setSys (trained s.dev a b) { (trained s.dev a b).sys with portUp := true }) 1
      exact ⟨_, run, hst ▸ retired, hst ▸ inUse, fun _ => ⟨by rw [staged]; rfl, by rw [staged], event⟩, fun k => absurd k all⟩
  · rw [exec_ucieModuleFailure back hp hm hr, if_pos ⟨hb, hf⟩]
  · exact (retrainModule_frame s.dev m).1
  · subst he
    have again : ¬ (back = true ∧ maskBit s.dev.hst.failedOnce.toNat m = false) := by
      rintro ⟨hb, hf⟩
      simp [hb, hf] at h
    have run := exec_ucieModuleFailure back hp hm hr
    rw [if_neg again] at run
    exact ⟨maskBit_retireModule s.dev hm, fun up => by rw [run, if_neg up], fun down => by rw [run, if_pos down]⟩

end Sys2Proof.Machine
end

section
/-!
PROOFS. Doorbells, fetch and delivery (02 R44 to R51, R58, R59, R62, R63, R507; 07 R208).
-/

namespace Sys2Proof.Machine

/-! ### Doorbells (02 R44, R47, R48) -/

theorem exec_doorbell {s : State} {r : Nat} (v : BitVec 32) (hr : r < 512) (hp : s.dev.sys.portUp = true) :
    exec (.doorbell r v) s = .next (s.settled (doorbellWrite s.dev r v.toNat)) := by
  change execDoorbell r v s = _
  simp only [execDoorbell, lift_next, hr, hp, and_self, if_true]

theorem doorbellWrite_error {d : Dev} (r v : Nat) (h : d.hst.tdisp = .error) : doorbellWrite d r v = d := if_pos h

theorem doorbellWrite_closed {d : Dev} {r : Nat} (v : Nat) (h : d.hst.tdisp ≠ .error) (ho : sqOpenBit d r = false) :
    doorbellWrite d r v = raise d Fd.SEQ_EVT_doorbell_closed := by simp [doorbellWrite, h, ho]

theorem doorbellWrite_invalid {d : Dev} {r v : Nat} (h : d.hst.tdisp ≠ .error) (ho : sqOpenBit d r = true)
    (hv : 2 ^ fget d Fd.SEQ_SQ_CFG_size_log2 r ≤ v % 2 ^ 16) : doorbellWrite d r v = raise d Fd.SEQ_EVT_doorbell_invalid := by
  rw [doorbellWrite, if_neg h]
  simp only [ho]
  exact if_pos hv

theorem doorbellWrite_tail {d : Dev} {r v : Nat} (h : d.hst.tdisp ≠ .error) (ho : sqOpenBit d r = true)
    (hv : v % 2 ^ 16 < 2 ^ fget d Fd.SEQ_SQ_CFG_size_log2 r) :
    doorbellWrite d r v = setSq d r { sqOf d r with tail := v % 2 ^ 16 } := by
  rw [doorbellWrite, if_neg h]
  simp only [ho]
  exact if_neg (Nat.not_le.2 hv)

/-! ### Fetch (02 R45, R48, R49, R63, R507) -/

theorem mayFetch_iff (d : Dev) (r : Nat) : mayFetch d r = true ↔ seqHalted d = false ∧ hostPath d = true ∧ sqOpenBit d r = true ∧
    (sqOf d r).stalled = false ∧ (sqOf d r).head ≠ (sqOf d r).tail ∧ (sqOf d r).flights.length ≤ 256 ∧ 0 < cqFree d (sqCq d r) := by
  simp [mayFetch, and_assoc]

/-- The entries of a batch that is fetched, none of them started. -/
def fetchEntries (x : Desc) (list : List Byte) : List EntryRes :=
  if dOp x = 0x10 then
    (List.range (dbits x 4 0 13)).map (fun i => { handle := leAt list (8 * i) 4, single := bitOf (leAt list (8 * i + 4) 1) 0 })
  else []

/-- The flight of a descriptor that a ring fetches (R58: one whose own wait or signal field fails applies no signal). -/
def fetchFlight (d : Dev) (r : Nat) (x : Desc) (list : List Byte) : Flight :=
  { id := (sqOf d r).nextId, desc := x, list := list, fetchTc := up d, entries := fetchEntries x list,
    noSignal := (commonFaults x (syncRange d (sqClient d r)).2).any (fun p => p.1 != 1 && p.2) }

/-- The device when a descriptor has been fetched, before it is checked: its completion entry is reserved (R49). -/
def fetched (d : Dev) (r : Nat) (x : Desc) (list : List Byte) : Dev :=
  setSq (setCq d (sqCq d r) { cqOf d (sqCq d r) with reserved := (cqOf d (sqCq d r)).reserved + 1 }) r
    { sqOf d r with
      head := ((sqOf d r).head + 1) % 2 ^ fget d Fd.SEQ_SQ_CFG_size_log2 r
      flights := (sqOf d r).flights ++ [fetchFlight d r x list]
      nextId := (sqOf d r).nextId + 1 }

theorem firstCheck_congr {d e : Dev} (hr : d.regs = e.regs) (ht : d.txt = e.txt) (c : Nat) (x : Desc) (list : List Byte) :
    firstCheck d c x list = firstCheck e c x list := by
  simp only [firstCheck, fget_congr hr, fbit_congr hr, ht]

theorem fetch_not {d : Dev} {r : Nat} (x : Desc) (list : List Byte) (h : ¬ mayFetch d r = true) : fetch d r x list = d := if_neg h

/-- What follows the first group of checks (R63). -/
def afterChecks (d : Dev) (r id : Nat) : Option (Nat × Nat) → Dev
  | none => settle d
  | some (st, res) => finish d r id st res

theorem fetch_may {d : Dev} {r : Nat} (x : Desc) (list : List Byte) (h : mayFetch d r = true) :
    fetch d r x list = afterChecks (fetched d r x list) r (sqOf d r).nextId (firstCheck d (sqClient d r) x list) := by
  have same : firstCheck d (sqClient d r) x list = firstCheck (fetched d r x list) (sqClient (fetched d r x list) r) x list :=
    firstCheck_congr rfl rfl ..
  rw [fetch, if_pos h, same]
  rfl

theorem exec_descriptorFetch (s : State) (r : Nat) (x : Desc) (list : List Byte) :
    exec (.descriptorFetch r x list) s = .next (s.settled (fetch s.dev r x list)) := rfl

theorem fetchEntries_map (x : Desc) (list : List Byte) :
    (fetchEntries x list).map (fun y => (y.handle, y.single, y.started, y.finished)) = if dOp x = 0x10 then
      (List.range (dbits x 4 0 13)).map (fun i => (leAt list (8 * i) 4, bitOf (leAt list (8 * i + 4) 1) 0, false, false)) else [] := by
  unfold fetchEntries
  split
  · rw [List.map_map]
    rfl
  · rfl

/-- Settles O26. What gates the fetch is log entries 38 and 76, and the range check of the signal field at fetch log entry 48. -/
theorem doorbellsAndFetch : Obligations.DoorbellsAndFetch := by
  refine ⟨fun s r v hr hp => ⟨?_, ?_, ?_, ?_, fun y => ⟨sqOf_setSq_same .., fun i hi => (sqOf_setSq ..).trans (if_neg hi)⟩⟩,
    fun s r x list q cq hq hcq => ⟨fun halted path opened stalled waits few room => ?_, fun h => ?_⟩⟩
  · intro he ho hv
    rw [exec_doorbell v hr hp, doorbellWrite_tail he ho hv]
  · intro he ho hv
    rw [exec_doorbell v hr hp, doorbellWrite_invalid he ho hv]
  · intro he ho
    rw [exec_doorbell v hr hp, doorbellWrite_closed _ he ho]
  · intro he
    rw [exec_doorbell v hr hp, doorbellWrite_error _ _ he]
  · subst hq hcq
    have may := (mayFetch_iff s.dev r).2 ⟨halted, path, opened, stalled, waits, few, room⟩
    refine ⟨fetched s.dev r x list, fetchFlight s.dev r x list, rfl, fetchEntries_map x list, sqOf_setSq_same ..,
      fun i hi => (sqOf_setSq ..).trans (if_neg hi), cqOf_setCq_same .., fun i hi => (cqOf_setCq ..).trans (if_neg hi), rfl, rfl, rfl,
      fun pass => ?_, fun st res fail => ?_⟩
    · rw [exec_descriptorFetch, fetch_may x list may, pass]
      rfl
    · rw [exec_descriptorFetch, fetch_may x list may, fail]
      rfl
  · subst hq hcq
    have may : ¬ mayFetch s.dev r = true := by
      rw [mayFetch_iff]
      rintro ⟨halted, path, opened, stalled, waits, few, room⟩
      simp [halted, path, opened, stalled, waits, Nat.not_lt.2 few, Nat.pos_iff_ne_zero.1 room] at h
    rw [exec_descriptorFetch, fetch_not x list may]

/-! ### Completions (02 R49 to R51, R59) -/

theorem cqInterrupt_frame (d : Dev) (cq : Nat) : (cqInterrupt d cq).seq.sq = d.seq.sq ∧ (cqInterrupt d cq).posted = d.posted ∧
    (cqInterrupt d cq).regs = d.regs ∧ (cqInterrupt d cq).ctx = d.ctx ∧ (cqInterrupt d cq).hst = d.hst := by
  unfold cqInterrupt
  split <;> and_intros <;> rfl

/-- The count of an interrupt starts again (R51). -/
theorem cqOf_cqInterrupt (d : Dev) (cq i : Nat) :
    cqOf (cqInterrupt d cq) i = if i = cq then { cqOf d cq with since := 0 } else cqOf d i := by
  unfold cqInterrupt
  split <;> exact cqOf_setCq ..

theorem cqInterrupt_out (d : Dev) (cq : Nat) : (cqInterrupt d cq).out
    = d.out ++ if fbit d Fd.SEQ_CQ_CFG_irq_en cq then [.msix (fget d Fd.SEQ_CQ_CFG_vector cq)] else [] := by
  unfold cqInterrupt
  split
  · rfl
  · exact (List.append_nil _).symm

/-- The posted write of a completion (R59). -/
def completionWrite (d : Dev) (r : Nat) (f : Flight) : Posted :=
  ⟨ringLink d (sqCq d r), fget d Fd.SEQ_CQ_BASE_base (sqCq d r) * 4096 + 16 * (cqOf d (sqCq d r)).tail,
    fields [(dTag f.desc, 2), (f.status, 1), (b2n (cqOf d (sqCq d r)).phase, 1), (r, 2), (f.result, 4), (now d % 2 ^ 48, 6)]⟩

/-- A completion ring after one entry is written: the index steps, the reservation is returned and the entry counts for the
interrupt (R49 to R51). -/
def cqWritten (d : Dev) (cq : Nat) : Cq :=
  { cqOf d cq with
    tail := (ringStep (fget d Fd.SEQ_CQ_CFG_size_log2 cq) (cqOf d cq).tail (cqOf d cq).phase).1
    phase := (ringStep (fget d Fd.SEQ_CQ_CFG_size_log2 cq) (cqOf d cq).tail (cqOf d cq).phase).2
    reserved := (cqOf d cq).reserved - 1
    since := (cqOf d cq).since + 1
    firstAt := if (cqOf d cq).since = 0 then up d else (cqOf d cq).firstAt }

/-- The entry itself, before an interrupt. -/
def entryWritten (d : Dev) (r : Nat) (f : Flight) : Dev :=
  setCq (hostWrite d (sqCq d r) (completionWrite d r f).addr (completionWrite d r f).bytes) (sqCq d r) (cqWritten d (sqCq d r))

theorem writeCompletion_quiet {d : Dev} (r : Nat) {f : Flight} (h : dQuiet f.desc = true ∧ f.status = stOK) :
    writeCompletion d r f = setCq d (sqCq d r) { cqOf d (sqCq d r) with reserved := (cqOf d (sqCq d r)).reserved - 1 } := if_pos h

theorem writeCompletion_cases {d : Dev} (r : Nat) {f : Flight} (h : ¬ (dQuiet f.desc = true ∧ f.status = stOK)) :
    writeCompletion d r f = entryWritten d r f ∨ writeCompletion d r f = cqInterrupt (entryWritten d r f) (sqCq d r) := by
  have key : writeCompletion d r f = if dIrq f.desc ∨ max 1 (fget (entryWritten d r f) Fd.SEQ_CQ_MOD_count (sqCq d r))
      ≤ (cqOf d (sqCq d r)).since + 1 then cqInterrupt (entryWritten d r f) (sqCq d r) else entryWritten d r f := by
    have time : ∀ c a bs, up (hostWrite d c a bs) = up d := fun _ _ _ => up_congr (by simp)
    rw [writeCompletion, if_neg h]
    simp only [time]
    rfl
  rw [key]
  split
  · exact .inr rfl
  · exact .inl rfl

theorem entryWritten_frame (d : Dev) (r : Nat) (f : Flight) : (entryWritten d r f).seq.sq = d.seq.sq ∧
    (entryWritten d r f).regs = d.regs ∧ (entryWritten d r f).ctx = d.ctx := by
  simp [entryWritten, setCq]

theorem entryWritten_posted (d : Dev) (r : Nat) (f : Flight) (h : d.hst.tdisp ≠ .error) :
    (entryWritten d r f).posted = d.posted ++ [completionWrite d r f] := hostWrite_posted d _ _ _ h

theorem writeCompletion_frame (d : Dev) (r : Nat) (f : Flight) : (writeCompletion d r f).seq.sq = d.seq.sq ∧
    (writeCompletion d r f).regs = d.regs ∧ (writeCompletion d r f).ctx = d.ctx := by
  by_cases h : dQuiet f.desc = true ∧ f.status = stOK
  · rw [writeCompletion_quiet r h]
    exact ⟨rfl, rfl, rfl⟩
  · obtain ⟨sq, regs, ctx⟩ := entryWritten_frame d r f
    obtain ⟨isq, -, iregs, ictx, -⟩ := cqInterrupt_frame (entryWritten d r f) (sqCq d r)
    rcases writeCompletion_cases r h with e | e <;> rw [e]
    · exact ⟨sq, regs, ctx⟩
    · exact ⟨isq.trans sq, iregs.trans regs, ictx.trans ctx⟩

/-- A written completion: its bytes are posted, the index steps and the reservation is returned. -/
theorem writeCompletion_written {d : Dev} (r : Nat) {f : Flight} (h : ¬ (dQuiet f.desc = true ∧ f.status = stOK))
    (ht : d.hst.tdisp ≠ .error) {e : Dev} (he : e = writeCompletion d r f) :
    e.posted = d.posted ++ [completionWrite d r f] ∧ (cqOf e (sqCq d r)).tail = (cqWritten d (sqCq d r)).tail ∧
      (cqOf e (sqCq d r)).phase = (cqWritten d (sqCq d r)).phase ∧ (cqOf e (sqCq d r)).reserved = (cqOf d (sqCq d r)).reserved - 1 := by
  have posted := entryWritten_posted d r f ht
  have cq : cqOf (entryWritten d r f) (sqCq d r) = cqWritten d (sqCq d r) := cqOf_setCq_same ..
  rcases writeCompletion_cases r h with k | k <;> rw [he, k]
  · rw [cq]
    exact ⟨posted, rfl, rfl, rfl⟩
  · obtain ⟨-, iposted, -⟩ := cqInterrupt_frame (entryWritten d r f) (sqCq d r)
    rw [cqOf_cqInterrupt, if_pos rfl, cq, iposted]
    exact ⟨posted, rfl, rfl, rfl⟩

/-! ### Delivery (02 R59, R68, R72) -/

theorem mirrorOwn_unchanged (d : Dev) (r : Nat) {f : Flight} (h : f.changed = false) : mirrorOwn d r f = d := if_neg (by simp [h])

theorem signalAfter_none (d : Dev) (r : Nat) {f : Flight} (h : (dSignal f.desc).2.1 = 0 ∨ f.noSignal = true) : signalAfter d r f = d := by
  unfold signalAfter
  split
  · rfl
  · rw [h.resolve_right ‹_›]
    rfl

/-- All that a stall changes is its ring, and events. -/
theorem stallAfter_frame (d : Dev) (r : Nat) (f : Flight) : (stallAfter d r f).posted = d.posted ∧ (stallAfter d r f).seq.cq = d.seq.cq ∧
    (sqOf (stallAfter d r f) r).flights = (sqOf d r).flights ∧ (stallAfter d r f).ctx = d.ctx ∧ (stallAfter d r f).regs = d.regs := by
  unfold stallAfter
  split
  · have rings : ∀ (e : Dev) (g : Fd), sqOf (raise e g) r = sqOf e r := fun e g => by simp [sqOf]
    exact ⟨by simp, by simp [setSq], by rw [rings, sqOf_setSq_same], by simp, by simp⟩
  · exact ⟨rfl, rfl, rfl, rfl, rfl⟩

/-- Settles O27: without a mirror write or a signal, a delivery is the completion of the flight and then perhaps a stall. -/
theorem completionHoldsTagStatusAndResult : Obligations.CompletionHoldsTagStatusAndResult := by
  intro d e r f cq c hfl hst ht hsig hch hcq hc he
  subst hcq hc
  let w := writeCompletion (dropOldest d r) r f
  have delivered : e = stallAfter w r f := by
    rw [he, deliverOne_eq, mirrorOwn_unchanged _ r hch, signalAfter_none _ r hsig]
  obtain ⟨posted, cqs, flights, ctx, regs⟩ := stallAfter_frame w r f
  rw [← delivered] at posted cqs flights ctx regs
  obtain ⟨wsq, wregs, wctx⟩ := writeCompletion_frame (dropOldest d r) r f
  have ring : cqOf e (sqCq d r) = cqOf w (sqCq d r) := by rw [cqOf, cqs, cqOf]
  have gone : (sqOf e r).flights = [] := by
    rw [flights, sqOf, wsq]
    change (sqOf (dropOldest d r) r).flights = []
    rw [dropOldest, sqOf_setSq_same, hfl]
    rfl
  rw [ring, posted]
  by_cases quiet : dQuiet f.desc = true ∧ f.status = stOK
  · have kept : w = setCq (dropOldest d r) (sqCq d r) { cqOf d (sqCq d r) with reserved := (cqOf d (sqCq d r)).reserved - 1 } :=
      writeCompletion_quiet r quiet
    have loud : ¬ (dQuiet f.desc = false ∨ f.status ≠ stOK) := by simp [quiet]
    rw [kept, cqOf_setCq_same]
    exact ⟨fun l => absurd l loud, fun _ _ => ⟨rfl, rfl, rfl⟩, rfl, gone, ctx.trans wctx, regs.trans wregs⟩
  · obtain ⟨wposted, tail, phase, reserved⟩ := writeCompletion_written (d := dropOldest d r) (e := w) r quiet ht rfl
    exact ⟨fun _ => ⟨wposted, Prod.ext tail phase⟩, fun q o => absurd ⟨q, o⟩ quiet, reserved, gone, ctx.trans wctx, regs.trans wregs⟩

end Sys2Proof.Machine
end

section
/-!
PROOFS. Reports and rings (18 R473 to R478): what a report leaves of the submission rings.
-/

namespace Sys2Proof.Machine

theorem fltWrite_seq (d : Dev) (g : Nat) (r : Report) (b : Bool) : (fltWrite d g r b).1.seq = d.seq := by
  dsimp only [fltWrite]
  split
  · split
    · simp
    · dsimp only
      split <;> simp
  · rfl

theorem fltOperator_seq (d : Dev) (r : Report) (b : Bool) : (fltOperator d r b).seq = d.seq := by
  dsimp only [fltOperator]
  split <;> simp [fltWrite_seq]

theorem fltDueOp_seq (d : Dev) (k : Nat) : (fltDueOp d k).seq = d.seq := by
  have close : (fltCloseOp d k).seq = d.seq := by
    dsimp only [fltCloseOp]
    split
    · rfl
    · split <;> simp [fltOperator_seq]
  unfold fltDueOp
  split
  · split
    · exact close
    · rfl
  · rfl

theorem fltOpView_seq (d : Dev) (r : Report) : (fltOpView d r).seq = d.seq := by
  dsimp only [fltOpView]
  split <;> simp [fltOperator_seq, fltDueOp_seq]

theorem fltDueClient_seq (d : Dev) (c : Nat) (r : Report) : (fltDueClient d c r).seq = d.seq := by
  have close : ∀ p, (fltCloseClient d p).seq = d.seq := fun p => by
    dsimp only [fltCloseClient]
    split <;> simp [fltWrite_seq]
  unfold fltDueClient
  split
  · split
    · exact close _
    · rfl
  · rfl

theorem fltClientView_sq (d : Dev) (c : Nat) (r : Report) : (fltClientView d c r).1.seq.sq = d.seq.sq := by
  dsimp only [fltClientView]
  split
  · simp [fltDueClient_seq]
  · simp [updAcct, fltWrite_seq, fltDueClient_seq]

/-- A report counts in an account and leaves the submission rings. -/
theorem reportWith_sq (d : Dev) (r : Report) (a : Nat) : (reportWith d r a).1.seq.sq = d.seq.sq := by
  dsimp only [reportWith]
  split <;> simp [fltClientView_sq, fltOpView_seq]

theorem reportWith_syn (d : Dev) (r : Report) (a : Nat) : (reportWith d r a).1.syn = d.syn := by
  obtain ⟨-, -, -, syn, -⟩ := (onlyReports_reportWith d r a).keeps
  exact syn

end Sys2Proof.Machine
end

section
/-!
PROOFS. Hold-offs, shadow reads, sync commands, and waits and deadlines that run out (02 R51, R52, R60, R71, R72, R509; 07 R208, R224).
-/

namespace Sys2Proof.Machine

/-! ### Hold-offs (02 R51) -/

theorem exec_msixHoldoffExpire (s : State) (r : Nat) : exec (.msixHoldoffExpire r) s = .next (s.settled (cqHoldoff s.dev r)) := rfl

theorem cqHoldoff_elapsed {d : Dev} {r : Nat} (h : fget d Fd.SEQ_CQ_MOD_holdoff r ≠ 0) (hs : 0 < (cqOf d r).since)
    (ht : (cqOf d r).firstAt + fget d Fd.SEQ_CQ_MOD_holdoff r * 1024 ≤ up d) : cqHoldoff d r = cqInterrupt d r := if_pos ⟨h, hs, ht⟩

theorem cqHoldoff_idle {d : Dev} {r : Nat} (h : fget d Fd.SEQ_CQ_MOD_holdoff r = 0 ∨ (cqOf d r).since = 0 ∨
    up d < (cqOf d r).firstAt + fget d Fd.SEQ_CQ_MOD_holdoff r * 1024) : cqHoldoff d r = d := by
  refine if_neg ?_
  rintro ⟨on, counts, elapsed⟩
  omega

/-! ### Shadow reads (02 R52, R509; 07 R224) -/

/-- A read of a stream ring's shadow: the records that wait are written, and a cut that this finishes stands at a boundary. -/
def strShadowRead (d : Dev) (r c : Nat) : Dev :=
  let e := strFlushBy ((strOf d r).waiting.length + 1)
    (setStr d r { strOf d r with cons := c % 2 ^ fget d Fd.SEQ_STR_CFG_size_log2 r }) r
  if (slotOf d r).state = .cutPending ∧ (slotOf e r).state ≠ .cutPending then boundary e (slotOf e r).rcd else e

theorem exec_shadowRead_str {s : State} {r : Nat} (c : Nat) (hr : s.dev.sys.resetLow = false) (hp : hostPath s.dev = true)
    (ho : strOpenBit s.dev r = true) : exec (.shadowRead 1 r c) s = .next (s.settled (strShadowRead s.dev r c)) := by
  change execShadowRead 1 r c s = _
  simp only [execShadowRead, lift_next, inReset, hr, hp, ho, beq_iff_eq]
  simp [strShadowRead]

theorem exec_shadowRead_other {s : State} {k : Nat} (r c : Nat) (hk : k ≠ 1) :
    exec (.shadowRead k r c) s = .next (s.settled (shadowRead s.dev k r c)) := by
  change execShadowRead k r c s = _
  simp [execShadowRead, hk]

/-- The consumer index of a fault ring is read. -/
def fltConsumed (d : Dev) (r c : Nat) : Dev :=
  { d with flt := { d.flt with
    rings := mset d.flt.rings {} r { mget d.flt.rings {} r with cons := c % 2 ^ (fltRingCfg d r).2.1 } } }

section ShadowRead

variable {d : Dev} (r c : Nat) (hr : d.sys.resetLow = false) (hp : hostPath d = true)

include hr hp

theorem shadowRead_cq (ho : cqOpenBit d r = true) :
    shadowRead d 0 r c = setCq d r { cqOf d r with cons := c % 2 ^ fget d Fd.SEQ_CQ_CFG_size_log2 r } := by
  simp [shadowRead, inReset, hr, hp, ho]

theorem shadowRead_flt (ho : (fltRingCfg d r).1 = true) :
    shadowRead d 2 r c = fltConsumed d r c := by
  simp [shadowRead, inReset, hr, hp, ho, fltConsumed]

theorem shadowRead_log (ho : fbit d Fd.MTR_LOG_BASE_log_en = true) : shadowRead d 3 r c = logConsumed d c := by
  simp [shadowRead, inReset, hr, hp, ho]

end ShadowRead

/-- What reading the log's consumer index does (log entry 32: an index that has not moved has consumed nothing). -/
theorem logConsumed_spec {d e : Dev} {c n : Nat} (hn : n = 2 ^ fget d Fd.MTR_LOG_CFG_size_log2) (he : e = logConsumed d c) :
    e.mtr.lapped = d.mtr.lapped ∧ e.mtr.unread ≤ d.mtr.unread ∧ (c % n = d.mtr.cons → e = d) ∧
      (c % n ≠ d.mtr.cons → e.mtr.cons = c % n ∧ e.mtr.unread = min d.mtr.unread ((d.mtr.written % n + n - c % n) % n)) ∧
      e.regs = d.regs ∧ e.ctx = d.ctx := by
  subst hn
  by_cases same : c % 2 ^ fget d Fd.MTR_LOG_CFG_size_log2 = d.mtr.cons
  · obtain rfl : e = d := he.trans (if_pos same)
    exact ⟨rfl, Nat.le_refl _, fun _ => rfl, fun moved => absurd same moved, rfl, rfl⟩
  · have moved := he.trans (if_neg same)
    subst moved
    exact ⟨rfl, Nat.min_le_left .., fun k => absurd k same, fun _ => ⟨rfl, rfl⟩, rfl, rfl⟩

/-! ### Dispatch (02 R63) -/

theorem dispatch_atDispatch {d : Dev} {r op : Nat} {f : Flight} (go : Dev → Flight → Dev) (h : atDispatch d r op f) :
    dispatch d r op go = go d f := by
  obtain ⟨ready, opcode, units⟩ := h
  simp [dispatch, ready, opcode, units]

/-- Stage 3 speaks of the oldest undispatched descriptor. -/
theorem stageThree_oldest {d : Dev} {r : Nat} {f : Flight} {y : Ready} (h : stageThree d r = some (f, y)) :
    (sqOf d r).flights.find? (fun f => f.phase == .waiting) = some f := by
  unfold stageThree at h
  split at h
  · cases h
  · split at h
    · cases h
    · rename_i g oldest
      suffices g = f from this ▸ oldest
      -- each of the conditions, met or not, answers for `g`
      dsimp only at h
      repeat' split at h
      all_goals cases h; rfl

theorem exec_nop {s : State} {r : Nat} {f : Flight} (h : atDispatch s.dev r 0xF0 f) :
    exec (.nop r) s = .next (s.settled (finish s.dev r f.id stOK 0)) := by
  change execNop r s = _
  rw [execNop, lift_next, dispatch_atDispatch _ h]

theorem exec_syncWait_starts {s : State} {r : Nat} {f : Flight} (h : atDispatch s.dev r 0x61 f) (ht : f.testedAt = none) :
    exec (.syncWait r) s = .next (s.settled (settle (updFlight s.dev r f.id (fun g => { g with testedAt := some (up s.dev) })))) := by
  change execSyncWait r s = _
  rw [execSyncWait, lift_next, dispatch_atDispatch _ h, if_neg (by simp [ht])]

/-! ### Flights of a ring -/

theorem flightOf_updFlight (d : Dev) (r i : Nat) {g : Flight → Flight} (hg : ∀ x, (g x).id = x.id) :
    flightOf (updFlight d r i g) r i = (flightOf d r i).map g := by
  let upd := fun x : Flight => if x.id = i then g x else x
  have ids : ∀ x, (upd x).id = x.id := fun x => by
    simp only [upd]
    split
    · exact hg x
    · rfl
  have found : flightOf (updFlight d r i g) r i = (flightOf d r i).map upd := by
    rw [flightOf, updFlight, sqOf_setSq_same, List.find?_map]
    congr 2
    funext x
    exact congrArg (· == i) (ids x)
  rw [found]
  cases h : flightOf d r i with
  | none => rfl
  | some x =>
    have named : x.id = i := by simpa using List.find?_some h
    simp [upd, named]

theorem flightOf_isSome {d : Dev} {r : Nat} {f : Flight} (h : f ∈ (sqOf d r).flights) : ∃ g, flightOf d r f.id = some g :=
  Option.isSome_iff_exists.1 (List.find?_isSome.2 ⟨f, h, by simp⟩)

theorem flightOf_congr {d e : Dev} (h : d.seq.sq = e.seq.sq) (r i : Nat) : flightOf d r i = flightOf e r i := by
  simp only [flightOf, sqOf, h]

/-! ### `SYNC_SIGNAL` (02 R71, R72) -/

/-- The counter that an operation makes of a counter: add, saturating, or take the maximum (R68). -/
def signalCtr (old : BitVec 64) (op v : Nat) : BitVec 64 :=
  if op = 1 then BitVec.ofNat 64 (min (old.toNat + v) (2 ^ 64 - 1))
  else if op = 2 then BitVec.ofNat 64 (max old.toNat v) else old

theorem saturated_eq (n : Nat) :
    (if 2 ^ 64 ≤ n then BitVec.allOnes 64 else BitVec.ofNat 64 n) = BitVec.ofNat 64 (min n (2 ^ 64 - 1)) := by
  split
  · rw [Nat.min_eq_right (by omega)]
    rfl
  · rw [Nat.min_eq_left (by omega)]

/-- A signal that does not fail and leaves the mirror write changes its object's counter and no other object. -/
theorem syncObj_syncApply (d : Dev) (c rel op v i : Nat) : syncObj (syncApply d c rel op v false false) i =
    if i = syncAbs d c rel then
      { syncObj d (syncAbs d c rel) with ctr := signalCtr (syncObj d (syncAbs d c rel)).ctr op v } else syncObj d i := by
  by_cases acts : op = 1 ∨ op = 2
  · have stored : ∀ (e : Dev) (x : SynObj) (p : Prop) [Decidable p] (r : Report) (a : Nat), syncObj (if p then
        (reportWith (syncPut e (syncAbs d c rel) x) r a).1 else syncPut e (syncAbs d c rel) x) i
          = if i = syncAbs d c rel then x else syncObj e i := by
      intro e x p _ r a
      rw [← syncObj_syncPut]
      split
      · exact syncObj_congr (by rw [reportWith_syn]) i
      · rfl
    rw [syncApply, if_pos acts]
    refine (stored d _ _ _ _).trans ?_
    rcases acts with rfl | rfl
    · simp only [signalCtr, if_true, saturated_eq, Bool.false_eq_true, if_false, -Nat.reducePow]
    · simp only [signalCtr, if_true, if_neg (show ¬ (2 = 1) by decide), Bool.false_eq_true, if_false]
  · have none : syncApply d c rel op v false false = d := if_neg acts
    obtain ⟨n1, n2⟩ := not_or.1 acts
    rw [none]
    split
    · subst_vars
      simp [signalCtr, n1, n2]
    · rfl

theorem syncApply_frame (d : Dev) (c rel op v : Nat) : (syncApply d c rel op v false false).seq.sq = d.seq.sq ∧
    (syncApply d c rel op v false false).ctx = d.ctx := by
  obtain ⟨-, -, -, -, ctx, -⟩ := (onlyRings_syncApply d c rel op v false false).keeps
  refine ⟨?_, ctx⟩
  dsimp only [syncApply]
  split
  · split
    · exact reportWith_sq ..
    · rfl
  · rfl

/-- The failure mark of a `SYNC_SIGNAL`'s object is cleared if it asks for it. -/
def clearOwnMark (d : Dev) (obj : Nat) (f : Flight) : Dev :=
  if dbits f.desc 36 2 1 = 1 then syncPut d obj { syncObj d obj with mark := none } else d

theorem clearOwnMark_frame (d : Dev) (obj : Nat) (f : Flight) : (clearOwnMark d obj f).seq = d.seq ∧
    (clearOwnMark d obj f).regs = d.regs ∧ (clearOwnMark d obj f).ctx = d.ctx := by
  unfold clearOwnMark
  split <;> exact ⟨rfl, rfl, rfl⟩

theorem syncObj_clearOwnMark (d : Dev) (obj i : Nat) (f : Flight) : syncObj (clearOwnMark d obj f) i = if i = obj then
    { syncObj d obj with mark := if dbits f.desc 36 2 1 = 1 then none else (syncObj d obj).mark } else syncObj d i := by
  unfold clearOwnMark
  split
  · rw [syncObj_syncPut]
  · split
    · subst_vars
      rfl
    · rfl

/-- The object that a `SYNC_SIGNAL` names. -/
def ownObj (d : Dev) (r : Nat) (f : Flight) : Nat := syncAbs d (sqClient d r) (dbits f.desc 4 0 17)

/-- The own operation of a `SYNC_SIGNAL`. -/
def ownSignal (d : Dev) (r : Nat) (f : Flight) : Dev :=
  syncApply (clearOwnMark d (ownObj d r f) f) (sqClient d r) (dbits f.desc 4 0 17) (dbits f.desc 36 0 2) (db f.desc 24 8) false false

theorem ownSignal_frame (d : Dev) (r : Nat) (f : Flight) : (ownSignal d r f).seq.sq = d.seq.sq ∧ (ownSignal d r f).ctx = d.ctx := by
  obtain ⟨seq, -, ctx⟩ := clearOwnMark_frame d (ownObj d r f) f
  obtain ⟨asq, actx⟩ := syncApply_frame (clearOwnMark d (ownObj d r f) f) (sqClient d r) (dbits f.desc 4 0 17) (dbits f.desc 36 0 2)
    (db f.desc 24 8)
  exact ⟨asq.trans (congrArg SeqSt.sq seq), actx.trans ctx⟩

theorem syncObj_ownSignal (d : Dev) (r i : Nat) (f : Flight) : syncObj (ownSignal d r f) i = if i = ownObj d r f then
    { ctr := signalCtr (syncObj d (ownObj d r f)).ctr (dbits f.desc 36 0 2) (db f.desc 24 8)
      mark := if dbits f.desc 36 2 1 = 1 then none else (syncObj d (ownObj d r f)).mark } else syncObj d i := by
  have named : syncAbs (clearOwnMark d (ownObj d r f) f) (sqClient d r) (dbits f.desc 4 0 17) = ownObj d r f := by
    rw [syncAbs, syncRange_congr (clearOwnMark_frame d (ownObj d r f) f).2.1]
    rfl
  rw [ownSignal, syncObj_syncApply, named, syncObj_clearOwnMark, if_pos rfl]
  split
  · rfl
  · rw [syncObj_clearOwnMark, if_neg ‹_›]

/-- A flight notes whether its own operation changed its object. -/
def noteChanged (b : Bool) (g : Flight) : Flight := { g with changed := b }

theorem noteChanged_id (b : Bool) (g : Flight) : (noteChanged b g).id = g.id := rfl

/-- The own operation is carried out, and the flight notes whether it changed its object. -/
def signalNoted (d : Dev) (r : Nat) (f : Flight) : Dev :=
  updFlight (ownSignal d r f) r f.id (noteChanged (decide (syncObj (ownSignal d r f) (ownObj d r f) ≠ syncObj d (ownObj d r f))))

theorem exec_syncSignal {s : State} {r : Nat} {f : Flight} (h : atDispatch s.dev r 0x60 f) :
    exec (.syncSignal r) s = .next (s.settled (finish (signalNoted s.dev r f) r f.id stOK 0)) := by
  change execSyncSignal r s = _
  rw [execSyncSignal, lift_next, dispatch_atDispatch _ h]
  rfl

theorem signalNoted_changed {d : Dev} {r : Nat} {f : Flight} (h : f ∈ (sqOf d r).flights) :
    (flightOf (signalNoted d r f) r f.id).map (fun g => g.changed)
      = some (decide (syncObj (signalNoted d r f) (ownObj d r f) ≠ syncObj d (ownObj d r f))) := by
  obtain ⟨g, there⟩ := flightOf_isSome h
  have same : flightOf (ownSignal d r f) r f.id = some g := (flightOf_congr (ownSignal_frame d r f).1 r f.id).trans there
  rw [signalNoted, flightOf_updFlight _ r f.id (noteChanged_id _), same]
  rfl

/-! ### Waits and deadlines that run out (02 R71; 07 R208) -/

theorem exec_syncWaitTimeout {s : State} {r t : Nat} {f : Flight}
    (hf : (sqOf s.dev r).flights.find? (fun g => g.phase == .waiting) = some f) (ht : f.testedAt = some t) (hop : dOp f.desc = 0x61) :
    exec (.syncWaitTimeout r) s = .next (s.settled (if db f.desc 32 4 ≠ 0 ∧ t + db f.desc 32 4 * 65536 ≤ up s.dev then
      finish s.dev r f.id stExpired 0 else s.dev)) := by
  change execSyncWaitTimeout r s = _
  simp only [execSyncWaitTimeout, lift_next, waitExpire, hf, ht, hop, true_and]

/-- An entry of a batch that has not been dispatched. -/
def entryOpen (f : Flight) (entry : Nat) : Bool :=
  match f.entries[entry]? with
  | some e => !e.started && !e.finished
  | none => false

/-- A flight whose deadline runs out (R208): a batch with an entry not dispatched, or a descriptor that waits. -/
def expires (d : Dev) (entry : Nat) (f : Flight) : Bool :=
  f.phase != .done && deadlineOver d f && (if dOp f.desc = 0x10 then entryOpen f entry else f.phase == .waiting)

theorem exec_deadlineExpiry (s : State) (r e : Nat) : exec (.deadlineExpiry r e) s = .next (s.settled (deadlineExpire s.dev r e)) := rfl

theorem deadlineExpire_eq {d : Dev} {r e : Nat} {f : Flight} (h : (sqOf d r).flights.find? (expires d e) = some f) :
    deadlineExpire d r e = if dOp f.desc = 0x10 then
      entryEnd d r f.id e stExpired 0 0 0
        (recOf d ((f.entries.getD e { handle := 0, single := false }).handle % 2 ^ 24)).len
        ((recOf d ((f.entries.getD e { handle := 0, single := false }).handle % 2 ^ 24)).stepSeq % 2 ^ 32)
      else finish d r f.id stExpired 0 := by
  unfold deadlineExpire
  split
  · cases h.symm.trans ‹_›
  · cases h.symm.trans ‹_›
    rfl

/-- Only a `PREFILL` and a batch have a deadline. -/
theorem not_expires {d : Dev} {g : Flight} (e : Nat) (h : g.phase = .done ∨ dOp g.desc ≠ 0x11 ∧ dOp g.desc ≠ 0x10) :
    expires d e g = false := by
  rcases h with done | ⟨prefill, batch⟩
  · simp [expires, done]
  · have never : deadlineOver d g = false := by
      unfold deadlineOver
      split <;> simp_all
    simp [expires, never]

theorem deadlineOver_prefill {d : Dev} {f : Flight} (hop : dOp f.desc = 0x11) (hn : db f.desc 44 4 ≠ 0)
    (ht : f.fetchTc + db f.desc 44 4 * 65536 ≤ up d) : deadlineOver d f = true := by
  simp [deadlineOver, hop, hn, ht]

theorem deadlineOver_batch {d : Dev} {f : Flight} (hop : dOp f.desc = 0x10) (hn : db f.desc 52 4 ≠ 0)
    (ht : f.fetchTc + db f.desc 52 4 * 65536 ≤ up d) : deadlineOver d f = true := by
  simp [deadlineOver, hop, hn, ht]

/-- The first flight that may expire is found behind ones that have no deadline. -/
theorem find_expires {d : Dev} {f : Flight} {l1 l2 l : List Flight} (e : Nat) (hl : l = l1 ++ f :: l2)
    (h1 : ∀ g ∈ l1, g.phase = .done ∨ dOp g.desc ≠ 0x11 ∧ dOp g.desc ≠ 0x10) (hf : expires d e f = true) :
    l.find? (expires d e) = some f := by
  have before : l1.find? (expires d e) = none := List.find?_eq_none.2 fun g hg => by simp [not_expires e (h1 g hg)]
  rw [hl, List.find?_append, before, Option.none_or, List.find?_cons_of_pos hf]

/-- Settles O28. That a shadow read whose index did not move consumes nothing is log entry 32, and the gate of the data path log entries
38 and 76. -/
theorem syncCommandsHoldoffAndExpiries : Obligations.SyncCommandsHoldoffAndExpiries := by
  refine ⟨fun s r c h hh => ⟨?_, ?_, fun low path => ⟨?_, ?_, ?_, ?_⟩⟩,
    fun s r f => ⟨exec_nop, ?_, exec_syncWait_starts, ?_, fun l1 l2 hl h1 => ⟨?_, ?_⟩⟩⟩
  · subst hh
    intro on counts elapsed
    have others : ∀ i, i ≠ r → cqOf (cqInterrupt s.dev r) i = cqOf s.dev i := fun i hi => by rw [cqOf_cqInterrupt, if_neg hi]
    obtain ⟨-, -, regs, ctx, -⟩ := cqInterrupt_frame s.dev r
    exact ⟨_, by rw [exec_msixHoldoffExpire, cqHoldoff_elapsed on counts elapsed], by rw [cqOf_cqInterrupt, if_pos rfl], others,
      cqInterrupt_out .., regs, ctx⟩
  · intro idle
    rw [exec_msixHoldoffExpire, cqHoldoff_idle (hh ▸ idle)]
  · intro opened
    rw [exec_shadowRead_other r c (by decide), shadowRead_cq r c low path opened]
  · intro d opened hd
    rw [exec_shadowRead_str c low path opened, hd]
    rfl
  · intro opened
    exact ⟨fltConsumed s.dev r c, by rw [exec_shadowRead_other r c (by decide), shadowRead_flt r c low path opened],
      mget_mset_same .., fun i hi => mget_mset_other _ _ _ hi, rfl, rfl, rfl⟩
  · intro n hn enabled
    exact ⟨_, by rw [exec_shadowRead_other r c (by decide), shadowRead_log r c low path enabled], logConsumed_spec hn rfl⟩
  · intro obj old ready hobj hold
    obtain rfl : obj = ownObj s.dev r f := hobj
    subst hold
    have run := exec_syncSignal ready
    obtain ⟨oldest, -, -⟩ := ready
    have there := List.mem_of_find?_eq_some (stageThree_oldest oldest)
    have objs : ∀ i, syncObj (signalNoted s.dev r f) i = syncObj (ownSignal s.dev r f) i := fun _ => rfl
    refine ⟨_, run, ?_, signalNoted_changed there, fun i hi => ?_, (ownSignal_frame s.dev r f).2⟩
    · rw [objs, syncObj_ownSignal, if_pos rfl]
      rfl
    · rw [objs, syncObj_ownSignal, if_neg hi]
  · intro t hf ht hop
    rw [exec_syncWaitTimeout hf ht hop]
    exact ⟨fun n0 late => by rw [if_pos ⟨n0, late⟩], fun early => by rw [if_neg (by omega)]⟩
  · intro e waits hop n0 late
    have lapsed : expires s.dev e f = true := by simp [expires, waits, hop, deadlineOver_prefill hop n0 late]
    rw [exec_deadlineExpiry, deadlineExpire_eq (find_expires e hl h1 lapsed), if_neg (by rw [hop]; decide)]
  · intro e x rec live hop n0 late hx unstarted unfinished hrec
    have lapsed : expires s.dev e f = true := by
      simp [expires, live, hop, deadlineOver_batch hop n0 late, entryOpen, hx, unstarted, unfinished]
    rw [exec_deadlineExpiry, deadlineExpire_eq (find_expires e hl h1 lapsed), if_pos hop, List.getD_eq_getElem?_getD, hx, hrec]
    rfl

end Sys2Proof.Machine
end

section
/-!
PROOFS. The register file, and loads (03 R75, R78, R81, R89 to R93, R98; 17 R454, R455): what a field reads after a write, how a load
begins, and how each kind of load ends.
-/

namespace Sys2Proof.Machine

/-- Settles O7, one clause for each place that a field can have relative to the written one. -/
theorem fieldWriteIsReadBackAndNothingElseChanges : Obligations.FieldWriteIsReadBackAndNothingElseChanges := fun d _ v b fits hr hb =>
  ⟨fget_fset_same d v b fits hr, fun _ _ hc elsewhere => fget_fset_elsewhere d v (regKey_ne hc hb elsewhere),
    fun _ ho apart => fget_fset_apart d v b fits ho apart⟩

/-! ### Ends of loads and of stages (03 R84, R86, R87) -/

/-- A recorded event leaves those that are set. -/
theorem evSet_raise_kept {d : Dev} {g : Fd} (f : Fd) (h : evSet d g = true) : evSet (raise d f) g = true := by
  by_cases ho : g.off = f.off
  · by_cases hl : g.lo = f.lo
    · simp [evSet, raise_evts, evRecord, ho, hl]
    · simpa [evSet, raise_evts, evRecord, ho, hl] using h
  · rw [evSet_raise_other d ho, h]

@[simp] theorem loadEnd_sys (d : Dev) (r : Nat) : (loadEnd d r).sys = { d.sys with load := none, loadResult := r } := by simp [loadEnd]

@[simp] theorem loadEnd_meter (d : Dev) (r : Nat) : (loadEnd d r).meter = d.meter := by simp [loadEnd]

@[simp] theorem evSet_loadEnd (d : Dev) (r : Nat) : evSet (loadEnd d r) Fd.GLB_EVT_load_done = true := evSet_raise ..

/-- A stage that is reached changes the stage and the events alone. -/
@[simp] theorem stageDone_keeps (d : Dev) (n : Nat) : (stageDone d n).sys = { d.sys with stage := n, stageCmd := none } ∧
    (stageDone d n).ctx = d.ctx ∧ (stageDone d n).mem = d.mem ∧ (stageDone d n).fls = d.fls ∧ (stageDone d n).lnk = d.lnk ∧
    (stageDone d n).tc = d.tc ∧ (stageDone d n).map = d.map ∧ (stageDone d n).meter = d.meter := by
  simp [stageDone]

@[simp] theorem evSet_stageDone (d : Dev) (n : Nat) : evSet (stageDone d n) Fd.GLB_EVT_stage_done = true := (stageDone_frame d n).2.2

theorem evSet_stageDone_kept {d : Dev} {g : Fd} (n : Nat) (h : evSet d g = true) : evSet (stageDone d n) g = true :=
  evSet_raise_kept _ h

@[simp] theorem stageFail_keeps (d : Dev) (r : Nat) : 
    (stageFail d r).sys = { d.sys with stage := 15, failReason := r, stageCmd := none } ∧ (stageFail d r).meter = d.meter := by
  simp [stageFail]

@[simp] theorem evSet_stageFail (d : Dev) (r : Nat) : evSet (stageFail d r) Fd.GLB_EVT_stage_failed = true := evSet_raise ..

theorem evSet_stageFail_kept {d : Dev} {g : Fd} (r : Nat) (h : evSet d g = true) : evSet (stageFail d r) g = true :=
  evSet_raise_kept _ h

/-- A command is known by the device that it settles. -/
theorem exec_to {c : Instr} {s : State} {d e : Dev} (run : exec c s = .next (s.settled d)) (h : d = e) :
    exec c s = .next (s.settled e) := h ▸ run

/-! ### A load begins (03 R81, R89) -/

theorem exec_load (s : State) {n typ : Nat} {c : Instr} (hn : n < 2 ^ 23)
    (h : (c, typ) ∈ [(.loadFirmware n, 1), (.loadRepairRecord n, 2), (.loadMeterCal n, 3), (.loadReservedType n, 0)]) :
    exec c s = .next (s.settled (glbLoad s.dev typ n)) ∧ typ < 4 := by
  have keeps : ∀ typ, lift (fun d => glbLoad d typ (n % 2 ^ 23)) s = .next (s.settled (glbLoad s.dev typ n)) := fun typ => by
    rw [Nat.mod_eq_of_lt hn, lift_next]
  simp only [List.mem_cons, Prod.mk.injEq, List.not_mem_nil, or_false] at h
  rcases h with ⟨rfl, rfl⟩ | ⟨rfl, rfl⟩ | ⟨rfl, rfl⟩ | ⟨rfl, rfl⟩ <;> exact ⟨keeps _, by decide⟩

/-- The load that a write of `GLB_LOAD` begins. -/
def loadBegun (d : Dev) (typ n : Nat) : LoadJob :=
  let result := loadCheck d typ n (loadImage d n)
  { typ := typ, length := n, result := result, tries := b2n (typ == 3 && result == 0), sentAt := up d }

theorem loadImage_congr {d e : Dev} (sys : d.sys = e.sys) (n : Nat) : loadImage d n = loadImage e n := by rw [loadImage, loadImage, sys]

theorem loadCheck_congr {d e : Dev} (sys : d.sys = e.sys) (typ n : Nat) (img : List Byte) :
    loadCheck d typ n img = loadCheck e typ n img := by rw [loadCheck, loadCheck, sys]

theorem loadBegun_congr {d e : Dev} {typ n : Nat} (sys : d.sys = e.sys) (tc : d.tc = e.tc) : loadBegun d typ n = loadBegun e typ n := by
  simp only [loadBegun, loadCheck_congr sys, loadImage_congr sys, up_congr tc]

/-- `GLB_LOAD` as it is written. -/
def loadWritten (d : Dev) (typ n : Nat) : Dev := fset (fset d Fd.GLB_LOAD_type typ) Fd.GLB_LOAD_length n

@[simp] theorem loadWritten_frame (d : Dev) (typ n : Nat) : (loadWritten d typ n).sys = d.sys ∧ (loadWritten d typ n).tc = d.tc ∧
    (loadWritten d typ n).ctx = d.ctx ∧ (loadWritten d typ n).evts = d.evts := by
  simp [loadWritten]

theorem glbLoad_idle {d : Dev} (typ n : Nat) (hp : d.sys.portUp = true) (hl : d.sys.load = none) :
    glbLoad d typ n = setSys (loadWritten d typ n) { d.sys with load := some (loadBegun d typ n) } := by
  obtain ⟨sys, tc, -⟩ := loadWritten_frame d typ n
  rw [glbLoad, if_neg (by simp [hp]), if_neg (by simp [hl]), ← loadWritten]
  change setSys _ { (loadWritten d typ n).sys with load := some (loadBegun (loadWritten d typ n) typ n) } = _
  rw [loadBegun_congr sys tc, sys]

theorem glbLoad_busy {d : Dev} (typ n : Nat) (hp : d.sys.portUp = true) (hl : d.sys.load ≠ none) :
    glbLoad d typ n = postedOverrun d Rg.GLB_LOAD := by
  simp [glbLoad, hp, Option.isSome_iff_ne_none.2 hl]

theorem loadCheck_reserved (d : Dev) (n : Nat) (img : List Byte) : loadCheck d 0 n img = 4 := rfl

/-- Type and length stand side by side in `GLB_LOAD`. -/
theorem fget_loadWritten (d : Dev) {typ n : Nat} (ht : typ < 4) (hn : n < 2 ^ 23) :
    fget (loadWritten d typ n) Fd.GLB_LOAD_type = typ ∧ fget (loadWritten d typ n) Fd.GLB_LOAD_length = n := by
  constructor
  · rw [loadWritten, fget_fset_apart (f := Fd.GLB_LOAD_length) (g := Fd.GLB_LOAD_type) _ _ _ (by decide) rfl (by decide),
      fget_fset_same _ _ _ (by decide) (by decide)]
    exact Nat.mod_eq_of_lt ht
  · rw [loadWritten, fget_fset_same _ _ _ (by decide) (by decide)]
    exact Nat.mod_eq_of_lt hn

/-! ### A load is complete (03 R89 to R93, R98) -/

section Complete

variable {s : State} {j : LoadJob} (uncovered : Bool) (hl : s.dev.sys.load = some j)
include hl

theorem exec_loadComplete_failed (hr : j.result ≠ 0) :
    exec (.loadComplete uncovered) s = .next (s.settled (loadEnd s.dev j.result)) := by
  change execLoadComplete uncovered s = _
  simp [execLoadComplete, hl, hr]

theorem exec_loadComplete_firmware (hr : j.result = 0) (ht : j.typ = 1) :
    exec (.loadComplete uncovered) s = .next (s.settled (applyFirmware s.dev (loadImage s.dev j.length))) := by
  change execLoadComplete uncovered s = _
  simp [execLoadComplete, hl, hr, ht]

theorem exec_loadComplete_repair (hr : j.result = 0) (ht : j.typ = 2) : exec (.loadComplete uncovered) s = .next (s.settled
    (if uncovered = true then stageFail (loadEnd s.dev 8) 0x10 else applyRepair s.dev (loadImage s.dev j.length))) := by
  change execLoadComplete uncovered s = _
  simp [execLoadComplete, hl, hr, ht]

end Complete

theorem applyFirmware_staged {d : Dev} (img : List Byte) (h : d.sys.stage = 8) : applyFirmware d img =
    loadEnd (setSys d { d.sys with fwStaged := some (leAt img 8 4, Config.shake256 img) }) 0 := by
  simp [applyFirmware, h]

theorem applyFirmware_runs {d : Dev} (img : List Byte) (h : d.sys.stage ≠ 8) : applyFirmware d img =
    stageDone (loadEnd (setSys d { d.sys with fwRunning := leAt img 8 4, fwRunningMeas := Config.shake256 img }) 0) 2 := by
  simp [applyFirmware, h]

/-- The lanes that a repair record replaces are its ports' alone; the record is kept, and stage 3 is reached. -/
theorem applyRepair_takes (d : Dev) (img : List Byte) : (applyRepair d img).sys = { d.sys with
    repair := some { serial := leAt img 16 8, digest := Config.shake256 img, harvest := leAt img 24 20, entries := repairEntries img }
    load := none, loadResult := 0, stage := 3, stageCmd := none } ∧
    evSet (applyRepair d img) Fd.GLB_EVT_load_done = true ∧ evSet (applyRepair d img) Fd.GLB_EVT_stage_done = true := by
  refine ⟨?_, evSet_stageDone_kept 3 (evSet_loadEnd ..), evSet_stageDone ..⟩
  rw [applyRepair, (stageDone_keeps _ 3).1, loadEnd_sys, (onlyLinks_foldl _ ?lane _ _).keeps.1]
  case lane =>
    intro d e
    dsimp only
    split
    · exact onlyLinks_setPort d _ _
    · rfl
  rfl

/-! ### The calibration is delivered to the meter (17 R454, R455) -/

section Calibration

variable {s : State} {j : LoadJob} (hl : s.dev.sys.load = some j)
include hl

theorem exec_calDeliveryTimeout : exec .calDeliveryTimeout s = .next (s.settled
    (if j.tries = 0 ∨ up s.dev < j.sentAt + 50 * 65536 then s.dev
    else if j.tries = 1 then setSys s.dev { s.dev.sys with load := some { j with tries := 2, sentAt := up s.dev } }
    else stageFail (loadEnd s.dev 7) 0x30)) := by
  change execCalDeliveryTimeout s = _
  simp only [execCalDeliveryTimeout, lift_next, calSilent, hl]

/-- What the meter does with a record that it accepts: it waits for the next minute, unless it is in force already. -/
theorem exec_meterCalAnswer_accepts (ht : j.tries ≠ 0) (rail : s.dev.meter.rail = true)
    (ok : calFieldsOk (loadImage s.dev j.length) = true) : exec (.meterCalAnswer true) s = .next (s.settled (stageDone (loadEnd
      (setSys (setMeter s.dev { s.dev.meter with
        calNext := if s.dev.meter.cal = some (loadImage s.dev j.length) then none else some (loadImage s.dev j.length) })
        { s.dev.sys with calDigest := some (Config.shake256 (loadImage s.dev j.length)) }) 0) 5)) := by
  change execMeterCalAnswer true s = _
  simp only [execMeterCalAnswer, lift_next, hl, ht, rail, ok]
  rfl

theorem exec_meterCalAnswer_rejects (ht : j.tries ≠ 0) (rail : s.dev.meter.rail = true)
    (bad : calFieldsOk (loadImage s.dev j.length) = false) :
    exec (.meterCalAnswer false) s = .next (s.settled (loadEnd s.dev 3)) := by
  change execMeterCalAnswer false s = _
  simp [execMeterCalAnswer, hl, ht, rail, bad]

end Calibration

/-- Settles O12. That a record already in force cancels one that waits is log entry 45. -/
theorem loadsBeginAndEnd : Obligations.LoadsBeginAndEnd := by
  refine ⟨fun s n hp hn c typ hc => ⟨fun idle => ?_, fun busy => ?_⟩,
    fun s j uncovered hl => ⟨fun failed => ?_, fun ok ht first => ?_, fun ok ht later => ?_, fun ok ht => ?_, fun ok ht => ?_⟩,
    fun s j hl => ⟨fun once due => ?_, fun twice due => ?_, fun early => ?_, fun sent rail ok => ?_, fun sent rail bad => ?_⟩⟩
  · obtain ⟨run, small⟩ := exec_load s hn hc
    obtain ⟨htyp, hlength⟩ := fget_loadWritten s.dev small hn
    refine ⟨_, loadBegun s.dev typ n, exec_to run (glbLoad_idle typ n hp idle), rfl, rfl, rfl, rfl, rfl, ?_, htyp, hlength,
      by simp, by simp⟩
    rintro rfl
    exact loadCheck_reserved s.dev n (loadImage s.dev n)
  · obtain ⟨run, -⟩ := exec_load s hn hc
    exact exec_to run (glbLoad_busy typ n hp busy)
  · exact ⟨_, exec_loadComplete_failed uncovered hl failed, loadEnd_sys .., evSet_loadEnd ..⟩
  · exact ⟨_, exec_to (exec_loadComplete_firmware uncovered hl ok ht) (applyFirmware_runs _ (by omega)),
      by simp, by simp, by simp, by simp, by simp, evSet_stageDone_kept 2 (evSet_loadEnd ..), evSet_stageDone ..⟩
  · exact ⟨_, exec_to (exec_loadComplete_firmware uncovered hl ok ht) (applyFirmware_staged _ later),
      by simpa using later, by simp, by simp, by simp, by simp, evSet_loadEnd ..⟩
  · obtain ⟨sys, loaded, staged⟩ := applyRepair_takes s.dev (loadImage s.dev j.length)
    exact ⟨_, exec_to (exec_loadComplete_repair false hl ok ht) (if_neg (by decide)),
      by simp [sys], by simp [sys], by simp [sys], by simp [sys], loaded, staged⟩
  · exact ⟨_, exec_to (exec_loadComplete_repair true hl ok ht) (if_pos rfl),
      by simp, by simp, by simp, by simp, evSet_stageFail_kept _ (evSet_loadEnd ..), evSet_stageFail ..⟩
  · rw [exec_calDeliveryTimeout hl, if_neg (by omega), if_pos once]
  · have run := exec_calDeliveryTimeout hl
    rw [if_neg (by omega), if_neg (by omega)] at run
    exact ⟨_, run, by simp, by simp, by simp, by simp, by simp⟩
  · rw [exec_calDeliveryTimeout hl, if_pos (.inr early)]
  · exact ⟨_, exec_meterCalAnswer_accepts hl sent rail ok, by simp, by simp, by simp, by simp, by simp⟩
  · exact ⟨_, exec_meterCalAnswer_rejects hl sent rail bad, by simp, by simp, by simp, by simp⟩

end Sys2Proof.Machine
end

section
/-!
PROOFS. Stage commands (03 R81, R86 to R88, R94; 12 R343; 13 R370; 17 R467): how each of the four begins and how it ends.
-/

namespace Sys2Proof.Machine

/-! ### Masks, and ports that change one by one -/

@[simp] theorem mem_maskBits {m n q : Nat} : q ∈ maskBits m n ↔ q < n ∧ bitOf m q = true := by simp [maskBits]

theorem nodup_maskBits (m n : Nat) : (maskBits m n).Nodup := List.nodup_range.filter _

theorem portOf_congr {d e : Dev} (h : d.lnk = e.lnk) (p : Nat) : portOf d p = portOf e p := by rw [portOf, portOf, h]

/-- Where each step changes its own port and no other, every port of the list is changed once. -/
theorem portOf_foldl {g : Dev → Nat → Dev} {change : Port → Nat → Port}
    (each : ∀ d p q, portOf (g d p) q = if q = p then change (portOf d p) p else portOf d q) {l : List Nat} (once : l.Nodup) :
    ∀ d q, portOf (l.foldl g d) q = if q ∈ l then change (portOf d q) q else portOf d q := by
  induction l with
  | nil => intro d q; rfl
  | cons p t ih =>
    obtain ⟨notAgain, once⟩ := List.nodup_cons.1 once
    intro d q
    rw [List.foldl_cons, ih once, each]
    by_cases hq : q = p
    · subst hq
      simp [notAgain]
    · simp [hq]

/-! ### Order and overruns (03 R81, R86) -/

/-- A stage command that is taken: the target stands in `GLB_BOOT_CMD`, and the stage runs. -/
def stageBegun (d : Dev) (target : Nat) : Dev :=
  setSys (fset d Fd.GLB_BOOT_CMD_target target) { d.sys with stageCmd := some target }

section BootCmd

variable {d : Dev} (target before : Nat) (refused : Bool) (go : Dev → Dev) (hp : d.sys.portUp = true)
include hp

theorem bootCmd_busy (h : d.sys.stageCmd ≠ none) : bootCmd d target before refused go = postedOverrun d Rg.GLB_BOOT_CMD := by
  simp [bootCmd, hp, Option.isSome_iff_ne_none.2 h]

theorem bootCmd_ignored (idle : d.sys.stageCmd = none) (h : d.sys.stage ≠ before ∨ refused = true) :
    bootCmd d target before refused go = cfgIgnored (fset d Fd.GLB_BOOT_CMD_target target) Rg.GLB_BOOT_CMD := by
  rw [bootCmd, if_neg (by simp [hp]), if_neg (by simp [idle])]
  exact if_pos (by simpa using h)

theorem bootCmd_goes (idle : d.sys.stageCmd = none) (hs : d.sys.stage = before) (ok : refused = false) :
    bootCmd d target before refused go = go (stageBegun d target) := by
  rw [bootCmd, if_neg (by simp [hp]), if_neg (by simp [idle])]
  exact if_neg (by simp [hs, ok])

end BootCmd

/-- The four stage commands are one write, each with its target and the stage that it follows. -/
theorem exec_bootCmd (s : State) {c : Instr} {target before : Nat} (h : (c, target, before) ∈
    [(.bootCmdMem, 4, 3), (.bootCmdTime, 6, 5), (.bootCmdLinks, 7, 6), (.bootCmdReady, 8, 7)]) :
    ∃ refused go, exec c s = .next (s.settled (bootCmd s.dev target before refused go)) := by
  simp only [List.mem_cons, Prod.mk.injEq, List.not_mem_nil, or_false] at h
  rcases h with ⟨rfl, rfl, rfl⟩ | ⟨rfl, rfl, rfl⟩ | ⟨rfl, rfl, rfl⟩ | ⟨rfl, rfl, rfl⟩ <;> exact ⟨_, _, rfl⟩

@[simp] theorem stageBegun_frame (d : Dev) (target : Nat) :
    (stageBegun d target).sys = { d.sys with stageCmd := some target } ∧ (stageBegun d target).ctx = d.ctx ∧
      (stageBegun d target).mem = d.mem ∧ (stageBegun d target).fls = d.fls ∧ (stageBegun d target).lnk = d.lnk ∧
      (stageBegun d target).tc = d.tc ∧ (stageBegun d target).map = d.map := by
  simp [stageBegun]

@[simp] theorem portOf_stageBegun (d : Dev) (target q : Nat) : portOf (stageBegun d target) q = portOf d q := by simp [portOf]

/-- A stage command writes `GLB_BOOT_CMD` alone. -/
theorem fget_stageBegun (d : Dev) (target : Nat) {g : Fd} (h : regKey g.off 0 ≠ regKey Fd.GLB_BOOT_CMD_target.off 0) :
    fget (stageBegun d target) g = fget d g := fget_fset_elsewhere d target h

/-! ### Stage MEM begins and ends (03 R87, R88, R94) -/

theorem onlyLinks_flashInit (d : Dev) (c : Nat) : OnlyLinks d (flashInit d c) :=
  onlyLinks_foldl _ (fun d _ => onlyLinks_send d _) _ d

theorem onlyLinks_farTrain (d : Dev) (c : Nat) : OnlyLinks d (farTrain d c) :=
  onlyLinks_foldl _ (fun d _ => onlyLinks_send d _) _ d

theorem onlyLinks_trainAll {train : Dev → Nat → Dev} (each : ∀ d c, OnlyLinks d (train d c)) (parts : BitVec 32) (d : Dev) :
    OnlyLinks d (trainAll train parts d) := onlyLinks_foldl _ each _ d

/-- Far and flash channels of two masks train: messages go out. -/
theorem onlyLinks_channelsTrain (far flash : BitVec 32) (d : Dev) : OnlyLinks d (trainAll flashInit flash (trainAll farTrain far d)) :=
  (onlyLinks_trainAll onlyLinks_farTrain far d).trans (onlyLinks_trainAll onlyLinks_flashInit flash _)

theorem onlyReports_partRetired (ev : Fd) (unit : Nat) (d : Dev) (n : Nat) : OnlyReports d (partRetired ev unit d n) :=
  (onlyReports_raise d ev).trans (onlyReports_report _ _)

theorem onlyReports_partsRetired (ev : Fd) (unit : Nat) (l : List Nat) (d : Dev) : OnlyReports d (l.foldl (partRetired ev unit) d) :=
  onlyReports_foldl _ (onlyReports_partRetired ev unit) l d

theorem bootMem_trains {d : Dev} (hp : d.sys.portUp = true) (idle : d.sys.stageCmd = none) (hs : d.sys.stage = 3) :
    (bootMem d).sys = { d.sys with stageCmd := some 4 } ∧ (bootMem d).mem = d.mem ∧ (bootMem d).fls = d.fls ∧
      (bootMem d).ctx = d.ctx := by
  have only : OnlyLinks (stageBegun d 4) (bootMem d) := by
    rw [bootMem, bootCmd_goes 4 3 false _ hp idle hs rfl]
    exact onlyLinks_channelsTrain ..
  simp [only.keeps]

/-- After the near stacks (03 R87): those that failed twice are retired, the rest is in service, and channels that failed train again. -/
def nearSettled (d : Dev) (o : StageOutcome) : Dev :=
  trainAll flashInit (BitVec.ofNat 32 (flashFitted d) &&& o.flash1) (trainAll farTrain (BitVec.ofNat 32 (farFitted d) &&& o.far1)
    ((maskBits (o.near1 &&& o.near2).toNat 8).foldl (partRetired Fd.MEM_EVT_stack_retired 5)
      { d with mem := { d.mem with nearUp := ~~~(o.near1 &&& o.near2), nearRetired := o.near1 &&& o.near2 } }))

/-- The far channels that failed twice. -/
def farTwice (d : Dev) (o : StageOutcome) : BitVec 32 := o.far1 &&& o.far2 &&& BitVec.ofNat 32 (farFitted d)

/-- After the far channels. -/
def farSettled (d : Dev) (o : StageOutcome) : Dev :=
  (maskBits (farTwice d o).toNat 32).foldl (partRetired Fd.MEM_EVT_channel_retired 6)
    { nearSettled d o with mem := { (nearSettled d o).mem with
      farUp := BitVec.ofNat 32 (farFitted d) &&& ~~~farTwice d o, farRetired := farTwice d o
      farRetried := BitVec.ofNat 32 (farFitted d) &&& o.far1 &&& ~~~farTwice d o } }

/-- The flash channels that failed twice. -/
def flashTwice (d : Dev) (o : StageOutcome) : BitVec 32 := o.flash1 &&& o.flash2 &&& BitVec.ofNat 32 (flashFitted d)

/-- After the flash channels. -/
def flashSettled (d : Dev) (o : StageOutcome) : Dev :=
  (maskBits (flashTwice d o).toNat 32).foldl (partRetired Fd.FLS_EVT_channel_retired 8)
    { farSettled d o with fls := { (farSettled d o).fls with
      up := BitVec.ofNat 32 (flashFitted d) &&& ~~~flashTwice d o, retired := flashTwice d o
      retried := BitVec.ofNat 32 (flashFitted d) &&& o.flash1 &&& ~~~flashTwice d o } }

/-- Some channel of a kind is left, or none is fitted. -/
theorem not_allLost {fitted bad : BitVec 32} (h : fitted = 0 ∨ bad ≠ fitted) : ¬ (fitted ≠ 0 ∧ bad = fitted) :=
  fun ⟨there, all⟩ => h.elim there (· all)

/-- The checks of stage MEM in their order. -/
theorem memDone_eq (d : Dev) (o : StageOutcome) : memDone d o =
    if (maskBits (o.near1 &&& o.near2).toNat 8).length > 2 then stageFail d 0x20
    else if BitVec.ofNat 32 (farFitted d) ≠ 0 ∧ farTwice d o = BitVec.ofNat 32 (farFitted d) then stageFail (nearSettled d o) 0x21
    else if BitVec.ofNat 32 (flashFitted d) ≠ 0 ∧ flashTwice d o = BitVec.ofNat 32 (flashFitted d) then stageFail (farSettled d o) 0x22
    else stageDone (flashSettled d o) 4 := rfl

theorem nearSettled_frame (d : Dev) (o : StageOutcome) : (nearSettled d o).mem =
    { d.mem with nearUp := ~~~(o.near1 &&& o.near2), nearRetired := o.near1 &&& o.near2 } ∧ (nearSettled d o).ctx = d.ctx := by
  have only := (onlyReports_partsRetired Fd.MEM_EVT_stack_retired 5 (maskBits (o.near1 &&& o.near2).toNat 8) { d with mem := { d.mem with
    nearUp := ~~~(o.near1 &&& o.near2), nearRetired := o.near1 &&& o.near2 } }).trans (onlyLinks_channelsTrain
      (BitVec.ofNat 32 (farFitted d) &&& o.far1) (BitVec.ofNat 32 (flashFitted d) &&& o.flash1) _).reports
  obtain ⟨-, -, -, -, -, ctx, -, mem, -⟩ := only.keeps
  exact ⟨mem, ctx⟩

theorem farSettled_frame (d : Dev) (o : StageOutcome) : (farSettled d o).mem = { d.mem with
    nearUp := ~~~(o.near1 &&& o.near2), nearRetired := o.near1 &&& o.near2
    farUp := BitVec.ofNat 32 (farFitted d) &&& ~~~farTwice d o, farRetired := farTwice d o
    farRetried := BitVec.ofNat 32 (farFitted d) &&& o.far1 &&& ~~~farTwice d o } ∧ (farSettled d o).ctx = d.ctx := by
  obtain ⟨nearMem, nearCtx⟩ := nearSettled_frame d o
  obtain ⟨-, -, -, -, -, ctx, -, mem, -⟩ := (onlyReports_partsRetired Fd.MEM_EVT_channel_retired 6 (maskBits (farTwice d o).toNat 32)
    { nearSettled d o with mem := { (nearSettled d o).mem with
      farUp := BitVec.ofNat 32 (farFitted d) &&& ~~~farTwice d o, farRetired := farTwice d o
      farRetried := BitVec.ofNat 32 (farFitted d) &&& o.far1 &&& ~~~farTwice d o } }).keeps
  exact ⟨mem.trans (by rw [nearMem]), ctx.trans nearCtx⟩

theorem flashSettled_frame (d : Dev) (o : StageOutcome) : (flashSettled d o).mem = (farSettled d o).mem ∧
    (flashSettled d o).fls = { (farSettled d o).fls with
      up := BitVec.ofNat 32 (flashFitted d) &&& ~~~flashTwice d o, retired := flashTwice d o
      retried := BitVec.ofNat 32 (flashFitted d) &&& o.flash1 &&& ~~~flashTwice d o } ∧ (flashSettled d o).ctx = d.ctx := by
  obtain ⟨-, farCtx⟩ := farSettled_frame d o
  obtain ⟨-, -, -, -, -, ctx, -, mem, -, -, -, -, -, -, fls, -⟩ := (onlyReports_partsRetired Fd.FLS_EVT_channel_retired 8
    (maskBits (flashTwice d o).toNat 32) { farSettled d o with fls := { (farSettled d o).fls with
      up := BitVec.ofNat 32 (flashFitted d) &&& ~~~flashTwice d o, retired := flashTwice d o
      retried := BitVec.ofNat 32 (flashFitted d) &&& o.flash1 &&& ~~~flashTwice d o } }).keeps
  exact ⟨mem, fls, ctx.trans farCtx⟩

/-! ### Stage TIME begins and ends (12 R343; 17 R467) -/

/-- Every fitted port trains, and timecode is sought. -/
def portsTrain (d : Dev) : Dev :=
  (maskBits (portsFitted d) 16).foldl (fun d p => send (setPort d p { portOf d p with trained := true }) (.linkId p (ownDevice d)))
    (setTc d { d.tc with state := 1 })

theorem portsTrain_frame (d : Dev) : (portsTrain d).sys = d.sys ∧ (portsTrain d).tc = { d.tc with state := 1 } ∧
    (portsTrain d).ctx = d.ctx := by
  obtain ⟨sys, -, -, -, -, -, -, ctx, -, -, -, -, -, tc, -⟩ := (onlyLinks_foldl
    (fun d p => send (setPort d p { portOf d p with trained := true }) (.linkId p (ownDevice d))) (fun _ _ => rfl)
    (maskBits (portsFitted d) 16) (setTc d { d.tc with state := 1 })).keeps
  exact ⟨sys, tc, ctx⟩

theorem portOf_portsTrain (d : Dev) (q : Nat) : portOf (portsTrain d) q =
    if q ∈ maskBits (portsFitted d) 16 then { portOf d q with trained := true } else portOf d q :=
  portOf_foldl (g := fun d p => send (setPort d p { portOf d p with trained := true }) (.linkId p (ownDevice d)))
    (change := fun x _ => { x with trained := true }) (fun d p q => portOf_setPort d p q _) (nodup_maskBits ..) _ q

/-- What keeps stage TIME from beginning: a master whose first frame is no multiple of 1,000 (R467). -/
def firstFrameOff (d : Dev) : Bool := fbit d Fd.MTR_TC_CFG_role && fget d Fd.MTR_TC_INIT_frame % 1000 != 0

theorem bootTime_trains {d : Dev} (hp : d.sys.portUp = true) (idle : d.sys.stageCmd = none) (hs : d.sys.stage = 5)
    (ok : firstFrameOff d = false) : (bootTime d).sys = { d.sys with stageCmd := some 6 } ∧ (bootTime d).tc = { d.tc with state := 1 } ∧
      (bootTime d).ctx = d.ctx ∧ ∀ q, portOf (bootTime d) q =
        if q ∈ maskBits (portsFitted d) 16 then { portOf d q with trained := true } else portOf d q := by
  have goes : bootTime d = portsTrain (stageBegun d 6) := bootCmd_goes 6 5 _ _ hp idle hs ok
  have fitted : portsFitted (stageBegun d 6) = portsFitted d := fget_stageBegun d 6 (by decide)
  obtain ⟨sys, tc, ctx⟩ := portsTrain_frame (stageBegun d 6)
  rw [goes, sys, tc, ctx, ← fitted]
  exact ⟨by simp, by simp, by simp, fun q => by rw [portOf_portsTrain, portOf_stageBegun]⟩

theorem bootTime_refused {d : Dev} (hp : d.sys.portUp = true) (idle : d.sys.stageCmd = none) (off : firstFrameOff d = true) :
    bootTime d = cfgIgnored (fset d Fd.GLB_BOOT_CMD_target 6) Rg.GLB_BOOT_CMD := bootCmd_ignored 6 5 _ _ hp idle (.inr off)

/-- Fitted ports know their peers. -/
def peersKnown (d : Dev) (peers : List Nat) : Dev :=
  (maskBits (portsFitted d) 16).foldl (fun d p => setPort d p { portOf d p with peer := peers.getD p 0 }) d

theorem timeDone_unlocked {d : Dev} (o : StageOutcome) (h : d.tc.state ≠ 2) : timeDone d o = d := if_pos h

/-- Timecode is locked, and every fitted port has trained. -/
theorem timeDone_locked {d : Dev} {o : StageOutcome} (h : d.tc.state = 2) (ports : o.ports = 0) :
    timeDone d o = stageDone (peersKnown d o.peers) 6 := by
  simp [timeDone, h, ports, maskBit, bitOf, peersKnown]

theorem peersKnown_frame (d : Dev) (peers : List Nat) : (peersKnown d peers).sys = d.sys ∧ (peersKnown d peers).tc = d.tc ∧
    (peersKnown d peers).ctx = d.ctx := by
  obtain ⟨sys, -, -, -, -, -, -, ctx, -, -, -, -, -, tc, -⟩ := (onlyLinks_foldl
    (fun d p => setPort d p { portOf d p with peer := peers.getD p 0 }) (fun _ _ => rfl) (maskBits (portsFitted d) 16) d).keeps
  exact ⟨sys, tc, ctx⟩

theorem portOf_peersKnown (d : Dev) (peers : List Nat) (q : Nat) : portOf (peersKnown d peers) q =
    if q ∈ maskBits (portsFitted d) 16 then { portOf d q with peer := peers.getD q 0 } else portOf d q :=
  portOf_foldl (change := fun x p => { x with peer := peers.getD p 0 }) (fun d p q => portOf_setPort d p q _) (nodup_maskBits ..) d q

/-! ### Stage LINKS begins and ends (13 R370; 03 R87) -/

theorem onlyLinks_sendOnPort (d : Dev) (p proto : Nat) (b : List Byte) : OnlyLinks d (sendOnPort d p proto b) := by
  dsimp only [sendOnPort]
  split
  · rfl
  · exact ((onlyLinks_send d _).trans (onlyLinks_stampFrame _ _ _)).trans (onlyLinks_linkQueueOn _ _ _)

theorem onlyLinks_sendJoin (d : Dev) : OnlyLinks d (sendJoin d) := onlyLinks_foldl _ (fun d p => onlyLinks_sendOnPort d p _ _) _ d

/-- Ports that have trained and are not retired come into service. -/
def portsServe (d : Dev) : Dev :=
  ((List.range 16).filter (fun p => (portOf d p).trained && !(portOf d p).retired)).foldl
    (fun d p => setPort d p { portOf d p with up := true }) d

theorem onlyLinks_portsServe (d : Dev) : OnlyLinks d (portsServe d) := onlyLinks_foldl _ (fun d p => onlyLinks_setPort d p _) _ d

theorem portOf_portsServe (d : Dev) {q : Nat} (hq : q < 16) : portOf (portsServe d) q =
    { portOf d q with up := (portOf d q).up || ((portOf d q).trained && !(portOf d q).retired) } := by
  rw [portsServe, portOf_foldl (change := fun x _ => { x with up := true }) (fun d p q => portOf_setPort d p q _)
    (List.nodup_range.filter _)]
  cases serves : (portOf d q).trained && !(portOf d q).retired
  · rw [if_neg (by simp [serves]), Bool.or_false]
  · rw [if_pos (by simp [serves, hq]), Bool.or_true]

/-- The device as it looks for its domain. -/
def linksBegun (d : Dev) : Dev := setSys (portsServe (stageBegun d 7)) { (portsServe (stageBegun d 7)).sys with joinRetried := false }

theorem linksBegun_frame (d : Dev) : (linksBegun d).regs = (stageBegun d 7).regs ∧
    (linksBegun d).sys = { d.sys with stageCmd := some 7, joinRetried := false } ∧ (linksBegun d).map = d.map ∧
    (linksBegun d).ctx = d.ctx ∧ (linksBegun d).lnk = (portsServe (stageBegun d 7)).lnk := by
  obtain ⟨sys, -, regs, -, -, -, -, ctx, -, -, -, -, -, -, -, -, -, -, map, -⟩ := (onlyLinks_portsServe (stageBegun d 7)).keeps
  exact ⟨regs, by rw [linksBegun, setSys_sys, sys, (stageBegun_frame d 7).1], map, ctx, rfl⟩

theorem fget_linksBegun (d : Dev) {g : Fd} (h : regKey g.off 0 ≠ regKey Fd.GLB_BOOT_CMD_target.off 0) :
    fget (linksBegun d) g = fget d g := (fget_congr (linksBegun_frame d).1 g 0).trans (fget_stageBegun d 7 h)

theorem bootLinks_goes {d : Dev} (hp : d.sys.portUp = true) (idle : d.sys.stageCmd = none) (hs : d.sys.stage = 6)
    (known : d.sec.stmtLoaded = true) : bootLinks d =
      if fbit d Fd.MAP_CFG_found ∨ portsFitted d = 0 then foundDomain (linksBegun d) else sendJoin (linksBegun d) := by
  have goes : bootLinks d = if fbit (linksBegun d) Fd.MAP_CFG_found ∨ portsFitted (linksBegun d) = 0 then foundDomain (linksBegun d)
      else sendJoin (linksBegun d) := by
    exact bootCmd_goes 7 6 _ _ hp idle hs (by simp [known])
  rw [goes, fbit, portsFitted, fget_linksBegun d (by decide), fget_linksBegun d (by decide), fbit, portsFitted]

/-- The founder of a domain is its only member, at epoch 1. -/
theorem foundDomain_map (d : Dev) : (foundDomain d).map.member = true ∧ (foundDomain d).map.domEpoch = 1 ∧
    (foundDomain d).map.members = [ownDevice d] := ⟨rfl, rfl, rfl⟩

theorem linksDone_member {d : Dev} (o : StageOutcome) (h : d.map.member = true) : linksDone d o = stageDone d 7 := if_pos h

theorem linksDone_refused_once {d : Dev} {o : StageOutcome} (h : d.map.member = false) (refused : o.refused = true)
    (first : d.sys.joinRetried = false) (taken : o.refused2 = false) :
    linksDone d o = sendJoin (setSys d { d.sys with joinRetried := true }) := by
  simp [linksDone, h, refused, first, taken]

theorem linksDone_refused_twice {d : Dev} {o : StageOutcome} (h : d.map.member = false) (refused : o.refused = true)
    (again : d.sys.joinRetried = true ∨ o.refused2 = true) : ∃ e, linksDone d o = stageFail e 0x40 := by
  cases first : d.sys.joinRetried
  · have second := again.resolve_left (by simp [first])
    exact ⟨sendJoin (setSys d { d.sys with joinRetried := true }), by simp [linksDone, h, refused, first, second]⟩
  · exact ⟨d, by simp [linksDone, h, refused, first]⟩

/-! ### A stage command ends -/

@[simp] theorem portOf_stageDone (d : Dev) (n q : Nat) : portOf (stageDone d n) q = portOf d q := by simp [portOf]

/-- A command that fails a stage leaves stage FAILED and the reason. -/
theorem ends_failed {c : Instr} {s : State} (e : Dev) {r : Nat} (run : exec c s = .next (s.settled (stageFail e r))) :
    ∃ d, exec c s = .next (s.settled d) ∧ d.sys.stage = 15 ∧ d.sys.failReason = r := ⟨_, run, by simp, by simp⟩

theorem exec_stageComplete (s : State) (o : StageOutcome) : (s.dev.sys.stageCmd = some 4 →
      exec (.stageComplete o) s = .next (s.settled (memDone s.dev o))) ∧
    (s.dev.sys.stageCmd = some 6 → exec (.stageComplete o) s = .next (s.settled (timeDone s.dev o))) ∧
    (s.dev.sys.stageCmd = some 7 → exec (.stageComplete o) s = .next (s.settled (linksDone s.dev o))) := by
  refine ⟨fun h => ?_, fun h => ?_, fun h => ?_⟩ <;>
  · change execStageComplete o s = _
    simp only [execStageComplete, lift_next, h]

/-- Settles O13, by the order of stage commands and, for each of the four, the lemmas of how it begins and ends. -/
theorem stageCommandsFollowTheirOrderAndEnd : Obligations.StageCommandsFollowTheirOrderAndEnd := by
  refine ⟨fun s hp => ⟨fun c target before hc => ⟨fun busy => ?_, fun idle order => ?_⟩,
      fun idle => ⟨fun hs => ?_, fun hs first => ?_, fun hs master first => ?_, fun hs known => ?_, fun hs => ?_⟩⟩,
    fun s o near far fls farBad flsBad hnear hfar hfls hfarBad hflsBad => ⟨fun mem => ⟨fun lost => ?_,
      fun kept => ⟨fun fitted all => ?_, fun farLeft => ⟨fun fitted all => ?_, fun flashLeft => ?_⟩⟩⟩,
      fun time => ⟨fun locked ports => ?_, fun unlocked => ?_⟩,
      fun links => ⟨fun member => ?_, fun alone refused => ⟨fun first taken => ?_, fun again => ?_⟩⟩⟩⟩
  · obtain ⟨refused, go, run⟩ := exec_bootCmd s hc
    exact exec_to run (bootCmd_busy target before refused go hp busy)
  · obtain ⟨refused, go, run⟩ := exec_bootCmd s hc
    exact exec_to run (bootCmd_ignored target before refused go hp idle (.inl order))
  · exact ⟨_, rfl, bootMem_trains hp idle hs⟩
  · have ok : firstFrameOff s.dev = false := by rcases first with slave | whole <;> simp [firstFrameOff, *]
    obtain ⟨sys, tc, ctx, ports⟩ := bootTime_trains hp idle hs ok
    exact ⟨_, rfl, sys, tc, fun p hp hb => by simp [ports, hp, hb], fun p hp hb => by simp [ports, hb], ctx⟩
  · exact exec_to rfl (bootTime_refused hp idle (by simp [firstFrameOff, master, first]))
  · obtain ⟨-, sys, map, ctx, lnk⟩ := linksBegun_frame s.dev
    obtain ⟨member, epoch, members⟩ := foundDomain_map (linksBegun s.dev)
    refine ⟨linksBegun s.dev, exec_to rfl (bootLinks_goes hp idle hs known), sys, map, ctx,
      fun p hp => ?_, member, epoch, ?_⟩
    · rw [portOf_congr lnk, portOf_portsServe _ hp, portOf_stageBegun]
    · rw [members, ownDevice, fget_linksBegun s.dev (by decide)]
      rfl
  · have goes : bootReady s.dev = stageDone (stageBegun s.dev 8) 8 := bootCmd_goes 8 7 false _ hp idle hs rfl
    exact ⟨_, exec_to rfl goes, by simp, by simp, by simp⟩
  all_goals
    subst hnear hfar hfls hfarBad hflsBad
    obtain ⟨memEnds, timeEnds, linksEnds⟩ := exec_stageComplete s o
  · exact ends_failed s.dev (by rw [memEnds mem, memDone_eq, if_pos lost])
  · exact ends_failed (nearSettled s.dev o) (by rw [memEnds mem, memDone_eq, if_neg (Nat.not_lt.2 kept), if_pos ⟨fitted, all⟩])
  · exact ends_failed (farSettled s.dev o) (by rw [memEnds mem, memDone_eq, if_neg (Nat.not_lt.2 kept),
      if_neg (not_allLost (bad := farTwice s.dev o) farLeft), if_pos ⟨fitted, all⟩])
  · have run := memEnds mem
    rw [memDone_eq, if_neg (Nat.not_lt.2 kept), if_neg (not_allLost (bad := farTwice s.dev o) farLeft),
      if_neg (not_allLost (bad := flashTwice s.dev o) flashLeft)] at run
    obtain ⟨farMem, -⟩ := farSettled_frame s.dev o
    obtain ⟨flashMem, flashFls, ctx⟩ := flashSettled_frame s.dev o
    exact ⟨_, run, by simp, by simp, by simp [flashMem, farMem], by simp [flashMem, farMem], by simp [flashMem, farMem, farTwice],
      by simp [flashMem, farMem, farTwice], by simp [flashFls, flashTwice], by simp [flashFls, flashTwice],
      evSet_stageDone .., by simp [ctx]⟩
  · obtain ⟨-, tc, ctx⟩ := peersKnown_frame s.dev o.peers
    refine ⟨_, exec_to (timeEnds time) (timeDone_locked locked ports), by simp, by simp,
      fun p hp hb => ?_, by simp [tc], by simp [ctx]⟩
    rw [portOf_stageDone, portOf_peersKnown, if_pos (mem_maskBits.2 ⟨hp, hb⟩)]
  · exact exec_to (timeEnds time) (timeDone_unlocked o unlocked)
  · exact ⟨_, exec_to (linksEnds links) (linksDone_member o member), by simp, by simp, by simp, by simp⟩
  · obtain ⟨sys, -⟩ := (onlyLinks_sendJoin (setSys s.dev { s.dev.sys with joinRetried := true })).keeps
    exact ⟨_, rfl, exec_to (linksEnds links) (linksDone_refused_once alone refused first taken), sys⟩
  · obtain ⟨e, he⟩ := linksDone_refused_twice alone refused again
    exact ends_failed e (exec_to (linksEnds links) he)

end Sys2Proof.Machine
end

section
/-!
PROOFS. Firmware activation and resets of units (03 R99 to R104): what starts them, how a drain ends, and what is as it was.
-/

namespace Sys2Proof.Machine

/-! ### Firmware (03 R99, R100) -/

theorem exec_fwActivate {s : State} (key : BitVec 32) (hp : s.dev.sys.portUp = true) :
    exec (.fwActivate key) s = .next (s.settled (fwActivate s.dev key.toNat)) := by
  change execFwActivate key s = _
  simp only [execFwActivate, lift_next, hp, if_true]

theorem fwActivate_other (d : Dev) {key : Nat} (h : key ≠ 1) : fwActivate d key = unguard d Rg.GLB_FW_ACTIVATE_A := if_pos h

/-- The pair that was matched is gone when the device is looked at (R99). -/
theorem quiescent_unguard (d : Dev) (o : Nat) : quiescent (unguard d o) = quiescent d := rfl

theorem fwActivate_starts {d : Dev} (staged : d.sys.fwStaged.isSome = true) (quiet : quiescent d = true) : fwActivate d 1 =
    setSys (unguard d Rg.GLB_FW_ACTIVATE_A) { (unguard d Rg.GLB_FW_ACTIVATE_A).sys with fwActivating := true } := by
  rw [fwActivate, if_neg (by decide)]
  exact if_pos ⟨staged, quiet⟩

theorem fwActivate_refused {d : Dev} (h : d.sys.fwStaged = none ∨ quiescent d = false) :
    ∃ e, e.sys = (unguard d Rg.GLB_FW_ACTIVATE_A).sys ∧
      fwActivate d 1 = raise (setSys e { e.sys with loadResult := 6 }) Fd.GLB_EVT_load_done := by
  refine ⟨cfgIgnored (unguard d Rg.GLB_FW_ACTIVATE_A) Rg.GLB_FW_ACTIVATE_A, by simp, ?_⟩
  rw [fwActivate, if_neg (by decide)]
  refine if_neg fun ⟨staged, quiet⟩ => ?_
  rcases h with none | busy
  · simp [none] at staged
  · simp [quiescent_unguard, busy] at quiet

theorem exec_fwActivateDone {s : State} {version : Nat} {meas : BitVec 256} (run : s.dev.sys.fwActivating = true)
    (staged : s.dev.sys.fwStaged = some (version, meas)) : exec .fwActivateDone s = .next (s.settled (raise (redigest (setSys s.dev
      { s.dev.sys with fwRunning := version, fwRunningMeas := meas, fwStaged := none, fwActivating := false }))
      Fd.GLB_EVT_fw_activated)) := by
  change execFwActivateDone s = _
  simp only [execFwActivateDone, lift_next, run, staged]

@[simp] theorem redigest_frame (d : Dev) : (redigest d).sys = d.sys ∧ (redigest d).ctx = d.ctx := ⟨rfl, rfl⟩

/-! ### Units go into reset (03 R101, R102) -/

theorem exec_unitReset {s : State} (units : BitVec 32) (hp : s.dev.sys.portUp = true) :
    exec (.unitReset units) s = .next (s.settled (glbUnitReset s.dev units.toNat)) := by
  change execUnitReset units s = _
  simp only [execUnitReset, lift_next, hp, if_true]

theorem glbUnitReset_elsewhere {d : Dev} (units : Nat) (h : d.sys.stage ≠ 8) :
    glbUnitReset d units = cfgIgnored (unguard d Rg.GLB_UNIT_RESET_A) Rg.GLB_UNIT_RESET_A := if_pos h

theorem glbUnitReset_ready {d : Dev} (units : Nat) (h : d.sys.stage = 8) : glbUnitReset d units =
    ((maskBits units 9).filter (fun u => !unitInReset d u)).foldl unitStart (unguard d Rg.GLB_UNIT_RESET_A) := if_neg (not_not_intro h)

theorem unitInReset_unitStart (d : Dev) (u v : Nat) : unitInReset (unitStart d u) v = (unitInReset d v || v == u) := by
  by_cases h : v = u <;> simp [unitInReset, unitStart, h]

/-- The units of a list go into reset, and no other; sessions and events are as they were. -/
theorem foldl_unitStart (l : List Nat) : ∀ d : Dev, (l.foldl unitStart d).ctx = d.ctx ∧ (l.foldl unitStart d).evts = d.evts ∧
    ∀ v, unitInReset (l.foldl unitStart d) v = (unitInReset d v || l.contains v) := by
  induction l with
  | nil => intro d; simp
  | cons u t ih =>
    intro d
    obtain ⟨ctx, evts, reset⟩ := ih (unitStart d u)
    refine ⟨ctx, evts, fun v => ?_⟩
    rw [List.foldl_cons, reset, unitInReset_unitStart, List.contains_cons, Bool.or_assoc]

theorem unitInReset_glbUnitReset {d : Dev} (units : Nat) (h : d.sys.stage = 8) {v : Nat} (hv : v < 9) :
    unitInReset (glbUnitReset d units) v = (unitInReset d v || maskBit units v) := by
  obtain ⟨-, -, reset⟩ := foldl_unitStart ((maskBits units 9).filter (fun u => !unitInReset d u)) (unguard d Rg.GLB_UNIT_RESET_A)
  have asked : ((maskBits units 9).filter (fun u => !unitInReset d u)).contains v = (maskBit units v && !unitInReset d v) := by
    rw [Bool.eq_iff_iff]
    simp [hv, maskBit]
  rw [glbUnitReset_ready units h, reset, asked]
  change (unitInReset d v || _) = _
  cases unitInReset d v <;> simp

/-! ### Drains end (03 R103) -/

theorem look_unitDrained (d : Dev) (u : Nat) (r : UnitRst) :
    look (unitDrained d u r).sys.unitRst u = some { r with draining := false } := look_put_same ..

/-- Only the checkpoint engine has more to end than its drain (R101). -/
theorem unitDrained_eq {u : Nat} (d : Dev) (r : UnitRst) (h : u ≠ 5) :
    unitDrained d u r = setSys d { d.sys with unitRst := put d.sys.unitRst u { r with draining := false } } := by
  simp [unitDrained, h]

theorem withBit_set (m : BitVec 16) {u : Nat} (hu : u < 16) : bitOf (withBit m u true).toNat u = true := by
  rw [withBit, if_pos rfl, bitOf_toNat _ hu, BitVec.getElem_or, BitVec.getElem_eq_testBit_toNat (BitVec.ofNat 16 _),
    BitVec.toNat_ofNat, Nat.testBit_mod_two_pow, Nat.testBit_two_pow_self]
  simp [hu]

section Unit

variable {s : State} {u : Nat} {r : UnitRst} (hr : look s.dev.sys.unitRst u = some r)
include hr

theorem exec_unitResetEnd_drains (o : ResetOutcome) (drains : r.draining = true) (busy : unitBusy s.dev u = true) :
    exec (.unitResetEnd u o) s = .next (s.settled s.dev) := by
  change execUnitResetEnd u o s = _
  simp [execUnitResetEnd, hr, drains, busy]

/-- A reset that has drained ends, however its parts came out. -/
theorem exec_unitResetEnd_ends (o : ResetOutcome) (ended : r.draining = false ∨ unitBusy s.dev u = false) {d e : Dev}
    (he : e = unitRetrain (unitDrained s.dev u r) u o)
    (hd : d = raise (setSys e { e.sys with unitRst := del e.sys.unitRst u }) Fd.GLB_EVT_unit_reset_done) :
    exec (.unitResetEnd u o) s = .next (s.settled (if u = 6 then securityBack d else d)) := by
  have drained : ¬ (r.draining = true ∧ unitBusy s.dev u = true) := by
    rintro ⟨drains, busy⟩
    simp [drains, busy] at ended
  subst he hd
  change execUnitResetEnd u o s = _
  simp only [execUnitResetEnd, lift_next, hr, if_neg drained]

theorem exec_unitResetDrainTimeout_early (early : up s.dev < r.start + 16 * 65536) :
    exec (.unitResetDrainTimeout u) s = .next (s.settled s.dev) := by
  change Host.Outcome.next (s.settled (drainOver s.dev u)) = _
  simp [drainOver, hr, early]

theorem exec_unitResetDrainTimeout_drained (drains : r.draining = true) (due : r.start + 16 * 65536 ≤ up s.dev)
    (idle : unitBusy s.dev u = false) :
    exec (.unitResetDrainTimeout u) s = .next (s.settled (unitDrained s.dev u r)) := by
  change Host.Outcome.next (s.settled (drainOver s.dev u)) = _
  simp [drainOver, hr, drains, Nat.not_lt.2 due, idle]

theorem exec_unitResetDrainTimeout_forced (drains : r.draining = true) (due : r.start + 16 * 65536 ≤ up s.dev)
    (busy : unitBusy s.dev u = true) {e f : Dev} (he : e = unitDrained (endUnit s.dev u) u r)
    (hf : f = setSys e { e.sys with drainFailed := withBit e.sys.drainFailed u true }) :
    exec (.unitResetDrainTimeout u) s = .next (s.settled (if fget f Fd.FLT_CNT_reports = fget s.dev Fd.FLT_CNT_reports then
      (report f { cls := clsUnit, unit := faultUnit u, action := 1, status := stUnitFailed }).1 else f)) := by
  have due' : ¬ (!r.draining ∨ up s.dev < r.start + 16 * 65536) := by simp [drains, due]
  subst he hf
  change Host.Outcome.next (s.settled (drainOver s.dev u)) = _
  simp only [drainOver, hr, if_neg due', busy]
  rfl

end Unit

/-! ### What a reset retrains (03 R101) -/

/-- Where no part failed twice, the channels of a controller train and that is all. -/
theorem unitRetrain_ctx (d : Dev) (u : Nat) {o : ResetOutcome} (h : o.first &&& o.second = 0) : (unitRetrain d u o).ctx = d.ctx := by
  have noneTwice : ∀ on : BitVec 32, maskBits (on &&& 0).toNat 32 = [] := fun on => by simp [maskBits, bitOf]
  have trains : ∀ {train : Dev → Nat → Dev}, (∀ d c, OnlyLinks d (train d c)) → ∀ p q : BitVec 32,
      (trainAll train p (trainAll train q d)).ctx = d.ctx := fun each p q => by
    simp [((onlyLinks_trainAll each q d).trans (onlyLinks_trainAll each p _)).keeps]
  simp only [unitRetrain, h, noneTwice, List.foldl_nil]
  split
  · exact trains onlyLinks_flashInit _ _
  · split
    · exact trains onlyLinks_farTrain _ _
    · rw [if_neg (by simp [maskBit, bitOf])]

/-- Settles O15. That the record of a forced drain is of the unit alone only where no client's operation ended is log entry 46, and
that the end of a reset carries the outcome of its parts log entry 45. -/
theorem firmwareAndUnitResets : Obligations.FirmwareAndUnitResets := by
  refine ⟨fun s => ⟨fun hp staged quiet => ?_, fun hp refuse => ?_, fun key hp other => ?_, fun version meas activating staged => ?_⟩,
    fun s units u o hu => ⟨fun hp ready => ?_, fun hp elsewhere => ?_, fun r hr => ⟨fun drains busy => ?_, fun ended => ?_,
      fun _ early => ?_, fun drains due idle => ?_, fun drains due busy => ?_⟩⟩⟩
  · exact ⟨_, exec_to (exec_fwActivate 1 hp) (fwActivate_starts staged quiet), rfl, rfl, rfl, rfl⟩
  · obtain ⟨e, sys, refused⟩ := fwActivate_refused refuse
    exact ⟨_, exec_to (exec_fwActivate 1 hp) refused, by simp, evSet_raise .., by simp [sys], by simp [sys]⟩
  · rw [exec_fwActivate key hp, fwActivate_other s.dev fun h => other (BitVec.eq_of_toNat_eq h)]
  · exact ⟨_, exec_fwActivateDone activating staged, by simp, by simp, by simp, by simp, evSet_raise .., by simp⟩
  · obtain ⟨ctx, evts, -⟩ := foldl_unitStart ((maskBits units.toNat 9).filter (fun u => !unitInReset s.dev u))
      (unguard s.dev Rg.GLB_UNIT_RESET_A)
    rw [← glbUnitReset_ready _ ready] at ctx evts
    exact ⟨_, exec_unitReset units hp, ctx, evts, fun v hv => unitInReset_glbUnitReset units.toNat ready hv⟩
  · rw [exec_unitReset units hp, glbUnitReset_elsewhere _ elsewhere]
  · exact exec_unitResetEnd_drains hr o drains busy
  · refine ⟨_, _, exec_unitResetEnd_ends hr o ended rfl rfl, rfl, rfl, by simp [unitInReset], evSet_raise .., fun once notCkp => ?_⟩
    rw [unitDrained_eq s.dev r notCkp]
    simp [unitRetrain_ctx _ u once]
  · exact exec_unitResetDrainTimeout_early hr early
  · exact ⟨exec_unitResetDrainTimeout_drained hr drains due idle, look_unitDrained s.dev u r⟩
  · exact ⟨_, _, rfl, rfl, look_unitDrained (endUnit s.dev u) u r, withBit_set _ (by omega),
      exec_unitResetDrainTimeout_forced hr drains due busy rfl rfl⟩

end Sys2Proof.Machine
end

section
/-!
PROOFS. Results of the edge unit (04 R123, R124): every one of them is finite, and one that is rounded without overflow or underflow is
nearest to the exact value among the finite ones.
-/

namespace Sys2Proof.Machine

/-! ### Rounding a quotient to an integer -/

/-- The quotient rounded down, or one more, by which side of the middle the remainder lies on. -/
theorem rneDiv_cases (num den : Nat) :
    (rneDiv num den = num / den ∧ 2 * (num % den) ≤ den) ∨ (rneDiv num den = num / den + 1 ∧ den ≤ 2 * (num % den)) := by
  unfold rneDiv
  dsimp only
  split
  · exact .inl ⟨rfl, by omega⟩
  · split
    · exact .inr ⟨rfl, by omega⟩
    · rcases Nat.mod_two_eq_zero_or_one (num / den) with h | h <;> rw [h]
      · exact .inl ⟨rfl, by omega⟩
      · exact .inr ⟨rfl, by omega⟩

@[simp] theorem rneDiv_one (num : Nat) : rneDiv num 1 = num := by simp [rneDiv, Nat.mod_one]

/-- A common factor cancels. -/
theorem rneDiv_mul_right (num den : Nat) {c : Nat} (hc : 0 < c) : rneDiv (num * c) (den * c) = rneDiv num den := by
  have below : ∀ a b : Nat, 2 * (a * c) < b * c ↔ 2 * a < b := fun a b => by
    rw [← Nat.mul_assoc]; exact Nat.mul_lt_mul_right hc
  have above : ∀ a b : Nat, b * c < 2 * (a * c) ↔ b < 2 * a := fun a b => by
    rw [← Nat.mul_assoc]; exact Nat.mul_lt_mul_right hc
  simp only [rneDiv, Nat.mul_div_mul_right _ _ hc, Nat.mul_mod_mul_right, below, above]

theorem rneDiv_le {num den q : Nat} (h : num < q * den) : rneDiv num den ≤ q := by
  have floor : num / den < q := Nat.div_lt_of_lt_mul (by rwa [Nat.mul_comm])
  rcases rneDiv_cases num den with ⟨h, -⟩ | ⟨h, -⟩ <;> omega

theorem le_rneDiv {num den q : Nat} (hd : 0 < den) (h : q * den ≤ num) : q ≤ rneDiv num den := by
  have floor : q ≤ num / den := (Nat.le_div_iff_mul_le hd).2 h
  rcases rneDiv_cases num den with ⟨h, -⟩ | ⟨h, -⟩ <;> omega

/-- The rounded quotient is off by half a unit at most. -/
theorem abs_rneDiv_sub (num : Nat) {den : Nat} (hd : 0 < den) : 2 * |(rneDiv num den : ℤ) * den - num| ≤ den := by
  have division : (num : ℤ) = (num / den : ℕ) * den + (num % den : ℕ) := by exact_mod_cast (Nat.div_add_mod' num den).symm
  have up : ((num / den + 1 : ℕ) : ℤ) * den = (num / den : ℕ) * den + den := by push_cast; ring
  have small := Nat.mod_lt num hd
  rcases rneDiv_cases num den with ⟨h, hr⟩ | ⟨h, hr⟩
  · rw [h, division, abs_of_nonpos] <;> omega
  · rw [h, division, up, abs_of_nonneg] <;> omega

/-- No multiple of the divisor lies nearer than the rounded quotient. -/
theorem rneDiv_nearest (num : Nat) {den : Nat} (hd : 0 < den) (k : ℤ) : |(rneDiv num den : ℤ) * den - num| ≤ |k * den - num| := by
  rcases eq_or_ne k (rneDiv num den) with rfl | other
  · exact le_rfl
  · have apart : (den : ℤ) ≤ |k * den - rneDiv num den * den| := by
      rw [← sub_mul, abs_mul, Nat.abs_cast]
      exact le_mul_of_one_le_left (Int.natCast_nonneg den) (Int.one_le_abs (sub_ne_zero.2 other))
    have half := abs_rneDiv_sub num hd
    have tri := abs_sub_le (k * den) num (rneDiv num den * den : ℤ)
    rw [abs_sub_comm (num : ℤ)] at tri
    omega

/-! ### Rounding to 24 bits -/

theorem log2_bounds {n : Nat} (h : 0 < n) : 2 ^ n.log2 ≤ n ∧ n < 2 ^ (n.log2 + 1) :=
  ⟨Nat.log2_self_le (by omega), Nat.lt_log2_self⟩

/-- The significand has 24 bits. -/
theorem round24_lt (num : Nat) {den : Nat} (e : ℤ) (hn : 0 < num) (hd : 0 < den) : (round24 num den e).1 < 2 ^ 24 := by
  have fits : ∀ {n dn : Nat} {u v : ℤ}, n < 2 ^ 24 * dn →
      (if rneDiv n dn = 2 ^ 24 then ((2 ^ 23, u) : Nat × ℤ) else (rneDiv n dn, v)).1 < 2 ^ 24 := fun h => by
    have := rneDiv_le h
    split
    · norm_num
    · exact lt_of_le_of_ne this ‹_›
  unfold round24
  dsimp only
  generalize hs : (24 - (num.log2 : ℤ) + den.log2) = s
  by_cases small : num * 2 ^ s.toNat / (den * 2 ^ (-s).toNat) < 2 ^ 24
  · simp only [small, if_true]
    exact fits ((Nat.div_lt_iff_lt_mul (by positivity)).1 small)
  · simp only [small, if_false]
    refine fits ?_
    calc num * 2 ^ s.toNat < 2 ^ (num.log2 + 1) * 2 ^ s.toNat := by gcongr; exact (log2_bounds hn).2
      _ = 2 ^ 24 * (2 * (2 ^ den.log2 * 2 ^ (-s).toNat)) := by
        rw [← pow_add, ← pow_add, ← pow_succ', ← pow_add]
        congr 1
        omega
      _ ≤ 2 ^ 24 * (2 * (den * 2 ^ (-s).toNat)) := by gcongr; exact (log2_bounds hd).1

/-- An integer is rounded to 24 bits of its own length, exactly where it has no more; a carry into the 25th bit goes to the exponent. -/
theorem round24_int {num : Nat} (e : ℤ) (hn : 0 < num) {q : Nat}
    (hq : q = rneDiv (num * 2 ^ (23 - num.log2)) (2 ^ (num.log2 - 23))) :
    round24 num 1 e = if q = 2 ^ 24 then (2 ^ 23, e + num.log2 - 22) else (q, e + num.log2 - 23) := by
  have full : ¬ num * 2 ^ (24 - num.log2) / 2 ^ (num.log2 - 24) < 2 ^ 24 := by
    rw [Nat.div_lt_iff_lt_mul (by positivity), not_lt, ← pow_add]
    calc 2 ^ (24 + (num.log2 - 24)) = 2 ^ num.log2 * 2 ^ (24 - num.log2) := by rw [← pow_add]; congr 1; omega
      _ ≤ num * 2 ^ (24 - num.log2) := by gcongr; exact (log2_bounds hn).1
  have halved : rneDiv (num * 2 ^ (24 - num.log2)) (2 * 2 ^ (num.log2 - 24)) = q := by
    rcases le_or_gt num.log2 23 with h | h
    · rw [hq, show 24 - num.log2 = 23 - num.log2 + 1 by omega, show num.log2 - 24 = num.log2 - 23 by omega, pow_succ, ← mul_assoc,
        mul_comm 2]
      exact rneDiv_mul_right _ _ two_pos
    · rw [hq, ← pow_succ', show 24 - num.log2 = 23 - num.log2 by omega, show num.log2 - 24 + 1 = num.log2 - 23 by omega]
  have up : (24 - (num.log2 : ℤ)).toNat = 24 - num.log2 := by omega
  have down : (-(24 - (num.log2 : ℤ))).toNat = num.log2 - 24 := by omega
  have one : Nat.log2 1 = 0 := by decide
  simp only [round24, one, Nat.cast_zero, add_zero, one_mul, up, down, full, if_false, halved]
  split <;> congr 1 <;> omega

/-- The significand is at least 2^23, and worth the rounded quotient. -/
theorem round24_int_value {num m : Nat} {e u : ℤ} (hn : 0 < num) (h : round24 num 1 e = (m, u)) :
    2 ^ 23 ≤ m ∧ ∃ c : ℕ, u = e + num.log2 - 23 + c ∧ m * 2 ^ c = rneDiv (num * 2 ^ (23 - num.log2)) (2 ^ (num.log2 - 23)) := by
  have large : 2 ^ 23 ≤ rneDiv (num * 2 ^ (23 - num.log2)) (2 ^ (num.log2 - 23)) := by
    refine le_rneDiv (by positivity) ?_
    calc 2 ^ 23 * 2 ^ (num.log2 - 23) = 2 ^ num.log2 * 2 ^ (23 - num.log2) := by rw [← pow_add, ← pow_add]; congr 1; omega
      _ ≤ num * 2 ^ (23 - num.log2) := by gcongr; exact (log2_bounds hn).1
  rw [round24_int e hn rfl] at h
  split at h
  · rename_i carry
    cases h
    exact ⟨le_rfl, 1, by push_cast; ring, by rw [carry]; norm_num⟩
  · cases h
    exact ⟨large, 0, by simp, by simp⟩

/-! ### Results as words -/

section Word

variable (neg : Bool) {be f : Nat} (hbe : be < 255) (hf : f < 2 ^ 23)
include hbe hf

theorem toNat_word : (BitVec.ofNat 32 (b2n neg * 2 ^ 31 + be * 2 ^ 23 + f)).toNat = b2n neg * 2 ^ 31 + be * 2 ^ 23 + f := by
  rw [BitVec.toNat_ofNat, Nat.mod_eq_of_lt]
  cases neg <;> simp [b2n] <;> omega

theorem f32Exp_word : f32Exp (BitVec.ofNat 32 (b2n neg * 2 ^ 31 + be * 2 ^ 23 + f)) = be := by
  rw [f32Exp, toNat_word neg hbe hf, bitsOf]
  cases neg <;> simp [b2n] <;> omega

theorem f32Man_word : f32Man (BitVec.ofNat 32 (b2n neg * 2 ^ 31 + be * 2 ^ 23 + f)) = f := by
  rw [f32Man, toNat_word neg hbe hf, bitsOf]
  omega

theorem f32Neg_word : f32Neg (BitVec.ofNat 32 (b2n neg * 2 ^ 31 + be * 2 ^ 23 + f)) = neg := by
  rw [f32Neg, toNat_word neg hbe hf, bitOf]
  cases neg <;> simp [b2n] <;> omega

theorem nonFinite_word : nonFinite (BitVec.ofNat 32 (b2n neg * 2 ^ 31 + be * 2 ^ 23 + f)) = false := by
  simp only [nonFinite, f32Exp_word neg hbe hf, beq_eq_false_iff_ne]
  omega

/-- The value of a normal word. -/
theorem fixOf_word (normal : be ≠ 0) : fixOf (BitVec.ofNat 32 (b2n neg * 2 ^ 31 + be * 2 ^ 23 + f))
    = (if neg then -1 else 1) * ((2 ^ 23 + f) * 2 ^ (be - 1) : ℕ) := by
  have finite : ¬ (be = 0 ∨ be = 255) := by omega
  simp only [fixOf, f32Exp_word neg hbe hf, f32Man_word neg hbe hf, f32Neg_word neg hbe hf, if_neg finite]
  cases neg <;> simp

end Word

/-- A finite value has a significand of at most 24 bits. -/
theorem natAbs_fixOf (x : F32) : ∃ M k : Nat, M < 2 ^ 24 ∧ (fixOf x).natAbs = M * 2 ^ k := by
  have man : f32Man x < 2 ^ 23 := Nat.mod_lt _ (by norm_num)
  unfold fixOf
  dsimp only
  split
  · exact ⟨0, 0, by norm_num, by simp⟩
  · refine ⟨2 ^ 23 + f32Man x, f32Exp x - 1, by omega, ?_⟩
    have : (((2 : ℤ) ^ 23 + f32Man x) * 2 ^ (f32Exp x - 1)).natAbs = (2 ^ 23 + f32Man x) * 2 ^ (f32Exp x - 1) := by
      exact_mod_cast Int.natAbs_natCast ((2 ^ 23 + f32Man x) * 2 ^ (f32Exp x - 1))
    split
    · rw [Int.natAbs_neg, this]
    · exact this

/-! ### The FP32 result -/

theorem nonFinite_maxFinite (neg : Bool) : nonFinite (maxFinite neg) = false := by cases neg <;> decide

/-- The result by the exponent that rounding ends with (R124). -/
theorem roundTo_of_round24 {num den m : Nat} {e u : ℤ} (neg : Bool) (hn : num ≠ 0) (h : round24 num den e = (m, u)) :
    roundTo neg num den e = if u + 150 ≤ 0 then { v := 0, und := 1 } else if 255 ≤ u + 150 then { v := maxFinite neg, ovf := true }
      else W.pure (BitVec.ofNat 32 (b2n neg * 2 ^ 31 + (u + 150).toNat * 2 ^ 23 + (m - 2 ^ 23))) := by
  simp [roundTo, hn, h]

/-- No rounded result is an infinity or a NaN. -/
theorem nonFinite_roundTo (neg : Bool) (num : Nat) {den : Nat} (e : ℤ) (hd : 0 < den) : nonFinite (roundTo neg num den e).v = false := by
  rcases Nat.eq_zero_or_pos num with rfl | hn
  · simp [roundTo, W.pure]
    rfl
  obtain ⟨m, u, h⟩ : ∃ m u, round24 num den e = (m, u) := ⟨_, _, rfl⟩
  have significand : m < 2 ^ 24 := by simpa [h] using round24_lt num e hn hd
  rw [roundTo_of_round24 neg hn.ne' h]
  split
  · rfl
  · split
    · exact nonFinite_maxFinite neg
    · exact nonFinite_word neg (by omega) (by omega)

@[simp] theorem nonFinite_roundUnits (v e : ℤ) : nonFinite (roundUnits v e).v = false := nonFinite_roundTo _ _ e one_pos

@[simp] theorem roundUnits_zero (e : ℤ) : roundUnits 0 e = W.pure 0 := rfl

/-- An integer that is rounded without overflow or underflow becomes a multiple of the unit of its 24 bits, in units of `2^(-149 - t)`. -/
theorem fixOf_roundUnits {v : ℤ} {t : Nat} (hv : v ≠ 0) (ovf : (roundUnits v (-149 - t)).ovf = false)
    (und : (roundUnits v (-149 - t)).und = 0) : ∃ w : ℕ, 2 ^ (23 + w) ≤ v.natAbs ∧
      fixOf (roundUnits v (-149 - t)).v * 2 ^ t = v.sign * (rneDiv v.natAbs (2 ^ w) * 2 ^ w : ℕ) := by
  have hn : 0 < v.natAbs := Int.natAbs_pos.2 hv
  have sign : (if decide (v < 0) = true then -1 else 1 : ℤ) = v.sign := by
    rcases lt_or_gt_of_ne hv with h | h
    · simp [h, Int.sign_eq_neg_one_of_neg h]
    · simp [h.le, Int.sign_eq_one_of_pos h]
  obtain ⟨m, u, h⟩ : ∃ m u, round24 v.natAbs 1 (-149 - t) = (m, u) := ⟨_, _, rfl⟩
  have short : m < 2 ^ 24 := by simpa [h] using round24_lt v.natAbs (-149 - t) hn one_pos
  obtain ⟨large, c, hu, hm⟩ := round24_int_value hn h
  rw [roundUnits, roundTo_of_round24 _ hn.ne' h] at ovf und ⊢
  have normal : ¬ u + 150 ≤ 0 := fun under => by simp [under] at und
  have inside : ¬ 255 ≤ u + 150 := fun above => by simp [normal, above] at ovf
  -- an integer of fewer than 24 bits is not carried, and would underflow
  have long : 23 ≤ v.natAbs.log2 := by
    by_contra few
    have below : m * 2 ^ c < 2 ^ 24 := by
      rw [hm, show v.natAbs.log2 - 23 = 0 by omega, pow_zero, rneDiv_one]
      calc v.natAbs * 2 ^ (23 - v.natAbs.log2) < 2 ^ (v.natAbs.log2 + 1) * 2 ^ (23 - v.natAbs.log2) := by
            gcongr; exact (log2_bounds hn).2
        _ = 2 ^ 24 := by rw [← pow_add]; congr 1; omega
    have carried : c = 0 := by
      by_contra hc
      have : m * 2 ^ 1 ≤ m * 2 ^ c := by gcongr <;> omega
      omega
    omega
  obtain ⟨w, hw⟩ := Nat.exists_eq_add_of_le long
  rw [show 23 - v.natAbs.log2 = 0 by omega, show v.natAbs.log2 - 23 = w by omega, pow_zero, mul_one] at hm
  refine ⟨w, hw ▸ (log2_bounds hn).1, ?_⟩
  have unit : (u + 150).toNat - 1 + t = c + w := by omega
  rw [if_neg normal, if_neg inside, W.pure, fixOf_word _ (by omega) (by omega) (by omega), sign, mul_assoc]
  congr 1
  rw [← hm, Nat.add_sub_cancel' large]
  push_cast
  rw [mul_assoc, mul_assoc, ← pow_add, ← pow_add, unit]

/-- A significand of at most 24 bits times a power of two is not nearer to an integer of `24 + w` bits than the rounded multiple of
`2^w`: it is such a multiple itself, or lies below the least of them. -/
theorem rneDiv_nearest_short {n w M j : Nat} {z : ℤ} (large : 2 ^ (23 + w) ≤ n) (hM : M < 2 ^ 24) (hz : z.natAbs = M * 2 ^ j) :
    |((rneDiv n (2 ^ w) * 2 ^ w : ℕ) : ℤ) - n| ≤ |z - n| := by
  have nearest := rneDiv_nearest n (Nat.two_pow_pos w)
  push_cast at nearest ⊢
  rcases le_or_gt w j with h | h
  · obtain ⟨k, hk⟩ : (2 ^ w : ℤ) ∣ z := by
      rw [← Int.dvd_natAbs, hz]
      exact_mod_cast (pow_dvd_pow 2 h).mul_left M
    simpa [hk, mul_comm] using nearest k
  · have below : M * 2 ^ j ≤ 2 ^ (23 + w) := by
      calc M * 2 ^ j ≤ 2 ^ 24 * 2 ^ (w - 1) := by gcongr <;> omega
        _ = 2 ^ (23 + w) := by rw [← pow_add]; congr 1; omega
    have least := nearest (2 ^ 23)
    rw [← pow_add] at least
    have large' : (2 : ℤ) ^ (23 + w) ≤ n := by exact_mod_cast large
    have below' : z ≤ 2 ^ (23 + w) := by
      calc z ≤ z.natAbs := Int.le_natAbs
        _ ≤ 2 ^ (23 + w) := by rw [hz]; exact_mod_cast below
    rw [abs_of_nonpos (a := (2 : ℤ) ^ (23 + w) - n) (by linarith)] at least
    rw [abs_of_nonpos (a := z - n) (by linarith)]
    linarith

/-- Such a result is nearest to the integer among the finite FP32 values. -/
theorem roundUnits_nearest {v : ℤ} {t : Nat} (ovf : (roundUnits v (-149 - t)).ovf = false) (und : (roundUnits v (-149 - t)).und = 0)
    (z : F32) : |fixOf (roundUnits v (-149 - t)).v * 2 ^ t - v| ≤ |fixOf z * 2 ^ t - v| := by
  rcases eq_or_ne v 0 with rfl | hv
  · simp [W.pure, show fixOf 0#32 = 0 from rfl]
  obtain ⟨w, large, value⟩ := fixOf_roundUnits hv ovf und
  obtain ⟨M, k, hM, hz⟩ := natAbs_fixOf z
  have unsigned : ∀ a : ℤ, |v.sign * a - v| = |a - v.natAbs| ∧ |a - v| = |v.sign * a - v.natAbs| := fun a => by
    rcases lt_or_gt_of_ne hv with h | h
    · rw [Int.sign_eq_neg_one_of_neg h, abs_sub_comm, abs_sub_comm (-1 * a)]
      constructor <;> congr 1 <;> omega
    · rw [Int.sign_eq_one_of_pos h]
      constructor <;> congr 1 <;> omega
  rw [value, (unsigned _).1, (unsigned _).2]
  refine rneDiv_nearest_short large hM (j := k + t) ?_
  rw [Int.natAbs_mul, Int.natAbs_sign_of_ne_zero hv, Int.natAbs_mul, hz, one_mul, pow_add, ← mul_assoc]
  simp

/-! ### The operations -/

section Operations

variable (x y : F32)

@[simp] theorem nonFinite_fMul : nonFinite (fMul x y).v = false := nonFinite_roundUnits _ _
@[simp] theorem nonFinite_fAdd : nonFinite (fAdd x y).v = false := nonFinite_roundUnits _ _
@[simp] theorem nonFinite_fSub : nonFinite (fSub x y).v = false := nonFinite_roundUnits _ _
@[simp] theorem nonFinite_fMax : nonFinite (fMax x y).v = false := nonFinite_roundUnits _ _
@[simp] theorem nonFinite_fScale (acc : ℤ) : nonFinite (fScale y acc x).v = false := nonFinite_fAdd _ _

@[simp] theorem nonFinite_fRcp : nonFinite (fRcp x).v = false := by
  change nonFinite (if fixOf x = 0 then _ else _ : W F32).v = false
  split
  · decide
  · exact nonFinite_roundTo _ _ _ (Int.natAbs_pos.2 ‹_›)

@[simp] theorem nonFinite_fExp2 : nonFinite (fExp2 x).v = false := by
  change nonFinite (if 128 * 2 ^ 149 ≤ fixOf x then _ else _ : W F32).v = false
  split
  · decide
  · dsimp only
    split <;> exact nonFinite_roundTo _ _ _ one_pos

theorem natAbs_fQuant {lim : ℤ} (h : 0 ≤ lim) : ((fQuant lim x y).v.natAbs : ℤ) ≤ lim := by
  change ((max (-lim) (min lim (fRne (fMul x y).v))).natAbs : ℤ) ≤ lim
  omega

variable {x y} (hx : nonFinite x = false) (hy : nonFinite y = false)
include hx hy

theorem fAdd_of_finite : fAdd x y = roundUnits (fixOf x + fixOf y) (-149) := by simp [fAdd, W.bind, rd, hx, hy]
theorem fMul_of_finite : fMul x y = roundUnits (fixOf x * fixOf y) (-298) := by simp [fMul, W.bind, rd, hx, hy]

theorem fAdd_nearest (ovf : (fAdd x y).ovf = false) (und : (fAdd x y).und = 0) (z : F32) :
    |fixOf (fAdd x y).v - (fixOf x + fixOf y)| ≤ |fixOf z - (fixOf x + fixOf y)| := by
  rw [fAdd_of_finite hx hy] at ovf und ⊢
  simpa using roundUnits_nearest (t := 0) (by simpa using ovf) (by simpa using und) z

/-- The exact product is in units of `2^-298`. -/
theorem fMul_nearest (ovf : (fMul x y).ovf = false) (und : (fMul x y).und = 0) (z : F32) :
    |fixOf (fMul x y).v * 2 ^ 149 - fixOf x * fixOf y| ≤ |fixOf z * 2 ^ 149 - fixOf x * fixOf y| := by
  rw [fMul_of_finite hx hy] at ovf und ⊢
  exact roundUnits_nearest (t := 149) ovf und z

end Operations

/-- Settles O59. That the results are finite rests on `round24_lt`: a significand of 24 bits leaves the exponent as it was tested. That
they are nearest is `roundUnits_nearest`, in units of `2^-149` for a sum and of `2^-298` for a product. -/
theorem sumsAndProductsAreNearestAndFinite : Obligations.SumsAndProductsAreNearestAndFinite := by
  refine ⟨fun x y c acc => by simp, fun x y z hx hy _ => ⟨fun ovf und => ?_, fun ovf und => ?_, ?_, ?_⟩⟩
  · zify
    exact fAdd_nearest hx hy ovf und z
  · zify
    exact fMul_nearest hx hy ovf und z
  · exact_mod_cast natAbs_fQuant x y (lim := 127) (by norm_num)
  · exact_mod_cast natAbs_fQuant x y (lim := 7) (by norm_num)

end Sys2Proof.Machine
end

section
/-!
PROOFS. Events that stay (00 R9): sending a frame, making a report and asking for moves may record events and clear none.
-/

namespace Sys2Proof.Machine

/-- Every event that is set in `d` is set in `e`. -/
structure KeepsEvents (d e : Dev) : Prop where
  kept : ∀ {f : Fd}, evSet d f = true → evSet e f = true

namespace KeepsEvents

variable {a b c : Dev}

theorem of_evts (h : b.evts = a.evts) : KeepsEvents a b := ⟨fun hf => by simpa only [evSet, h] using hf⟩

theorem refl (a : Dev) : KeepsEvents a a := ⟨id⟩

theorem trans (h : KeepsEvents a b) (k : KeepsEvents b c) : KeepsEvents a c := ⟨fun hf => k.kept (h.kept hf)⟩

/-- Other fields may have been written before. -/
theorem after (h : KeepsEvents b c) (same : b.evts = a.evts := by rfl) : KeepsEvents a c := (of_evts same).trans h

end KeepsEvents

theorem keepsEvents_raise (d : Dev) (f : Fd) : KeepsEvents d (raise d f) := ⟨evSet_raise_kept f⟩

theorem keepsEvents_foldl {α : Type} {f : Dev → α → Dev} (each : ∀ d a, KeepsEvents d (f d a)) (l : List α) (d : Dev) :
    KeepsEvents d (l.foldl f d) :=
  List.foldlRecOn l f (.refl d) fun e h a _ => h.trans (each e a)

/-! ### Frames (12 R347 to R353) -/

@[simp] theorem setPort_evts (d : Dev) (p : Nat) (q : Port) : (setPort d p q).evts = d.evts := rfl

@[simp] theorem startFrame_evts (d : Dev) (p c : Nat) : (startFrame d p c).evts = d.evts := by
  dsimp only [startFrame]
  split
  · rfl
  · exact List.foldlRecOn (motive := fun e : Dev => e.evts = d.evts) _ _ rfl fun e h x _ => h

theorem egressBy_evts (n : Nat) : ∀ (d : Dev) (p : Nat), (egressBy n d p).evts = d.evts := by
  induction n with
  | zero => intro d p; rfl
  | succ n ih =>
    intro d p
    dsimp only [egressBy]
    split
    · rfl
    · split
      · rfl
      · rw [ih, startFrame_evts]

@[simp] theorem linkQueueOn_evts (d : Dev) (f : GFrame) (p : Nat) : (linkQueueOn d f p).evts = d.evts := egressBy_evts ..

theorem keepsEvents_linkQueue (d : Dev) (f : GFrame) : KeepsEvents d (linkQueue d f) := by
  unfold linkQueue
  split
  · exact keepsEvents_raise d _
  · exact .of_evts (linkQueueOn_evts d f _)

theorem keepsEvents_joinClass (d : Dev) (f : GFrame) (y : Bool) : KeepsEvents d (joinClass d f y) :=
  (keepsEvents_linkQueue _ _).after

theorem police_evts {d e : Dev} {c k n : Nat} {y : Bool} (h : police d c k n = some (y, e)) : e.evts = d.evts := by
  dsimp only [police] at h
  split at h
  · cases h; rfl
  · split at h
    · cases h
    · split at h <;> (cases h; rfl)

theorem keepsEvents_passHead (d : Dev) (c k : Nat) : KeepsEvents d (passHead d c k) := by
  dsimp only [passHead]
  split
  · exact .refl d
  · split
    · exact .of_evts rfl
    · rename_i passed
      have same := police_evts passed
      exact (keepsEvents_joinClass _ _ _).after same

theorem keepsEvents_sendFrame (d : Dev) (c p dst : Nat) (cl : Option Nat) (b : List Byte) : KeepsEvents d (sendFrame d c p dst cl b) := by
  dsimp only [sendFrame]
  split
  · exact .refl d
  · split
    · split
      · split
        · exact (keepsEvents_passHead _ _ _).after
        · exact .of_evts rfl
      · exact (keepsEvents_joinClass _ _ _).after
    · exact (keepsEvents_joinClass _ _ _).after

/-! ### Reports (18 R473 to R478) -/

theorem keepsEvents_fltWrite (d : Dev) (g : Nat) (r : Report) (b : Bool) : KeepsEvents d (fltWrite d g r b).1 := by
  have posted : ∀ a bs, (hostWrite d 0 a bs).evts = d.evts := fun a bs => by simp
  dsimp only [fltWrite]
  split
  · split
    · dsimp only
      exact (keepsEvents_raise _ _).after
    · dsimp only
      split
      · exact .of_evts (posted _ _)
      · exact (keepsEvents_raise _ _).after (posted _ _)
  · exact .of_evts rfl

theorem keepsEvents_fltOperator (d : Dev) (r : Report) (b : Bool) : KeepsEvents d (fltOperator d r b) := by
  dsimp only [fltOperator]
  refine (keepsEvents_fltWrite d 256 r b).trans ?_
  split
  · exact keepsEvents_sendFrame _ _ _ _ _ _
  · exact .refl _

theorem keepsEvents_fltDueOp (d : Dev) (k : Nat) : KeepsEvents d (fltDueOp d k) := by
  unfold fltDueOp
  split
  · split
    · dsimp only [fltCloseOp]
      split
      · exact .refl d
      · split
        · exact (keepsEvents_fltOperator _ _ _).after
        · exact .of_evts rfl
    · exact .refl d
  · exact .refl d

theorem keepsEvents_fltDueClient (d : Dev) (c : Nat) (r : Report) : KeepsEvents d (fltDueClient d c r) := by
  unfold fltDueClient
  split
  · split
    · dsimp only [fltCloseClient]
      split
      · exact (keepsEvents_fltWrite _ _ _ _).after
      · exact .of_evts rfl
    · exact .refl d
  · exact .refl d

theorem keepsEvents_fltOpView (d : Dev) (r : Report) : KeepsEvents d (fltOpView d r) := by
  refine (keepsEvents_fltDueOp d (fltKey r)).trans ?_
  dsimp only [fltOpView]
  split
  · exact .of_evts rfl
  · exact (keepsEvents_fltOperator _ _ _).trans (.of_evts rfl)

theorem keepsEvents_fltClientView (d : Dev) (c : Nat) (r : Report) : KeepsEvents d (fltClientView d c r).1 := by
  refine (keepsEvents_fltDueClient d c r).trans ?_
  dsimp only [fltClientView]
  split
  · exact .of_evts rfl
  · exact (keepsEvents_fltWrite _ _ _ _).trans (.of_evts rfl)

theorem keepsEvents_report (d : Dev) (r : Report) : KeepsEvents d (report d r).1 := by
  dsimp only [report, reportWith]
  have counted : KeepsEvents d (fbump d Fd.FLT_CNT_reports) := .of_evts rfl
  split
  · exact counted.trans (keepsEvents_fltOpView _ _)
  · exact (counted.trans (keepsEvents_fltOpView _ _)).trans (keepsEvents_fltClientView _ _ _)

/-! ### Allocation (10 R289, R291, R309) -/

theorem pickFree_evts (n : Nat) : ∀ (total : Nat) (used : List Nat) (d : Dev), (pickFree n total used d).2.evts = d.evts := by
  induction n with
  | zero => intros; rfl
  | succ n ih => intro total used d; exact ih total _ (freshBelow d (total - used.length)).2

theorem takeFar_evts (n : Nat) : ∀ (used : List Nat) (d : Dev), (takeFar n used d).2.evts = d.evts := by
  induction n with
  | zero => intros; rfl
  | succ n ih =>
    intro used d
    dsimp only [takeFar]
    split
    · rfl
    · exact ih _ _

theorem flsNext_evts (d : Dev) (taken : List Nat) (p : Nat) : (flsNext d taken p).2.evts = d.evts := by
  dsimp only [flsNext]
  split <;> split <;> rfl

theorem flsTake_evts {d e : Dev} {taken : List Nat} {f : Nat} (h : flsTake d taken = some (f, e)) : e.evts = d.evts := by
  dsimp only [flsTake] at h
  split at h
  · cases h
  · split at h
    · cases h
    · exact (congrArg (·.2.evts) (Option.some.inj h)).symm.trans (flsNext_evts _ _ _)

theorem flsTakes_evts (n : Nat) : ∀ {taken fs : List Nat} {d e : Dev}, flsTakes n taken d = some (fs, e) → e.evts = d.evts := by
  induction n with
  | zero => intro taken fs d e h; cases h; rfl
  | succ n ih =>
    intro taken fs d e h
    dsimp only [flsTakes] at h
    split at h
    · cases h
    · rename_i took
      obtain ⟨⟨gs, e'⟩, rest, same⟩ := Option.map_eq_some_iff.1 h
      cases same
      exact (ih rest).trans (flsTake_evts took)

theorem sealSlots_evts (fs : List Nat) : ∀ {extra : List Nat} {d e : Dev}, sealSlots fs extra d = some e → e.evts = d.evts := by
  induction fs with
  | nil => intro extra d e h; cases h; rfl
  | cons f fs ih =>
    intro extra d e h
    dsimp only [sealSlots] at h
    split at h
    · have same := ih h
      exact same
    · split at h
      · cases h
      · split at h
        · cases h
        · have same := ih h
          exact same.trans (takeFar_evts 1 (usedFrames d 2 ++ extra) d)

theorem takeT4_evts {n : Nat} {d e : Dev} {fs : List Nat} (h : takeT4 n d = some (fs, e)) : e.evts = d.evts := by
  dsimp only [takeT4] at h
  split at h
  · cases h
  · rename_i took
    obtain ⟨e', slots, same⟩ := Option.map_eq_some_iff.1 h
    cases same
    have taken := flsTakes_evts n took
    exact (sealSlots_evts _ slots).trans taken

theorem alloc_evts {d e : Dev} {c t n : Nat} {fs : List Nat} (h : alloc d c t n = .ok fs e) : e.evts = d.evts := by
  dsimp only [alloc] at h
  split at h
  · cases h; rfl
  split at h
  · cases h
  split at h
  · cases h
  split at h
  · cases h
  split at h
  · split at h
    · cases h
      exact takeT4_evts ‹_›
    · cases h
  split at h
  · cases h
  split at h
  · cases h
  split at h
  · cases h
  split at h
  · cases h
    exact takeFar_evts n _ d
  · cases h
    exact pickFree_evts n _ _ d

theorem allocMost_evts (d : Dev) (c t n : Nat) : (allocMost d c t n).2.evts = d.evts := by
  induction n with
  | zero => rfl
  | succ n ih =>
    dsimp only [allocMost]
    split
    · exact alloc_evts ‹_›
    · exact ih

/-! ### Moves that are asked for (10 R292, R307; 07 R193) -/

@[simp] theorem queueGroup_evts (d : Dev) (why : MoveWhy) (o : MoveOf) (ring flight : Nat) (answers lc : Bool) (tier : Nat)
    (ks fs : List Nat) : (queueGroup d why o ring flight answers lc tier ks fs).evts = d.evts := rfl

theorem bringHome_evts (d : Dev) (i : Nat) : (bringHome d i).evts = d.evts := by
  dsimp only [bringHome]
  simp only [apply_ite Dev.evts, queueGroup_evts, allocMost_evts, ite_self]

theorem askHint_evts (d : Dev) (i : Nat) : (askHint d i).evts = d.evts := by
  dsimp only [askHint]
  split
  · rfl
  · split
    · rfl
    · split
      · rename_i found
        simp [alloc_evts found]
      · rfl
      · simp

theorem askPrefetch_evts (d : Dev) (i : Nat) : (askPrefetch d i).evts = d.evts := by
  dsimp only [askPrefetch]
  split
  · rfl
  · split
    · rfl
    · split
      · rename_i found
        simp [alloc_evts found]
      · rfl
      · simp

/-- What is asked for is queued, and records no event. -/
theorem askMoves_evts (d : Dev) (i : Nat) : (askMoves d i).evts = d.evts := by
  rw [askMoves, askPrefetch_evts, askHint_evts, bringHome_evts]

end Sys2Proof.Machine
end

section
/-!
PROOFS. Matched guarded writes: an array is retired (04 R134), memory is erased (10 R309), a port is disabled (12 R365), and a slate is
discarded (14 R409).
-/

namespace Sys2Proof.Machine

/-! ### An array is retired (04 R134; 05 R157) -/

theorem exec_arrRetire {s : State} (v : BitVec 32) (hp : s.dev.sys.portUp = true) :
    exec (.arrRetire v) s = .next (s.settled (arrRetire s.dev v.toNat)) := by
  change execArrRetire v s = _
  simp only [execArrRetire, lift_next, hp, if_true]

theorem arrRetire_retires {d : Dev} {v : Nat} (numbered : v % 256 ≤ 143) (stage : 3 ≤ d.sys.stage) (alive : d.sys.stage ≠ 15)
    (serves : arrRetired d (v % 256) = false) : arrRetire d v = retireArray (unguard d Rg.ARR_RETIRE_A) (v % 256) 4 := by
  refine if_neg ?_
  rintro (h | h | h | h)
  · omega
  · exact Bool.false_ne_true (serves.symm.trans h)
  · exact absurd h (Nat.not_lt.2 stage)
  · exact alive h

theorem arrRetire_refused {d : Dev} {v : Nat}
    (refuse : 143 < v % 256 ∨ d.sys.stage < 3 ∨ d.sys.stage = 15 ∨ arrRetired d (v % 256) = true) :
    arrRetire d v = cfgIgnored (unguard d Rg.ARR_RETIRE_A) Rg.ARR_RETIRE_A := by
  refine if_pos ?_
  rcases refuse with h | h | h | h
  · exact .inl h
  · exact .inr (.inr (.inl h))
  · exact .inr (.inr (.inr h))
  · exact .inr (.inl h)

/-- Recipe slots become STRANDED or LOADED, and a report is made: arrays and sessions are as they were, and no event is cleared. -/
theorem strandCheck_keeps (d : Dev) :
    (strandCheck d).fab.arr = d.fab.arr ∧ (strandCheck d).ctx = d.ctx ∧ KeepsEvents d (strandCheck d) := by
  refine List.foldlRecOn (motive := fun e : Dev => e.fab.arr = d.fab.arr ∧ e.ctx = d.ctx ∧ KeepsEvents d e) _ _
    ⟨rfl, rfl, .refl d⟩ fun e ⟨arr, ctx, events⟩ n _ => ?_
  dsimp only
  split
  · refine ⟨?_, ?_, events.trans (keepsEvents_report _ _).after⟩
    · simp [arr, setRcp]
    · simp [ctx]
  · split
    · exact ⟨arr, ctx, events.trans (.of_evts rfl)⟩
    · exact ⟨arr, ctx, events⟩

/-- The device with an array marked as retired. -/
def arrMarked (d : Dev) (a cause : Nat) : Dev :=
  { d with fab := { d.fab with arr := mset d.fab.arr {} a { mget d.fab.arr {} a with retired := true, cause := cause } } }

/-- Where no entry runs, the retirement of an array is its mark, its event and a report; then the recipes are looked at again. -/
theorem retireArray_idle {d : Dev} {a : Nat} (cause : Nat) (serves : arrRetired d a = false) (idle : d.fab.teams = []) :
    retireArray d a cause = strandCheck
      (report (raise (arrMarked d a cause) Fd.ARR_EVT_array_retired) { cls := clsUnit, unit := 2, action := 2, inst := a }).1 := by
  rw [arrRetired] at serves
  have noTeams : ∀ e : Dev, e.fab.teams = [] → { e with fab := { e.fab with teams := [] } } = e := fun e h => by rw [← h]
  have teams : (report (raise (arrMarked d a cause) Fd.ARR_EVT_array_retired)
      { cls := clsUnit, unit := 2, action := 2, inst := a }).1.fab.teams = [] := by simpa [arrMarked] using idle
  simp only [retireArray, serves, Bool.false_eq_true, if_false]
  rw [← arrMarked, teams]
  simp only [List.map_nil, List.filter_nil, List.foldl_nil, noTeams _ teams]

/-- So it changes no session and, of the arrays, that one alone. -/
theorem retireArray_idle_keeps {d : Dev} {a : Nat} (cause : Nat) (serves : arrRetired d a = false) (idle : d.fab.teams = []) :
    (retireArray d a cause).fab.arr = (arrMarked d a cause).fab.arr ∧ (retireArray d a cause).ctx = d.ctx ∧
      evSet (retireArray d a cause) Fd.ARR_EVT_array_retired = true := by
  rw [retireArray_idle cause serves idle]
  obtain ⟨arr, ctx, events⟩ := strandCheck_keeps
    (report (raise (arrMarked d a cause) Fd.ARR_EVT_array_retired) { cls := clsUnit, unit := 2, action := 2, inst := a }).1
  refine ⟨by simp [arr], ?_, events.kept ((keepsEvents_report _ _).kept (evSet_raise _ _))⟩
  rw [ctx]
  simp [arrMarked]

/-! ### Memory is erased (10 R309) -/

/-- Each command that starts an erase names its target and channel. -/
theorem exec_eraseStart {s : State} {c : Instr} {target channel : Nat} (hc : channel < 32)
    (h : (c, target, channel) ∈ [(.eraseT0Free, 1, 0), (.eraseT1Free, 2, 0), (.eraseT2Free, 3, 0), (.eraseFarChannel channel, 4, channel)]) :
    exec c s = .next (s.settled (eraseStart s.dev target channel)) := by
  simp only [List.mem_cons, Prod.mk.injEq, List.not_mem_nil, or_false] at h
  rcases h with ⟨rfl, rfl, rfl⟩ | ⟨rfl, rfl, rfl⟩ | ⟨rfl, rfl, rfl⟩ | ⟨rfl, rfl, -⟩
  · rfl
  · rfl
  · rfl
  · change execEraseFarChannel channel s = _
    simp only [execEraseFarChannel, lift_next, hc, if_true]

/-- An erase starts while none runs, if a far channel that it names is out of service or holds no allocated frame. -/
theorem eraseStart_starts {d : Dev} {target channel : Nat} (hp : d.sys.portUp = true) (free : d.mem.erase = none)
    (empty : target = 4 → maskBit d.mem.farRetired.toNat channel = true ∨ ∀ f ∈ usedFrames d 2, f / 2 ^ 20 ≠ channel) :
    eraseStart d target channel = { unguard d Rg.MEM_ERASE_A with mem := { d.mem with erase := some (target, channel) } } := by
  have used : usedFrames (unguard d Rg.MEM_ERASE_A) 2 = usedFrames d 2 := rfl
  unfold eraseStart
  dsimp only
  rw [if_neg (by simp [hp]), if_neg]
  · simp
  · rintro (h | ⟨far, serves, held⟩)
    · simp [free] at h
    · rw [used] at held
      rcases empty far with h | h
      · simp [h] at serves
      · obtain ⟨f, hf, hc⟩ := List.any_eq_true.1 held
        exact h f hf (by simpa using hc)

theorem eraseStart_refused {d : Dev} {target channel : Nat} (hp : d.sys.portUp = true)
    (refuse : d.mem.erase ≠ none ∨ (target = 4 ∧ maskBit d.mem.farRetired.toNat channel = false ∧
      ∃ f ∈ usedFrames d 2, f / 2 ^ 20 = channel)) :
    eraseStart d target channel = cfgIgnored (unguard d Rg.MEM_ERASE_A) Rg.MEM_ERASE_A := by
  have used : usedFrames (unguard d Rg.MEM_ERASE_A) 2 = usedFrames d 2 := rfl
  unfold eraseStart
  dsimp only
  rw [if_neg (by simp [hp]), if_pos]
  rcases refuse with h | ⟨far, serves, f, hf, hc⟩
  · exact .inl (Option.isSome_iff_ne_none.2 h)
  · refine .inr ⟨far, by simp [serves], ?_⟩
    rw [used]
    exact List.any_eq_true.2 ⟨f, hf, beq_iff_eq.2 hc⟩

theorem exec_eraseDone {s : State} (runs : s.dev.mem.erase ≠ none) :
    exec .eraseDone s = .next (s.settled (devErased (eraseEnd s.dev))) := by
  have busy : s.dev.mem.erase.isNone = false := by
    rw [Option.isNone_eq_false_iff, Option.isSome_iff_ne_none]
    exact runs
  change execEraseDone s = _
  simp only [execEraseDone, lift_next, busy, Bool.false_eq_true, if_false]

theorem evSet_eraseEnd (d : Dev) : evSet (eraseEnd d) Fd.MEM_EVT_erase_done = true :=
  (keepsEvents_foldl (fun e i => .of_evts (askMoves_evts e i)) _ _).kept (evSet_raise _ _)

/-- Without a session there is no move to ask for, and without a device-mode restore none that goes on. -/
theorem devErased_eraseEnd_idle {d : Dev} (noSession : d.ctx.recs = []) (noRestore : d.ckp.devRestore = none) :
    devErased (eraseEnd d) = raise { d with mem := { d.mem with erase := none } } Fd.MEM_EVT_erase_done := by
  simp [devErased, eraseEnd, noSession, noRestore, keys]

/-! ### A port is disabled (12 R365) -/

theorem exec_lnkPortDisable {s : State} (v : BitVec 32) (hp : s.dev.sys.portUp = true) :
    exec (.lnkPortDisable v) s = .next (s.settled (portDisable s.dev v.toNat)) := by
  change execLnkPortDisable v s = _
  simp only [execLnkPortDisable, lift_next, hp, if_true]

theorem maskBits_two_pow : ∀ p < 16, maskBits (BitVec.ofNat 32 (2 ^ p)).toNat 16 = [p] := by decide

/-- One port in service is disabled: it retires at once unless a frame has started. -/
theorem portDisable_one {d : Dev} {p : Nat} (hp : p < 16) (serves : 7 ≤ d.sys.stage) (alive : d.sys.stage ≠ 15)
    (up : (portOf d p).up = true) (kept : (portOf d p).disabling = false) {e : Dev}
    (he : e = setPort (unguard d Rg.LNK_PORT_DISABLE_A) p { portOf d p with disabling := true }) :
    portDisable d (BitVec.ofNat 32 (2 ^ p)).toNat = if (portOf d p).inflight.isEmpty then retirePort e p else e := by
  have named : (maskBits (BitVec.ofNat 32 (2 ^ p)).toNat 16).filter
      (fun q => (portOf (unguard d Rg.LNK_PORT_DISABLE_A) q).up && !(portOf (unguard d Rg.LNK_PORT_DISABLE_A) q).disabling) = [p] := by
    rw [maskBits_two_pow p hp]
    refine List.filter_cons_of_pos (l := []) ?_
    change ((portOf d p).up && !(portOf d p).disabling) = true
    simp [up, kept]
  have taken : ¬ ((unguard d Rg.LNK_PORT_DISABLE_A).sys.stage < 7 ∨ (unguard d Rg.LNK_PORT_DISABLE_A).sys.stage = 15 ∨
      [p].isEmpty = true) := by simp [Nat.not_lt.2 serves, alive]
  subst he
  unfold portDisable
  dsimp only
  rw [named, if_neg taken, List.foldl_cons, List.foldl_nil, portOf_setPort_same]
  rfl

theorem portDisable_refused {d : Dev} {v : Nat} (refuse : d.sys.stage < 7 ∨ d.sys.stage = 15 ∨
      ∀ q, q < 16 → bitOf v q = true → (portOf d q).up = false ∨ (portOf d q).disabling = true) :
    portDisable d v = cfgIgnored (unguard d Rg.LNK_PORT_DISABLE_A) Rg.LNK_PORT_DISABLE_A := by
  refine if_pos ?_
  refine refuse.imp_right (Or.imp_right fun out => ?_)
  rw [List.isEmpty_iff, List.filter_eq_nil_iff]
  intro q hq
  obtain ⟨hq, named⟩ := mem_maskBits.1 hq
  change ¬ ((portOf d q).up && !(portOf d q).disabling) = true
  rcases out q hq named with h | h <;> simp [h]

/-! ### A slate is discarded (14 R409) -/

theorem exec_ckpDiscard {s : State} (n : Nat) (hp : s.dev.sys.portUp = true) :
    exec (.ckpDiscard n) s = .next (s.settled (ckpDiscard s.dev n)) := by
  change execCkpDiscard n s = _
  simp only [execCkpDiscard, lift_next, hp, if_true]

theorem ckpDiscard_discards {d : Dev} {n : Nat} (kept : d.ckp.kept.any (fun x => x.num == n) = true) (unread : slateRead d n = false)
    (calm : ckpState d ≠ 3) : ckpDiscard d n = discardSlate (unguard d Rg.CKP_DISCARD_A) n := by
  refine if_neg ?_
  rintro (h | h | h)
  · exact absurd h (by simpa using kept)
  · exact Bool.false_ne_true (unread.symm.trans h)
  · exact calm h

theorem ckpDiscard_refused {d : Dev} {n : Nat}
    (refuse : d.ckp.kept.any (fun x => x.num == n) = false ∨ slateRead d n = true ∨ ckpState d = 3) :
    ckpDiscard d n = cfgIgnored (unguard d Rg.CKP_DISCARD_A) Rg.CKP_DISCARD_A := by
  refine if_pos ?_
  exact refuse.imp_left fun h => by simpa using h

@[simp] theorem buddyForget_frame (d : Dev) (n : Nat) : (buddyForget d n).ckp = d.ckp ∧ (buddyForget d n).ctx = d.ctx ∧
    (buddyForget d n).sec = d.sec ∧ (buddyForget d n).txt = d.txt := by
  unfold buddyForget
  split <;> simp

/-- A discarded slate is retained no more; sessions, keys and tables are as they were. -/
theorem discardSlate_keeps (d : Dev) (n : Nat) : (discardSlate d n).ckp.kept = d.ckp.kept.filter (fun x => x.num != n) ∧
    (discardSlate d n).ctx = d.ctx ∧ (discardSlate d n).sec = d.sec ∧ (discardSlate d n).txt = d.txt := by
  simp [discardSlate, sweepCopies]

/-- Settles O16, each clause by the lemma of the write that takes effect or of the one that is refused. That the events of (1) and (2)
stay set over the report and over the moves that are asked for is `KeepsEvents`. -/
theorem guardedRetiresErasesAndDiscards : Obligations.GuardedRetiresErasesAndDiscards := by
  refine ⟨fun s v a hp ha => ⟨fun numbered stage alive serves => ?_, fun refuse => ?_⟩,
    fun s c target channel hp hc named => ⟨fun free empty => ?_, fun refuse => ?_, fun runs => ⟨exec_eraseDone runs, evSet_eraseEnd _,
      fun noSession noRestore => ?_⟩⟩,
    fun s p v hp up => ⟨fun stage alive serves kept hv => ⟨fun started => ?_, fun quiet => ?_⟩, fun refuse => ?_⟩,
    fun s n hp => ⟨fun kept unread calm => ?_, fun refuse => ?_⟩⟩
  · subst ha
    refine ⟨_, exec_to (exec_arrRetire v hp) (arrRetire_retires numbered stage alive serves), rfl, fun idle => ?_⟩
    obtain ⟨arr, ctx, event⟩ := retireArray_idle_keeps (d := unguard s.dev Rg.ARR_RETIRE_A) 4 serves idle
    exact ⟨by simp [arrRetired, arr, arrMarked], by simp [arr, arrMarked], fun b hb => by simp [arr, arrMarked, hb], event, ctx⟩
  · subst ha
    exact exec_to (exec_arrRetire v hp) (arrRetire_refused refuse)
  · exact ⟨_, exec_to (exec_eraseStart hc named) (eraseStart_starts hp free empty), rfl, rfl, rfl, rfl⟩
  · exact exec_to (exec_eraseStart hc named) (eraseStart_refused hp refuse)
  · exact ⟨_, exec_to (exec_eraseDone runs) (devErased_eraseEnd_idle noSession noRestore), by simp, by simp, by simp⟩
  · subst hv
    refine ⟨_, exec_to (exec_lnkPortDisable _ up) ((portDisable_one hp stage alive serves kept rfl).trans (if_neg (by simpa using started))),
      by simp, fun q hq => ?_, rfl, rfl⟩
    rw [portOf_setPort, if_neg hq]
    rfl
  · subst hv
    exact exec_to (exec_lnkPortDisable _ up) ((portDisable_one hp stage alive serves kept rfl).trans (if_pos (by simp [quiet])))
  · exact exec_to (exec_lnkPortDisable v up) (portDisable_refused refuse)
  · exact ⟨_, exec_to (exec_ckpDiscard n hp) (ckpDiscard_discards kept unread calm), rfl, discardSlate_keeps _ n⟩
  · exact exec_to (exec_ckpDiscard n hp) (ckpDiscard_refused refuse)

end Sys2Proof.Machine
end

section
/-!
PROOFS. Team runs (05 R138, R139, R156): a run is the composition of its parts, and every step of it keeps the members' writes inside
their working regions. All that an instruction can do to a store is `storeWrite`.
-/

namespace Sys2Proof.Machine

/-! ### A run and its parts (05 R139) -/

/-- A team that has halted, or that can never go on, stays as it is. -/
theorem teamRuns_of_ended {e : ArrEnv} {t : TeamRun} (ended : (teamHalted t || t.stuck) = true) (n : Nat) : teamRuns e n t = t := by
  cases n with
  | zero => rfl
  | succ n => exact if_pos ended

theorem teamRuns_add (e : ArrEnv) (n k : Nat) (t : TeamRun) : teamRuns e (n + k) t = teamRuns e k (teamRuns e n t) := by
  induction n generalizing t with
  | zero => rw [Nat.zero_add, teamRuns]
  | succ n ih =>
    by_cases ended : (teamHalted t || t.stuck) = true
    · simp only [teamRuns_of_ended ended]
    · rw [Nat.succ_add, teamRuns, teamRuns, if_neg ended, if_neg ended, ih]

/-! ### The working region of a member (05 R138) -/

/-- Every byte that a member's store holds lies inside a region of this size. -/
structure ArrCore.Inside (work : Nat) (c : ArrCore) : Prop where
  bound : ∀ b ∈ c.working, b.1 < work

theorem ArrCore.inside_iff {work : Nat} {c : ArrCore} : c.Inside work ↔ ∀ b ∈ c.working, b.1 < work := ⟨fun h => h.bound, .mk⟩

theorem storesInside_iff {e : ArrEnv} {t : TeamRun} : storesInside e t = true ↔ ∀ c ∈ t.cores, c.Inside e.work := by
  simp [storesInside, ArrCore.inside_iff]

theorem mem_of_mem_put {α : Type} {m : NMap α} {k : Nat} {v : α} {x : Nat × α} (h : x ∈ put m k v) : x = (k, v) ∨ x ∈ m := by
  induction m with
  | nil => exact .inl (List.mem_singleton.1 h)
  | cons y m ih =>
    obtain ⟨j, w⟩ := y
    simp only [put] at h
    split at h
    · exact List.mem_cons.1 h
    · split at h
      · exact (List.mem_cons.1 h).imp_right (List.mem_cons_of_mem _)
      · rcases List.mem_cons.1 h with rfl | h
        · exact .inr List.mem_cons_self
        · exact (ih h).imp_right (List.mem_cons_of_mem _)

theorem mem_of_mem_mset {α : Type} [DecidableEq α] {m : NMap α} {dflt v : α} {k : Nat} {x : Nat × α} (h : x ∈ mset m dflt k v) :
    x = (k, v) ∨ x ∈ m := by
  unfold mset at h
  split at h
  · exact .inr (List.mem_of_mem_filter h)
  · exact mem_of_mem_put h

section Member

variable {e : ArrEnv} {c : ArrCore}

/-- A member that is not told of is at reset: its region is empty. -/
theorem inside_getD {cores : List ArrCore} {work : Nat} (h : ∀ c ∈ cores, c.Inside work) (r : Nat) :
    (cores.getD r {}).Inside work := by
  rcases hr : cores[r]? with _ | c
  · rw [List.getD_eq_getElem?_getD, hr]
    exact ⟨fun b hb => absurd hb List.not_mem_nil⟩
  · rw [List.getD_eq_getElem?_getD, hr]
    exact h c (List.mem_of_getElem? hr)

theorem inside_of_working {d : ArrCore} {work : Nat} (same : d.working = c.working) (h : c.Inside work) : d.Inside work := ⟨same ▸ h.bound⟩

/-- A write takes each byte's offset modulo the size of the region. -/
theorem inside_storeWrite (hw : 0 < e.work) (h : c.Inside e.work) (a off : Nat) (bs : List Byte) :
    (storeWrite e c a off bs).Inside e.work := by
  refine ⟨List.foldlRecOn (motive := fun m : NMap Byte => ∀ b ∈ m, b.1 < e.work) _ _ h.bound fun m hm x _ b hb => ?_⟩
  rcases mem_of_mem_mset hb with rfl | hb
  · exact Nat.mod_lt _ hw
  · exact hm b hb

/-! ### Instructions that write no store -/

@[simp] theorem xset_working (c : ArrCore) (r : Nat) (v : BitVec 32) : (xset c r v).working = c.working := by
  unfold xset; split <;> rfl

@[simp] theorem pset_working (c : ArrCore) (r : Nat) (v : Bool) : (pset c r v).working = c.working := by
  unfold pset; split <;> rfl

@[simp] theorem advance_working (c : ArrCore) : (advance c).working = c.working := rfl

@[simp] theorem noteFlags_working {α : Type} (c : ArrCore) (row lane : Nat) (v : W α) : (noteFlags c row lane v).working = c.working := rfl

@[simp] theorem execCtrl_working (c : ArrCore) (w : Nat) : (execCtrl c w).working = c.working := by
  unfold execCtrl
  split
  · rfl
  · rfl
  · dsimp only
    split <;> rfl
  · rfl

@[simp] theorem execInt_working (e : ArrEnv) (role : Nat) (c : ArrCore) (w : Nat) : (execInt e role c w).working = c.working := by
  unfold execInt
  dsimp only
  rw [advance_working]
  split <;> simp

theorem foldl_noteFlags_working {α ι : Type} (row lane : ι → Nat) (v : ι → W α) (l : List ι) (c : ArrCore) :
    (l.foldl (fun c x => noteFlags c (row x) (lane x) (v x)) c).working = c.working :=
  List.foldlRecOn (motive := fun d : ArrCore => d.working = c.working) l _ rfl fun _ h _ _ => h

@[simp] theorem macShadow_working (e : ArrEnv) (c : ArrCore) (w b1 : Nat) : (macShadow e c w b1).working = c.working := by
  simp only [macShadow, foldl_noteFlags_working, apply_ite ArrCore.working, ite_self]

/-! ### Instructions that write the store -/

theorem inside_execMac (hw : 0 < e.work) (h : c.Inside e.work) (w : Nat) : (execMac e c w).Inside e.work :=
  inside_of_working (advance_working _) (inside_storeWrite hw (inside_of_working (macShadow_working ..) h) _ _ _)

theorem inside_edgeRow (hw : 0 < e.work) (w r : Nat) (h : c.Inside e.work) : (edgeRow e w r c).Inside e.work := by
  unfold edgeRow
  dsimp only
  split
  · have noted := fun l => inside_of_working (foldl_noteFlags_working (fun _ => r) (fun q : W Int × Nat => q.2) (fun q => q.1) l c) h
    split <;> exact List.foldlRecOn (motive := fun d : ArrCore => d.Inside e.work) _ _ (noted _) fun d hd k _ => inside_storeWrite hw hd ..
  · exact inside_storeWrite hw (inside_of_working (foldl_noteFlags_working (fun _ => r) (fun y : W F32 × Nat => y.2) (fun y => y.1) _ c) h) ..

theorem inside_execEdge (hw : 0 < e.work) (h : c.Inside e.work) (w : Nat) : (execEdge e c w).Inside e.work :=
  inside_of_working (advance_working _)
    (List.foldlRecOn (motive := fun d : ArrCore => d.Inside e.work) _ _ h fun _ hd r _ => inside_edgeRow hw w r hd)

theorem inside_execLane (hw : 0 < e.work) (h : c.Inside e.work) (w : Nat) : (execLane e c w).Inside e.work :=
  inside_of_working (advance_working _) (List.foldlRecOn (motive := fun d : ArrCore => d.Inside e.work) _ _ h
    fun _ hd _ _ => inside_storeWrite hw (inside_of_working (noteFlags_working ..) hd) ..)

theorem inside_moveBytes (hw : 0 < e.work) (h : c.Inside e.work) (out : NMap Byte) (w p q : Nat) :
    (moveBytes e c out w p q).1.Inside e.work := by
  unfold moveBytes
  dsimp only
  split
  · exact inside_storeWrite hw h ..
  · split <;> exact h

theorem inside_sendBytes (hw : 0 < e.work) {cores : List ArrCore} (h : ∀ c ∈ cores, c.Inside e.work) (c : ArrCore) (w p q : Nat) :
    ∀ d ∈ sendBytes e cores c w p q, d.Inside e.work := by
  intro d hd
  obtain ⟨x, hx, rfl⟩ := List.mem_map.1 hd
  have sent := h x.1 (List.fst_mem_of_mem_zipIdx hx)
  split
  · exact inside_storeWrite hw sent ..
  · exact sent

end Member

/-! ### One step of a team -/

section Team

variable {e : ArrEnv} {t : TeamRun}

theorem inside_set {c : ArrCore} (h : ∀ c ∈ t.cores, c.Inside e.work) (hc : c.Inside e.work) (r : Nat) :
    ∀ d ∈ t.cores.set r c, d.Inside e.work := by
  intro d hd
  rcases List.mem_or_eq_of_mem_set hd with hd | rfl
  · exact h d hd
  · exact hc

/-- The word of a member, by its class. -/
theorem coreStep_inside (hw : 0 < e.work) (h : ∀ c ∈ t.cores, c.Inside e.work) (r : Nat) :
    ∀ c ∈ (coreStep e t r).cores, c.Inside e.work := by
  have hc := inside_getD h r
  have unwritten : ∀ {d : ArrCore}, d.working = (t.cores.getD r {}).working → ∀ c ∈ (setCore t r d).cores, c.Inside e.work :=
    fun same => inside_set h (inside_of_working same hc) r
  unfold coreStep
  dsimp only
  split
  · exact unwritten rfl
  split
  · exact unwritten rfl
  split
  · exact unwritten (execCtrl_working ..)
  · exact unwritten (execInt_working ..)
  · exact inside_set h (inside_of_working (advance_working _) (inside_moveBytes hw hc ..)) r
  · exact inside_set h (inside_execMac hw hc _) r
  · exact inside_set h (inside_execEdge hw hc _) r
  · exact inside_set h (inside_execLane hw hc _) r
  · split
    · exact unwritten rfl
    · split <;> exact unwritten rfl
  · split
    · have sent := inside_sendBytes hw h (t.cores.getD r {}) (coreWord e (t.cores.getD r {})) (t.cores.getD r {}).progress
        (moveLen (coreWord e (t.cores.getD r {})))
      exact inside_set (t := { t with cores := sendBytes .. }) sent
        (inside_of_working (advance_working _) (inside_getD sent r)) r
    · exact unwritten rfl

theorem teamStep_inside (hw : 0 < e.work) (h : ∀ c ∈ t.cores, c.Inside e.work) : ∀ c ∈ (teamStep e t).cores, c.Inside e.work := by
  unfold teamStep
  split
  · exact coreStep_inside hw h _
  · dsimp only
    split
    · exact h
    · intro c hc
      obtain ⟨x, hx, rfl⟩ := List.mem_map.1 hc
      have waits := h x.1 (List.fst_mem_of_mem_zipIdx hx)
      split
      · exact inside_of_working (advance_working _) waits
      · exact waits

theorem teamRuns_inside (hw : 0 < e.work) (n : Nat) (h : ∀ c ∈ t.cores, c.Inside e.work) :
    ∀ c ∈ (teamRuns e n t).cores, c.Inside e.work := by
  induction n generalizing t with
  | zero => exact h
  | succ n ih =>
    rw [teamRuns]
    split
    · exact h
    · exact ih (teamStep_inside hw h)

end Team

/-- Settles O60, the bound of the stores by induction on the steps of the run. -/
theorem teamRunsComposeAndStayInTheStore : Obligations.TeamRunsComposeAndStayInTheStore :=
  ⟨teamRuns_add, fun _ n _ halted => teamRuns_of_ended (by rw [halted, Bool.true_or]) n,
    fun _ n _ hw h => storesInside_iff.2 (teamRuns_inside hw n (storesInside_iff.1 h))⟩

end Sys2Proof.Machine
end

section
/-!
PROOFS. Commands past their gates (02 R63), and object and recipe commands among them (05 R152; 10 R290 to R293; 11 R320).
-/

namespace Sys2Proof.Machine

/-! ### Past the gates of a command (02 R63; 03 R95) -/

theorem dispatchGated_pastGate {d : Dev} {r op : Nat} {f : Flight} (go : Dev → Flight → Dev) (h : pastGate d r op f) :
    dispatchGated d r op go = go d f := by
  obtain ⟨next, gate⟩ := h
  rw [dispatchGated, dispatch_atDispatch _ next, gate]

/-- A command of the gated groups is carried out once its descriptor is past its gates. -/
theorem exec_pastGate {c : Instr} {s : State} {r op : Nat} {f : Flight} {go : Dev → Flight → Dev}
    (run : exec c s = lift (fun d => dispatchGated d r op go) s) (h : pastGate s.dev r op f) :
    exec c s = .next (s.settled (go s.dev f)) := by
  rw [run, lift_next, dispatchGated_pastGate go h]

/-- The object commands on a session (10 R290) find the one that the descriptor names. -/
theorem withSess_live {d : Dev} {f : Flight} {i : Nat} (names : namesSession d f i)
    (live : (recOf d i).state ∈ [RecState.active, .paused]) (r : Nat) (go : Nat → Dev) :
    withSess d r f (sessCheck d (dSel f.desc) false false (fun r _ => liveSess r)) go = go i := by
  obtain ⟨⟨named, gen, uncut, home⟩, unwound⟩ := names
  have alive : liveSess (recOf d i) = true := by simpa [liveSess] using live
  have calm : (recOf d i).state ≠ .closed ∧ (recOf d i).state ≠ .expired ∧ (recOf d i).state ≠ .moving := by
    and_intros <;> (intro state; simp [liveSess, state] at alive)
  obtain ⟨opened, lives, still⟩ := calm
  have checked : sessCheck d (dSel f.desc) false false (fun r _ => liveSess r) = .ok i := by
    simp only [sessCheck, ← named, ← gen]
    simp [opened, lives, still, uncut, home, unwound, alive]
  rw [checked, withSess]

/-! ### Hints (10 R292) -/

section

variable {s : State} {d : Dev} {r : Nat} {f : Flight}

theorem exec_objPlaceHint (h : pastGate s.dev r 0x21 f) : exec (.objPlaceHint r) s = .next (s.settled (placeHint s.dev r f)) :=
  exec_pastGate (go := (placeHint · r ·)) rfl h

theorem placeHint_table (table : db f.desc 24 1 = 0x10) (own : tblForeign d (dSel f.desc % 64) (sqClient d r) = false) :
    placeHint d r f = finish (setTbl d (dSel f.desc % 64) { tblOf d (dSel f.desc % 64) with
      hint := if db f.desc 25 1 = 0xFF then none else some (db f.desc 25 1) }) r f.id stOK 0 := by
  simp [placeHint, table, own]

theorem placeHint_session {i : Nat} (session : db f.desc 24 1 ≠ 0x10) (names : namesSession d f i)
    (live : (recOf d i).state ∈ [RecState.active, .paused]) :
    placeHint d r f = finish (updRec d i (fun x => { x with
      hint := if db f.desc 25 1 = 0xFF then none else some (db f.desc 25 1, db f.desc 28 4) })) r f.id stOK 0 := by
  rw [placeHint, if_neg session, withSess_live names live]

/-! ### Freeing (10 R293; 11 R320) -/

theorem exec_objFree (h : pastGate s.dev r 0x22 f) : exec (.objFree r) s = .next (s.settled (objFree s.dev r f)) :=
  exec_pastGate (go := (objFree · r ·)) rfl h

/-- The staged version of a table, by its number; none shows 0. -/
def stagedNum (t : Tbl) : Nat := match t.staged with | some v => v.num | none => 0

theorem objFree_table (table : db f.desc 24 1 = 0x10) {n : Nat} (hn : n = dSel f.desc % 64)
    (own : tblForeign d n (sqClient d r) = false) :
    objFree d r f =
      if (tblOf d n).staged = none ∨ stagedNum (tblOf d n) ≠ db f.desc 36 4 then finish d r f.id stStaleVersion (stagedNum (tblOf d n))
      else if d.dly.groups.any (fun g => g.obj == .table n (stagedNum (tblOf d n))) then d
      else finish (setTbl d n { tblOf d n with staged := none }) r f.id stOK 0 := by
  subst hn
  simp only [objFree, table, own, if_true, Bool.false_eq_true, if_false, Option.isNone_iff_eq_none]
  rfl

section Table

variable {n : Nat} (table : db f.desc 24 1 = 0x10) (hn : n = dSel f.desc % 64) (own : tblForeign d n (sqClient d r) = false)

include table hn own

theorem objFree_staged (staged : (tblOf d n).staged ≠ none) (same : stagedNum (tblOf d n) = db f.desc 36 4)
    (idle : ∀ g ∈ d.dly.groups, g.obj ≠ .table n (stagedNum (tblOf d n))) :
    objFree d r f = finish (setTbl d n { tblOf d n with staged := none }) r f.id stOK 0 := by
  rw [objFree_table table hn own, if_neg (by simp [staged, same]), if_neg (by simpa using idle)]

theorem objFree_moves (staged : (tblOf d n).staged ≠ none) (same : stagedNum (tblOf d n) = db f.desc 36 4)
    {g : MoveGrp} (hg : g ∈ d.dly.groups) (moves : g.obj = .table n (stagedNum (tblOf d n))) : objFree d r f = d := by
  rw [objFree_table table hn own, if_neg (by simp [staged, same]), if_pos (List.any_eq_true.2 ⟨g, hg, by simp [moves]⟩)]

theorem objFree_stale (stale : (tblOf d n).staged = none ∨ stagedNum (tblOf d n) ≠ db f.desc 36 4) :
    objFree d r f = finish d r f.id stStaleVersion (stagedNum (tblOf d n)) := by
  rw [objFree_table table hn own, if_pos stale]

end Table

theorem objFree_index (index : db f.desc 24 1 = 0x20) {n : Nat} (hn : n = dSel f.desc % 256)
    (own : idxForeign d n (sqClient d r) = false) (built : (idxOf d n).state ≠ 0) (unnamed : idxNamed d n r f.id = false) :
    objFree d r f = finish (setIdx d n {}) r f.id stOK 0 := by
  subst hn
  simp [objFree, index, own, built, unnamed]

theorem objFree_session {i : Nat} (noTable : db f.desc 24 1 ≠ 0x10) (noIndex : db f.desc 24 1 ≠ 0x20) (names : namesSession d f i)
    (live : (recOf d i).state ∈ [RecState.active, .paused]) :
    objFree d r f = boundary (finish (addEdit d i (.tune ((recOf d i).kv.map (fun _ => {})))) r f.id stOK 0) i := by
  rw [objFree, if_neg noTable, if_neg noIndex, withSess_live names live]

/-! ### Moving (10 R290, R291) -/

theorem exec_objMove (h : pastGate s.dev r 0x20 f) : exec (.objMove r) s = .next (s.settled (objMove s.dev r f)) :=
  exec_pastGate (go := (objMove · r ·)) rfl h

/-- The pages of an object are moved, unless one of them moves already. -/
def moveIdle (d : Dev) (r : Nat) (f : Flight) (o : MoveOf) (pages : NMap Loc) (ks : List Nat) : Dev :=
  if ks.any (fun k => (movingPages d o).contains k) then d
  else moveObject d r f o (db f.desc 25 1) (outside pages (db f.desc 25 1) ks)

theorem moveIdle_moves {o : MoveOf} {ks : List Nat} (pages : NMap Loc) (idle : ∀ k ∈ ks, k ∉ movingPages d o) :
    moveIdle d r f o pages ks = moveObject d r f o (db f.desc 25 1) (outside pages (db f.desc 25 1) ks) :=
  if_neg (by simpa using idle)

theorem moveIdle_waits {o : MoveOf} {ks : List Nat} {k : Nat} (pages : NMap Loc) (named : k ∈ ks) (moves : k ∈ movingPages d o) :
    moveIdle d r f o pages ks = d :=
  if_pos (List.any_eq_true.2 ⟨k, named, by simpa using moves⟩)

theorem objMove_table (table : db f.desc 24 1 = 0x10) {n : Nat} (hn : n = dSel f.desc % 64)
    (own : tblForeign d n (sqClient d r) = false) {v : TVer} (named : namedVersion (tblOf d n) (db f.desc 36 4) = some v) :
    objMove d r f = moveIdle d r f (.table n v.num) v.pages (keys v.pages) := by
  subst hn
  simp only [objMove, table, own, named, if_true, Bool.false_eq_true, if_false]
  rfl

theorem objMove_index (index : db f.desc 24 1 = 0x20) {n : Nat} (hn : n = dSel f.desc % 256)
    (own : idxForeign d n (sqClient d r) = false) (built : (idxOf d n).state ≠ 0) (unfolding : (idxOf d n).folding = none) :
    objMove d r f = moveIdle d r f (.index n) (idxOf d n).base.pages (keys (idxOf d n).base.pages) := by
  subst hn
  simp [objMove, moveIdle, index, own, built, unfolding]

theorem objMove_session {i : Nat} (noTable : db f.desc 24 1 ≠ 0x10) (noIndex : db f.desc 24 1 ≠ 0x20) (names : namesSession d f i)
    (live : (recOf d i).state ∈ [RecState.active, .paused]) :
    objMove d r f = moveIdle d r f (.session i) (recOf d i).pages (namedPages d i f.desc) := by
  rw [objMove, if_neg noTable, if_neg noIndex, withSess_live names live]
  rfl

/-! ### Objects of another client (10 R290; 11 R320) -/

/-- A table or an index of another client that a descriptor names. -/
def namesForeign (d : Dev) (r n : Nat) (f : Flight) : Prop :=
  (db f.desc 24 1 = 0x10 ∧ n = dSel f.desc % 64 ∧ tblForeign d n (sqClient d r) = true) ∨
  (db f.desc 24 1 = 0x20 ∧ n = dSel f.desc % 256 ∧ idxForeign d n (sqClient d r) = true)

theorem objMove_foreign {n : Nat} (h : namesForeign d r n f) : objMove d r f = finish d r f.id stSecurity 0 := by
  rcases h with ⟨table, rfl, other⟩ | ⟨index, rfl, other⟩
  · simp [objMove, table, other]
  · simp [objMove, index, other]

theorem objFree_foreign {n : Nat} (h : namesForeign d r n f) : objFree d r f = finish d r f.id stSecurity 0 := by
  rcases h with ⟨table, rfl, other⟩ | ⟨index, rfl, other⟩
  · simp [objFree, table, other]
  · simp [objFree, index, other]

/-! ### Unloading a recipe (05 R152) -/

/-- The slot of a recipe is UNLOADING, and the command that unloads it is told. -/
def unloading (d : Dev) (r n : Nat) (f : Flight) : Dev :=
  setRcp (dispatched d r f.id) n { rcpOf d n with state := .unloading, unloader := some (r, f.id) }

theorem exec_recipeUnload (h : pastGate s.dev r 0x71 f) {n : Nat} (hn : n = dSel f.desc % 64) :
    exec (.recipeUnload r) s = .next (s.settled (
      if !rcpServes (rcpOf s.dev n) ∨ rcpBound s.dev n ≠ 0 then finish s.dev r f.id stStateConflict (rcpOf s.dev n).state.code
      else unloadDone (unloading s.dev r n f) n)) := by
  subst hn
  change execRecipeUnload r s = _
  rw [execRecipeUnload, lift_next, dispatchGated_pastGate _ h]
  rfl

/-- Whether an entry of the recipe runs is not changed by it. -/
theorem rcpRuns_unloading (d : Dev) (r n : Nat) (f : Flight) : rcpRuns (unloading d r n f) n = rcpRuns d n := rfl

/-- The slot and its key after the last entry has halted. -/
def unloaded (d : Dev) (n : Nat) : Dev :=
  let e := setRcp d n { gen := (rcpOf d n).gen }
  { e with sec := { e.sec with weight := del e.sec.weight n } }

theorem unloadDone_idle (idle : rcpRuns d n = false) :
    unloadDone (unloading d r n f) n = finish (redigest (unloaded (unloading d r n f) n)) r f.id stOK 0 := by
  have slot : rcpOf (unloading d r n f) n = { rcpOf d n with state := .unloading, unloader := some (r, f.id) } := by
    simp [unloading, rcpOf_setRcp]
  simp [unloadDone, unloaded, rcpRuns_unloading, idle, slot]

theorem unloadDone_runs (runs : rcpRuns d n = true) : unloadDone (unloading d r n f) n = unloading d r n f :=
  if_pos (.inr runs)

theorem rcpOf_unloaded (d : Dev) (r n : Nat) (f : Flight) (m : Nat) :
    rcpOf (unloaded (unloading d r n f) n) m = if m = n then { gen := (rcpOf d n).gen } else rcpOf d m := by
  change rcpOf (setRcp _ n _) m = _
  rw [rcpOf_setRcp]
  split
  · simp [unloading, rcpOf_setRcp]
  · next other => simp [unloading, rcpOf_setRcp, other]; rfl

end

/-- Settles O43, each clause by the equation of the command that it speaks of. -/
theorem objectAndRecipeCommands : Obligations.ObjectAndRecipeCommands := by
  rintro s r n tier f rfl
  refine ⟨fun gate table hn own => ?_, fun i gate session names live => ?_, fun v num gate table hn own hv hnum => ?_,
    fun gate index hn own built unnamed => ?_, fun i gate noTable noIndex names live => ?_, fun o ks pages gate object => ?_,
    fun c op command gate foreign => ?_,
    fun gate hn => ⟨fun serves unbound => ⟨fun idle => ?_, fun runs => ?_⟩, fun refuse => ?_⟩⟩
  · subst hn
    exact ⟨_, exec_to (exec_objPlaceHint gate) (placeHint_table table own), by rw [tblOf_setTbl, if_pos rfl],
      fun m other => by rw [tblOf_setTbl, if_neg other], rfl⟩
  · exact ⟨_, exec_to (exec_objPlaceHint gate) (placeHint_session session names live), by rw [recOf_updRec_same],
      fun j other => by rw [recOf_updRec, if_neg other], rfl⟩
  · obtain rfl : num = stagedNum (tblOf s.dev n) := by rw [hnum, hv]; rfl
    subst hv
    refine ⟨fun staged same => ⟨fun idle => ?_, fun g hg moves => ?_⟩, fun stale => ?_⟩
    · exact ⟨_, exec_to (exec_objFree gate) (objFree_staged table hn own staged same idle), by rw [tblOf_setTbl, if_pos rfl],
        fun m other => by rw [tblOf_setTbl, if_neg other], rfl⟩
    · exact exec_to (exec_objFree gate) (objFree_moves table hn own staged same hg moves)
    · exact exec_to (exec_objFree gate) (objFree_stale table hn own stale)
  · exact ⟨_, exec_to (exec_objFree gate) (objFree_index index hn own built unnamed), by rw [idxOf_setIdx, if_pos rfl],
      fun m other => by rw [idxOf_setIdx, if_neg other], rfl⟩
  · exact exec_to (exec_objFree gate) (objFree_session noTable noIndex names live)
  · have run : objMove s.dev r f = moveIdle s.dev r f o pages ks := by
      rcases object with ⟨table, hn, own, v, named, rfl, rfl, rfl⟩ | ⟨index, hn, own, built, unfolding, rfl, rfl, rfl⟩ |
        ⟨noTable, noIndex, names, live, rfl, rfl, rfl⟩
      · exact objMove_table table hn own named
      · exact objMove_index index hn own built unfolding
      · exact objMove_session noTable noIndex names live
    exact ⟨fun idle => exec_to (exec_objMove gate) (run.trans (moveIdle_moves pages idle)),
      fun k named moves => exec_to (exec_objMove gate) (run.trans (moveIdle_waits pages named moves))⟩
  · simp only [List.mem_cons, Prod.mk.injEq, List.not_mem_nil, or_false] at command
    rcases command with ⟨rfl, rfl⟩ | ⟨rfl, rfl⟩
    · exact exec_to (exec_objMove gate) (objMove_foreign foreign)
    · exact exec_to (exec_objFree gate) (objFree_foreign foreign)
  · refine ⟨_, exec_to (exec_recipeUnload gate hn) ((if_neg (by simp [serves, unbound])).trans (unloadDone_idle idle)), ?_,
      fun m other => ?_, look_del_same _ n, rfl⟩
    · rw [rcpOf_unloaded, if_pos rfl]
    · rw [rcpOf_unloaded, if_neg other]
  · exact exec_to (exec_recipeUnload gate hn) ((if_neg (by simp [serves, unbound])).trans (unloadDone_runs runs))
  · exact exec_to (exec_recipeUnload gate hn) (if_pos (by simpa using refuse))

end Sys2Proof.Machine
end

section
/-!
PROOFS. `RECIPE_LOAD` (05 R149 to R154; 16 R439, R440, R449): its checks in their order, and the slot that it fills.
-/

namespace Sys2Proof.Machine

section Load

variable {s : State} {d : Dev} {r : Nat} {f : Flight}

theorem exec_recipeLoad (h : pastGate s.dev r 0x70 f) (ctr : List Byte) :
    exec (.recipeLoad r ctr) s = .next (s.settled (recipeLoad s.dev r f ctr)) :=
  exec_pastGate (go := (recipeLoad · r · ctr)) rfl h

/-- The key of a container's encrypted objects, if it has any (16 R439). -/
def ctrKey (d : Dev) (c : Ctr) : Option (BitVec 256) := if c.keyOff = 0 then none else unwrapKey d c

theorem not_locked {c : Ctr} (unlocked : c.keyOff = 0 ∨ ctrKey d c ≠ none) : ¬ (c.keyOff ≠ 0 ∧ (ctrKey d c).isNone = true) := by
  rwa [not_and_or, not_not, Option.isNone_iff_eq_none]

/-- The slot of a recipe that has just been loaded (05 R152). -/
def loadedSlot (ctr : List Byte) (gen sl : Nat) (banks : List Nat) (objs : List RObj) : RSlot :=
  let c := readCtr ctr
  { state := .loaded, gen := gen, slice := sl, banks := banks, recipeId := c.id, version := c.version,
    digest := Config.shake256 (ctr.take (ctr.length - sigBytes)), stateClass := c.stateClass,
    staticSize := c.staticSize, model := ctrModel c, entries := (ctrEntries c).map (fun e => e.1), objects := objs,
    code := (List.range c.codeWords).map (fun i => BitVec.ofNat 64 (ctrWord c i)) }

/-- The device with a recipe in its slot, and its key if there is one. -/
def loadedInto (d : Dev) (n : Nat) (rc : RSlot) (key : Option (BitVec 256)) : Dev :=
  match key with
  | some k => { setRcp d n rc with sec := { d.sec with weight := put d.sec.weight n k } }
  | none => setRcp d n rc

theorem rcpOf_loadedInto (d : Dev) (n : Nat) (rc : RSlot) (key : Option (BitVec 256)) (m : Nat) :
    rcpOf (loadedInto d n rc key) m = if m = n then rc else rcpOf d m := by
  cases key <;> exact rcpOf_setRcp d n m rc

theorem look_loadedInto (d : Dev) (n : Nat) (rc : RSlot) (k : BitVec 256) : look (loadedInto d n rc (some k)).sec.weight n = some k :=
  look_put_same ..

/-! ### The checks in their order -/

theorem recipeLoad_occupied (ctr : List Byte)
    (taken : (rcpOf d (dSel f.desc % 64)).state ≠ .empty ∨ sliceArrays d (db f.desc 52 1) = []) :
    recipeLoad d r f ctr = finish d r f.id stStateConflict (rcpOf d (dSel f.desc % 64)).state.code :=
  if_pos (taken.imp_right List.isEmpty_iff.2)

section Checks

variable {ctr : List Byte} (free : (rcpOf d (dSel f.desc % 64)).state = .empty) (arrays : sliceArrays d (db f.desc 52 1) ≠ [])

include free arrays

theorem recipeLoad_unsigned (bad : recipeVerifies d ctr = false) :
    recipeLoad d r f ctr = finish (raise d Fd.SEC_EVT_sig_failed) r f.id stSecurity 0 := by
  simp [recipeLoad, free, arrays, bad]

variable (good : recipeVerifies d ctr = true)

include good

theorem recipeLoad_refused {x : Refuse} {rest : List Refuse}
    (refused : mise d (readCtr ctr) (db f.desc 32 4) (db f.desc 52 1) = x :: rest) :
    recipeLoad d r f ctr =
      finish (hostWrite d r (db f.desc 40 8)
        (refusalRecord d (readCtr ctr) (x :: rest) (dSel f.desc % 64) (db f.desc 52 1) (db f.desc 48 4)))
        r f.id stNoFit (x.reason + 256 * min (rest.length + 1) 255) := by
  simp [recipeLoad, free, arrays, good, refused]

variable (fits : mise d (readCtr ctr) (db f.desc 32 4) (db f.desc 52 1) = [])

include fits

theorem recipeLoad_wrapped (wrapped : (readCtr ctr).keyOff ≠ 0) (shut : unwrapKey d (readCtr ctr) = none) :
    recipeLoad d r f ctr = finish (raise d Fd.SEC_EVT_unwrap_failed) r f.id stSecurity 0 := by
  simp [recipeLoad, free, arrays, good, fits, wrapped, shut]

theorem recipeLoad_shut (unlocked : (readCtr ctr).keyOff = 0 ∨ ctrKey d (readCtr ctr) ≠ none)
    (shut : allSome ((ctrObjs (readCtr ctr)).map (openObj (readCtr ctr) (ctrKey d (readCtr ctr)))) = none) :
    recipeLoad d r f ctr = finish d r f.id stSecurity 0 := by
  have passes := not_locked unlocked
  rw [ctrKey] at shut passes
  simp only [recipeLoad, free, List.isEmpty_iff, arrays, good, fits, shut, if_neg passes, ne_self_iff_false, or_self,
    Bool.not_true, Bool.false_eq_true, if_false, List.isEmpty_nil]

theorem recipeLoad_placed (unlocked : (readCtr ctr).keyOff = 0 ∨ ctrKey d (readCtr ctr) ≠ none) {objs : List RObj}
    (opened : allSome ((ctrObjs (readCtr ctr)).map (openObj (readCtr ctr) (ctrKey d (readCtr ctr)))) = some objs)
    {banks : List Nat} {d1 d2 : Dev} (picked : pickFrom (readCtr ctr).footprint (freeBanks d (db f.desc 52 1)) d = (banks, d1))
    (vacated : vacate d1 banks = some d2) {rc : RSlot}
    (hrc : rc = loadedSlot ctr (((rcpOf d (dSel f.desc % 64)).gen + 1) % 256) (db f.desc 52 1) banks objs) :
    recipeLoad d r f ctr = if bankHeld (publishMoved d2) banks then publishMoved d2 else
      finish (redigest (loadedInto (publishMoved d2) (dSel f.desc % 64) rc (ctrKey d (readCtr ctr)))) r f.id stOK
        (dSel f.desc % 64 + 256 * rc.gen) := by
  have passes := not_locked unlocked
  subst hrc
  rw [ctrKey] at opened passes
  simp only [recipeLoad, free, List.isEmpty_iff, arrays, good, fits, opened, picked, vacated, if_neg passes, ne_self_iff_false,
    or_self, Bool.not_true, Bool.false_eq_true, if_false, List.isEmpty_nil]
  rfl

end Checks

end Load

/-- Settles O44, each clause by the outcome of the first check that fails, or by the slot as it is loaded. -/
theorem recipeLoadChecksThenLoads : Obligations.RecipeLoadChecksThenLoads := by
  rintro s r n sl f ctr c rs e gate rfl rfl rfl rfl
  have run := exec_recipeLoad gate ctr
  refine ⟨fun taken => exec_to run (recipeLoad_occupied ctr taken), fun free arrays => ?_⟩
  cases good : recipeVerifies s.dev ctr with
  | false => exact .inl ⟨rfl, exec_to run (recipeLoad_unsigned free arrays good)⟩
  | true =>
    refine .inr ⟨rfl, fun x rest refused he => ?_, fun key fits hkey => ⟨fun wrapped shut => ?_, fun unlocked shut => ?_,
      fun objs banks d1 d2 unlocked opened picked vacated => ⟨fun held => ?_, fun left => ?_⟩⟩⟩
    · rw [he, refused]
      exact exec_to run (recipeLoad_refused free arrays good refused)
    · rw [if_neg wrapped] at hkey
      exact exec_to run (recipeLoad_wrapped free arrays good fits wrapped (hkey.symm.trans shut))
    · obtain rfl : key = ctrKey s.dev (readCtr ctr) := hkey
      exact exec_to run (recipeLoad_shut free arrays good fits unlocked shut)
    · obtain rfl : key = ctrKey s.dev (readCtr ctr) := hkey
      exact exec_to run ((recipeLoad_placed free arrays good fits unlocked opened picked vacated rfl).trans (if_pos held))
    · obtain rfl : key = ctrKey s.dev (readCtr ctr) := hkey
      obtain ⟨rc, hrc⟩ : ∃ rc, rc = loadedSlot ctr (((rcpOf s.dev (dSel f.desc % 64)).gen + 1) % 256) (db f.desc 52 1)
        banks objs := ⟨_, rfl⟩
      have loads := recipeLoad_placed (r := r) free arrays good fits unlocked opened picked vacated hrc
      rw [left, if_neg Bool.false_ne_true] at loads
      refine ⟨loadedInto (publishMoved d2) (dSel f.desc % 64) rc (ctrKey s.dev (readCtr ctr)), ?_, ?_⟩
      · rw [rcpOf_loadedInto, if_pos rfl]
        exact exec_to run loads
      · rw [rcpOf_loadedInto, if_pos rfl]
        subst hrc
        exact ⟨rfl, rfl, rfl, rfl, rfl, rfl, rfl, fun k hk => by rw [hk, look_loadedInto],
          fun m other => by rw [rcpOf_loadedInto, if_neg other]⟩

end Sys2Proof.Machine
end

section
/-!
PROOFS. Where a team starts (05 R136, R139): `EntriesRunOnTeams` says which arrays `startTeam` takes for every team, also for one that
claims arrays while it waits, and there it fails.
-/

namespace Sys2Proof.Machine

/-- An entry of slot 0 that waits for one array of slice 0. -/
def oneArrayTeam : Team := { slot := 0, kind := 0, slice := 0, client := 0, lc := true, size := 1, order := 0 }

/-- A device whose slice 0 has arrays 0 and 1, both idle, and on which that entry waits. -/
def twoIdleArrays : Dev := { fab := { slice := [(0, { arrays := [0, 1] })], teams := [oneArrayTeam] } }

/-- The same entry with array 0 in its record already, as no team that waits has it. -/
def claimingTeam : Team := { oneArrayTeam with arrays := [0] }

theorem idleArrays_twoIdleArrays : (idleArrays twoIdleArrays claimingTeam.slice).take claimingTeam.size = [0] := by decide

/-- The start first puts the record into its slot: array 0 is then busy, and array 1 is taken. -/
theorem startTeam_claimingTeam :
    (startTeam twoIdleArrays claimingTeam).fab.teams.map (fun x => (x.slot, x.arrays)) = [(0, [1])] := by decide

/-- Refutes O42 by its third clause, which binds its team by no hypothesis: a team that claims array 0 is started on array 1, and not on
the first idle array of the state before, which is 0. -/
theorem not_entriesRunOnTeams : ¬ Obligations.EntriesRunOnTeams := by
  intro h
  obtain ⟨-, -, starts, -⟩ := h { dev := twoIdleArrays } 0 claimingTeam
  obtain ⟨x, hx, same⟩ := List.mem_map.1 (startTeam_claimingTeam ▸ List.mem_singleton_self (0, [1]))
  obtain ⟨slot, arrays⟩ := Prod.mk.inj same
  obtain ⟨-, taken, -⟩ := starts x hx slot
  rw [idleArrays_twoIdleArrays, arrays] at taken
  exact absurd taken (by decide)

end Sys2Proof.Machine
end

section
/-!
PROOFS. Sessions without work, as time passes (01 R24; 07 R216, R217, R219, R220): a slot given up, a time to live that runs out, and the
automatic park.
-/

namespace Sys2Proof.Machine

/-! ### Records, slots and time -/

theorem recOf_congr {d e : Dev} (h : d.ctx = e.ctx) (i : Nat) : recOf d i = recOf e i := by rw [recOf, recOf, h]

theorem slotOf_congr {d e : Dev} (h : d.ctx = e.ctx) (n : Nat) : slotOf d n = slotOf e n := by rw [slotOf, slotOf, h]

theorem handleOf_congr {d e : Dev} (h : d.ctx = e.ctx) (i : Nat) : handleOf d i = handleOf e i := by
  rw [handleOf, handleOf, recOf_congr h]

theorem now_congr {d e : Dev} (h : d.tc = e.tc) : now d = now e := by rw [now, now, stamp, stamp, h]

theorem frame_congr {d e : Dev} (h : d.tc = e.tc) : frame d = frame e := by rw [frame, frame, now_congr h]

theorem ctxStateOf_placed {d : Dev} {i sl : Nat} (placed : (recOf d i).slot = some sl) : ctxStateOf d i = (slotOf d sl).state := by
  rw [ctxStateOf, placed]

theorem slotOf_updRec (d : Dev) (i n : Nat) (f : Rec → Rec) : slotOf (updRec d i f) n = slotOf d n := rfl

theorem recOf_updSlot (d : Dev) (n i : Nat) (f : Slot → Slot) : recOf (updSlot d n f) i = recOf d i := rfl

theorem raise_ctx (d : Dev) (f : Fd) : (raise d f).ctx = d.ctx := by simp only [raise_frame]

theorem OnlyLinks.ctx_eq {d e : Dev} (h : OnlyLinks d e) : e.ctx = d.ctx := by simp only [h.keeps]

theorem OnlyLinks.tc_eq {d e : Dev} (h : OnlyLinks d e) : e.tc = d.tc := by simp only [h.keeps]

/-! ### The hold of a paused session (07 R216) -/

theorem releaseSlot_unplaced {d : Dev} {i : Nat} (unplaced : (recOf d i).slot = none) : releaseSlot d i = d := by
  rw [releaseSlot, unplaced]

theorem releaseSlot_placed {d : Dev} {i sl : Nat} (placed : (recOf d i).slot = some sl) : releaseSlot d i =
    updRec (updSlot d sl (fun x => { x with state := .free, work := none, rcd := 0 })) i (fun r => { r with
      slot := none, pausedAt := none, releasedAt := some (frame d), ttlFrom := some (frame d), prefetchDue := false }) := by
  rw [releaseSlot, placed]; rfl

section

variable {d : Dev} {i t : Nat}

theorem holdDue_iff {sl : Nat} (paused : (recOf d i).pausedAt = some t) (state : (recOf d i).state = .paused)
    (placed : (recOf d i).slot = some sl) (held : (slotOf d sl).state = .paused) :
    holdDue d i = true ↔ (recOf d i).hold ≠ 0 ∧ t + (recOf d i).hold ≤ frame d := by
  simp [holdDue, paused, state, ctxStateOf_placed placed, held, and_comm]

theorem holdPass_due (due : holdDue d i = true) : holdPass d i = raise (releaseSlot d i) Fd.CTX_EVT_slot_released := if_pos due

theorem holdPass_early (early : ¬ holdDue d i = true) : holdPass d i = d := if_neg early

end

theorem exec_holdThreshold (s : State) (i : Nat) :
    exec (.holdThreshold i) s = .next (s.settled (holdPass (precede s.dev 4 (handleOf s.dev i)) i)) := rfl

/-- Settles O38: a hold that has run out is `releaseSlot` and the event, and one that has not is no event. -/
theorem holdReleasesTheSlot : Obligations.HoldReleasesTheSlot := by
  unfold Obligations.HoldReleasesTheSlot
  rintro s i t sl d x hd rfl paused state placed held
  have due := holdDue_iff paused state placed held
  rw [exec_holdThreshold, ← hd]
  refine ⟨fun runs elapsed => ?_, fun early => ?_⟩
  · rw [holdPass_due (due.2 ⟨runs, elapsed⟩), releaseSlot_placed placed]
    refine ⟨_, rfl, ?_⟩
    simp only [recOf_congr (raise_ctx _ _), slotOf_congr (raise_ctx _ _), evSet_raise,
      recOf_updRec, slotOf_updRec, recOf_updSlot, slotOf_updSlot, if_true]
    exact ⟨trivial, state, trivial, trivial, trivial, trivial, fun j other => if_neg other, fun j other => if_neg other, trivial⟩
  · rw [holdPass_early (mt due.1 fun elapsed => by omega)]

/-! ### The time to live (07 R219, R220) -/

section

variable {d : Dev} {i t : Nat}

theorem ttlDue_elapsed (since : (recOf d i).ttlFrom = some t) (runs : (recOf d i).ttl ≠ 0) (elapsed : t + (recOf d i).ttl ≤ frame d)
    (unplaced : (recOf d i).slot = none) (idle : (recOf d i).state ∈ [RecState.paused, .parked]) (still : sessGroups d i = [])
    (unasked : resumeWaits d i = false) : ttlDue d i = true := by
  have rests : (recOf d i).state = .paused ∨ (recOf d i).state = .parked := by simpa using idle
  simp [ttlDue, since, runs, elapsed, unplaced, rests, still, unasked]

theorem ttlDue_early (since : (recOf d i).ttlFrom = some t) (early : (recOf d i).ttl = 0 ∨ frame d < t + (recOf d i).ttl) :
    ttlDue d i = false := by
  rcases early with unset | early
  · simp [ttlDue, unset]
  · simp [ttlDue, since, early]

/-- The device as a time to live that ran out leaves it, before its client is told. -/
def ttlOver (d : Dev) (i : Nat) : Dev := raise (fbump (expireRec d i false) Fd.CTX_CNT_expired) Fd.CTX_EVT_ttl_expired

theorem recOf_ttlOver (d : Dev) (i j : Nat) : recOf (ttlOver d i) j = recOf (expireRec d i false) j :=
  recOf_congr (raise_ctx _ _) j

theorem ttlExpire_due (due : ttlDue d i = true) : ttlExpire d i = (report (ttlOver d i) {
    cls := clsExpiry, unit := 4, action := 0, object := (recOf d i).name, handle := handleOf d i, client := some (recOf d i).client }).1 :=
  if_pos due

theorem ttlExpire_early (early : ttlDue d i = false) : ttlExpire d i = d := if_neg (by simp [early])

theorem onlyLinks_releaseLoc (c : Option Nat) (d : Dev) (l : Loc) : OnlyLinks d (releaseLoc c d l) := by
  dsimp only [releaseLoc]
  split
  · rfl
  split
  · rfl
  have given := fun b => onlyLinks_sendFrame d 3 0x30 (t3Lender (t3Key l)) c b
  split
  · exact (given _).trans (OnlyLinks.withLnk _ _ (onlyLinks_sendFrame _ _ _ _ _ _))
  · exact (given _).trans rfl

theorem onlyLinks_releaseLocs (c : Option Nat) (ls : List Loc) (d : Dev) : OnlyLinks d (releaseLocs d c ls) :=
  onlyLinks_foldl _ (onlyLinks_releaseLoc c) ls d

theorem foldl_dropGroup_ctx (gs : List MoveGrp) : ∀ d : Dev, (gs.foldl (fun d g => dropGroup d g.id) d).ctx = d.ctx := by
  induction gs with
  | nil => intro d; rfl
  | cons g gs ih => intro d; exact ih (dropGroup d g.id)

/-- Freeing a session's objects gives up its slot, empties its record, and leaves the other records. -/
theorem recOf_freeObjects (d : Dev) (i j : Nat) : recOf (freeObjects d i) j = if j = i then { recOf (releaseSlot d i) i with
    pages := [], table := [], kv := [], log := [], edits := [], out := {}, len := 0, carry := List.replicate 7 511, group := none,
    inbound := false, hintDue := false, prefetchDue := false } else recOf (releaseSlot d i) j := by
  have kept : ∀ (c : Option Nat) (ls : List Loc) (e : Dev),
      (releaseLocs ((sessGroups e i).foldl (fun d g => dropGroup d g.id) e) c ls).ctx = e.ctx :=
    fun c ls e => (onlyLinks_releaseLocs c ls _).ctx_eq.trans (foldl_dropGroup_ctx _ e)
  rw [freeObjects, recOf_updRec, recOf_congr (kept _ _ _), recOf_congr (kept _ _ _)]

theorem recOf_expireRec (d : Dev) (i j : Nat) (lost : Bool) : recOf (expireRec d i lost) j = if j = i then { recOf (freeObjects d i) i with
    state := .expired, lost := lost, key := 0, ttlFrom := none, releasedAt := none } else recOf (freeObjects d i) j := recOf_updRec ..

end

theorem exec_ttlExpiry (s : State) (i : Nat) :
    exec (.ttlExpiry i) s = .next (s.settled (ttlExpire (precede s.dev 3 (handleOf s.dev i)) i)) := rfl

/-! ### The automatic park (07 R217) -/

section

variable {d : Dev} {i t : Nat}

theorem parkDue_elapsed (since : (recOf d i).releasedAt = some t) (runs : (recOf d i).parkAfter ≠ 0)
    (elapsed : t + (recOf d i).parkAfter ≤ frame d) (state : (recOf d i).state = .paused) (unplaced : (recOf d i).slot = none)
    (lives : (recOf d i).ttl = 0 ∨ ∀ v, (recOf d i).ttlFrom = some v → frame d < v + (recOf d i).ttl) : parkDue d i = true := by
  have lasts : (recOf d i).ttl = 0 ∨ (recOf d i).ttlFrom.any (fun f => decide (f + (recOf d i).ttl ≤ frame d)) = false :=
    lives.imp_right fun h => (Option.any_eq_false _ _).2 fun v hv => decide_eq_false (Nat.not_le.2 (h v hv))
  rcases lasts with h | h <;> simp [parkDue, since, runs, elapsed, state, unplaced, h]

theorem parkDue_early (since : (recOf d i).releasedAt = some t)
    (early : (recOf d i).parkAfter = 0 ∨ frame d < t + (recOf d i).parkAfter) : parkDue d i = false := by
  rcases early with unset | early
  · simp [parkDue, unset]
  · simp [parkDue, since, early]

theorem parkPass_early (early : parkDue d i = false) : parkPass d i = d := if_neg (by simp [early])

/-- The outcomes of the automatic park, by whether it parked and whether it is decided. -/
theorem parkPass_due (due : parkDue d i = true) {p : Dev × Bool × Bool} (hp : p = parkNow d i (recOf d i).parkTier none) : parkPass d i =
    if p.2.2 then raise p.1 Fd.CTX_EVT_auto_park
    else if p.2.1 then (report (updRec p.1 i (fun r => { r with releasedAt := some (frame d) })) {
      cls := clsCapacity, unit := 4, action := 0, object := (recOf d i).name,
      handle := handleOf (updRec p.1 i (fun r => { r with releasedAt := some (frame d) })) i, detailA := (recOf d i).len,
      client := some (recOf d i).client }).1
    else p.1 := by
  subst hp
  exact if_pos due

theorem onlyLinks_allocT (d : Dev) (c t n : Nat) : OnlyLinks d (allocT d c t n).2 := by
  dsimp only [allocT]
  split
  · split
    · rfl
    split
    · rfl
    split
    · exact (onlyLinks_sendFrame d _ _ _ _ _).trans rfl
    · rfl
  · rfl

/-- An automatic park that does not park asks lenders, and does no more. -/
theorem onlyLinks_parkNow_auto {tier : Nat} (stays : (parkNow d i tier none).2.2 = false) : OnlyLinks d (parkNow d i tier none).1 := by
  have asked := onlyLinks_allocT d (recOf d i).client tier (slowerPages (recOf d i) tier).length
  revert stays
  dsimp only [parkNow]
  split
  · exact fun _ => rfl
  split
  · simp
  all_goals
    rename_i h
    rw [h] at asked
    exact fun _ => asked

end

theorem exec_parkAfterThreshold (s : State) (i : Nat) :
    exec (.parkAfterThreshold i) s = .next (s.settled (parkPass (precede s.dev 5 (handleOf s.dev i)) i)) := rfl

/-- Settles O37. That the record of a time to live that ran out has action 0 is log entry 51. -/
theorem timeActsOnIdleSessions : Obligations.TimeActsOnIdleSessions := by
  unfold Obligations.TimeActsOnIdleSessions
  refine fun s i t d x => ⟨?_, ?_⟩
  · rintro hd rfl since
    rw [exec_ttlExpiry, ← hd]
    refine ⟨fun runs elapsed unplaced idle still unasked => ?_, fun early => ?_⟩
    · rw [ttlExpire_due (ttlDue_elapsed since runs elapsed unplaced idle still unasked)]
      refine ⟨_, rfl, ?_⟩
      simp only [recOf_ttlOver, recOf_expireRec, recOf_freeObjects, releaseSlot_unplaced unplaced, if_true]
      exact ⟨trivial, trivial, trivial, trivial, fun j other => by simp only [if_neg other], evSet_raise ..⟩
    · rw [ttlExpire_early (ttlDue_early since early)]
  · rintro hd rfl since
    rw [exec_parkAfterThreshold, ← hd]
    refine ⟨fun p runs elapsed state unplaced lives hp => ?_, fun early => ?_⟩
    · rw [parkPass_due (parkDue_elapsed since runs elapsed state unplaced lives) hp]
      refine ⟨fun parks => by rw [if_pos parks], fun decided stays => ?_, fun undecided stays => ?_⟩
      · have time : frame p.1 = frame d := by
          rw [hp] at stays ⊢
          exact frame_congr (onlyLinks_parkNow_auto stays).tc_eq
        refine ⟨_, ?_, rfl⟩
        rw [stays, decided, time]
        rfl
      · rw [stays, undecided]
        rfl
    · rw [parkPass_early (parkDue_early since early)]

end Sys2Proof.Machine
end

section
/-!
PROOFS. `SESSION_OPEN` (07 R196, R199 to R201; 10 R284): the record and the slot of a new session, and what else an open changes.
-/

namespace Sys2Proof.Machine

/-! ### Room and locations in T1 (10 R289) -/

/-- Only the count of free values used up differs. -/
def OnlyFresh (d e : Dev) : Prop := e = { d with fresh := e.fresh }

theorem OnlyFresh.trans {a b c : Dev} (h : OnlyFresh a b) (k : OnlyFresh b c) : OnlyFresh a c := by
  unfold OnlyFresh at *; rw [k, h]

theorem OnlyFresh.keeps {d e : Dev} (h : OnlyFresh d e) : e.ctx = d.ctx ∧ e.mem = d.mem ∧ e.map = d.map ∧ e.regs = d.regs ∧
    e.hst = d.hst ∧ e.tc = d.tc ∧ e.posted = d.posted ∧ e.fab = d.fab := by
  unfold OnlyFresh at h; rw [h]; and_intros <;> rfl

theorem onlyFresh_freshBelow {d e : Dev} {n k : Nat} (h : freshBelow d n = (k, e)) : OnlyFresh d e := (Prod.mk.inj h).2 ▸ rfl

theorem onlyFresh_draw {d e : Dev} {key : BitVec 256} (h : draw d = (key, e)) : OnlyFresh d e := (Prod.mk.inj h).2 ▸ rfl

theorem onlyFresh_pickFree (n : Nat) : ∀ (total : Nat) (used : List Nat) (d : Dev), OnlyFresh d (pickFree n total used d).2 := by
  induction n with
  | zero => intros; rfl
  | succ n ih => intro total used d; exact (onlyFresh_freshBelow (n := total - used.length) rfl).trans (ih total _ _)

theorem onlyFresh_alloc_one {d e : Dev} {c n : Nat} {fs : List Nat} (h : alloc d c 1 n = .ok fs e) : OnlyFresh d e := by
  dsimp only [alloc] at h
  split at h
  · cases h; rfl
  split at h
  · cases h
  split at h
  · cases h
  split at h
  · cases h
  rw [if_neg (by decide)] at h
  split at h
  · cases h
  split at h
  · cases h
  split at h
  · cases h
  rw [if_neg (by decide)] at h
  cases h
  exact onlyFresh_pickFree n _ _ d

theorem onlyFresh_pickSlot {d e : Dev} {c : Nat} {x : Option Nat} (h : pickSlot d c = (x, e)) : OnlyFresh d e := by
  dsimp only [pickSlot] at h
  split at h
  · exact (Prod.mk.inj h).2 ▸ rfl
  · exact onlyFresh_freshBelow (n := (freeSlots d c).length) (Prod.ext rfl (Prod.mk.inj h).2)

/-- Locations in T1 need no seal counter. -/
theorem locsAt_one_dev (fs : List Nat) (d : Dev) : (locsAt d 1 fs).2 = d := by
  have each : ∀ (fs : List Nat) (ls : List Loc), (fs.foldl (fun (s : List Loc × Dev) f =>
      let r := sealed s.2 1
      (s.1 ++ [{ tier := 1, frame := f, ctr := r.1 }], r.2)) (ls, d)).2 = d := by
    intro fs
    induction fs with
    | nil => intro ls; rfl
    | cons f fs ih => intro ls; exact ih _
  exact each fs []

/-! ### Placing a session (07 R202) -/

theorem recOf_placeSlot (d : Dev) (i sl j : Nat) : recOf (placeSlot d i sl) j = if j = i then { recOf d i with
    slot := some sl, pausedAt := none, releasedAt := none, ttlFrom := none } else recOf d j := recOf_updRec ..

theorem slotOf_placeSlot (d : Dev) (i sl n : Nat) : slotOf (placeSlot d i sl) n = if n = sl then
    { state := .opened, rcd := i, placed := ((slotOf d sl).placed + 1) % 2 ^ 20 } else slotOf d n :=
  (slotOf_updRec ..).trans (slotOf_updSlot ..)

/-! ### Opening (07 R199, R200) -/

section

variable {d : Dev} {r : Nat} {f : Flight} {c : Nat} {rc : RSlot}

theorem sessionOpen_stale (hc : rc = rcpOf d (rcpIndex (db f.desc 24 2))) (stale : rcpCurrent d (db f.desc 24 2) = false) :
    sessionOpen d r f = finish d r f.id stStaleVersion rc.gen := by
  subst hc
  simp only [sessionOpen, stale, Bool.not_false, if_true]

/-- The number of a recipe slot's state in the result of `STATE_CONFLICT`. -/
def rcpStateNum (s : RcpState) : Nat := match s with
  | .empty => 0 | .loading => 1 | .loaded => 2 | .stranded => 3 | .unloading => 4

theorem rcpStateNum_lt (s : RcpState) : rcpStateNum s < 5 := by cases s <;> decide

theorem sessionOpen_shut (hc : rc = rcpOf d (rcpIndex (db f.desc 24 2))) (current : rcpCurrent d (db f.desc 24 2) = true)
    (shut : rcpServes rc = false) : sessionOpen d r f = finish d r f.id stStateConflict (rcpStateNum rc.state) := by
  subst hc
  simp only [sessionOpen, current, shut, Bool.not_false, Bool.not_true, Bool.false_eq_true, if_true, if_false]
  rfl

theorem sessionOpen_full (hc : rc = rcpOf d (rcpIndex (db f.desc 24 2))) (current : rcpCurrent d (db f.desc 24 2) = true)
    (serves : rcpServes rc = true) (full : fget d Fd.CTX_CLIENT_LIM_max_records (sqClient d r) ≤ recordsOf d (sqClient d r)) :
    sessionOpen d r f = finish d r f.id stQuota 0 := by
  subst hc
  simp only [sessionOpen, current, serves, full, Bool.not_true, Bool.false_eq_true, if_true, if_false]

end

/-- The record of a new session with its pages at some frames of T1. -/
def recAt (d : Dev) (m : Model) (rec0 : Rec) (fs : List Nat) : Rec :=
  let x := { rec0 with
    pages := ((wantPages m rec0).zip (locsAt d 1 fs).1).foldl (fun (p : NMap Loc) (kl : Nat × Loc) => put p kl.1 kl.2) [] }
  { x with table := tableSync m x 0 0 }

theorem recAt_name (d : Dev) (m : Model) (rec0 : Rec) (fs : List Nat) : (recAt d m rec0 fs).name = rec0.name := rfl

/-- The name of a new session is given out, with this device as its home. -/
def nameGiven (d : Dev) (serial : Nat) (name : Nat) : Dev := { d with
  mem := { d.mem with nextSerial := serial + 7 }, map := { d.map with reg := put d.map.reg name { home := ownDevice d, epoch := 0 } } }

/-- A new session stands in its slot. -/
def sessionPlaced (d : Dev) (m : Model) (rec0 : Rec) (serial : Nat) (fs : List Nat) (i sl : Nat) : Dev :=
  placeSlot (setRec (nameGiven d serial rec0.name) i (recAt d m rec0 fs)) i sl

theorem sessionPlaced_frame (d : Dev) (m : Model) (rec0 : Rec) (serial : Nat) (fs : List Nat) (i sl : Nat) :
    (sessionPlaced d m rec0 serial fs i sl).hst = d.hst ∧ (sessionPlaced d m rec0 serial fs i sl).tc = d.tc ∧
      (sessionPlaced d m rec0 serial fs i sl).posted = d.posted := by
  simp [sessionPlaced, placeSlot, nameGiven]

theorem ringLink_congr {d e : Dev} (h : d.hst = e.hst) (r : Nat) : ringLink d r = ringLink e r := by
  have links : linkUp d = linkUp e := funext fun l => by rw [linkUp, linkUp, h]
  rw [ringLink, ringLink, links]

/-- The device as an open leaves it, before its descriptor ends: handle, slot and time are posted at the result address. -/
def opened (d : Dev) (m : Model) (rec0 : Rec) (serial : Nat) (fs : List Nat) (r : Nat) (f : Flight) (i sl : Nat) : Dev :=
  let e := sessionPlaced d m rec0 serial fs i sl
  hostWrite e r (db f.desc 48 8) (fields [(handleOf e i, 4), (sl, 2), (0, 2), (now e % 2 ^ 64, 8)])

section

variable (d : Dev) (m : Model) (rec0 : Rec) (serial : Nat) (fs : List Nat) (r : Nat) (f : Flight) (i sl : Nat)

theorem opened_ctx : (opened d m rec0 serial fs r f i sl).ctx = (sessionPlaced d m rec0 serial fs i sl).ctx := by simp [opened]

theorem recOf_opened (j : Nat) : recOf (opened d m rec0 serial fs r f i sl) j = if j = i then { recAt d m rec0 fs with
    slot := some sl, pausedAt := none, releasedAt := none, ttlFrom := none } else recOf d j := by
  rw [recOf_congr (opened_ctx ..), sessionPlaced, recOf_placeSlot, recOf_setRec_same, recOf_setRec]
  split <;> rfl

theorem slotOf_opened (n : Nat) : slotOf (opened d m rec0 serial fs r f i sl) n = if n = sl then
    { state := .opened, rcd := i, placed := ((slotOf d sl).placed + 1) % 2 ^ 20 } else slotOf d n := by
  rw [slotOf_congr (opened_ctx ..)]
  exact slotOf_placeSlot ..

theorem opened_home : look (opened d m rec0 serial fs r f i sl).map.reg rec0.name = some { home := ownDevice d, epoch := 0 } := by
  simp [opened, sessionPlaced, placeSlot, updRec, updSlot, setRec, setSlot, nameGiven]

theorem opened_posted (writes : d.hst.tdisp ≠ .error) : (opened d m rec0 serial fs r f i sl).posted = d.posted ++ [⟨ringLink d r,
    db f.desc 48 8, fields [(handleOf (opened d m rec0 serial fs r f i sl) i, 4), (sl, 2), (0, 2), (now d % 2 ^ 64, 8)]⟩] := by
  obtain ⟨hst, tc, posted⟩ := sessionPlaced_frame d m rec0 serial fs i sl
  have reaches : (sessionPlaced d m rec0 serial fs i sl).hst.tdisp ≠ .error := by rwa [hst]
  rw [handleOf_congr (opened_ctx ..)]
  dsimp only [opened]
  rw [hostWrite_posted _ _ _ _ reaches, ringLink_congr hst, now_congr tc, posted]

end

section

variable {d : Dev} {r : Nat} {f : Flight} {c : Nat} {rc : RSlot}

theorem sessionOpen_placed (hc : rc = rcpOf d (rcpIndex (db f.desc 24 2))) (hcl : c = sqClient d r)
    (current : rcpCurrent d (db f.desc 24 2) = true)
    (serves : rcpServes rc = true) (allowed : recordsOf d c < fget d Fd.CTX_CLIENT_LIM_max_records c) {sl k i : Nat} {d1 d2 d3 d4 : Dev}
    {key : BitVec 256} {rec0 : Rec} {fs : List Nat} (picked : pickSlot d c = (some sl, d1))
    (room : (usedRecords d1).length < 2 ^ (d1.ctx.tableLog2.getD 0))
    (number : freshBelow d1 (2 ^ (d1.ctx.tableLog2.getD 0) - (usedRecords d1).length) = (k, d2)) (hi : i = nthFree (usedRecords d1) k)
    (drawn : draw d2 = (key, d3)) (hrec : rec0 = newRec d3 f.desc c (recOf d3 i).gen d3.mem.nextSerial key)
    (found : alloc d3 c 1 (wantPages rc.model rec0).length = .ok fs d4) :
    sessionOpen d r f = finish (opened d4 rc.model rec0 d3.mem.nextSerial fs r f i sl) r f.id stOK
      (handleOf (opened d4 rc.model rec0 d3.mem.nextSerial fs r f i sl) i) := by
  subst hc hcl hi
  rw [hrec] at found
  simp only [sessionOpen, current, serves, Bool.not_true, Bool.false_eq_true, if_false, if_neg (Nat.not_le.2 allowed), picked,
    if_neg (Nat.not_le.2 room), number, drawn, found]
  have hl : locsAt d4 1 fs = ((locsAt d4 1 fs).1, d4) := Prod.ext rfl (locsAt_one_dev fs d4)
  rw [hl, hrec]
  rfl

end

theorem exec_sessionOpen {s : State} {r : Nat} {f : Flight} (h : pastGate s.dev r 0x01 f) :
    exec (.sessionOpen r) s = .next (s.settled (sessionOpen s.dev r f)) :=
  exec_pastGate (go := (sessionOpen · r ·)) rfl h

theorem pastGate_notError {d : Dev} {r op : Nat} {f : Flight} (h : pastGate d r op f) : d.hst.tdisp ≠ .error := by
  obtain ⟨⟨next, -, -⟩, -⟩ := h
  intro error
  have halted : seqHalted d = true := by simp [seqHalted, error]
  rw [stageThree, if_pos (Or.inl halted)] at next
  cases next

/-- Settles O34: a check that fails ends the command, and past the last one the session stands as `opened` places it. -/
theorem sessionOpenPlacesAnEmptySession : Obligations.SessionOpenPlacesAnEmptySession := by
  unfold Obligations.SessionOpenPlacesAnEmptySession
  intro s r c f rc gate hcl hc
  rw [exec_sessionOpen gate]
  refine ⟨?_, fun stale => by rw [sessionOpen_stale hc stale],
    fun current shut => ⟨_, rcpStateNum_lt _, by rw [sessionOpen_shut hc current shut]⟩,
    fun current serves full => by rw [sessionOpen_full hc current serves (hcl ▸ full)]⟩
  intro sl k i d1 d2 d3 d4 key rec0 fs current serves allowed picked room number hi drawn hrec found
  have fresh3 := ((onlyFresh_pickSlot picked).trans (onlyFresh_freshBelow number)).trans (onlyFresh_draw drawn)
  obtain ⟨ctx3, mem3, regs3⟩ : d3.ctx = s.dev.ctx ∧ d3.mem = s.dev.mem ∧ d3.regs = s.dev.regs := by
    simp only [fresh3.keeps, and_self]
  obtain ⟨ctx4, regs4, hst4, tc4, posted4⟩ : d4.ctx = s.dev.ctx ∧ d4.regs = s.dev.regs ∧ d4.hst = s.dev.hst ∧ d4.tc = s.dev.tc ∧
      d4.posted = s.dev.posted := by simp only [(fresh3.trans (onlyFresh_alloc_one found)).keeps, and_self]
  rw [sessionOpen_placed hc hcl current serves allowed picked room number hi drawn hrec found]
  refine ⟨_, rfl, ?_⟩
  clear found drawn number picked room hi fresh3
  have name : rec0.name = ownDevice s.dev * 2 ^ 48 + s.dev.mem.nextSerial := by
    rw [hrec, ← mem3]
    exact congrArg (· * 2 ^ 48 + d3.mem.nextSerial) (fget_congr regs3 _ _)
  have home := opened_home d4 rc.model rec0 d3.mem.nextSerial fs r f i sl
  have posts := opened_posted d4 rc.model rec0 d3.mem.nextSerial fs r f i sl (hst4 ▸ pastGate_notError gate)
  rw [show ownDevice d4 = ownDevice s.dev from fget_congr regs4 _ _] at home
  rw [posted4, ringLink_congr hst4, now_congr tc4] at posts
  have gen : rec0.gen = (recOf s.dev i).gen := by rw [hrec, ← recOf_congr ctx3]; rfl
  have kept : recOf d4 = recOf s.dev ∧ slotOf d4 = slotOf s.dev := ⟨funext (recOf_congr ctx4), funext (slotOf_congr ctx4)⟩
  simp only [recOf_opened, slotOf_opened, recAt_name, if_true, kept]
  refine ⟨?_, trivial, ?_, ?_, ?_, gen, ?_, ?_, ?_, ?_, ?_, ?_, name, home, trivial, trivial, posts, fun j other => if_neg other,
    fun j other => if_neg other⟩
  all_goals
    rw [hrec]
    rfl

end Sys2Proof.Machine
end

section
/-!
PROOFS. Parks, resumes, cuts and trims (06 R176; 07 R215, R218, R220 to R223, R225, R226, R228), and what a trim keeps of a record.
-/

namespace Sys2Proof.Machine

/-! ### The record that a command names (07 R196, R203) -/

/-- A command on a live session, which is not rewound unless the command may find it so, passes its checks. -/
theorem withSess_names {d : Dev} {f : Flight} {i : Nat} {expired rewound : Bool} {ok : Rec → CtxState → Bool}
    (names : namesRecord d f i) (live : (recOf d i).state ∈ [RecState.active, .paused, .parked])
    (unwound : (recOf d i).rewound = true → rewound = true) (fits : ok (recOf d i) (ctxStateOf d i) = true) (r : Nat) (go : Nat → Dev) :
    withSess d r f (sessCheck d (dSel f.desc) expired rewound ok) go = go i := by
  obtain ⟨named, gen, uncut, home⟩ := names
  have calm : (recOf d i).state ≠ .closed ∧ (recOf d i).state ≠ .expired ∧ (recOf d i).state ≠ .moving := by
    and_intros <;> (intro state; simp [state] at live)
  obtain ⟨unclosed, lives, still⟩ := calm
  have checked : sessCheck d (dSel f.desc) expired rewound ok = .ok i := by
    simp only [sessCheck, ← named, ← gen]
    simpa [unclosed, lives, still, uncut, home, fits] using unwound
  rw [checked, withSess]

section

variable {s : State} {r i : Nat} {f : Flight}

/-- A command that takes a live session, not rewound, is carried out on the one that its descriptor names. -/
theorem exec_live {c : Instr} {op : Nat} {go : Dev → Flight → Nat → Dev}
    (run : exec c s = lift (fun d => dispatchGated d r op (fun d f => withSess d r f (sessCheck d (dSel f.desc) false false
      (fun x _ => x.state == .active || x.state == .paused || x.state == .parked)) (go d f))) s)
    (gate : pastGate s.dev r op f) (names : namesRecord s.dev f i)
    (live : (recOf s.dev i).state ∈ [RecState.active, .paused, .parked]) (unwound : (recOf s.dev i).rewound = false) :
    exec c s = .next (s.settled (go s.dev f i)) :=
  exec_to (exec_pastGate run gate) (withSess_names names live (by simp [unwound]) (by simpa [or_assoc] using live) r _)

/-! ### Parks (07 R215, R218) -/

section

variable (gate : pastGate s.dev r 0x03 f) (names : namesRecord s.dev f i)
  (live : (recOf s.dev i).state ∈ [RecState.active, .paused, .parked]) (unwound : (recOf s.dev i).rewound = false)

include gate names live unwound

theorem exec_sessionPark_waits (noted : (recOf s.dev i).pausing.isSome = true ∨ (recOf s.dev i).parking.isSome = true) :
    exec (.sessionPark r) s = .next (s.settled s.dev) :=
  exec_to (exec_live rfl gate names live unwound) (if_pos noted)

variable (unnoted : ¬ ((recOf s.dev i).pausing.isSome = true ∨ (recOf s.dev i).parking.isSome = true))

include unnoted

theorem exec_sessionPark_noted (works : (sessWork s.dev i).isSome = true) : exec (.sessionPark r) s = .next (s.settled
    (updFlight (dispatched (updRec s.dev i (fun x => { x with parking := some (r, f.id) })) r f.id) r f.id
      (fun g => { g with holds := true }))) :=
  exec_to (exec_live rfl gate names live unwound) ((if_neg unnoted).trans (if_pos works))

theorem exec_sessionPark_decided (idle : sessWork s.dev i = none) {p : Dev × Bool × Bool}
    (hp : p = parkNow (dispatched s.dev r f.id) i (db f.desc 24 1) (some (r, f.id))) (decided : p.2.1 = true) :
    exec (.sessionPark r) s = .next (s.settled p.1) := by
  subst hp
  exact exec_to (exec_live rfl gate names live unwound)
    ((if_neg unnoted).trans ((if_neg (by simp [idle])).trans (if_pos decided)))

end

/-! ### Cuts and trims (07 R223, R225, R226) -/

theorem exec_sessionCut_starts (gate : pastGate s.dev r 0x05 f) (names : namesRecord s.dev f i)
    (live : (recOf s.dev i).state ∈ [RecState.active, .paused, .parked]) (unwound : (recOf s.dev i).rewound = false) :
    exec (.sessionCut r) s = .next (s.settled (cutSession s.dev r f i)) := by
  refine exec_to (exec_pastGate rfl gate) ?_
  have ⟨named, _, uncut, _⟩ := names
  have starts := withSess_names (ok := fun _ _ => true) (expired := false) (rewound := false) names live (by simp [unwound]) rfl r
    (cutSession s.dev r f)
  dsimp only
  rw [← named]
  split
  · exact (if_neg fun ⟨_, pending⟩ => uncut pending).trans starts
  · exact starts

theorem exec_sessionCut_again {sl : Nat} (gate : pastGate s.dev r 0x05 f) (named : i = dSel f.desc % 2 ^ 24)
    (gen : (recOf s.dev i).gen = dSel f.desc / 2 ^ 24) (placed : (recOf s.dev i).slot = some sl)
    (pending : ctxStateOf s.dev i = .cutPending) : exec (.sessionCut r) s = .next (s.settled
      (strSpecial (dispatched s.dev r f.id) sl { bytes := [], ring := r, id := f.id, status := stOK, result := 0 })) := by
  refine exec_to (exec_pastGate rfl gate) ?_
  dsimp only
  rw [← named, placed]
  exact if_pos ⟨gen, pending⟩

section

variable (gate : pastGate s.dev r 0x06 f) (names : namesRecord s.dev f i)
  (live : (recOf s.dev i).state ∈ [RecState.active, .paused, .parked]) (unwound : (recOf s.dev i).rewound = false)

include gate names live unwound

theorem exec_sessionTrim_longer (idle : sessWork s.dev i = none) (longer : (recOf s.dev i).len < db f.desc 24 4) :
    exec (.sessionTrim r) s = .next (s.settled (finish s.dev r f.id stStateConflict (conflictOf s.dev i))) :=
  exec_to (exec_live rfl gate names live unwound) (if_pos ⟨by simp [idle], longer⟩)

theorem exec_sessionTrim_joins (joins : (sessWork s.dev i).isSome = true ∨ db f.desc 24 4 ≤ (recOf s.dev i).len) :
    exec (.sessionTrim r) s = .next (s.settled (addEdit (dispatched s.dev r f.id) i (.trim (db f.desc 24 4) r f.id))) :=
  exec_to (exec_live rfl gate names live unwound) (if_neg fun ⟨idle, longer⟩ =>
    joins.elim (fun works => by simp [Option.isNone_iff_eq_none.1 idle] at works) (Nat.not_le.2 longer))

end

end

/-! ### Resumes (07 R220 to R222, R228) -/

/-- A resume names a session that waits for it: rewound just if the resume acknowledges that, and of the state class of the new recipe,
if it is bound to one. -/
structure Resumable (d : Dev) (f : Flight) (i : Nat) : Prop where
  names : namesRecord d f i
  idle : (recOf d i).state ∈ [RecState.paused, .parked]
  rewound : (recOf d i).rewound = bitOf (db f.desc 25 1) 1
  rebinds : bitOf (db f.desc 25 1) 0 = true → rcpCurrent d (db f.desc 26 2) = true ∧
    (rcpOf d (rcpIndex (db f.desc 26 2))).state = .loaded ∧
    (rcpOf d (rcpIndex (db f.desc 26 2))).stateClass = (rcpFor d (recOf d i)).stateClass

/-- What a resume asks of the session (07 R220 to R222, R228). -/
def resumeFits (d : Dev) (f : Flight) (x : Rec) : Bool :=
  (x.state == .paused || x.state == .parked) && (!bitOf (db f.desc 25 1) 1 || x.rewound)
    && (!bitOf (db f.desc 25 1) 0 || ((rcpOf d (rcpIndex (db f.desc 26 2))).state == .loaded
      && (rcpOf d (rcpIndex (db f.desc 26 2))).stateClass == (rcpFor d x).stateClass))

theorem Resumable.fits {d : Dev} {f : Flight} {i : Nat} (able : Resumable d f i) : resumeFits d f (recOf d i) = true := by
  obtain ⟨-, idle, rewound, rebinds⟩ := able
  have rests : (recOf d i).state = .paused ∨ (recOf d i).state = .parked := by simpa using idle
  cases bound : bitOf (db f.desc 25 1) 0
  · simp [resumeFits, rests, rewound, bound]
  · obtain ⟨-, loaded, sameClass⟩ := rebinds bound
    simp [resumeFits, rests, rewound, bound, loaded, sameClass]

/-- The checks of a resume, its handles first. -/
theorem Resumable.passes {d : Dev} {f : Flight} {i : Nat} (able : Resumable d f i) (r : Nat) (stale : Dev) (go : Nat → Dev) :
    (if (recOf d (dSel f.desc % 2 ^ 24)).gen = dSel f.desc / 2 ^ 24 ∧ bitOf (db f.desc 25 1) 0 = true ∧
        (!rcpCurrent d (db f.desc 26 2)) = true then stale
      else withSess d r f (sessCheck d (dSel f.desc) false (bitOf (db f.desc 25 1) 1) (fun x _ => resumeFits d f x)) go) = go i := by
  have live : (recOf d i).state ∈ [RecState.active, .paused, .parked] := List.mem_cons_of_mem _ able.idle
  rw [if_neg fun ⟨_, bound, old⟩ => by simp [(able.rebinds bound).1] at old,
    withSess_names able.names live (by simp [able.rewound]) able.fits]

theorem exec_sessionResume {s : State} {r : Nat} {f : Flight} (gate : pastGate s.dev r 0x04 f) :
    exec (.sessionResume r) s = .next (s.settled (sessionResume s.dev r f)) := exec_pastGate (go := (sessionResume · r ·)) rfl gate

/-- A record with the recipe that a resume asks for. -/
def reboundRec (f : Flight) (x : Rec) : Rec := if bitOf (db f.desc 25 1) 0 then { x with recipe := db f.desc 26 2 } else x

/-- A placed session that a resume has made active. -/
def resumedHere (d : Dev) (f : Flight) (i sl : Nat) : Dev :=
  updSlot (updRec (if bitOf (db f.desc 25 1) 0 then updRec d i (fun x => { x with recipe := db f.desc 26 2 }) else d) i
    (fun x => { x with state := .active, pausedAt := none })) sl (fun x => { x with state := .opened })

theorem recOf_resumedHere (d : Dev) (f : Flight) (i sl j : Nat) : recOf (resumedHere d f i sl) j =
    if j = i then { reboundRec f (recOf d i) with state := .active, pausedAt := none } else recOf d j := by
  rw [resumedHere, recOf_updSlot, recOf_updRec, reboundRec]
  cases bitOf (db f.desc 25 1) 0 with
  | false => rfl
  | true =>
    simp only [if_true, recOf_updRec]
    split <;> rfl

theorem slotOf_resumedHere (d : Dev) (f : Flight) (i sl n : Nat) : slotOf (resumedHere d f i sl) n =
    if n = sl then { slotOf d sl with state := .opened } else slotOf d n := by
  rw [resumedHere, slotOf_updSlot, slotOf_updRec, slotOf_updRec]
  cases bitOf (db f.desc 25 1) 0 <;> rfl

theorem resumedHere_seq (d : Dev) (f : Flight) (i sl : Nat) : (resumedHere d f i sl).seq = d.seq := by
  rw [resumedHere]
  cases bitOf (db f.desc 25 1) 0 <;> rfl

section

variable {d : Dev} {r i : Nat} {f : Flight} (able : Resumable d f i)

include able

theorem sessionResume_placed {sl : Nat} (placed : (recOf d i).slot = some sl) :
    sessionResume d r f = finish (resumedHere d f i sl) r f.id stOK sl :=
  (able.passes r _ _).trans (by simp only [placed]; rfl)

variable (unplaced : (recOf d i).slot = none)

include unplaced

theorem sessionResume_moves (moves : sessGroups d i ≠ []) : sessionResume d r f = resumeHeld d r f.id :=
  (able.passes r _ _).trans (by simp [unplaced, moves])

variable (still : sessGroups d i = [])

include still

theorem sessionResume_noSlot {e : Dev} (full : pickSlot d (recOf d i).client = (none, e)) :
    sessionResume d r f = finish d r f.id stQuota 0 :=
  (able.passes r _ _).trans (by simp [unplaced, still, full])

theorem sessionResume_goes {sl : Nat} {ks fs : List Nat} {d1 d2 d3 : Dev} (picked : pickSlot d (recOf d i).client = (some sl, d1))
    (hks : ks = bringPages (recOf d i) (db f.desc 24 1)) (room : makeRoom d1 f.spared i (pageSize * ks.length) = .ok d2)
    (found : alloc d2 (recOf d i).client 1 ks.length = .ok fs d3) : sessionResume d r f = resumeGo d3 r f i sl ks fs := by
  subst hks
  exact (able.passes r _ _).trans (by simp [unplaced, still, picked, room, found])

end

/-! ### What a trim keeps (07 R226; 06 R176) -/

theorem mapM_length {α β : Type} (g : α → W β) (l : List α) : (W.mapM g l).v.length = l.length := by
  induction l with
  | nil => rfl
  | cons a l ih => exact congrArg (· + 1) ih

theorem carryOf_length (log : List Nat) : (carryOf log).length = 7 := by
  simp only [carryOf, List.length_append, List.length_replicate, List.length_drop]
  omega

theorem trimRec_damaged (m : Model) (n : Nat) (x : Rec) : (trimRec m n x).v.damaged = true ↔
    x.damaged = true ∧ ∀ w, x.damagedWin = some w → 256 * w < n := by
  have kept : (trimRec m n x).v.damaged = (x.damaged && !(x.damagedWin.any (fun w => decide (n ≤ 256 * w)))) := rfl
  rw [kept, Bool.and_eq_true, Bool.not_eq_true', Option.any_eq_false]
  simp

/-- Settles O36. That a command waits while a pause or park is noted, and how a second cut is ordered, is log entry 50; that the ready
bytes stay over a trim is log entry 58. -/
theorem parkResumeCutAndTrim : Obligations.ParkResumeCutAndTrim := by
  unfold Obligations.ParkResumeCutAndTrim
  refine ⟨?_, ?_⟩
  · rintro s r i f x rfl names live
    refine ⟨?park, ?resume, fun gate unwound => exec_sessionCut_starts gate names live unwound,
      fun g j sl gate named gen placed pending => exec_sessionCut_again gate named gen placed pending,
      fun gate unwound => ⟨exec_sessionTrim_longer gate names live unwound, exec_sessionTrim_joins gate names live unwound⟩⟩
    case park =>
      intro p gate unwound hp
      refine ⟨fun unpaused unparked => ?_, exec_sessionPark_waits gate names live unwound⟩
      have unnoted : ¬ ((recOf s.dev i).pausing.isSome = true ∨ (recOf s.dev i).parking.isSome = true) := by simp [unpaused, unparked]
      refine ⟨fun idle => exec_sessionPark_decided gate names live unwound unnoted idle hp, fun works =>
        ⟨_, exec_sessionPark_noted gate names live unwound unnoted works, recOf_updRec_same .., fun j other => ?_, rfl, rfl⟩⟩
      rw [recOf_updRec, if_neg other]
    case resume =>
      rintro y ack rebind gate idle rfl rfl rewound rebinds rfl
      have able : Resumable s.dev f i := ⟨names, idle, rewound, rebinds⟩
      rw [exec_sessionResume gate]
      refine ⟨fun sl placed _ => ⟨resumedHere s.dev f i sl, by rw [sessionResume_placed able placed], ?_⟩,
        fun sl ks fs d1 d2 d3 unplaced still picked hks room found => by
          rw [sessionResume_goes able unplaced still picked hks room found],
        fun d1 unplaced still full => by rw [sessionResume_noSlot able unplaced still full],
        fun unplaced moves => by rw [sessionResume_moves able unplaced moves]⟩
      simp only [recOf_resumedHere, slotOf_resumedHere, resumedHere_seq, if_true]
      exact ⟨rfl, trivial, fun j other => if_neg other, fun j other => if_neg other, trivial⟩
  · rintro m n x t rfl
    exact ⟨rfl, rfl, rfl, carryOf_length _, rfl, rfl, rfl, rfl, rfl, rfl, mapM_length _ _, trimRec_damaged m n x⟩

end Sys2Proof.Machine
end

section
/-!
PROOFS. Counting, charging, programming and taking frames leave tables and contexts as they are (08 R250; 10 R289 to R291, R298; 11 R315,
R316).
-/

namespace Sys2Proof.Machine

/-! ### Counters, events and accounts (08 R250; 15 R420) -/

/-- Contexts, tables and posted writes are as they were. -/
structure LeavesTables (d e : Dev) : Prop where
  posted : e.posted = d.posted
  ctx : e.ctx = d.ctx
  tbl : e.txt.tbl = d.txt.tbl

namespace LeavesTables

variable {a b c : Dev}

theorem refl (a : Dev) : LeavesTables a a := ⟨rfl, rfl, rfl⟩

theorem trans (h : LeavesTables a b) (k : LeavesTables b c) : LeavesTables a c :=
  ⟨k.posted.trans h.posted, k.ctx.trans h.ctx, k.tbl.trans h.tbl⟩

/-- After a change of none of these. -/
theorem after (h : LeavesTables b c) (posted : b.posted = a.posted := by rfl) (ctx : b.ctx = a.ctx := by rfl)
    (tbl : b.txt.tbl = a.txt.tbl := by rfl) : LeavesTables a c :=
  .trans ⟨posted, ctx, tbl⟩ h

/-- Tables are read the same. -/
theorem tblOf (h : LeavesTables a b) (n : Nat) : tblOf b n = Machine.tblOf a n := by rw [Machine.tblOf, h.tbl]; rfl

theorem foldl {α : Type} {f : Dev → α → Dev} (each : ∀ d a, LeavesTables d (f d a)) (l : List α) (d : Dev) :
    LeavesTables d (l.foldl f d) :=
  List.foldlRecOn l f (.refl d) fun e h a _ => h.trans (each e a)

end LeavesTables

theorem leavesTables_freshBelow (d : Dev) (n : Nat) : LeavesTables d (freshBelow d n).2 := ⟨rfl, rfl, rfl⟩

theorem leavesTables_fbump (d : Dev) (g : Fd) (k b : Nat) : LeavesTables d (fbump d g k b) := by constructor <;> simp

theorem leavesTables_updAcct (d : Dev) (c : Nat) (g : Acct → Acct) : LeavesTables d (updAcct d c g) := ⟨rfl, rfl, rfl⟩

theorem leavesTables_raiseMany (d : Dev) (f : Fd) (n : Nat) : LeavesTables d (raiseMany d f n) := by
  dsimp only [raiseMany]
  split
  · exact .refl d
  · constructor <;> simp

theorem leavesTables_chargeTier (d : Dev) (a t n : Nat) : LeavesTables d (chargeTier d a t n) := ⟨rfl, rfl, rfl⟩

theorem leavesTables_ladleCharge (d : Dev) (a : Nat) (v : TVer) (distinct total : Nat) (rows : List Nat) :
    LeavesTables d (ladleCharge d a v distinct total rows) := by
  refine .trans (.foldl (fun e t => ?_) _ d) ⟨rfl, rfl, rfl⟩
  split
  · exact leavesTables_chargeTier ..
  · exact .refl e

theorem leavesTables_programAt (d : Dev) (o : MoveOf) (ks : List Nat) : LeavesTables d (programAt d o ks) := by
  refine .foldl (fun e k => ?_) ks d
  split
  · split
    · dsimp only [nandProgram]
      split <;> exact ⟨rfl, rfl, rfl⟩
    · exact .refl e
  · exact .refl e

/-! ### Frames that are taken (10 R289 to R291, R298; 11 R315, R316) -/

theorem leavesTables_pickFree (n total : Nat) (used : List Nat) (d : Dev) : LeavesTables d (pickFree n total used d).2 := by
  rw [onlyFresh_pickFree n total used d]
  exact ⟨rfl, rfl, rfl⟩

theorem leavesTables_takeFar (n : Nat) : ∀ (used : List Nat) (d : Dev), LeavesTables d (takeFar n used d).2 := by
  induction n with
  | zero => exact fun _ d => .refl d
  | succ n ih =>
    intro used d
    dsimp only [takeFar]
    split
    · exact .refl d
    · exact .after (ih _ _)

theorem leavesTables_flsNext {d e : Dev} {taken : List Nat} {p f : Nat} (h : flsNext d taken p = (f, e)) : LeavesTables d e := by
  obtain rfl : (flsNext d taken p).2 = e := by rw [h]
  dsimp only [flsNext]
  split <;> split <;> exact ⟨rfl, rfl, rfl⟩

theorem leavesTables_flsTake {d e : Dev} {taken : List Nat} {f : Nat} (h : flsTake d taken = some (f, e)) : LeavesTables d e := by
  dsimp only [flsTake] at h
  split at h
  · cases h
  · split at h
    · cases h
    · exact (leavesTables_flsNext (Option.some.inj h)).after

theorem leavesTables_flsTakes (n : Nat) : ∀ {taken fs : List Nat} {d e : Dev}, flsTakes n taken d = some (fs, e) →
    LeavesTables d e := by
  induction n with
  | zero => intro taken fs d e h; cases h; exact .refl d
  | succ n ih =>
    intro taken fs d e h
    dsimp only [flsTakes] at h
    split at h
    · cases h
    · next took =>
      obtain ⟨⟨gs, e'⟩, rest, same⟩ := Option.map_eq_some_iff.1 h
      cases same
      exact (leavesTables_flsTake took).trans (ih rest)

theorem leavesTables_sealed (d : Dev) (t : Nat) : LeavesTables d (sealed d t).2 := by
  dsimp only [sealed]
  split <;> exact ⟨rfl, rfl, rfl⟩

theorem leavesTables_sealSlots (fs : List Nat) : ∀ {extra : List Nat} {d e : Dev}, sealSlots fs extra d = some e →
    LeavesTables d e := by
  induction fs with
  | nil => intro extra d e h; cases h; exact .refl d
  | cons f fs ih =>
    intro extra d e h
    dsimp only [sealSlots] at h
    split at h
    · exact (ih h).after
    · split at h
      · cases h
      · split at h
        · cases h
        · have rest := ih h
          exact (leavesTables_takeFar 1 (usedFrames d 2 ++ extra) d).trans ((leavesTables_sealed _ 2).trans rest.after)

theorem leavesTables_takeT4 {n : Nat} {d e : Dev} {fs : List Nat} (h : takeT4 n d = some (fs, e)) : LeavesTables d e := by
  dsimp only [takeT4] at h
  split at h
  · cases h
  · next took =>
    obtain ⟨e', slots, same⟩ := Option.map_eq_some_iff.1 h
    cases same
    exact ((leavesTables_flsTakes n took).trans (leavesTables_sealSlots _ slots)).after

/-- An allocation changes memory and flash, and neither tables nor contexts. -/
theorem leavesTables_alloc {d e : Dev} {c t n : Nat} {fs : List Nat} (h : alloc d c t n = .ok fs e) : LeavesTables d e := by
  dsimp only [alloc] at h
  split at h
  · cases h; exact .refl d
  split at h
  · cases h
  split at h
  · cases h
  split at h
  · cases h
  split at h
  · split at h
    · cases h
      exact leavesTables_takeT4 ‹_›
    · cases h
  split at h
  · cases h
  split at h
  · cases h
  split at h
  · cases h
  split at h
  · cases h
    exact leavesTables_takeFar n _ d
  · cases h
    exact leavesTables_pickFree n _ _ d

theorem leavesTables_locsAt (d : Dev) (t : Nat) (fs : List Nat) : LeavesTables d (locsAt d t fs).2 :=
  List.foldlRecOn (motive := fun x : List Loc × Dev => LeavesTables d x.2) fs _ (.refl d)
    fun x h _ _ => h.trans (leavesTables_sealed x.2 t)

end Sys2Proof.Machine
end

section
/-!
PROOFS. Commands of tables and colanders (08 R239 to R249; 09 R261 to R265): what `TABLE_LOAD`, `TABLE_SWAP`, `GATHER_POOL` and
`CONSTRAINT_LOAD` do past their gates.
-/

namespace Sys2Proof.Machine

/-! ### Past the gates, and tables of another client (08 R240) -/

section

variable {s : State} {d : Dev} {r : Nat} {f : Flight}

theorem exec_tableLoad (h : pastGate s.dev r 0x30 f) (rows : List Byte) :
    exec (.tableLoad r rows) s = .next (s.settled (tableLoad s.dev r f rows)) :=
  exec_pastGate (go := (tableLoad · r · rows)) rfl h

theorem exec_tableSwap (h : pastGate s.dev r 0x31 f) : exec (.tableSwap r) s = .next (s.settled (tableSwap s.dev r f)) :=
  exec_pastGate (go := (tableSwap · r ·)) rfl h

theorem exec_gatherPool (h : pastGate s.dev r 0x32 f) (indices : List Byte) (inc : List Incident) :
    exec (.gatherPool r indices inc) s = .next (s.settled (gatherPool s.dev r f indices inc)) :=
  exec_pastGate (go := (gatherPool · r · indices inc)) rfl h

theorem exec_constraintLoad (h : pastGate s.dev r 0x78 f) (list : List Byte) :
    exec (.constraintLoad r list) s = .next (s.settled (constraintLoad s.dev r f list)) :=
  exec_pastGate (go := (constraintLoad · r · list)) rfl h

section Foreign

variable (other : tblForeign d (dSel f.desc % 64) (sqClient d r) = true)

include other

theorem tableLoad_foreign (rows : List Byte) : tableLoad d r f rows = finish d r f.id stSecurity 0 := if_pos other

theorem tableSwap_foreign : tableSwap d r f = finish d r f.id stSecurity 0 := if_pos other

theorem gatherPool_foreign (indices : List Byte) (inc : List Incident) :
    gatherPool d r f indices inc = finish d r f.id stSecurity 0 := if_pos other

end Foreign

/-! ### Swapping (08 R243, R244) -/

/-- A table without a current version, or with fewer than two old ones, does not keep a displaced one waiting (08 R244;
09 R265). -/
theorem not_oldFull {α β : Type} {cur : Option α} {old : List β} (place : cur = none ∨ old.length < 2) :
    ¬ (cur.isSome = true ∧ 2 ≤ old.length) := by
  rintro ⟨held, full⟩
  rcases place with rfl | short
  · cases held
  · omega

/-- The number of a version; none shows 0. -/
def verNum (v : Option TVer) : Nat := match v with | some v => v.num | none => 0

/-- Is the current version of a table bound by work in flight? -/
def curBound (d : Dev) (n : Nat) : Bool := match (tblOf d n).cur with | some v => tblBound d n v.num | none => false

/-- A table after a swap. -/
def swapped (t : Tbl) (drop bound : Bool) : Tbl :=
  { t with cur := if drop then none else t.staged, staged := none, old := if bound then t.cur.toList ++ t.old else t.old }

/-- The device with a table swapped, and the event of a current version that no work binds. -/
def swapDone (d : Dev) (n : Nat) (drop : Bool) : Dev :=
  let e := setTbl d n (swapped (tblOf d n) drop (curBound d n))
  if (tblOf d n).cur.isSome ∧ !curBound d n then raise e Fd.TXT_EVT_version_freed else e

theorem swapDone_txt (d : Dev) (n : Nat) (drop : Bool) :
    (swapDone d n drop).txt = (setTbl d n (swapped (tblOf d n) drop (curBound d n))).txt := by
  dsimp only [swapDone]
  split <;> simp

theorem tblOf_swapDone (d : Dev) (n : Nat) (drop : Bool) (m : Nat) :
    tblOf (swapDone d n drop) m = if m = n then swapped (tblOf d n) drop (curBound d n) else tblOf d m := by
  rw [← tblOf_setTbl, tblOf, swapDone_txt]; rfl

@[simp] theorem swapDone_ctx (d : Dev) (n : Nat) (drop : Bool) : (swapDone d n drop).ctx = d.ctx := by
  dsimp only [swapDone]
  split <;> simp

theorem swapDone_freed {n : Nat} (drop : Bool) (held : (tblOf d n).cur.isSome = true) (unbound : curBound d n = false) :
    evSet (swapDone d n drop) Fd.TXT_EVT_version_freed = true := by
  simp [swapDone, held, unbound]

section Swap

variable {n : Nat} (hn : n = dSel f.desc % 64) (own : tblForeign d n (sqClient d r) = false)

include hn own

theorem tableSwap_stale (checked : bitOf (db f.desc 28 1) 0 = true) (stale : verNum (tblOf d n).cur ≠ db f.desc 24 4) :
    tableSwap d r f = finish d r f.id stStaleVersion (verNum (tblOf d n).cur) := by
  subst hn
  exact (if_neg (by simp [own])).trans (if_pos ⟨checked, stale⟩)

/-- A swap past its checks either waits for an old version or is done at once. -/
theorem tableSwap_checked (fits : bitOf (db f.desc 28 1) 0 = false ∨ verNum (tblOf d n).cur = db f.desc 24 4)
    (ready : bitOf (db f.desc 28 1) 1 = false →
      ∃ v, (tblOf d n).staged = some v ∧ (v.kind = 2 ∨ v.order ≠ 0 → fullyLoaded v = true)) :
    tableSwap d r f = if (tblOf d n).cur.isSome ∧ 2 ≤ (tblOf d n).old.length then d
      else finish (swapDone d n (bitOf (db f.desc 28 1) 1)) r f.id stOK
        (verNum (if bitOf (db f.desc 28 1) 1 then none else (tblOf d n).staged)) := by
  subst hn
  refine (if_neg (by simp [own])).trans ((if_neg ?_).trans ((if_neg ?_).trans rfl))
  · rintro ⟨checked, stale⟩
    rcases fits with unchecked | same
    · simp [unchecked] at checked
    · exact stale same
  · cases drop : bitOf (db f.desc 28 1) 1 with
    | true => simp
    | false =>
      obtain ⟨v, staged, full⟩ := ready drop
      simp only [staged]
      simpa [or_imp, Decidable.imp_iff_not_or] using full

end Swap

/-! ### Loading (08 R239 to R242; 16 R441) -/

/-- The version that a load enters its rows into: the staged one, or a new one. -/
def loadVer (d : Dev) (n : Nat) (x : Desc) : TVer :=
  if bitOf (db x 45 1) 0 then newVersion d n x else (tblOf d n).staged.getD (newVersion d n x)

/-- The tier of a load's new pages: that of the pages there are, else the hint, else the version's own. -/
def loadPlace (d : Dev) (n : Nat) (x : Desc) : Nat :=
  let v := loadVer d n x
  if bitOf (db x 45 1) 0 then (tblOf d n).hint.getD v.tier
  else match v.pages with | p :: _ => p.2.tier | [] => (tblOf d n).hint.getD v.tier

/-- The pages that a load's rows lie in. -/
def loadPages (d : Dev) (n : Nat) (x : Desc) : List Nat :=
  let v := loadVer d n x
  rowPages v (db x 44 1) (db x 40 4) (db x 36 4 / max 1 (rowBytes v.fmt v.dim))

/-- Those of them that need a frame: the ones that have none, and the ones in T4. -/
def loadWant (d : Dev) (n : Nat) (x : Desc) : List Nat :=
  (loadPages d n x).filter (fun p => match look (loadVer d n x).pages p with | none => true | some l => l.tier == 4)

/-- A load of a new version gives up the staged one. -/
def loadFrom (d : Dev) (n : Nat) (x : Desc) : Dev :=
  if bitOf (db x 45 1) 0 then setTbl d n { tblOf d n with staged := none } else d

/-- The rows that a load has brought, entered into its version. -/
def loadEntered (d : Dev) (n : Nat) (x : Desc) (bs : List Byte) : TVer :=
  let v := loadVer d n x
  enterRows v (db x 44 1) (db x 40 4) (pieces (max 1 (rowBytes v.fmt v.dim)) bs)

/-- The version that is staged after a load, with the locations of its new pages. -/
def loadStaged (d : Dev) (n : Nat) (x : Desc) (bs : List Byte) (ls : List Loc) : TVer :=
  let u := loadEntered d n x bs
  { u with
    pages := ((loadWant d n x).zip ls).foldl (fun (p : NMap Loc) kl => put p kl.1 kl.2) u.pages,
    wrapped := u.wrapped || bitOf (db x 45 1) 1 }

/-- A new version takes the next name, and its table's counters start again. -/
def loadNamed (e : Dev) (n : Nat) (isNew : Bool) : Dev :=
  let e := if isNew then { e with mem := { e.mem with nextSerial := e.mem.nextSerial + 1 } } else e
  if isNew then fset (fset e Fd.TXT_TBL_CNT_invalid 0 n) Fd.TXT_TBL_CNT_missing 0 n else e

/-- The device `e`, in which the frames of a load are taken, with the version `u` staged, its pages programmed and charged. -/
def loadDone (d e : Dev) (r n : Nat) (x : Desc) (u : TVer) : Dev :=
  let isNew := bitOf (db x 45 1) 0
  let e := loadNamed e n isNew
  let t := tblOf e n
  let e := setTbl e n { t with client := sqClient d r, staged := some u, last := if isNew then u.num else t.last }
  chargeTier (programAt e (.table n u.num) (loadPages d n x)) (sqClient d r) (loadPlace d n x) (db x 36 4)

/-- What a load answers to the allocation of its pages. -/
def loadAnswer (d : Dev) (r n : Nat) (f : Flight) (rows : List Byte) : Alloc → Dev
  | .quota _ => finish d r f.id stQuota 0
  | .noFit _ => let (v, d) := freshBelow d (2 ^ 32); finish d r f.id stNoFit v
  | .waits => d
  | .ok fs e =>
    match loadRows d f.desc rows with
    | none => finish d r f.id stSecurity 0
    | some bs =>
      let (ls, e) := locsAt e (loadPlace d n f.desc) fs
      finish (loadDone d e r n f.desc (loadStaged d n f.desc bs ls)) r f.id stOK (loadVer d n f.desc).num

theorem loadAnswer_opened {rows bs : List Byte} (opened : loadRows d f.desc rows = some bs) (n : Nat) (fs : List Nat) (e : Dev) :
    loadAnswer d r n f rows (.ok fs e) = finish (loadDone d (locsAt e (loadPlace d n f.desc) fs).2 r n f.desc
      (loadStaged d n f.desc bs (locsAt e (loadPlace d n f.desc) fs).1)) r f.id stOK (loadVer d n f.desc).num := by
  rw [loadAnswer, opened]

theorem loadAnswer_unopened {rows : List Byte} (unopened : loadRows d f.desc rows = none) (n : Nat) (fs : List Nat) (e : Dev) :
    loadAnswer d r n f rows (.ok fs e) = finish d r f.id stSecurity 0 := by
  rw [loadAnswer, unopened]

theorem leavesTables_loadNamed (e : Dev) (n : Nat) (isNew : Bool) : LeavesTables e (loadNamed e n isNew) := by
  cases isNew <;> constructor <;> simp [loadNamed]

theorem tblOf_loadFrom (d : Dev) (n : Nat) (x : Desc) :
    (tblOf (loadFrom d n x) n).cur = (tblOf d n).cur ∧ ∀ m, m ≠ n → tblOf (loadFrom d n x) m = tblOf d m := by
  unfold loadFrom
  split
  · exact ⟨by rw [tblOf_setTbl, if_pos rfl], fun m other => by rw [tblOf_setTbl, if_neg other]⟩
  · exact ⟨rfl, fun _ _ => rfl⟩

theorem loadFrom_ctx (d : Dev) (n : Nat) (x : Desc) : (loadFrom d n x).ctx = d.ctx := by
  unfold loadFrom
  split <;> rfl

theorem tblOf_loadDone (d e : Dev) (r n : Nat) (x : Desc) (u : TVer) (m : Nat) : tblOf (loadDone d e r n x u) m =
    if m = n then { tblOf e n with
      client := sqClient d r, staged := some u, last := if bitOf (db x 45 1) 0 then u.num else (tblOf e n).last }
    else tblOf e m := by
  have named := leavesTables_loadNamed e n (bitOf (db x 45 1) 0)
  rw [loadDone, ((leavesTables_programAt ..).trans (leavesTables_chargeTier ..)).tblOf m, tblOf_setTbl, named.tblOf n, named.tblOf m]

theorem loadDone_ctx (d e : Dev) (r n : Nat) (x : Desc) (u : TVer) : (loadDone d e r n x u).ctx = e.ctx :=
  ((leavesTables_programAt ..).trans (leavesTables_chargeTier ..)).ctx.trans (leavesTables_loadNamed e n _).ctx

section Load

variable {n : Nat} (hn : n = dSel f.desc % 64) (own : tblForeign d n (sqClient d r) = false)
  (recipe : db f.desc 61 1 ≠ 0 ∨ bitOf (db f.desc 45 1) 1 = true → rcpCurrent d (db f.desc 46 2) = true)
  (fits : loadConflict d n f.desc = false)

include hn own recipe fits

theorem tableLoad_checked (rows : List Byte) : tableLoad d r f rows = loadAnswer d r n f rows
    (alloc (loadFrom d n f.desc) (sqClient d r) (loadPlace d n f.desc) (loadWant d n f.desc).length) := by
  subst hn
  have current : ¬ ((db f.desc 61 1 ≠ 0 || bitOf (db f.desc 45 1) 1) = true ∧ (!rcpCurrent d (db f.desc 46 2)) = true) := by
    simpa using recipe
  exact (if_neg (by simp [own])).trans ((if_neg current).trans ((if_neg (by simp [fits])).trans rfl))

end Load

/-! ### Gathering (08 R245 to R248, R250) -/

/-- The device after a gather's own checks and the faults that it met. -/
def gatherMet (d : Dev) (r : Nat) (f : Flight) (inc : List Incident) : Dev :=
  suffer (countChecks (dispatched d r f.id) inc Fd.TXT_CRC_CNT_transient Fd.TXT_CRC_CNT_lasting Fd.TXT_EVT_crc_transient
    Fd.TXT_EVT_crc_lasting) inc

/-- The valid rows of each bag of a gather, and the numbers that are invalid and missing. -/
def gatherBags (v : TVer) (f : Flight) (indices : List Byte) : List (List Nat × Nat × Nat) :=
  let lens := (List.range (db f.desc 60 2)).map (fun k => leAt f.list (4 * k) 4)
  (bagsOf lens ((List.range (sumN lens)).map (fun k => leAt indices (4 * k) 4))).map (bagValid v)

def bagsInvalid (bags : List (List Nat × Nat × Nat)) : Nat := sumN (bags.map (fun b => b.2.1))
def bagsMissing (bags : List (List Nat × Nat × Nat)) : Nat := sumN (bags.map (fun b => b.2.2))

/-- The pooled bags, as they are posted. -/
def gatherBytes (v : TVer) (f : Flight) (bags : List (List Nat × Nat × Nat)) : List Byte :=
  (bags.map (fun b => (poolBag v (bitOf (db f.desc 62 1) 0) b.1).v)).flatMap (fun p => p.flatMap (fun e => leBytes 4 e.toNat))

/-- The counters, events and accounts of a gather. -/
def gatherCounted (d : Dev) (n c : Nat) (v : TVer) (bags : List (List Nat × Nat × Nat)) : Dev :=
  let d := fbump (fbump d Fd.TXT_TBL_CNT_invalid (bagsInvalid bags) n) Fd.TXT_TBL_CNT_missing (bagsMissing bags) n
  let d := raiseMany (raiseMany d Fd.TXT_EVT_row_invalid (bagsInvalid bags)) Fd.TXT_EVT_row_missing (bagsMissing bags)
  let d := raiseMany d Fd.TXT_EVT_count_split (sumN (bags.map (fun b =>
    sumN ((segmentsBy b.1.length b.1).map (fun s => (s.dedup.filter (fun i => decide (2 ^ 24 < s.count i))).length)))))
  let d := updAcct d c (fun a => { a with dropped := a.dropped + bagsInvalid bags + bagsMissing bags })
  (bags.flatMap (fun b => segmentsBy b.1.length b.1)).foldl (fun d s => ladleCharge d c v s.dedup.length s.length s.dedup) d

theorem leavesTables_gatherCounted (d : Dev) (n c : Nat) (v : TVer) (bags : List (List Nat × Nat × Nat)) :
    LeavesTables d (gatherCounted d n c v bags) := by
  have counted := (leavesTables_fbump d Fd.TXT_TBL_CNT_invalid (bagsInvalid bags) n).trans
    (leavesTables_fbump _ Fd.TXT_TBL_CNT_missing (bagsMissing bags) n)
  have raised := (counted.trans (leavesTables_raiseMany _ Fd.TXT_EVT_row_invalid (bagsInvalid bags))).trans
    (leavesTables_raiseMany _ Fd.TXT_EVT_row_missing (bagsMissing bags))
  exact (raised.trans (leavesTables_raiseMany ..)).trans
    ((leavesTables_updAcct ..).trans (.foldl (fun _ _ => leavesTables_ladleCharge ..) _ _))

section Gather

variable {n : Nat} (hn : n = dSel f.desc % 64) (own : tblForeign d n (sqClient d r) = false) {v : TVer}
  (cur : (tblOf d n).cur = some v)

include hn own cur

theorem gatherPool_checked (indices : List Byte) (inc : List Incident) : gatherPool d r f indices inc =
    if v.damaged then finish (damagedReport d n v).1 r f.id stIntegrity (damagedReport d n v).2
    else if db f.desc 56 4 < 4 * v.dim * db f.desc 60 2 then finish d r f.id stBoundExceeded 56
    else if (lastingTile inc).isSome then
      finish (tableDamaged (gatherMet d r f inc) n v).1 r f.id stIntegrity (tableDamaged (gatherMet d r f inc) n v).2
    else
      let bags := gatherBags v f indices
      finish (gatherCounted (hostWrite (gatherMet d r f inc) r (db f.desc 48 8) (gatherBytes v f bags)) n (sqClient d r) v bags) r f.id
        stOK (sat32 (bagsInvalid bags + bagsMissing bags)) := by
  subst hn
  refine (if_neg (by simp [own])).trans ?_
  rw [cur]
  rfl

theorem gatherPool_damaged (damaged : v.damaged = true) (indices : List Byte) (inc : List Incident) :
    gatherPool d r f indices inc = finish (damagedReport d n v).1 r f.id stIntegrity (damagedReport d n v).2 := by
  rw [gatherPool_checked hn own cur, if_pos damaged]

theorem gatherPool_tooLarge (whole : v.damaged = false) (large : db f.desc 56 4 < 4 * v.dim * db f.desc 60 2) (indices : List Byte)
    (inc : List Incident) : gatherPool d r f indices inc = finish d r f.id stBoundExceeded 56 := by
  rw [gatherPool_checked hn own cur, if_neg (by simp [whole]), if_pos large]

section

variable (whole : v.damaged = false) (room : 4 * v.dim * db f.desc 60 2 ≤ db f.desc 56 4)

include whole room

theorem gatherPool_fails (indices : List Byte) {inc : List Incident} (lasting : lastingTile inc ≠ none) :
    gatherPool d r f indices inc =
      finish (tableDamaged (gatherMet d r f inc) n v).1 r f.id stIntegrity (tableDamaged (gatherMet d r f inc) n v).2 := by
  rw [gatherPool_checked hn own cur, if_neg (by simp [whole]), if_neg (by omega), if_pos (Option.isSome_iff_ne_none.2 lasting)]

theorem gatherPool_pools (indices : List Byte) {inc : List Incident} (passed : lastingTile inc = none) :
    gatherPool d r f indices inc = finish (gatherCounted (hostWrite (gatherMet d r f inc) r (db f.desc 48 8)
      (gatherBytes v f (gatherBags v f indices))) n (sqClient d r) v (gatherBags v f indices)) r f.id
        stOK (sat32 (bagsInvalid (gatherBags v f indices) + bagsMissing (gatherBags v f indices))) := by
  rw [gatherPool_checked hn own cur, if_neg (by simp [whole]), if_neg (by omega), if_neg (by simp [passed])]

end

end Gather

/-! ### The colander (09 R261 to R265) -/

/-- Is the current version of a colander table bound by work in flight? -/
def colCurBound (d : Dev) (n : Nat) : Bool := match (colOf d n).cur with | some v => colBound d n v.num | none => false

/-- The old versions of a colander table once its current one is displaced. -/
def colOld (d : Dev) (n : Nat) : List ColVer :=
  if colCurBound d n then (colOf d n).cur.toList ++ (colOf d n).old else (colOf d n).old

/-- The device with the current version of a colander table displaced, in the name of a client. -/
def colDisplaced (d : Dev) (n c : Nat) : Dev := setCol d n { colOf d n with client := c, cur := none, old := colOld d n }

/-- A colander table of a client with its list compiled into a new version. -/
def colLoaded (d : Dev) (n c : Nat) (seqs : List ColSeq) : Col :=
  let num := nextVersion (colOf d n).last
  { client := c, cur := some { num := num, seqs := seqs, states := colStates seqs }, old := colOld d n, last := num }

/-- The device with that table, and the event of a current version that no work binds. -/
def colDone (d : Dev) (n c : Nat) (seqs : List ColSeq) : Dev :=
  let e := setCol (colDisplaced d n c) n (colLoaded d n c seqs)
  if (colOf d n).cur.isSome ∧ !colCurBound d n then raise e Fd.TXT_OUT_EVT_colander_freed else e

theorem colOf_colDone (d : Dev) (n c : Nat) (seqs : List ColSeq) (m : Nat) :
    colOf (colDone d n c seqs) m = if m = n then colLoaded d n c seqs else colOf d m := by
  have kept : (colDone d n c seqs).txt = (setCol (colDisplaced d n c) n (colLoaded d n c seqs)).txt := by
    dsimp only [colDone]
    split <;> simp
  rw [colOf, kept]
  change colOf (setCol _ _ _) m = _
  rw [colOf_setCol]
  split
  · rfl
  · next other => rw [colDisplaced, colOf_setCol, if_neg other]

@[simp] theorem colDone_ctx (d : Dev) (n c : Nat) (seqs : List ColSeq) : (colDone d n c seqs).ctx = d.ctx := by
  dsimp only [colDone]
  split <;> simp [colDisplaced]

theorem colDone_freed {n : Nat} (c : Nat) (seqs : List ColSeq) (held : (colOf d n).cur ≠ none) (unbound : colCurBound d n = false) :
    evSet (colDone d n c seqs) Fd.TXT_OUT_EVT_colander_freed = true := by
  simp [colDone, Option.isSome_iff_ne_none, held, unbound]

/-- What a `CONSTRAINT_LOAD` of a list answers to the sequences that are parsed from it. -/
def colAnswer (d : Dev) (r n : Nat) (f : Flight) : Option (List ColSeq) → Dev
  | none => finish d r f.id stInvalidField 36
  | some seqs =>
    if seqs.length ≠ db f.desc 40 2 ∨ colConflict seqs then finish d r f.id stInvalidField 36
    else if 65536 < colStates seqs then finish d r f.id stNoFit (colStates seqs)
    else if (colOf d n).cur.isSome ∧ 2 ≤ (colOf d n).old.length then d
    else match lackT1 (colDisplaced d n (sqClient d r)) (sqClient d r) (576 * colStates seqs) with
      | some (true, _) => finish d r f.id stQuota 0
      | some (false, _) => let (v, d) := freshBelow d (2 ^ 32); finish d r f.id stNoFit v
      | none => if heldT1 d (576 * colStates seqs) then d
        else finish (colDone d n (sqClient d r) seqs) r f.id stOK (nextVersion (colOf d n).last)

section Constraint

variable {n : Nat} (hn : n = dSel f.desc % 256)

include hn

theorem constraintLoad_foreign (held : (colOf d n).cur ≠ none) (other : (colOf d n).client ≠ sqClient d r) (list : List Byte) :
    constraintLoad d r f list = finish d r f.id stSecurity 0 := by
  subst hn
  exact if_pos ⟨Option.isSome_iff_ne_none.2 held, other⟩

theorem constraintLoad_own (own : (colOf d n).cur = none ∨ (colOf d n).client = sqClient d r) (load : bitOf (db f.desc 42 1) 0 = false)
    (list : List Byte) : constraintLoad d r f list = colAnswer d r n f (colParse (db f.desc 40 2) (list.take (db f.desc 36 4))) := by
  subst hn
  refine (if_neg ?_).trans ((if_neg (by simp [load])).trans ?_)
  · rintro ⟨held, other⟩
    rcases own with free | same
    · simp [free] at held
    · exact other same
  · cases colParse (db f.desc 40 2) (list.take (db f.desc 36 4)) <;> rfl

end Constraint

section

variable {n : Nat} {seqs : List ColSeq}

theorem colAnswer_unfit (unfit : seqs.length ≠ db f.desc 40 2 ∨ colConflict seqs = true) :
    colAnswer d r n f (some seqs) = finish d r f.id stInvalidField 36 := if_pos unfit

variable (whole : seqs.length = db f.desc 40 2) (sound : colConflict seqs = false)

include whole sound

theorem colAnswer_tooMany (many : 65536 < colStates seqs) :
    colAnswer d r n f (some seqs) = finish d r f.id stNoFit (colStates seqs) := by
  rw [colAnswer, if_neg (by simp [whole, sound]), if_pos many]

theorem colAnswer_compiles (few : colStates seqs ≤ 65536) (place : (colOf d n).cur = none ∨ (colOf d n).old.length < 2)
    (room : lackT1 (colDisplaced d n (sqClient d r)) (sqClient d r) (576 * colStates seqs) = none)
    (free : heldT1 d (576 * colStates seqs) = false) : colAnswer d r n f (some seqs) =
      finish (colDone d n (sqClient d r) seqs) r f.id stOK (nextVersion (colOf d n).last) := by
  rw [colAnswer, if_neg (by simp [whole, sound]), if_neg (by omega), if_neg (not_oldFull place), room]
  exact if_neg (by simp [free])

end

end

/-- Settles O45, each clause by the equation of the command that it speaks of. -/
theorem tablesAndColanders : Obligations.TablesAndColanders := by
  rintro s r n c f bytes inc t rfl rfl
  refine ⟨fun i op command gate hn other => ?foreign, fun drop bound gate hn own hdrop => ⟨?stale, fun same ready hbound => ?swap⟩,
    fun bs v v2 d1 fs want place isNew gate hn own hnew recipe fits hv hplace hwant found hv2 => ?load,
    fun v e bags lens gate hn own cur he hlens hbags => ?gather,
    fun x bound d1 gate hn hx hbound hd => ⟨fun held other => ?owned, fun own load => ?constrain⟩⟩
  case foreign =>
    subst hn
    simp only [List.mem_cons, Prod.mk.injEq, List.not_mem_nil, or_false] at command
    rcases command with ⟨rfl, rfl⟩ | ⟨rfl, rfl⟩ | ⟨rfl, rfl⟩
    · exact exec_to (exec_tableLoad gate bytes) (tableLoad_foreign other bytes)
    · exact exec_to (exec_tableSwap gate) (tableSwap_foreign other)
    · exact exec_to (exec_gatherPool gate bytes inc) (gatherPool_foreign other bytes inc)
  case stale =>
    rintro _ rfl checked stale
    exact exec_to (exec_tableSwap gate) (tableSwap_stale hn own checked stale)
  case swap =>
    obtain rfl : bound = curBound s.dev n := hbound
    subst hdrop
    have run := tableSwap_checked hn own same ready
    exact ⟨fun place => ⟨_, exec_to (exec_tableSwap gate) (run.trans (if_neg (not_oldFull place))),
        by rw [tblOf_swapDone, if_pos rfl]; rfl, fun m other => by rw [tblOf_swapDone, if_neg other], swapDone_ctx .., swapDone_freed _⟩,
      fun held full => exec_to (exec_tableSwap gate) (run.trans (if_pos ⟨Option.isSome_iff_ne_none.2 held, full⟩))⟩
  case load =>
    subst hnew
    obtain rfl : v = loadVer s.dev n f.desc := hv
    obtain rfl : place = loadPlace s.dev n f.desc := hplace
    obtain rfl : want = loadWant s.dev n f.desc := hwant
    subst hv2
    change alloc (loadFrom s.dev n f.desc) _ _ _ = _ at found
    have run : tableLoad s.dev r f bytes = loadAnswer s.dev r n f bytes (.ok fs d1) :=
      (tableLoad_checked hn own recipe fits bytes).trans (congrArg _ found)
    have leaves := (leavesTables_alloc found).trans (leavesTables_locsAt d1 (loadPlace s.dev n f.desc) fs)
    obtain ⟨cur, others⟩ := tblOf_loadFrom s.dev n f.desc
    refine ⟨fun opened => ⟨_, exec_to (exec_tableLoad gate bytes) (run.trans (loadAnswer_opened opened n fs d1)),
      ⟨loadStaged s.dev n f.desc bs (locsAt d1 (loadPlace s.dev n f.desc) fs).1, by rw [tblOf_loadDone, if_pos rfl], rfl, rfl, rfl⟩,
      ?cur, by rw [tblOf_loadDone, if_pos rfl], fun m other => ?others, (loadDone_ctx ..).trans (leaves.ctx.trans (loadFrom_ctx ..))⟩,
      fun unopened => exec_to (exec_tableLoad gate bytes) (run.trans (loadAnswer_unopened unopened n fs d1))⟩
    case cur => rw [tblOf_loadDone, if_pos rfl, leaves.tblOf n, cur]
    case others => rw [tblOf_loadDone, if_neg other, leaves.tblOf m, others m other]
  case gather =>
    obtain rfl : e = gatherMet s.dev r f inc := he
    subst hbags hlens
    refine ⟨fun damaged => exec_to (exec_gatherPool gate bytes inc) (gatherPool_damaged hn own cur damaged bytes inc),
      fun whole large => exec_to (exec_gatherPool gate bytes inc) (gatherPool_tooLarge hn own cur whole large bytes inc),
      fun whole room => ⟨fun lasting => exec_to (exec_gatherPool gate bytes inc) (gatherPool_fails hn own cur whole room bytes lasting),
        fun passed => ?_⟩⟩
    have leaves := leavesTables_gatherCounted (hostWrite (gatherMet s.dev r f inc) r (db f.desc 48 8)
      (gatherBytes v f (gatherBags v f bytes))) n (sqClient s.dev r) v (gatherBags v f bytes)
    exact ⟨_, exec_to (exec_gatherPool gate bytes inc) (gatherPool_pools hn own cur whole room bytes passed), leaves.posted,
      leaves.ctx.trans (by simp), leaves.tbl.trans (by simp)⟩
  case owned =>
    subst hx
    exact exec_to (exec_constraintLoad gate bytes) (constraintLoad_foreign hn held other bytes)
  case constrain =>
    obtain rfl : bound = colCurBound s.dev n := by rw [hbound, hx]; rfl
    subst hx
    obtain rfl : d1 = colDisplaced s.dev n (sqClient s.dev r) := hd
    have run := constraintLoad_own hn own load bytes
    have goes {ans : Option (List ColSeq)} {e : Dev} (parsed : colParse (db f.desc 40 2) (bytes.take (db f.desc 36 4)) = ans)
        (h : colAnswer s.dev r n f ans = e) : exec (.constraintLoad r bytes) s = .next (s.settled e) :=
      exec_to (exec_constraintLoad gate bytes) (run.trans (parsed ▸ h))
    refine ⟨fun unparsed => goes unparsed rfl, fun seqs parsed => ⟨fun unfit => goes parsed (colAnswer_unfit unfit), fun whole sound =>
      ⟨fun many => goes parsed (colAnswer_tooMany whole sound many), fun few place room free => ?_⟩⟩⟩
    exact ⟨_, goes parsed (colAnswer_compiles whole sound few place room free), by rw [colOf_colDone, if_pos rfl]; rfl,
      fun m other => by rw [colOf_colDone, if_neg other], colDone_ctx .., colDone_freed _ _⟩

end Sys2Proof.Machine
end

section
/-!
PROOFS. The gate switch (12 R355, R356): arming it also notes the first frame from which the armed switch may come.
-/

namespace Sys2Proof.Machine

theorem gateArm_lnk {d : Dev} (valid : gateValid (gateEntries d (1 - d.lnk.gateList)) = true) (f addr : Nat) :
    (gateArm d f addr).lnk = { d.lnk with gateFrom := ceilDiv (now d) 65536 } := by
  rw [gateArm, if_neg (by simp [valid])]
  simp only [fset_frame]

theorem exec_gateSwitchArm {s : State} (f : Nat) (hp : s.dev.sys.portUp = true) :
    exec (.gateSwitchArm f) s = .next (s.settled (gateArm s.dev f)) := by
  change execGateSwitchArm f s = _
  simp only [execGateSwitchArm, lift_next, hp, if_true]

/-- Whatever device an armed switch is said to settle, its links carry the note. -/
theorem gateFrom_of_exec_gateSwitchArm {s : State} {d : Dev} {f : Nat} (hp : s.dev.sys.portUp = true)
    (valid : gateValid (gateEntries s.dev (1 - s.dev.lnk.gateList)) = true) (run : exec (.gateSwitchArm f) s = .next (s.settled d)) :
    d.lnk.gateFrom = ceilDiv (now s.dev) 65536 := by
  rw [exec_gateSwitchArm f hp] at run
  have links : (gateArm s.dev f).lnk = d.lnk := congrArg (fun t : State => t.dev.lnk) (Host.Outcome.next.inj run)
  rw [← links, gateArm_lnk valid]

/-- A device one subframe after reset, on which list B is active: list A, which then is inactive, has the one entry of its reset value. -/
def secondSubframe : Dev := { sys := { portUp := true }, tc := { up := 1 }, lnk := { gateList := 1 } }

theorem gateValid_secondSubframe : gateValid (gateEntries secondSubframe (1 - secondSubframe.lnk.gateList)) = true := by decide

theorem now_secondSubframe : ceilDiv (now secondSubframe) 65536 = 1 := by decide

/-- Refutes O21 by its clause on a valid gate list, which has the links as they were: frame 1 is noted, where none stood before. -/
theorem not_sharesPolicersAndEnvelope : ¬ Obligations.SharesPolicersAndEnvelope := by
  rintro ⟨-, -, meter⟩
  obtain ⟨-, -, -, arms, -⟩ := meter { dev := secondSubframe } 0 0 rfl
  obtain ⟨d, run, -, -, links, -⟩ := arms (by decide) gateValid_secondSubframe
  have noted := gateFrom_of_exec_gateSwitchArm (s := { dev := secondSubframe }) rfl gateValid_secondSubframe run
  exact absurd ((congrArg Lnk.gateFrom links).symm.trans (noted.trans now_secondSubframe)) Nat.zero_ne_one

end Sys2Proof.Machine
end

section
/-!
PROOFS. Loan messages (10 R307; 12 R359 to R361): the lender stores, gives back and frees the pages of a loan, the borrower's movers go
on, and a recall has its deadline.
-/

namespace Sys2Proof.Machine

/-- A command whose meaning is `lift` settles what its effect on the device is. -/
theorem lift_to {f : Dev → Dev} {s : State} {d : Dev} (h : f s.dev = d) : lift f s = .next (s.settled d) := by rw [lift_next, h]

section Loan

variable {s : State} {src loan page n : Nat} {mask : BitVec 8} {tiles : List Byte}

/-- A fenced sender's loan messages change nothing (12 R372). -/
theorem exec_loanMessage_fenced (fenced : s.dev.lnk.fenced.contains src = true) :
    ∀ c ∈ [Instr.loanRequest src n, .loanPut src loan page mask tiles, .loanGet src loan page mask, .loanFree src loan page,
      .loanReturn src loan, .loanPutAck src loan page, .loanData src loan page true tiles, .loanRecall src loan n,
      .loanGrant src loan 1 n n true], exec c s = .next (s.settled s.dev) := by
  simp only [List.forall_mem_cons, List.not_mem_nil, false_implies, implies_true, and_true]
  change execLoanRequest src n s = _ ∧ execLoanPut src loan page mask tiles s = _ ∧ execLoanGet src loan page mask s = _ ∧
    execLoanFree src loan page s = _ ∧ execLoanReturn src loan s = _ ∧ execLoanPutAck src loan page s = _ ∧
    execLoanData src loan page true tiles s = _ ∧ execLoanRecall src loan n s = _ ∧ execLoanGrant src loan 1 n n true s = _
  exact ⟨lift_to (if_pos (.inr fenced)), lift_to (if_pos (.inr fenced)), lift_to (if_pos (.inr fenced)), lift_to (if_pos (.inr fenced)),
    lift_to (if_pos (.inr fenced)), lift_to (if_pos fenced), lift_to (if_pos fenced), lift_to (if_pos fenced),
    lift_to (if_pos (.inr (.inl fenced)))⟩

/-! ### The lender (12 R359, R360) -/

/-- Page `page` of a loan with the tiles of a PUT stored, the `k`-th of them as tile `ts[k]`. -/
def storedTiles (m : NMap (List Byte)) (page : Nat) (ts : List Nat) (tiles : List Byte) : NMap (List Byte) :=
  ts.zipIdx.foldl (fun m x => put m (page * 8 + x.1) ((tiles.drop (4120 * x.2)).take 4120)) m

theorem look_foldl_put {α β : Type} (key : β → Nat) (val : β → α) (xs : List β) (k : Nat) : ∀ m : NMap α,
    ((∀ x ∈ xs, k ≠ key x) → look (xs.foldl (fun m x => put m (key x) (val x)) m) k = look m k) ∧
    (∀ x ∈ xs, k = key x → (xs.map key).Nodup → look (xs.foldl (fun m x => put m (key x) (val x)) m) k = some (val x)) := by
  induction xs with
  | nil => simp
  | cons y ys ih =>
    intro m
    obtain ⟨other, same⟩ := ih (put m (key y) (val y))
    refine ⟨fun apart => ?_, fun x hx hk distinct => ?_⟩
    · rw [List.foldl_cons, other fun x hx => apart x (List.mem_cons_of_mem _ hx), look_put_other _ _ (apart y (List.mem_cons_self ..))]
    · obtain ⟨fresh, distinct⟩ := List.nodup_cons.1 distinct
      rw [List.foldl_cons]
      rcases List.mem_cons.1 hx with rfl | hx
      · rw [other fun z hz e => fresh (hk ▸ e ▸ List.mem_map_of_mem hz), hk, look_put_same]
      · exact same x hx hk distinct

theorem look_storedTiles_other {m : NMap (List Byte)} {ts : List Nat} {x : Nat} (h : ∀ t ∈ ts, x ≠ page * 8 + t) :
    look (storedTiles m page ts tiles) x = look m x :=
  (look_foldl_put _ _ ts.zipIdx x m).1 fun y hy => h y.1 (List.fst_mem_of_mem_zipIdx hy)

theorem look_storedTiles {m : NMap (List Byte)} {ts : List Nat} {t k : Nat} (distinct : ts.Nodup) (h : ts[k]? = some t) :
    look (storedTiles m page ts tiles) (page * 8 + t) = some ((tiles.drop (4120 * k)).take 4120) := by
  refine (look_foldl_put (fun x : Nat × Nat => page * 8 + x.1) _ ts.zipIdx _ m).2 (t, k) (List.mk_mem_zipIdx_iff_getElem?.2 h) rfl ?_
  have keys : ts.zipIdx.map (fun x => page * 8 + x.1) = ts.map (page * 8 + ·) := by
    rw [← Function.comp_def (page * 8 + ·) Prod.fst, ← List.map_map, List.zipIdx_map_fst]
  rw [keys]
  exact distinct.map fun a b => Nat.add_left_cancel

/-- The device that has stored the tiles of a PUT. -/
def loanStored (d : Dev) (loan page : Nat) (mask : BitVec 8) (tiles : List Byte) (l : Loan) : Dev :=
  chargeTier (setLoan d loan { l with tiles := storedTiles l.tiles page (maskBits mask.toNat 8) tiles }) unattributed l.tier
    (4096 * (maskBits mask.toNat 8).length)

theorem look_loanStored (d : Dev) (l : Loan) (k : Nat) : look (loanStored d loan page mask tiles l).lnk.loans k =
    if k = loan then some { l with tiles := storedTiles l.tiles page (maskBits mask.toNat 8) tiles } else look d.lnk.loans k :=
  look_setLoan ..

/-- The device on which a page of a loan is free again. -/
def loanFreed (d : Dev) (loan page : Nat) (l : Loan) : Dev :=
  setLoan d loan { l with freed := insertN page l.freed, tiles := l.tiles.filter (fun t => t.1 / 8 != page) }

theorem mem_insertN (x : Nat) (l : List Nat) : x ∈ insertN x l := by
  induction l with
  | nil => exact List.mem_singleton_self x
  | cons y t ih =>
    unfold insertN
    split
    · exact List.mem_cons_self ..
    · split
      · next e => exact e ▸ List.mem_cons_self ..
      · exact List.mem_cons_of_mem _ ih

theorem loanPage_loanFreed (d : Dev) (l : Loan) : loanPage (loanFreed d loan page l) src loan page = none := by
  simp only [loanPage, loanFreed, look_setLoan, if_true]
  rw [if_neg (by simp [mem_insertN])]

section Lender

variable (heard : s.dev.lnk.fenced.contains src = false) (serves : linksServe s.dev = true)

include heard serves

/-- A lender in service answers a sender that is not fenced. -/
theorem lender_answers : ¬ ((!linksServe s.dev) = true ∨ s.dev.lnk.fenced.contains src = true) := by rw [heard, serves]; decide

theorem exec_loanRequest_lends (asks : n ≠ 0) (stays : s.dev.map.leaving = false)
    (kept : (vals s.dev.lnk.loans).any (fun l => l.borrower == src && l.recalled.isSome) = false)
    (room : lendRoom s.dev 1 ≠ 0 ∨ lendRoom s.dev 2 ≠ 0) :
    exec (.loanRequest src n) s = .next (s.settled (lend s.dev src (if lendRoom s.dev 1 = 0 then 2 else 1) n)) := by
  change execLoanRequest src n s = _
  refine lift_to ?_
  rw [if_neg (lender_answers heard serves), if_neg]
  rw [stays, kept]
  tauto

theorem exec_loanRequest_refuses (h : n = 0 ∨ s.dev.map.leaving = true ∨
      (vals s.dev.lnk.loans).any (fun l => l.borrower == src && l.recalled.isSome) = true ∨ (lendRoom s.dev 1 = 0 ∧ lendRoom s.dev 2 = 0)) :
    exec (.loanRequest src n) s = .next (s.settled (loanSend s.dev src (loanFrame 2 1 0 0 0 0 0 0 []))) := by
  change execLoanRequest src n s = _
  refine lift_to ?_
  rw [if_neg (lender_answers heard serves), if_pos h]

theorem exec_loanPut_stores {l : Loan} (lent : loanPage s.dev src loan page = some l) : exec (.loanPut src loan page mask tiles) s =
    .next (s.settled (loanSend (loanStored s.dev loan page mask tiles l) src (loanFrame 4 0 0 mask.toNat loan page 0 0 []))) := by
  change execLoanPut src loan page mask tiles s = _
  refine lift_to ?_
  rw [if_neg (lender_answers heard serves), lent]
  rfl

theorem exec_loanGet_gives {l : Loan} (lent : loanPage s.dev src loan page = some l)
    (held : ∀ t ∈ maskBits mask.toNat 8, (look l.tiles (page * 8 + t)).isSome = true) : exec (.loanGet src loan page mask) s =
    .next (s.settled (loanSend (chargeTier s.dev unattributed l.tier (4096 * (maskBits mask.toNat 8).length)) src (loanFrame 6 0 0
      mask.toNat loan page 0 0 ((maskBits mask.toNat 8).flatMap (fun t => mget l.tiles [] (page * 8 + t)))))) := by
  change execLoanGet src loan page mask s = _
  refine lift_to ?_
  rw [if_neg (lender_answers heard serves), lent]
  simp only [List.filter_eq_self.2 held, ne_eq, not_true_eq_false, if_false]

theorem exec_loanGet_gone {l : Loan} (lent : loanPage s.dev src loan page = some l)
    (lacks : ∃ t ∈ maskBits mask.toNat 8, look l.tiles (page * 8 + t) = none) :
    exec (.loanGet src loan page mask) s = .next (s.settled (loanSend s.dev src (loanFrame 6 2 0 0 loan page 0 0 []))) := by
  obtain ⟨t, ht, missing⟩ := lacks
  have partly : (maskBits mask.toNat 8).filter (fun t => (look l.tiles (page * 8 + t)).isSome) ≠ maskBits mask.toNat 8 := fun e => by
    simpa [missing] using List.filter_eq_self.1 e t ht
  change execLoanGet src loan page mask s = _
  refine lift_to ?_
  rw [if_neg (lender_answers heard serves), lent]
  exact if_pos partly

theorem exec_loanFree_frees {l : Loan} (lent : loanPage s.dev src loan page = some l) :
    exec (.loanFree src loan page) s = .next (s.settled (loanFreed s.dev loan page l)) := by
  change execLoanFree src loan page s = _
  refine lift_to ?_
  rw [if_neg (lender_answers heard serves), lent]
  rfl

theorem exec_loanGet_notLent (h : loanPage s.dev src loan page = none) :
    exec (.loanGet src loan page mask) s = .next (s.settled (loanSend s.dev src (loanFrame 6 2 0 0 loan page 0 0 []))) := by
  change execLoanGet src loan page mask s = _
  refine lift_to ?_
  rw [if_neg (lender_answers heard serves), h]

theorem exec_loanPut_notLent (h : loanPage s.dev src loan page = none) :
    exec (.loanPut src loan page mask tiles) s = .next (s.settled s.dev) := by
  change execLoanPut src loan page mask tiles s = _
  refine lift_to ?_
  rw [if_neg (lender_answers heard serves), h]

theorem exec_loanFree_notLent (h : loanPage s.dev src loan page = none) :
    exec (.loanFree src loan page) s = .next (s.settled s.dev) := by
  change execLoanFree src loan page s = _
  refine lift_to ?_
  rw [if_neg (lender_answers heard serves), h]

theorem exec_loanReturn_closes {l : Loan} (lent : look s.dev.lnk.loans loan = some l) (own : l.borrower = src) :
    exec (.loanReturn src loan) s
      = .next (s.settled (leaveTry { s.dev with lnk := { s.dev.lnk with loans := del s.dev.lnk.loans loan } })) := by
  change execLoanReturn src loan s = _
  refine lift_to ?_
  rw [if_neg (lender_answers heard serves), lent]
  exact if_pos own

end Lender

theorem exec_loanReturn_foreign (h : ∀ l, look s.dev.lnk.loans loan = some l → l.borrower ≠ src) :
    exec (.loanReturn src loan) s = .next (s.settled s.dev) := by
  change execLoanReturn src loan s = _
  refine lift_to ?_
  split
  · rfl
  · split
    · rfl
    · next l found => exact if_neg (h l found)

/-! ### The borrower (10 R307; 12 R359 to R361) -/

/-- The answer of a lender: a loan that is taken, or a refusal noted (R360). -/
def loanAnswered (d : Dev) (src loan t n : Nat) (refused : Bool) : Dev :=
  let asked := { d.lnk with asked := d.lnk.asked.erase src }
  { d with lnk := if refused = true ∨ n = 0 then { asked with refused := src :: d.lnk.refused }
      else { asked with borrows := put d.lnk.borrows (loanKey src loan) { tier := t, pages := n }, refused := [] } }

theorem exec_loanGrant_asked (heard : s.dev.lnk.fenced.contains src = false) (runs : s.dev.sys.resetLow = false)
    (asked : s.dev.lnk.asked.contains src = true) (t dl : Nat) (refused : Bool) :
    exec (.loanGrant src loan t n dl refused) s = .next (s.settled (loanAnswered s.dev src loan t n refused)) := by
  change execLoanGrant src loan t n dl refused s = _
  refine lift_to ?_
  rw [if_neg (by simp only [inReset, heard, runs, asked]; decide), loanAnswered]
  split <;> rfl

theorem exec_loanGrant_unasked (unasked : s.dev.lnk.asked.contains src = false) (t dl : Nat) (refused : Bool) :
    exec (.loanGrant src loan t n dl refused) s = .next (s.settled s.dev) := by
  change execLoanGrant src loan t n dl refused s = _
  exact lift_to (if_pos (.inr (.inr (by rw [unasked]; rfl))))

section Borrower

variable {m : Nat} {p : QPage} (heard : s.dev.lnk.fenced.contains src = false)

include heard

theorem sender_heard : ¬ s.dev.lnk.fenced.contains src = true := Bool.not_eq_true _ ▸ heard

theorem exec_loanPutAck_goesOn (waits : loanMover s.dev (loanKey src loan) page false = some (m, p)) :
    exec (.loanPutAck src loan page) s = .next (s.settled (moverNext s.dev m p 0)) := by
  change execLoanPutAck src loan page s = _
  refine lift_to ?_
  rw [if_neg (sender_heard heard), waits]

theorem exec_loanPutAck_idle (h : loanMover s.dev (loanKey src loan) page false = none) :
    exec (.loanPutAck src loan page) s = .next (s.settled s.dev) := by
  change execLoanPutAck src loan page s = _
  refine lift_to ?_
  rw [if_neg (sender_heard heard), h]

theorem exec_loanData_idle (h : loanMover s.dev (loanKey src loan) page true = none) (gone : Bool) :
    exec (.loanData src loan page gone tiles) s = .next (s.settled s.dev) := by
  change execLoanData src loan page gone tiles s = _
  refine lift_to ?_
  rw [if_neg (sender_heard heard), h]

section Arrives

variable (waits : loanMover s.dev (loanKey src loan) page true = some (m, p))

include waits

theorem exec_loanData_gone : exec (.loanData src loan page true tiles) s =
    .next (s.settled (loseLoan s.dev (fun l => t3Key l == loanKey src loan && t3Page l == page))) := by
  change execLoanData src loan page true tiles s = _
  refine lift_to ?_
  rw [if_neg (sender_heard heard), waits]
  rfl

theorem exec_loanData_home (home : p.dest.tier ≠ 3) :
    exec (.loanData src loan page false tiles) s = .next (s.settled (moverNext s.dev m p 0)) := by
  change execLoanData src loan page false tiles s = _
  refine lift_to ?_
  rw [if_neg (sender_heard heard), waits]
  exact (if_neg Bool.false_ne_true).trans (if_neg home)

/-- A page bound for another lender goes on to it; what is sealed there does not depend on the mover. -/
theorem exec_loanData_onward {g : MoveGrp} (onward : p.dest.tier = 3) (group : grpOf s.dev p.group = some g) :
    exec (.loanData src loan page false tiles) s = .next (s.settled (putFrame (moverNext s.dev m p 2)
      (objClient (moverNext s.dev m p 2) g.obj) (usedTiles (moverNext s.dev m p 2) g.obj p.page) p.dest
      (sealPage (moverNext s.dev m p 2) g.obj p.page p.dest.ctr))) := by
  change execLoanData src loan page false tiles s = _
  refine lift_to ?_
  rw [if_neg (sender_heard heard), waits]
  refine (if_neg Bool.false_ne_true).trans ((if_pos onward).trans ?_)
  rw [group]
  rfl

end Arrives

end Borrower

/-! ### Recalls (10 R307; 12 R361) -/

/-- The device that has noted and reported the recall of a loan that it took. -/
def recallNoted (d : Dev) (key n : Nat) (b : Borrow) : Dev :=
  raise { d with lnk := { d.lnk with borrows := put d.lnk.borrows key { b with recalled := some (up d, n) } } } Fd.LNK_EVT_recall_received

theorem recallNoted_keeps (d : Dev) (key n : Nat) (b : Borrow) : (recallNoted d key n b).ctx = d.ctx ∧
    (recallNoted d key n b).lnk = { d.lnk with borrows := put d.lnk.borrows key { b with recalled := some (up d, n) } } := by
  simp [recallNoted]

/-- The sessions with a page on a loan. -/
def onLoan (d : Dev) (key : Nat) : List Nat :=
  (keys d.ctx.recs).filter (fun i => (recLocs (recOf d i)).any (fun l => l.tier == 3 && t3Key l == key))

theorem onLoan_congr {d e : Dev} (h : d.ctx = e.ctx) (key : Nat) : onLoan d key = onLoan e key := by simp only [onLoan, recOf, h]

theorem onLoan_unused {d : Dev} {key : Nat} (h : ∀ i ∈ keys d.ctx.recs, ∀ l ∈ recLocs (recOf d i), l.tier = 3 → t3Key l ≠ key) :
    onLoan d key = [] := by
  simpa [onLoan] using h

/-- A recall of a loan on which no session has a page queues nothing. -/
theorem exec_loanRecall_unused (heard : s.dev.lnk.fenced.contains src = false) {b : Borrow}
    (borrowed : look s.dev.lnk.borrows (loanKey src loan) = some b)
    (unused : ∀ i ∈ keys s.dev.ctx.recs, ∀ l ∈ recLocs (recOf s.dev i), l.tier = 3 → t3Key l ≠ loanKey src loan) :
    exec (.loanRecall src loan n) s = .next (s.settled (recallNoted s.dev (loanKey src loan) n b)) := by
  have nobody : onLoan (recallNoted s.dev (loanKey src loan) n b) (loanKey src loan) = [] :=
    (onLoan_congr (recallNoted_keeps ..).1 _).trans (onLoan_unused unused)
  change execLoanRecall src loan n s = _
  refine lift_to ((if_neg (sender_heard heard)).trans ?_)
  rw [borrowed]
  change (onLoan (recallNoted ..) _).foldl bringHome ((onLoan (recallNoted ..) _).foldl _ (recallNoted ..)) = _
  rw [nobody]
  rfl

theorem exec_loanRecall_unknown (heard : s.dev.lnk.fenced.contains src = false) (h : look s.dev.lnk.borrows (loanKey src loan) = none) :
    exec (.loanRecall src loan n) s = .next (s.settled s.dev) := by
  change execLoanRecall src loan n s = _
  refine lift_to ((if_neg (sender_heard heard)).trans ?_)
  rw [h]

theorem exec_loanRecallDeadline (lent : Bool) :
    exec (.loanRecallDeadline src loan lent) s = .next (s.settled (recallOverdue s.dev src loan lent)) := rfl

/-- At the deadline the lender frees the loan. -/
theorem recallOverdue_lent {d : Dev} {l : Loan} (lent : look d.lnk.loans loan = some l) (due : recallOver d l.recalled = true) :
    recallOverdue d src loan true = leaveTry { d with lnk := { d.lnk with loans := del d.lnk.loans loan } } := by
  rw [recallOverdue, if_pos rfl, lent]
  exact if_pos due

theorem recallOverdue_lent_early {d : Dev} (early : (look d.lnk.loans loan).all (fun l => !recallOver d l.recalled) = true) :
    recallOverdue d src loan true = d := by
  rw [recallOverdue, if_pos rfl]
  split
  · next l lent => exact if_neg (by simpa [lent] using early)
  · rfl

/-- At the deadline the borrower loses what it has on the loan, and reports that it had something. -/
def borrowLost (d : Dev) (key : Nat) : Dev :=
  let e := loseLoan (if (heldLocs d).any (fun x => x.2.tier == 3 && t3Key x.2 == key) then raise d Fd.DLY_EVT_recall_missed else d)
    (fun l => t3Key l == key)
  { e with lnk := { e.lnk with borrows := del e.lnk.borrows key } }

theorem look_borrowLost (d : Dev) (key : Nat) : look (borrowLost d key).lnk.borrows key = none := look_del_same ..

theorem recallOverdue_borrowed {d : Dev} {b : Borrow} (borrowed : look d.lnk.borrows (loanKey src loan) = some b)
    (due : recallOver d b.recalled = true) : recallOverdue d src loan false = borrowLost d (loanKey src loan) := by
  rw [recallOverdue, if_neg Bool.false_ne_true]
  simp only [borrowed, due]
  rfl

theorem recallOverdue_borrowed_early {d : Dev}
    (early : (look d.lnk.borrows (loanKey src loan)).all (fun b => !recallOver d b.recalled) = true) :
    recallOverdue d src loan false = d := by
  rw [recallOverdue, if_neg Bool.false_ne_true]
  dsimp only
  split
  · rfl
  · next b borrowed => exact if_pos (by simpa [borrowed] using early)

end Loan

/-- Settles O49, each message by the equation of its command. That a borrower with a recalled loan open is refused is log entry 63. -/
theorem loanMessages : Obligations.LoanMessages := by
  rintro s src loan page mask tiles _ n _ rfl rfl
  refine ⟨exec_loanMessage_fenced, fun heard serves => ⟨fun asks stays kept => ⟨fun near => ?lendNear, fun full far => ?lendFar⟩,
      exec_loanRequest_refuses heard serves, fun l lent => ⟨?put, fun held => ?get, exec_loanGet_gone heard serves lent, ?free⟩,
      fun notLent => ⟨exec_loanGet_notLent heard serves notLent, ?ignored⟩,
      fun l lent own => ⟨_, exec_loanReturn_closes heard serves lent own, rfl, rfl, rfl⟩, exec_loanReturn_foreign⟩,
    fun t dl b heard runs => ⟨fun asked => ⟨_, exec_loanGrant_asked heard runs asked t dl b, ?grant⟩,
      fun unasked => exec_loanGrant_unasked unasked t dl b⟩,
    fun heard => ⟨fun m p waits => ⟨_, exec_loanPutAck_goesOn heard waits, rfl, rfl, rfl⟩, exec_loanPutAck_idle heard,
      fun m p waits => ⟨exec_loanData_gone heard waits, exec_loanData_home heard waits, fun g d onward group hd => ?onward⟩,
      exec_loanData_idle heard, fun b borrowed unused => ⟨_, exec_loanRecall_unused heard borrowed unused, ?called⟩,
      exec_loanRecall_unknown heard⟩,
    fun l lent due => exec_to (exec_loanRecallDeadline true) (recallOverdue_lent lent due),
    fun b borrowed due => ⟨_, exec_to (exec_loanRecallDeadline false) (recallOverdue_borrowed borrowed due), look_borrowLost .., fun held => ?lost⟩,
    fun early => exec_to (exec_loanRecallDeadline true) (recallOverdue_lent_early early),
    fun early => exec_to (exec_loanRecallDeadline false) (recallOverdue_borrowed_early early)⟩
  case lendNear => exact exec_to (exec_loanRequest_lends heard serves asks stays kept (.inl near)) (by rw [if_neg near])
  case lendFar => exact exec_to (exec_loanRequest_lends heard serves asks stays kept (.inr far)) (by rw [if_pos full])
  case put =>
    refine ⟨_, _, exec_loanPut_stores heard serves lent, (look_loanStored ..).trans (if_pos rfl),
      fun t k at' => look_storedTiles (nodup_maskBits ..) at', fun x apart => look_storedTiles_other apart, rfl, fun k other => ?_, rfl⟩
    rw [look_loanStored, if_neg other]
  case get => exact ⟨_, exec_loanGet_gives heard serves lent held, rfl, rfl⟩
  case free =>
    exact ⟨_, exec_loanFree_frees heard serves lent, loanPage_loanFreed .., fun k other => (look_setLoan ..).trans (if_neg other), rfl⟩
  case ignored =>
    exact List.forall_mem_cons.2 ⟨exec_loanPut_notLent heard serves notLent,
      List.forall_mem_singleton.2 (exec_loanFree_notLent heard serves notLent)⟩
  case grant =>
    unfold loanAnswered
    split <;> exact ⟨rfl, rfl, rfl, rfl⟩
  case onward =>
    subst hd
    exact exec_loanData_onward heard waits onward group
  case called =>
    obtain ⟨ctx, lnk⟩ := recallNoted_keeps (n := n) s.dev (loanKey src loan) b
    refine ⟨evSet_raise .., ctx, ?_, fun k other => ?_⟩
    · rw [lnk, look_put_same]
    · rw [lnk, look_put_other _ _ other]
  case lost => rw [borrowLost, if_pos held]

end Sys2Proof.Machine
end

section
/-!
PROOFS. Pages that move (10 R294 to R297, R301; 11 R316 to R318): a mover takes a page and ends with it, a scrub meets the faults of its
stack, and a block pair's live pages are moved by a refresh or a reclaim.
-/

namespace Sys2Proof.Machine

/-! ### A mover takes a page (10 R294, R297) -/

theorem exec_pageMoveStart (s : State) : exec .pageMoveStart s = .next (s.settled (moveStart s.dev)) := rfl

/-- What a page waits for on its mover: tiles that a lender holds, or the acknowledgement of the lender that it is bound for (R359). -/
def pageAwait (d : Dev) (g : MoveGrp) (p : QPage) : Nat :=
  if (look (objPages d g.obj) p.page).any (fun l => l.tier == 3) then 1 else if p.dest.tier = 3 then 2 else 0

/-- A page as its mover holds it, with the counter of its tier. -/
def takenPage (d : Dev) (g : MoveGrp) (p : QPage) : QPage :=
  { p with dest := { p.dest with ctr := (sealed d p.dest.tier).1 }, await := pageAwait d g p }

/-- The device on which mover `m` has taken page `p` of queue `k`, before anything is asked of a lender. -/
def pageTaken (d : Dev) (m k : Nat) (g : MoveGrp) (p : QPage) : Dev :=
  let e := (sealed d p.dest.tier).2
  { e with dly := { e.dly with
    queues := mset e.dly.queues [] k (((mget d.dly.queues [] k).erase p).map (fun x => { x with since := frame d }))
    movers := put e.dly.movers m (takenPage d g p) } }

/-- What a mover sends for the page that it took: a page of a loan is asked for, and one bound for a lender that is here is sent. -/
def askLender (d : Dev) (client : Nat) (g : MoveGrp) (p : QPage) : Option Loc → Dev
  | none => d
  | some l => if l.tier == 3 then getFrame d client (usedTiles d g.obj p.page) l
    else if p.dest.tier = 3 then putFrame d client (usedTiles d g.obj p.page) p.dest (sealPage d g.obj p.page p.dest.ctr) else d

theorem onlyLinks_askLender (d : Dev) (client : Nat) (g : MoveGrp) (p : QPage) (place : Option Loc) :
    OnlyLinks d (askLender d client g p place) := by
  unfold askLender
  split
  · rfl
  · split
    · exact onlyLinks_sendFrame ..
    · split
      · exact onlyLinks_sendFrame ..
      · rfl

theorem sealed_dly (d : Dev) (t : Nat) : (sealed d t).2.dly = d.dly := by
  dsimp only [sealed]
  split <;> rfl

theorem pageTaken_spec (d : Dev) (m k : Nat) (g : MoveGrp) (p : QPage) :
    look (pageTaken d m k g p).dly.movers m = some (takenPage d g p) ∧
    mget (pageTaken d m k g p).dly.queues [] k = ((mget d.dly.queues [] k).erase p).map (fun x => { x with since := frame d }) ∧
    (pageTaken d m k g p).dly.groups = d.dly.groups ∧ (pageTaken d m k g p).ctx = d.ctx :=
  ⟨look_put_same .., mget_mset_same .., by rw [← congrArg Dly.groups (sealed_dly d p.dest.tier)]; rfl, (leavesTables_sealed d _).ctx⟩

theorem OnlyLinks.dly_eq {d e : Dev} (h : OnlyLinks d e) : e.dly = d.dly := by simp only [h.keeps]

section Start

variable {d : Dev}

theorem moveStart_stopped (h : d.sys.resetLow = true ∨ d.sys.fatal = true ∨ (look d.sys.unitRst 3).isSome = true ∨
    fbit d Fd.DLY_CTL_enable = false) : moveStart d = d := by
  rw [moveStart, if_pos (by simpa [inReset] using h)]

variable (runs : d.sys.resetLow = false) (sound : d.sys.fatal = false) (ready : look d.sys.unitRst 3 = none)
  (on : fbit d Fd.DLY_CTL_enable = true)

include runs sound ready on

theorem dolly_works : ¬ (inReset d = true ∨ d.sys.fatal = true ∨ (look d.sys.unitRst 3).isSome = true ∨
    (!fbit d Fd.DLY_CTL_enable) = true) := by
  simp [inReset, runs, sound, ready, on]

theorem moveStart_idle (h : idleMover d = none ∨ nextPage d = none) : moveStart d = d := by
  rw [moveStart, if_neg (dolly_works runs sound ready on)]
  split
  · next idle next => simp [idle, next] at h
  · rfl

theorem moveStart_takes {m k : Nat} {p : QPage} {g : MoveGrp} (idle : idleMover d = some m) (next : nextPage d = some (k, p))
    (group : grpOf d p.group = some g) : moveStart d = askLender (pageTaken d m k g p) (objClient (sealed d p.dest.tier).2 g.obj) g
      (takenPage d g p) (look (objPages d g.obj) p.page) := by
  rw [moveStart, if_neg (dolly_works runs sound ready on), idle, next]
  dsimp only
  rw [group]
  dsimp only [pageTaken, takenPage, pageAwait]
  cases look (objPages d g.obj) p.page <;> rfl

end Start

/-! ### A mover ends with its page (10 R294, R295) -/

/-- A device after the checks and the faults of a move. -/
def moveSuffered (d : Dev) (inc : List Incident) : Dev :=
  suffer (countChecks d inc Fd.DLY_CHECK_CNT_transient Fd.DLY_CHECK_CNT_lasting Fd.DLY_EVT_check_transient Fd.DLY_EVT_check_lasting) inc

/-- What becomes of a page that its mover has moved, or failed to move. -/
def moveEnds (d : Dev) (n : Nat) (p : QPage) (inc : List Incident) : Dev :=
  if (lastingTile inc).isSome then failGroup d p.group stIntegrity p.page
  else if inc.contains .writeLasting then failGroup d p.group stUnitFailed
  else if writeFailed p.dest inc then match writeAgain d n p with
    | none => failGroup d p.group stUnitFailed
    | some (d, q) => if q.await = 0 then moverDone d n q else d
  else moverDone d n p

theorem exec_pageMoveDone_ends {s : State} {n : Nat} {p : QPage} {inc : List Incident} (moves : look s.dev.dly.movers n = some p)
    (here : p.await = 0) (kept : (look (moveSuffered s.dev inc).dly.movers n).isSome = true) :
    exec (.pageMoveDone n inc) s = .next (s.settled (moveEnds (moveSuffered s.dev inc) n p inc)) := by
  change execPageMoveDone n inc s = _
  refine lift_to ?_
  dsimp only
  rw [moves]
  dsimp only
  rw [if_neg (not_not_intro here)]
  exact if_neg (ne_true_of_eq_false (Option.isNone_eq_false_iff.2 kept))

theorem exec_pageMoveDone_waits {s : State} {n : Nat} (inc : List Incident)
    (h : look s.dev.dly.movers n = none ∨ ∃ p, look s.dev.dly.movers n = some p ∧ p.await ≠ 0) :
    exec (.pageMoveDone n inc) s = .next (s.settled s.dev) := by
  change execPageMoveDone n inc s = _
  refine lift_to ?_
  dsimp only
  rcases h with idle | ⟨p, moves, waits⟩
  · rw [idle]
  · rw [moves]
    exact if_pos waits

section Ends

variable {d : Dev} {n : Nat} {p : QPage} {inc : List Incident}

theorem moveEnds_tile {w : Nat} (tile : lastingTile inc = some w) : moveEnds d n p inc = failGroup d p.group stIntegrity p.page := by
  rw [moveEnds, if_pos (by simp [tile])]

variable (whole : lastingTile inc = none)

include whole

theorem moveEnds_write (twice : .writeLasting ∈ inc) : moveEnds d n p inc = failGroup d p.group stUnitFailed := by
  rw [moveEnds, if_neg (by simp [whole]), if_pos (List.contains_iff_mem.2 twice)]

variable (once : .writeLasting ∉ inc)

include once

theorem moveEnds_moved (fine : writeFailed p.dest inc = false) : moveEnds d n p inc = moverDone d n p := by
  rw [moveEnds, if_neg (by simp [whole]), if_neg (mt List.contains_iff_mem.1 once), if_neg (by simp [fine])]

theorem moveEnds_stuck (failed : writeFailed p.dest inc = true) (other : writeAgain d n p = none) :
    moveEnds d n p inc = failGroup d p.group stUnitFailed := by
  rw [moveEnds, if_neg (by simp [whole]), if_neg (mt List.contains_iff_mem.1 once), if_pos failed, other]

theorem moveEnds_again {e : Dev} {q : QPage} (failed : writeFailed p.dest inc = true) (other : writeAgain d n p = some (e, q)) :
    moveEnds d n p inc = if q.await = 0 then moverDone e n q else e := by
  rw [moveEnds, if_neg (by simp [whole]), if_neg (mt List.contains_iff_mem.1 once), if_pos failed, other]

end Ends

/-! ### A page at its destination (10 R294) -/

theorem grpOf_congr {d e : Dev} (h : d.dly.groups = e.dly.groups) (id : Nat) : grpOf d id = grpOf e id := by simp only [grpOf, h]

theorem id_of_grpOf {d : Dev} {id : Nat} {g : MoveGrp} (found : grpOf d id = some g) : g.id = id := by
  simpa using List.find?_some found

/-- A group that is changed under its own number is found changed. -/
theorem grpOf_updGrp {d : Dev} {g : MoveGrp} {f : MoveGrp → MoveGrp} (found : grpOf d g.id = some g) (same : ∀ x, (f x).id = x.id) :
    grpOf (updGrp d g.id f) g.id = some (f g) := by
  have keyed : ((fun x : MoveGrp => x.id == g.id) ∘ fun x => if x.id = g.id then f x else x) = fun x => x.id == g.id := by
    funext x
    by_cases h : x.id = g.id <;> simp [h, same]
  rw [grpOf] at found
  rw [grpOf, updGrp, List.find?_map, keyed, found, Option.map_some, if_pos rfl]

/-- Only what a move charges, reads and programs differs: no page, group or mover. -/
structure LeavesMoves (d e : Dev) : Prop where
  dly : e.dly = d.dly
  ctx : e.ctx = d.ctx

theorem LeavesMoves.trans {a b c : Dev} (h : LeavesMoves a b) (k : LeavesMoves b c) : LeavesMoves a c :=
  ⟨k.dly.trans h.dly, k.ctx.trans h.ctx⟩

theorem leavesMoves_chargeTier (d : Dev) (a t n : Nat) : LeavesMoves d (chargeTier d a t n) := ⟨rfl, rfl⟩

theorem leavesMoves_flsRead (d : Dev) (l : Loc) (n : Nat) : LeavesMoves d (flsRead d l n) := by
  unfold flsRead
  split <;> exact ⟨rfl, rfl⟩

theorem leavesMoves_nandProgram (d : Dev) (l : Loc) (tiles : List (List Byte)) : LeavesMoves d (nandProgram d l tiles) := by
  unfold nandProgram
  split <;> exact ⟨rfl, rfl⟩

/-- The device whose mover is idle again, before anything is charged. -/
def moverFreed (d : Dev) (n : Nat) : Dev := { d with dly := { d.dly with movers := del d.dly.movers n } }

/-- A page as it is read, charged and programmed. -/
def pageCopied (d : Dev) (g : MoveGrp) (p : QPage) : Dev :=
  let c := objClient d g.obj
  let bytes := 4096 * usedTiles d g.obj p.page
  let e := match look (objPages d g.obj) p.page with
    | some l => flsRead (chargeTier d c l.tier bytes) l 1
    | none => d
  let e := chargeTier e c p.dest.tier bytes
  if p.dest.tier = 4 then nandProgram e p.dest (sealTiles e g.obj p.page p.dest.ctr) else e

theorem leavesMoves_pageCopied (d : Dev) (g : MoveGrp) (p : QPage) : LeavesMoves d (pageCopied d g p) := by
  dsimp only [pageCopied]
  have read : LeavesMoves d (match look (objPages d g.obj) p.page with
      | some l => flsRead (chargeTier d (objClient d g.obj) l.tier (4096 * usedTiles d g.obj p.page)) l 1
      | none => d) := by
    split
    · exact (leavesMoves_chargeTier ..).trans (leavesMoves_flsRead ..)
    · exact ⟨rfl, rfl⟩
  split
  · exact (read.trans (leavesMoves_chargeTier ..)).trans (leavesMoves_nandProgram ..)
  · exact read.trans (leavesMoves_chargeTier ..)

/-- A page of a group that has others left joins the finished ones. -/
def pageJoins (p : QPage) (g : MoveGrp) : MoveGrp := { g with left := g.left.erase p.page, done := g.done ++ [(p.page, p.dest)] }

theorem moverDone_others {d : Dev} {n : Nat} {p : QPage} {g : MoveGrp} (group : grpOf d p.group = some g)
    (table : ∀ i, g.obj ≠ .session i) (others : g.left.erase p.page ≠ []) :
    moverDone d n p = updGrp (pageCopied (moverFreed (fbump d Fd.DLY_MOVED_pages) n) g p) g.id (pageJoins p) := by
  have moved : pageMoved (fbump d Fd.DLY_MOVED_pages) n p =
      updGrp (pageCopied (moverFreed (fbump d Fd.DLY_MOVED_pages) n) g p) g.id (pageJoins p) := by
    have found : grpOf (moverFreed (fbump d Fd.DLY_MOVED_pages) n) p.group = some g := group
    unfold moverFreed at found
    dsimp only [pageMoved]
    rw [found]
    dsimp only
    rw [if_neg (by simp [others])]
    split
    · next i session => exact absurd session (table i)
    · rfl
  dsimp only [moverDone]
  rw [group, moved]
  split
  · next i session => exact absurd (Option.some.inj session) (table i)
  · rfl

theorem moverDone_joins {d : Dev} {n : Nat} {p : QPage} {g : MoveGrp} (group : grpOf d p.group = some g)
    (table : ∀ i, g.obj ≠ .session i) (others : g.left.erase p.page ≠ []) :
    grpOf (moverDone d n p) p.group = some (pageJoins p g) ∧ look (moverDone d n p).dly.movers n = none ∧ (moverDone d n p).ctx = d.ctx := by
  rw [moverDone_others group table others]
  have own := id_of_grpOf group
  rw [← own] at group ⊢
  obtain ⟨dly, ctx⟩ := leavesMoves_pageCopied (moverFreed (fbump d Fd.DLY_MOVED_pages) n) g p
  refine ⟨grpOf_updGrp ?_ fun x => rfl, ?_, ctx⟩
  · exact (grpOf_congr (congrArg Dly.groups dly) g.id).trans group
  · exact (congrArg (fun y : Dly => look y.movers n) dly).trans (look_del_same ..)

/-! ### Scrubs (10 R301) and block pairs (11 R316 to R318) -/

section Part

variable {s : State} {n : Nat} {inc : List Incident}

theorem exec_nearScrub_meets (runs : s.dev.sys.resetLow = false) (serves : maskBit s.dev.mem.nearUp.toNat n = true)
    (kept : maskBit s.dev.mem.nearRetired.toNat n = false) :
    exec (.nearScrub n inc) s = .next (s.settled (suffer s.dev (inc.filter (Incident.ofStack n)))) := by
  change execNearScrub n inc s = _
  simp [execNearScrub, inReset, runs, serves, kept]

theorem exec_nearScrub_out (h : s.dev.sys.resetLow = true ∨ maskBit s.dev.mem.nearUp.toNat n = false ∨
    maskBit s.dev.mem.nearRetired.toNat n = true) : exec (.nearScrub n inc) s = .next (s.settled s.dev) := by
  change execNearScrub n inc s = _
  simp only [execNearScrub, lift_next]
  rw [if_pos (by simpa [inReset] using h)]

theorem exec_flashRefresh_out (b : Bool) (h : flsServes s.dev = false ∨ livePages s.dev n = 0) :
    exec (.flashRefresh n b inc) s = .next (s.settled s.dev) := by
  change execFlashRefresh n b inc s = _
  simp only [execFlashRefresh, lift_next]
  rw [if_pos (by simpa using h)]

theorem exec_flashRefresh_live (serves : flsServes s.dev = true) (live : livePages s.dev n ≠ 0) (b : Bool) :
    exec (.flashRefresh n b inc) s = .next (s.settled (if b = true ∨ fget s.dev Fd.FLS_REFRESH_reads < (mget s.dev.fls.pairs {} n).reads
      then moveLive s.dev n inc else s.dev)) := by
  change execFlashRefresh n b inc s = _
  simp only [execFlashRefresh, lift_next]
  rw [if_neg (by simp [serves, live])]

theorem exec_flashReclaim_moves {p : Nat} (serves : flsServes s.dev = true) (pair : reclaimPair s.dev n = some p) :
    exec (.flashReclaim n inc) s = .next (s.settled (moveLive s.dev p inc)) := by
  change execFlashReclaim n inc s = _
  simp [execFlashReclaim, serves, pair]

theorem exec_flashReclaim_none (h : flsServes s.dev = false ∨ reclaimPair s.dev n = none) :
    exec (.flashReclaim n inc) s = .next (s.settled s.dev) := by
  change execFlashReclaim n inc s = _
  rcases h with off | clean
  · simp [execFlashReclaim, off]
  · simp [execFlashReclaim, clean]

end Part

/-- What becomes of a block pair with live pages whose move met the checks `inc`. -/
def pairMoves (d : Dev) (n : Nat) (inc : List Incident) : Dev :=
  if (lastingTile inc).isSome then pairHurt d n
  else if inc.contains .writeLasting then
    (report d { cls := clsUnit, unit := 8, action := 1, inst := flsChannel n, status := stUnitFailed }).1
  else movePair d n

section Live

variable {d : Dev} {n : Nat} {inc : List Incident}

theorem moveLive_live (live : livePages (moveSuffered d inc) n ≠ 0) : moveLive d n inc = pairMoves (moveSuffered d inc) n inc := by
  unfold moveLive
  exact if_neg live

theorem pairMoves_tile {w : Nat} (tile : lastingTile inc = some w) : pairMoves d n inc = pairHurt d n := by
  rw [pairMoves, if_pos (by simp [tile])]

variable (whole : lastingTile inc = none)

include whole

theorem pairMoves_moves (once : .writeLasting ∉ inc) : pairMoves d n inc = movePair d n := by
  rw [pairMoves, if_neg (by simp [whole]), if_neg (mt List.contains_iff_mem.1 once)]

theorem pairMoves_write (twice : .writeLasting ∈ inc) : pairMoves d n inc =
    (report d { cls := clsUnit, unit := 8, action := 1, inst := flsChannel n, status := stUnitFailed }).1 := by
  rw [pairMoves, if_neg (by simp [whole]), if_pos (List.contains_iff_mem.2 twice)]

end Live

/-- Settles O47, each command by the lemma of what it does. That a refresh acts on a corrected read, and that the checks of a refresh or a
reclaim count as those of a move, is log entry 62. -/
theorem pagesMove : Obligations.PagesMove := by
  rintro s n inc e he
  obtain rfl : e = moveSuffered s.dev inc := he
  refine ⟨fun runs sound ready on => ⟨fun m k p g idle next group => ⟨_, exec_pageMoveStart s, ?taken⟩,
      fun h => exec_to (exec_pageMoveStart s) (moveStart_idle runs sound ready on h)⟩,
    fun h => exec_to (exec_pageMoveStart s) (moveStart_stopped h),
    fun p moves here kept => ?ends, exec_pageMoveDone_waits inc, fun d p g => moverDone_joins,
    exec_nearScrub_meets, exec_nearScrub_out, fun b serves live => ⟨fun h => ?refreshed, fun clean few => ?notYet⟩, exec_flashRefresh_out,
    fun p => exec_flashReclaim_moves, exec_flashReclaim_none,
    fun live => ?pair⟩
  case taken =>
    obtain ⟨movers, queue, groups, ctx⟩ := pageTaken_spec s.dev m k g p
    have links := onlyLinks_askLender (pageTaken s.dev m k g p) (objClient (sealed s.dev p.dest.tier).2 g.obj) g (takenPage s.dev g p)
      (look (objPages s.dev g.obj) p.page)
    rw [← moveStart_takes runs sound ready on idle next group] at links
    rw [links.dly_eq, links.ctx_eq]
    exact ⟨movers, queue, groups, ctx⟩
  case ends =>
    have run := exec_pageMoveDone_ends moves here kept
    exact ⟨fun w tile => exec_to run (moveEnds_tile tile), fun whole twice => exec_to run (moveEnds_write whole twice),
      fun whole once => ⟨fun fine => exec_to run (moveEnds_moved whole once fine),
        fun failed other => exec_to run (moveEnds_stuck whole once failed other),
        fun e q failed other => exec_to run (moveEnds_again whole once failed other)⟩⟩
  case pair =>
    rw [moveLive_live live]
    exact ⟨pairMoves_moves, fun w => pairMoves_tile, fun whole twice => ⟨_, pairMoves_write whole twice, rfl, rfl⟩⟩
  case refreshed => exact exec_to (exec_flashRefresh_live serves live b) (if_pos h)
  case notYet => exact exec_to (exec_flashRefresh_live serves live b) (if_neg (by simp [clean, few]))

end Sys2Proof.Machine
end

section
/-!
PROOFS. Counting, charging, sending, programming and taking frames leave indexes, searches and contexts as they are (10 R289 to R291,
R298; 11 R315, R316, R330; 15 R420).
-/

namespace Sys2Proof.Machine

/-- Of the flash unit only block pairs differ: indexes and searches are as they were, and so are contexts. -/
structure LeavesIndexes (d e : Dev) : Prop where
  fls : e.fls = { d.fls with pairs := e.fls.pairs }
  ctx : e.ctx = d.ctx

namespace LeavesIndexes

variable {a b c : Dev}

theorem refl (a : Dev) : LeavesIndexes a a := ⟨rfl, rfl⟩

theorem trans (h : LeavesIndexes a b) (k : LeavesIndexes b c) : LeavesIndexes a c := ⟨by rw [k.fls, h.fls], k.ctx.trans h.ctx⟩

/-- After a change of neither. -/
theorem after (h : LeavesIndexes b c) (fls : b.fls = { a.fls with pairs := b.fls.pairs } := by rfl) (ctx : b.ctx = a.ctx := by rfl) :
    LeavesIndexes a c :=
  .trans ⟨fls, ctx⟩ h

theorem of_reports (h : OnlyReports a b) : LeavesIndexes a b := by constructor <;> simp [h.keeps]

theorem of_links (h : OnlyLinks a b) : LeavesIndexes a b := .of_reports h.reports

theorem idx (h : LeavesIndexes a b) : b.fls.idx = a.fls.idx := by rw [h.fls]

theorem search (h : LeavesIndexes a b) : b.fls.search = a.fls.search := by rw [h.fls]

/-- Indexes are read the same. -/
theorem idxOf (h : LeavesIndexes a b) (n : Nat) : idxOf b n = Machine.idxOf a n := by rw [Machine.idxOf, h.idx]; rfl

theorem foldl {α : Type} {f : Dev → α → Dev} (each : ∀ d x, LeavesIndexes d (f d x)) (l : List α) (d : Dev) :
    LeavesIndexes d (l.foldl f d) :=
  List.foldlRecOn l f (.refl d) fun e h x _ => h.trans (each e x)

end LeavesIndexes

theorem OnlyLinks.fls_eq {d e : Dev} (h : OnlyLinks d e) : e.fls = d.fls := by simp only [h.keeps]

/-! ### Counters, events and accounts (11 R318; 15 R420) -/

theorem leavesIndexes_updAcct (d : Dev) (c : Nat) (g : Acct → Acct) : LeavesIndexes d (updAcct d c g) := ⟨rfl, rfl⟩

theorem leavesIndexes_raiseMany (d : Dev) (f : Fd) (n : Nat) : LeavesIndexes d (raiseMany d f n) := by
  dsimp only [raiseMany]
  split
  · exact .refl d
  · exact .after (.of_reports (onlyReports_raise ..))

theorem leavesIndexes_chargeTier (d : Dev) (a t n : Nat) : LeavesIndexes d (chargeTier d a t n) := ⟨rfl, rfl⟩

theorem leavesIndexes_flsRead (d : Dev) (l : Loc) (n : Nat) : LeavesIndexes d (flsRead d l n) := by
  unfold flsRead
  split <;> exact ⟨rfl, rfl⟩

theorem leavesIndexes_chargeNodes (d : Dev) (c n : Nat) (b : IBase) (vs : List Nat) : LeavesIndexes d (chargeNodes d c n b vs) := by
  refine .foldl (fun e v => ?_) vs d
  split
  · exact (leavesIndexes_chargeTier ..).trans (leavesIndexes_flsRead ..)
  · exact leavesIndexes_chargeTier ..

theorem leavesIndexes_dispatched (d : Dev) (r id : Nat) : LeavesIndexes d (dispatched d r id) := ⟨rfl, rfl⟩

/-! ### Programming (11 R315) -/

/-- A page is programmed by a message to its channel. -/
theorem onlyLinks_programAt (d : Dev) (o : MoveOf) (ks : List Nat) : OnlyLinks d (programAt d o ks) := by
  refine onlyLinks_foldl _ (fun e k => ?_) ks d
  split
  · split
    · unfold nandProgram
      split <;> rfl
    · rfl
  · rfl

theorem keepsEvents_programAt (d : Dev) (o : MoveOf) (ks : List Nat) : KeepsEvents d (programAt d o ks) := by
  refine keepsEvents_foldl (fun e k => ?_) ks d
  split
  · split
    · unfold nandProgram
      split <;> exact .of_evts rfl
    · exact .refl e
  · exact .refl e

/-! ### Frames that are taken (10 R289 to R291, R298; 11 R316) -/

theorem leavesIndexes_sealed (d : Dev) (t : Nat) : LeavesIndexes d (sealed d t).2 := by
  dsimp only [sealed]
  split <;> exact ⟨rfl, rfl⟩

theorem leavesIndexes_locsAt (d : Dev) (t : Nat) (fs : List Nat) : LeavesIndexes d (locsAt d t fs).2 :=
  List.foldlRecOn (motive := fun x : List Loc × Dev => LeavesIndexes d x.2) fs _ (.refl d)
    fun x h _ _ => h.trans (leavesIndexes_sealed x.2 t)

theorem leavesIndexes_pickFree (n total : Nat) (used : List Nat) (d : Dev) : LeavesIndexes d (pickFree n total used d).2 := by
  rw [onlyFresh_pickFree n total used d]
  exact ⟨rfl, rfl⟩

theorem leavesIndexes_takeFar (n : Nat) : ∀ (used : List Nat) (d : Dev), LeavesIndexes d (takeFar n used d).2 := by
  induction n with
  | zero => exact fun _ d => .refl d
  | succ n ih =>
    intro used d
    dsimp only [takeFar]
    split
    · exact .refl d
    · exact .after (ih _ _)

theorem leavesIndexes_flsTake {d e : Dev} {taken : List Nat} {f : Nat} (h : flsTake d taken = some (f, e)) : LeavesIndexes d e := by
  have next (b : Dev) (p : Nat) : LeavesIndexes b (flsNext b taken p).2 := by
    dsimp only [flsNext]
    split <;> split <;> exact ⟨rfl, rfl⟩
  dsimp only [flsTake] at h
  split at h
  · cases h
  · split at h
    · cases h
    · next p opened =>
      have took := next (freshBelow d ((flsLuns d).filter (fun l => (openPair d taken l).isSome)).length).2 p
      rw [Option.some.inj h] at took
      exact took.after

theorem leavesIndexes_flsTakes (n : Nat) : ∀ {taken fs : List Nat} {d e : Dev}, flsTakes n taken d = some (fs, e) →
    LeavesIndexes d e := by
  induction n with
  | zero => intro taken fs d e h; cases h; exact .refl d
  | succ n ih =>
    intro taken fs d e h
    dsimp only [flsTakes] at h
    split at h
    · cases h
    · next took =>
      obtain ⟨⟨gs, e'⟩, rest, same⟩ := Option.map_eq_some_iff.1 h
      cases same
      exact (leavesIndexes_flsTake took).trans (ih rest)

theorem leavesIndexes_sealSlots (fs : List Nat) : ∀ {extra : List Nat} {d e : Dev}, sealSlots fs extra d = some e →
    LeavesIndexes d e := by
  induction fs with
  | nil => intro extra d e h; cases h; exact .refl d
  | cons f fs ih =>
    intro extra d e h
    dsimp only [sealSlots] at h
    split at h
    · exact (ih h).after
    · split at h
      · cases h
      · split at h
        · cases h
        · have far := leavesIndexes_takeFar 1 (usedFrames d 2 ++ extra) d
          have rest := ih h
          exact far.trans ((leavesIndexes_sealed _ 2).trans rest.after)

theorem leavesIndexes_takeT4 {n : Nat} {d e : Dev} {fs : List Nat} (h : takeT4 n d = some (fs, e)) : LeavesIndexes d e := by
  dsimp only [takeT4] at h
  split at h
  · cases h
  · next took =>
    obtain ⟨e', slots, same⟩ := Option.map_eq_some_iff.1 h
    cases same
    exact ((leavesIndexes_flsTakes n took).trans (leavesIndexes_sealSlots _ slots)).after

/-- An allocation changes memory and block pairs, and neither indexes nor contexts. -/
theorem leavesIndexes_alloc {d e : Dev} {c t n : Nat} {fs : List Nat} (h : alloc d c t n = .ok fs e) : LeavesIndexes d e := by
  dsimp only [alloc] at h
  split at h
  · cases h; exact .refl d
  split at h
  · cases h
  split at h
  · cases h
  split at h
  · cases h
  split at h
  · split at h
    · cases h
      exact leavesIndexes_takeT4 ‹_›
    · cases h
  split at h
  · cases h
  split at h
  · cases h
  split at h
  · cases h
  split at h
  · cases h
    exact leavesIndexes_takeFar n _ d
  · cases h
    exact leavesIndexes_pickFree n _ _ d

end Sys2Proof.Machine
end

section
/-!
PROOFS. Commands of indexes (11 R326 to R339): what `SEARCH`, `VEC_INSERT`, `VEC_DELETE` and `INDEX_FOLD` do past their gates, how a
search and a fold end, and what the shards of an index send each other.
-/

namespace Sys2Proof.Machine

/-! ### The checks that index commands share (11 R320, R336) -/

/-- The checks on the owner, the state and the damage of the index that a descriptor names, and then the command. -/
def idxChecked (d : Dev) (r : Nat) (f : Flight) (go : Dev) : Dev :=
  let n := dSel f.desc % 256
  if idxForeign d n (sqClient d r) then finish d r f.id stSecurity 0
  else if (idxOf d n).state = 0 then finish d r f.id stStateConflict 0
  else if (idxOf d n).damaged then idxDamaged d r f.id n
  else go

/-- The index that a descriptor names, its owner the ring's client, whole. -/
structure NamesIndex (d : Dev) (r n : Nat) (f : Flight) : Prop where
  sel : n = dSel f.desc % 256
  own : idxForeign d n (sqClient d r) = false
  built : (idxOf d n).state ≠ 0
  whole : (idxOf d n).damaged = false

theorem idxChecked_names {d : Dev} {r n : Nat} {f : Flight} (h : NamesIndex d r n f) (go : Dev) : idxChecked d r f go = go := by
  obtain ⟨rfl, own, built, whole⟩ := h
  simp [idxChecked, own, built, whole]

section Commands

variable {s : State} {d : Dev} {r : Nat} {f : Flight}

theorem exec_search (h : pastGate s.dev r 0x40 f) (queries : List Byte) :
    exec (.search r queries) s = .next (s.settled (searchGo s.dev r f queries)) :=
  exec_pastGate (go := (searchGo · r · queries)) rfl h

theorem exec_vecInsert (h : pastGate s.dev r 0x41 f) (vectors params : List Byte) (inc : List Incident) :
    exec (.vecInsert r vectors params inc) s = .next (s.settled (vecInsert s.dev r f vectors params inc)) :=
  exec_pastGate (go := (vecInsert · r · vectors params inc)) rfl h

theorem exec_vecDelete (h : pastGate s.dev r 0x42 f) (nodes : List Byte) :
    exec (.vecDelete r nodes) s = .next (s.settled (vecDelete s.dev r f nodes)) :=
  exec_pastGate (go := (vecDelete · r · nodes)) rfl h

theorem exec_indexFold (h : pastGate s.dev r 0x43 f) : exec (.indexFold r) s = .next (s.settled (indexFold s.dev r f)) :=
  exec_pastGate (go := (indexFold · r ·)) rfl h

/-- How a command ends on which these checks fail. They are its first checks where it creates no index (`into`) and finds none
RECOVERING (state 4), and the one on the owner is its first in any case. -/
theorem exec_idxChecked {c : Instr} {e go : Dev} {n : Nat} {into : Prop} (hn : n = dSel f.desc % 256)
    (run : exec c s = .next (s.settled e))
    (foreign : idxForeign s.dev (dSel f.desc % 256) (sqClient s.dev r) = true → e = finish s.dev r f.id stSecurity 0)
    (checked : into → (idxOf s.dev (dSel f.desc % 256)).state ≠ 4 → e = idxChecked s.dev r f go) :
    (idxForeign s.dev n (sqClient s.dev r) = true → exec c s = .next (s.settled (finish s.dev r f.id stSecurity 0))) ∧
    (idxForeign s.dev n (sqClient s.dev r) = false → (idxOf s.dev n).state = 0 → into →
      exec c s = .next (s.settled (finish s.dev r f.id stStateConflict 0))) ∧
    (idxForeign s.dev n (sqClient s.dev r) = false → (idxOf s.dev n).state ∈ [1, 2, 3] → (idxOf s.dev n).damaged = true → into →
      exec c s = .next (s.settled (idxDamaged s.dev r f.id n))) := by
  subst hn
  refine ⟨fun other => exec_to run (foreign other), fun own missing named => ?_, fun own built damaged named => ?_⟩
  · exact exec_to run ((checked named (by omega)).trans (by simp [idxChecked, own, missing]))
  · simp only [List.mem_cons, List.not_mem_nil, or_false] at built
    refine exec_to run ((checked named (by omega)).trans ?_)
    exact (if_neg (by simp [own])).trans ((if_neg (by omega)).trans (if_pos damaged))

/-! ### Searching (11 R326 to R330, R337, R338) -/

/-- The queries of a `SEARCH` as they run on the index that it names. -/
def searchVecs (d : Dev) (f : Flight) (queries : List Byte) : List (List F32) :=
  (queryVecs f.desc queries).map (normalised (idxOf d (dSel f.desc % 256)).metric)

/-- The run of each query on the index as it stands at dispatch. -/
def searchBeams (d : Dev) (f : Flight) (queries : List Byte) : List Beam :=
  let i := idxOf d (dSel f.desc % 256)
  (searchVecs d f queries).map (beamSearch i i.base i.seq (db f.desc 54 2) (db f.desc 60 4))

/-- The nodes that a search evaluates are charged. -/
def searchCharged (d : Dev) (r : Nat) (f : Flight) (queries : List Byte) : Dev :=
  let n := dSel f.desc % 256
  chargeNodes (dispatched d r f.id) (sqClient d r) n (idxOf d n).base
    ((searchBeams d f queries).flatMap (fun b => b.seen.map Prod.fst))

/-- A search as it enters flight. -/
def newSearch (d : Dev) (r : Nat) (f : Flight) (queries : List Byte) : Search :=
  let x := f.desc
  let n := dSel x % 256
  let i := idxOf d n
  { ring := r, flight := f.id, index := n, base := i.base.num, seq := i.seq, k := db x 52 2, flags := db x 59 1
    vecs := searchVecs d f queries
    own := (searchBeams d f queries).map (fun b => (b.expanded, beamResult i i.base i.seq (db x 52 2) b))
    asked := if bitOf (db x 59 1) 0 then (List.range i.shards).filter (fun h => h != i.shard) else []
    sentAt := up (searchCharged d r f queries) }

/-- A search enters flight under its number, and the next one takes the next. -/
def searchEntered (d : Dev) (id : Nat) (x : Search) : Dev :=
  { d with fls := { d.fls with search := put d.fls.search id x, nextSearch := (id + 1) % 2 ^ 26 } }

/-- The queries of search `id` go out to the shards that it asks. -/
def shardsAsked (d : Dev) (c id : Nat) (i : Idx) (x : Search) (desc : Desc) : Dev :=
  x.asked.foldl (fun d sh => x.vecs.zipIdx.foldl (fun d q =>
    let home := i.list.getD sh (0, 0)
    sendFrame d 5 0x50 home.1 (some c) (shardFrame 1 (b2n (bitOf x.flags 2)) (ownDevice d) (64 * id + q.2) i.group home.2 sh i.metric
      i.dim x.k (db desc 54 2) (db desc 60 4) 0 0 0 0 (f32Bytes q.1))) d) d

theorem onlyLinks_shardsAsked (d : Dev) (c id : Nat) (i : Idx) (x : Search) (desc : Desc) : OnlyLinks d (shardsAsked d c id i x desc) :=
  onlyLinks_foldl _ (fun e _ => onlyLinks_foldl _ (fun _ _ => onlyLinks_sendFrame ..) _ e) _ d

/-- The device with a search under way. -/
def searchBegun (d : Dev) (r : Nat) (f : Flight) (queries : List Byte) : Dev :=
  shardsAsked (searchEntered (searchCharged d r f queries) d.fls.nextSearch (newSearch d r f queries)) (sqClient d r) d.fls.nextSearch
    (idxOf d (dSel f.desc % 256)) (newSearch d r f queries) f.desc

/-- `SEARCH` on an index that is not damaged. -/
def searchWhole (d : Dev) (r : Nat) (f : Flight) (queries : List Byte) : Dev :=
  let i := idxOf d (dSel f.desc % 256)
  if i.dim ≠ db f.desc 56 2 then finish d r f.id stStateConflict i.state
  else if (queryVecs f.desc queries).any (fun q => vecFault i.metric q != 0) then finish d r f.id stInvalidField 24
  else if 2048 < queriesInFlight d + db f.desc 58 1 then d
  else searchBegun d r f queries

theorem searchGo_checked (there : (idxOf d (dSel f.desc % 256)).state ≠ 4) (queries : List Byte) :
    searchGo d r f queries = idxChecked d r f (searchWhole d r f queries) := by
  unfold searchGo
  dsimp only
  rw [if_neg there]
  rfl

theorem searchGo_names {n : Nat} (names : NamesIndex d r n f) (there : (idxOf d n).state ≠ 4) (queries : List Byte) :
    searchGo d r f queries = searchWhole d r f queries := by
  obtain rfl := names.sel
  rw [searchGo_checked there, idxChecked_names names]

theorem searchWhole_sound {n : Nat} (hn : n = dSel f.desc % 256) (dim : (idxOf d n).dim = db f.desc 56 2) {queries : List Byte}
    (sound : ∀ q ∈ queryVecs f.desc queries, vecFault (idxOf d n).metric q = 0) :
    searchWhole d r f queries = if 2048 < queriesInFlight d + db f.desc 58 1 then d else searchBegun d r f queries := by
  subst hn
  exact (if_neg (not_not_intro dim)).trans (if_neg (by simpa using sound))

/-- What a search's beginning changes of the flash unit, and that it leaves indexes and contexts. -/
theorem searchBegun_keeps (d : Dev) (r : Nat) (f : Flight) (queries : List Byte) :
    look (searchBegun d r f queries).fls.search d.fls.nextSearch = some (newSearch d r f queries) ∧
    (searchBegun d r f queries).fls.nextSearch = (d.fls.nextSearch + 1) % 2 ^ 26 ∧
    (searchBegun d r f queries).ctx = d.ctx ∧ (searchBegun d r f queries).fls.idx = d.fls.idx := by
  have charged : LeavesIndexes d (searchCharged d r f queries) := (leavesIndexes_dispatched ..).trans (leavesIndexes_chargeNodes ..)
  have asked : OnlyLinks _ (searchBegun d r f queries) := onlyLinks_shardsAsked ..
  rw [asked.fls_eq, asked.ctx_eq]
  exact ⟨look_put_same .., rfl, charged.ctx, charged.idx⟩

/-! ### Checks that chunks meet as they are read (11 R336) -/

/-- The device after the checks and the faults that were met as chunks were read. -/
def chunksMet (d : Dev) (inc : List Incident) : Dev :=
  suffer (countChecks d inc Fd.FLS_CHECK_CNT_transient Fd.FLS_CHECK_CNT_lasting Fd.FLS_EVT_check_transient Fd.FLS_EVT_check_lasting) inc

/-- Chunks that meet no fault are read: at most a counter field is written again. -/
theorem chunkFaults_nil (d : Dev) (n : Nat) : chunkFaults d n [] = fbump d Fd.FLS_CHECK_CNT_transient 0 := rfl

theorem leavesIndexes_chunkFaults_nil (d : Dev) (n : Nat) : LeavesIndexes d (chunkFaults d n []) := by
  rw [chunkFaults_nil]
  exact .of_reports (onlyReports_fbump ..)

/-! ### Inserting (11 R323, R331, R332) -/

/-- The vectors of a `VEC_INSERT`, each with its key. -/
def insertVecs (f : Flight) (dim : Nat) (vectors : List Byte) : List (List Byte) :=
  (List.range (db f.desc 60 2)).map (fun k => (vectors.drop (k * (8 + 4 * dim))).take (8 + 4 * dim))

/-- The bytes of T1 that a `VEC_INSERT` reserves. -/
def insertRoom (f : Flight) (i : Idx) : Nat := db f.desc 60 2 * (nodeSize i + 8 * i.degree)

/-- Back-links that an insert dropped are counted. -/
def dropsCounted (d : Dev) (c dropped : Nat) : Dev :=
  if dropped = 0 then d
  else raiseMany (updAcct d c (fun a => { a with backlinks := a.backlinks + dropped })) Fd.FLS_EVT_backlink_dropped dropped

theorem leavesIndexes_dropsCounted (d : Dev) (c dropped : Nat) : LeavesIndexes d (dropsCounted d c dropped) := by
  unfold dropsCounted
  split
  · exact .refl d
  · exact (leavesIndexes_updAcct ..).trans (leavesIndexes_raiseMany ..)

/-- Output that is written to the host if the descriptor names a place for it. -/
def hostAnswer (d : Dev) (r addr : Nat) (bytes : List Byte) : Dev := if addr = 0 then d else hostWrite d r addr bytes

theorem leavesIndexes_hostAnswer (d : Dev) (r addr : Nat) (bytes : List Byte) : LeavesIndexes d (hostAnswer d r addr bytes) := by
  unfold hostAnswer
  split
  · exact .refl d
  · exact .of_reports (onlyReports_hostWrite ..)

/-- The device once the chunks of an index are read for an insert and the nodes that it evaluates are charged. -/
def insertRead (d : Dev) (r n : Nat) (f : Flight) (vs : List (List Byte)) : Dev :=
  let i := idxOf d n
  let e := chunkFaults d n []
  chargeNodes { e with fresh := e.fresh + (db f.desc 60 2 - goodVectors i.metric i.dim vs) } (sqClient d r) n i.base
    (insertAll i i.dim d.fresh vs).2.2.1

/-- The device `e`, on which an insert's vectors stand in their index, with the insert counted, charged and answered. -/
def insertCounted (d e : Dev) (r n : Nat) (f : Flight) (vs : List (List Byte)) : Dev :=
  let i := idxOf d n
  let taken := insertAll i i.dim d.fresh vs
  let e := chargeTier (dropsCounted e (sqClient d r) taken.2.2.2) (sqClient d r) 1 (goodVectors i.metric i.dim vs * nodeSize i)
  hostAnswer e r (db f.desc 48 8) (taken.2.1.flatMap (leBytes 8))

/-- The device with the vectors of a `VEC_INSERT` taken into index `n`. -/
def vecsTaken (d : Dev) (r n : Nat) (f : Flight) (vs : List (List Byte)) : Dev :=
  insertCounted d (setIdx (insertRead d r n f vs) n (insertAll (idxOf d n) (idxOf d n).dim d.fresh vs).1) r n f vs

theorem leavesIndexes_insertRead (d : Dev) (r n : Nat) (f : Flight) (vs : List (List Byte)) :
    LeavesIndexes d (insertRead d r n f vs) :=
  (leavesIndexes_chunkFaults_nil d n).trans (leavesIndexes_chargeNodes ..).after

theorem leavesIndexes_insertCounted (d e : Dev) (r n : Nat) (f : Flight) (vs : List (List Byte)) :
    LeavesIndexes e (insertCounted d e r n f vs) :=
  (leavesIndexes_dropsCounted ..).trans ((leavesIndexes_chargeTier ..).trans (leavesIndexes_hostAnswer ..))

theorem idxOf_vecsTaken (d : Dev) (r n : Nat) (f : Flight) (vs : List (List Byte)) (m : Nat) : idxOf (vecsTaken d r n f vs) m =
    if m = n then (insertAll (idxOf d n) (idxOf d n).dim d.fresh vs).1 else idxOf d m := by
  rw [vecsTaken, (leavesIndexes_insertCounted ..).idxOf, idxOf_setIdx, (leavesIndexes_insertRead ..).idxOf]

theorem vecsTaken_ctx (d : Dev) (r n : Nat) (f : Flight) (vs : List (List Byte)) : (vecsTaken d r n f vs).ctx = d.ctx :=
  (leavesIndexes_insertCounted ..).ctx.trans (leavesIndexes_insertRead ..).ctx

theorem vecInsert_checked (into : db f.desc 40 8 = 0) (vectors params : List Byte) (inc : List Incident) :
    vecInsert d r f vectors params inc = idxChecked d r f (if (idxOf d (dSel f.desc % 256)).dim ≠ db f.desc 62 2
      then finish d r f.id stStateConflict (idxOf d (dSel f.desc % 256)).state else insertInto d d r f vectors inc) := by
  unfold vecInsert
  dsimp only
  rw [if_neg (not_not_intro into)]
  rfl

theorem vecInsert_names {n : Nat} (names : NamesIndex d r n f) (into : db f.desc 40 8 = 0) (dim : (idxOf d n).dim = db f.desc 62 2)
    (vectors params : List Byte) (inc : List Incident) : vecInsert d r f vectors params inc = insertInto d d r f vectors inc := by
  obtain rfl := names.sel
  rw [vecInsert_checked into, idxChecked_names names, if_neg (not_not_intro dim)]

/-- A `VEC_INSERT` with room for its vectors, and whose chunks meet no fault, takes them. -/
theorem insertInto_takes {n : Nat} (names : NamesIndex d r n f) {vectors : List Byte} {vs : List (List Byte)}
    (hvs : vs = insertVecs f (idxOf d n).dim vectors)
    (fits : lackT1 d (sqClient d r) (insertRoom f (idxOf d n)) = none) (free : heldT1 d (insertRoom f (idxOf d n)) = false)
    (numbers : (idxOf d n).next + goodVectors (idxOf d n).metric (idxOf d n).dim vs ≤ 2 ^ 36)
    (live : sumN ((vals d.fls.idx).map liveVectors) + goodVectors (idxOf d n).metric (idxOf d n).dim vs ≤ 2 ^ 36) :
    insertInto d d r f vectors [] = finish (vecsTaken d r n f vs) r f.id stOK (goodVectors (idxOf d n).metric (idxOf d n).dim vs +
      2 ^ 16 * (db f.desc 60 2 - goodVectors (idxOf d n).metric (idxOf d n).dim vs)) := by
  obtain ⟨rfl, own, built, whole⟩ := names
  subst hvs
  unfold insertRoom at fits free
  have sound : ¬ (idxOf (chunkFaults d (dSel f.desc % 256) []) (dSel f.desc % 256)).damaged = true := by
    simp [(leavesIndexes_chunkFaults_nil d _).idxOf, whole]
  unfold insertInto
  dsimp only
  rw [fits]
  exact (if_neg (by simp [free])).trans ((if_neg (by unfold insertVecs at numbers live; omega)).trans ((if_neg sound).trans rfl))

/-! ### Deleting (11 R333) -/

/-- The nodes that a `VEC_DELETE` names. -/
def deleteNodes (f : Flight) (nodes : List Byte) : List Nat :=
  (List.range (db f.desc 40 2)).map (fun k => leAt nodes (8 * k) 8 % 2 ^ 36)

/-- A `VEC_DELETE` enters its tombstones, writes to the host what was found, and ends with the counts. -/
def deleteAnswer (d : Dev) (r n : Nat) (f : Flight) (vs : List Nat) : Dev :=
  let res := deleteAll (idxOf d n) vs
  let found := (res.2.filter id).length
  finish (hostAnswer (setIdx d n res.1) r (db f.desc 48 8) (res.2.map (fun b => if b then 0 else 1))) r f.id stOK
    (found + 2 ^ 16 * (db f.desc 40 2 - found))

theorem vecDelete_checked (nodes : List Byte) :
    vecDelete d r f nodes = idxChecked d r f (deleteAnswer d r (dSel f.desc % 256) f (deleteNodes f nodes)) := rfl

theorem vecDelete_names {n : Nat} (names : NamesIndex d r n f) (nodes : List Byte) :
    vecDelete d r f nodes = deleteAnswer d r n f (deleteNodes f nodes) := by
  obtain rfl := names.sel
  rw [vecDelete_checked, idxChecked_names names]

/-! ### Folding (11 R335) -/

/-- The tier of a fold's new pages. -/
def foldTier (f : Flight) (i : Idx) : Nat := if db f.desc 24 1 = 0 then i.tier else db f.desc 24 1

/-- The pages of a fold's base version: its new chunks in the frames that it took, the others shared with the base version that stands. -/
def foldPages (i : Idx) (ls : List Loc) : NMap Loc :=
  ((foldChunks i (foldBase i)).1.zip ls).foldl (fun (m : NMap Loc) kl => put m kl.1 kl.2)
    ((foldChunks i (foldBase i)).2.foldl (fun (m : NMap Loc) k => match look i.base.pages k with | some l => put m k l | none => m) [])

/-- The device on which a fold has read its index and charged its pages, after the device `e` in which they are taken. -/
def foldCharged (d e : Dev) (r n : Nat) (f : Flight) : Dev :=
  let i := idxOf d n
  chargeTier (chargeNodes e (sqClient d r) n i.base (keys (liveNodes i i.seq))) (sqClient d r) (foldTier f i)
    (pageSize * (foldChunks i (foldBase i)).1.length)

/-- The device with a fold under way, after the device `e` in which its frames `fs` are taken. -/
def foldBegun (d e : Dev) (r n : Nat) (f : Flight) (fs : List Nat) : Dev :=
  let i := idxOf d n
  let located := locsAt e (foldTier f i) fs
  setIdx (dispatched (foldCharged d located.2 r n f) r f.id) n
    { i with folding := some (r, f.id, { foldBase i with pages := foldPages i located.1 }) }

/-- What a fold answers to the allocation of its new pages. -/
def foldAnswer (d : Dev) (r n : Nat) (f : Flight) : Alloc → Dev
  | .quota _ => finish d r f.id stQuota 0
  | .noFit _ => let (v, d) := freshBelow d (2 ^ 32); finish d r f.id stNoFit v
  | .waits => d
  | .ok fs e => foldBegun d e r n f fs

/-- `INDEX_FOLD` on an index that is not damaged: it waits for another fold and for a move of the index. -/
def foldWhole (d : Dev) (r n : Nat) (f : Flight) : Dev :=
  if (idxOf d n).folding.isSome ∨ d.dly.groups.any (fun g => g.obj == .index n) then d
  else foldAnswer d r n f (alloc d (sqClient d r) (foldTier f (idxOf d n)) (foldChunks (idxOf d n) (foldBase (idxOf d n))).1.length)

theorem indexFold_checked : indexFold d r f = idxChecked d r f (foldWhole d r (dSel f.desc % 256) f) := rfl

theorem indexFold_names {n : Nat} (names : NamesIndex d r n f) : indexFold d r f = foldWhole d r n f := by
  obtain rfl := names.sel
  rw [indexFold_checked, idxChecked_names names]

theorem foldWhole_waits {n : Nat} (h : (idxOf d n).folding.isSome = true ∨ ∃ g ∈ d.dly.groups, g.obj = .index n) :
    foldWhole d r n f = d := if_pos (by simpa using h)

theorem foldWhole_begins {n : Nat} {fs : List Nat} {e : Dev} (unfolding : (idxOf d n).folding = none)
    (still : ∀ g ∈ d.dly.groups, g.obj ≠ .index n)
    (taken : alloc d (sqClient d r) (foldTier f (idxOf d n)) (foldChunks (idxOf d n) (foldBase (idxOf d n))).1.length = .ok fs e) :
    foldWhole d r n f = foldBegun d e r n f fs := by
  rw [foldWhole, if_neg (by simpa [unfolding] using still), taken]
  rfl

theorem leavesIndexes_foldCharged (d e : Dev) (r n : Nat) (f : Flight) : LeavesIndexes e (foldCharged d e r n f) :=
  (leavesIndexes_chargeNodes ..).trans (leavesIndexes_chargeTier ..)

theorem foldBegun_keeps {n t k : Nat} {fs : List Nat} {e : Dev} (taken : alloc d (sqClient d r) t k = .ok fs e) :
    idxOf (foldBegun d e r n f fs) n = { idxOf e n with
      folding := some (r, f.id, { foldBase (idxOf d n) with pages := foldPages (idxOf d n) (locsAt e (foldTier f (idxOf d n)) fs).1 }) } ∧
    (foldBegun d e r n f fs).ctx = e.ctx := by
  refine ⟨?_, ?_⟩
  · rw [foldBegun, idxOf_setIdx, if_pos rfl, (leavesIndexes_alloc taken).idxOf]
  · simp only [foldBegun, setIdx_frame, dispatched_frame, (leavesIndexes_foldCharged ..).ctx, (leavesIndexes_locsAt ..).ctx]

end Commands

/-! ### A fold publishes (11 R335) -/

/-- The index whose fold has built base version `b`. -/
def foldedIdx (i : Idx) (b : IBase) : Idx := dropFolded { i with base := b, old := i.base :: i.old, folding := none } b.fold

/-- The device on which base version `b` of an index has become current. -/
def foldCurrent (d : Dev) (n : Nat) (b : IBase) : Dev :=
  programAt (raise (setIdx d n (foldedIdx (idxOf d n) b)) Fd.FLS_EVT_fold_done) (.index n)
    ((keys b.pages).filter (fun k => look b.pages k != look (idxOf d n).base.pages k))

theorem foldPublish_folding {d : Dev} {n ring id : Nat} {b : IBase} (folding : (idxOf d n).folding = some (ring, id, b)) :
    foldPublish d n = finish (idxReap (foldCurrent d n b) n) ring id stOK b.num := by
  unfold foldPublish
  dsimp only
  rw [folding]
  rfl

theorem idxOf_foldCurrent (d : Dev) (n : Nat) (b : IBase) : idxOf (foldCurrent d n b) n = foldedIdx (idxOf d n) b := by
  rw [foldCurrent, (LeavesIndexes.of_links (onlyLinks_programAt ..)).idxOf, (LeavesIndexes.of_links (onlyLinks_raise ..)).idxOf,
    idxOf_setIdx, if_pos rfl]

theorem evSet_foldCurrent (d : Dev) (n : Nat) (b : IBase) : evSet (foldCurrent d n b) Fd.FLS_EVT_fold_done = true :=
  (keepsEvents_programAt ..).kept (evSet_raise ..)

section Ends

variable {s : State} {n : Nat} {inc : List Incident}

/-- A fold that met no lasting failure, on an index that is not damaged, publishes. -/
theorem exec_indexFoldPublish_publishes (folding : (idxOf s.dev n).folding.isSome = true) (runs : s.dev.sys.resetLow = false)
    (kept : (idxOf (chunksMet s.dev inc) n).folding.isSome = true) (tiles : lastingTile inc = none) (writes : .writeLasting ∉ inc)
    (whole : (idxOf (chunksMet s.dev inc) n).damaged = false) :
    exec (.indexFoldPublish n inc) s = .next (s.settled (foldPublish (chunksMet s.dev inc) n)) := by
  change execIndexFoldPublish n inc s = _
  refine lift_to ((if_neg (by simpa [inReset, runs] using Option.isSome_iff_ne_none.1 folding)).trans ?_)
  obtain ⟨⟨ring, id, b⟩, still⟩ := Option.isSome_iff_exists.1 kept
  unfold chunksMet at still whole ⊢
  dsimp only
  rw [still]
  exact (if_neg (by simp [tiles])).trans ((if_neg (by simpa using writes)).trans (if_neg (by simp [whole])))

theorem exec_indexFoldPublish_idle (inc : List Incident) (h : (idxOf s.dev n).folding = none ∨ s.dev.sys.resetLow = true) :
    exec (.indexFoldPublish n inc) s = .next (s.settled s.dev) := by
  change execIndexFoldPublish n inc s = _
  exact lift_to (if_pos (by simpa [inReset] using h))

/-! ### A search ends (11 R327, R336, R339) -/

/-- How a search ends that has every answer, by the checks that its chunks met. -/
def searchEnds (d : Dev) (q : Nat) (x : Search) (inc : List Incident) : Dev :=
  if (lastingTile inc).isSome then
    finish (dropSearch (idxHurt d x.index).1 q x) x.ring x.flight stIntegrity (idxHurt d x.index).2
  else if (idxOf d x.index).damaged then idxDamaged (dropSearch d q x) x.ring x.flight x.index
  else searchEnd d q x

variable {q : Nat} {x y : Search}

theorem exec_searchComplete_ends (flies : look s.dev.fls.search q = some x) (ready : searchReady x = true)
    (runs : s.dev.sys.resetLow = false) (kept : look (chunksMet s.dev inc).fls.search q = some y) :
    exec (.searchComplete q inc) s = .next (s.settled (searchEnds (chunksMet s.dev inc) q y inc)) := by
  change execSearchComplete q inc s = _
  refine lift_to ?_
  unfold chunksMet at kept ⊢
  dsimp only
  rw [flies]
  refine (if_neg (by simp [inReset, ready, runs])).trans ?_
  rw [kept]
  rfl

theorem exec_searchComplete_waits (inc : List Incident)
    (h : look s.dev.fls.search q = none ∨ ∃ x, look s.dev.fls.search q = some x ∧ searchReady x = false) :
    exec (.searchComplete q inc) s = .next (s.settled s.dev) := by
  change execSearchComplete q inc s = _
  refine lift_to ?_
  dsimp only
  rcases h with gone | ⟨x, flies, waits⟩
  · rw [gone]
  · rw [flies]
    exact if_pos (by simp [waits])

end Ends

/-! ### Replies of shards (11 R339) -/

/-- The device on which a reply to a query is kept. -/
def replyKept (d : Dev) (q sh : Nat) (x : Search) (rep : ShardRep) : Dev :=
  { d with fls := { d.fls with
    search := put d.fls.search (q / 64) { x with replies := put x.replies (sh * 64 + q % 64) rep } } }

theorem replyKept_keeps (d : Dev) (q sh : Nat) (x : Search) (rep : ShardRep) :
    ∃ y, look (replyKept d q sh x rep).fls.search (q / 64) = some y ∧ replyOf y sh (q % 64) = some rep ∧ y.asked = x.asked ∧
      (replyKept d q sh x rep).fls.idx = d.fls.idx ∧ (replyKept d q sh x rep).ctx = d.ctx :=
  ⟨_, look_put_same .., look_put_same .., rfl, rfl, rfl⟩

section Replies

variable {s : State} {q sh : Nat} {x : Search} (flies : look s.dev.fls.search (q / 64) = some x)
  (asked : x.asked.contains sh = true) (query : q % 64 < x.vecs.length) (waits : replyOf x sh (q % 64) = none)

include flies asked query waits

theorem exec_shardReply_waited (src st base seq : Nat) (es : List (Nat × Nat × F32)) :
    exec (.shardReply src q sh st base seq es) s = .next (s.settled (
      if ((idxOf s.dev x.index).list.getD sh (0, 0)).1 ≠ src ∨ s.dev.lnk.fenced.contains src = true then s.dev
      else replyKept s.dev q sh x ⟨st, base, seq, es⟩)) := by
  change execShardReply src q sh st base seq es s = _
  refine lift_to ?_
  dsimp only
  rw [flies]
  simp only [asked, waits, Nat.not_le.2 query, Bool.not_true, Bool.false_eq_true, Option.isSome_none, false_or]
  rfl

theorem exec_shardTimeout_waited : exec (.shardTimeout q sh) s = .next (s.settled (
    if up s.dev < x.sentAt + fget s.dev Fd.FLS_SHARD_TIMEOUT_frames * 65536 then s.dev
    else replyKept s.dev q sh x ⟨0xFF, 0, 0, []⟩)) := by
  change execShardTimeout q sh s = _
  refine lift_to ?_
  unfold shardOverdue
  rw [flies]
  simp only [asked, waits, Nat.not_le.2 query, Bool.not_true, Bool.false_eq_true, Option.isSome_none, false_or]
  rfl

end Replies

/-! ### Queries of other shards (11 R338) -/

/-- The beam of a query that a shard evaluates, its vector padded to the dimension that it was sent with. -/
def shardBeam (i : Idx) (beam budget dim : Nat) (vector : List F32) : Beam :=
  beamSearch i i.base i.seq beam budget ((vector ++ List.replicate (dim - vector.length) 0).take dim)

/-- What a shard answers a query: 1 it does not serve the index, 2 the index is another one, 3 it has too much in flight. -/
def shardStatus (d : Dev) (group index metric dim : Nat) (test : Bool) : Nat :=
  let i := idxOf d index
  if !(fbit d Fd.FLS_CTL_enable && !unitInReset d 4 && (i.state == 2 || (i.state == 3 && test)) && !i.damaged) then 1
  else if i.group ≠ group ∨ i.dim ≠ dim ∨ i.metric ≠ metric then 2
  else if 2048 ≤ queriesInFlight d then 3 else 0

/-- The device on which a shard has evaluated a query, charged to the owner of the index. -/
def queryServed (d : Dev) (index : Nat) (b : Beam) : Dev :=
  let i := idxOf d index
  let e := chargeNodes d i.client index i.base (b.seen.map Prod.fst)
  { e with fls := { e.fls with queries := e.fls.queries + 1 } }

theorem queryServed_keeps (d : Dev) (index : Nat) (b : Beam) :
    (queryServed d index b).fls.queries = d.fls.queries + 1 ∧ (queryServed d index b).fls.idx = d.fls.idx ∧
    (queryServed d index b).ctx = d.ctx := by
  have charged := leavesIndexes_chargeNodes d (idxOf d index).client index (idxOf d index).base (b.seen.map Prod.fst)
  refine ⟨?_, charged.idx, charged.ctx⟩
  dsimp only [queryServed]
  rw [charged.fls]

/-- A shard serves queries on an index: it is enabled and out of reset, the index is SERVING and whole, and fewer than 2,048 queries are
in flight. -/
structure ServesQuery (d : Dev) (index : Nat) : Prop where
  serving : (idxOf d index).state = 2
  whole : (idxOf d index).damaged = false
  enabled : fbit d Fd.FLS_CTL_enable = true
  ready : unitInReset d 4 = false
  few : queriesInFlight d < 2048

/-- Reading chunks that meet no fault leaves all that this rests on. -/
theorem ServesQuery.chunkFaults_nil {d : Dev} {index : Nat} (h : ServesQuery d index) (n : Nat) :
    ServesQuery (chunkFaults d n []) index := by
  have leaves := leavesIndexes_chunkFaults_nil d n
  refine ⟨by rw [leaves.idxOf, h.serving], by rw [leaves.idxOf, h.whole], ?_, h.ready, ?_⟩
  · exact (congrArg (· == 1) (fget_fset_elsewhere d _ (regKey_ne (by decide) (by decide) (.inl (by decide))))).trans h.enabled
  · simpa only [queriesInFlight, leaves.search] using h.few

theorem shardStatus_missing {d : Dev} {index : Nat} (missing : (idxOf d index).state = 0) (group metric dim : Nat) (test : Bool) :
    shardStatus d group index metric dim test = 1 := by
  simp [shardStatus, missing]

theorem shardStatus_serves {d : Dev} {index : Nat} (serves : ServesQuery d index) (test : Bool) :
    shardStatus d (idxOf d index).group index (idxOf d index).metric (idxOf d index).dim test = 0 := by
  obtain ⟨serving, whole, enabled, ready, few⟩ := serves
  simp [shardStatus, serving, whole, enabled, ready, few]

section Query

variable (src query group index shard metric dim k beam budget : Nat) (test : Bool) (vector : List F32)

/-- The device after a shard has answered a query with a status; only status 0 comes with entries. -/
def shardAnswered (d : Dev) (status : Nat) : Dev :=
  let i := idxOf d index
  let b := shardBeam i beam budget dim vector
  let es := if status = 0 then beamResult i i.base i.seq k b else []
  sendFrame (if status = 0 then queryServed d index b else d) 5 0x50 src (if i.state = 0 then none else some i.client)
    (shardFrame 2 (b2n test) src query group index shard metric dim k beam budget status (if i.state = 0 then 0 else i.base.num)
      (if i.state = 0 then 0 else i.seq) es.length (es.flatMap (entryBytes shard)))

variable {s : State} (inc : List Incident) (runs : s.dev.sys.resetLow = false) (sound : s.dev.sys.fatal = false)
  (heard : s.dev.lnk.fenced.contains src = false)

include runs sound heard

/-- The chunks of an index that is there are read first. -/
theorem exec_shardQuery_heard {d : Dev} (hd : (if (idxOf s.dev index).state = 0 then s.dev else chunkFaults s.dev index inc) = d) :
    exec (.shardQuery src query group index shard metric dim k beam budget test vector inc) s = .next (s.settled
      (shardAnswered src query group index shard metric dim k beam budget test vector d (shardStatus d group index metric dim test))) := by
  subst hd
  change execShardQuery src query group index shard metric dim k beam budget test vector inc s = _
  exact lift_to ((if_neg (by simpa [inReset, runs, sound] using heard)).trans rfl)

theorem exec_shardQuery_missing (missing : (idxOf s.dev index).state = 0) :
    exec (.shardQuery src query group index shard metric dim k beam budget test vector inc) s
      = .next (s.settled (sendFrame s.dev 5 0x50 src none
        (shardFrame 2 (b2n test) src query group index shard metric dim k beam budget 1 0 0 0 []))) := by
  rw [exec_shardQuery_heard src query group index shard metric dim k beam budget test vector inc runs sound heard (if_pos missing),
    shardStatus_missing missing]
  simp [shardAnswered, missing]

theorem exec_shardQuery_serves {i : Idx} (hi : i = idxOf s.dev index) (serves : ServesQuery s.dev index) :
    exec (.shardQuery src query i.group index shard i.metric i.dim k beam budget test vector []) s = .next (s.settled
      (sendFrame (queryServed (chunkFaults s.dev index []) index (shardBeam i beam budget i.dim vector)) 5 0x50 src (some i.client)
        (shardFrame 2 (b2n test) src query i.group index shard i.metric i.dim k beam budget 0 i.base.num i.seq
          (beamResult i i.base i.seq k (shardBeam i beam budget i.dim vector)).length
          ((beamResult i i.base i.seq k (shardBeam i beam budget i.dim vector)).flatMap (entryBytes shard))))) := by
  have there : ¬ (idxOf s.dev index).state = 0 := by simp [serves.serving]
  have read := serves.chunkFaults_nil index
  have same := (leavesIndexes_chunkFaults_nil s.dev index).idxOf index
  rw [exec_shardQuery_heard src query i.group index shard i.metric i.dim k beam budget test vector [] runs sound heard (if_neg there)]
  rw [← hi] at same
  have status := shardStatus_serves read test
  rw [same] at status
  rw [status]
  have st : i.state = 2 := by rw [← same]; exact read.serving
  simp [shardAnswered, same, st]

end Query

/-- Settles O46, each command by the equation of what it does past its checks. What meets faults and when they act in index commands, and
the waiting of a search, is log entry 61. -/
theorem searchAndIndexCommands : Obligations.SearchAndIndexCommands := by
  rintro s r n f bytes params inc i e hn rfl he
  obtain rfl : e = chunksMet s.dev inc := he
  refine ⟨fun c op command gate => ?checks, fun qs gate own built whole dim hqs sound => ?search,
    fun vs good room gate own into built whole dim hvs hgood hroom fits free numbers live clean => ?insert,
    fun vs found d gate own built whole hvs hfound hd => ?delete, fun gate own built whole => ⟨fun busy => ?foldWaits, ?foldBegins⟩,
    fun ring id b folding under runs tiles writes whole => ⟨?publishes, _, foldPublish_folding folding, ?published⟩,
    exec_indexFoldPublish_idle inc, fun q x y flies ready runs kept => ?ends, fun q => exec_searchComplete_waits inc,
    fun q sh x flies asked query waits => ?replies,
    fun src query group index shard metric dim k beam budget test vector runs sound heard =>
      ⟨exec_shardQuery_missing src query group index shard metric dim k beam budget test vector inc runs sound heard, ?serves⟩⟩
  case checks =>
    simp only [List.mem_cons, Prod.mk.injEq, List.not_mem_nil, or_false] at command
    rcases command with ⟨rfl, rfl⟩ | ⟨rfl, rfl⟩ | ⟨rfl, rfl⟩ | ⟨rfl, rfl⟩
    · exact exec_idxChecked hn (exec_search gate bytes) (fun other => if_pos other) fun _ there => searchGo_checked there bytes
    · exact exec_idxChecked hn (exec_vecInsert gate bytes params inc) (fun other => if_pos other)
        fun into _ => vecInsert_checked (by simpa using into) bytes params inc
    · exact exec_idxChecked hn (exec_vecDelete gate bytes) (fun other => if_pos other) fun _ _ => vecDelete_checked bytes
    · exact exec_idxChecked hn (exec_indexFold gate) (fun other => if_pos other) fun _ _ => indexFold_checked
  case search =>
    simp only [List.mem_cons, List.not_mem_nil, or_false] at built
    subst hn hqs
    have run := (searchGo_names ⟨rfl, own, by omega, whole⟩ (by omega) bytes).trans (searchWhole_sound rfl dim sound)
    obtain ⟨entered, next, ctx, idx⟩ := searchBegun_keeps s.dev r f bytes
    exact ⟨fun few => ⟨_, _, exec_to (exec_search gate bytes) (run.trans (if_neg (by omega))), entered, rfl, rfl, rfl, rfl, rfl, rfl,
      rfl, rfl, rfl, rfl, List.map_map, next, ctx, idx⟩, fun many => exec_to (exec_search gate bytes) (run.trans (if_pos many))⟩
  case insert =>
    subst hgood hroom clean
    have names : NamesIndex s.dev r n f := ⟨hn, own, built, whole⟩
    have run := (vecInsert_names names into dim bytes params []).trans (insertInto_takes names hvs fits free numbers live)
    exact ⟨_, exec_to (exec_vecInsert gate bytes params []) run, by rw [idxOf_vecsTaken, if_pos rfl],
      fun m other => by rw [idxOf_vecsTaken, if_neg other], vecsTaken_ctx ..⟩
  case delete =>
    subst hvs hfound hd
    exact exec_to (exec_vecDelete gate bytes) (vecDelete_names ⟨hn, own, built, whole⟩ bytes)
  case foldWaits =>
    exact exec_to (exec_indexFold gate) ((indexFold_names ⟨hn, own, built, whole⟩).trans (foldWhole_waits busy))
  case foldBegins =>
    rintro fs d1 t unfolding still rfl taken
    obtain ⟨idx, ctx⟩ := foldBegun_keeps (n := n) (f := f) taken
    exact ⟨_, _, exec_to (exec_indexFold gate) ((indexFold_names ⟨hn, own, built, whole⟩).trans (foldWhole_begins unfolding still taken)),
      idx, ctx⟩
  case publishes => exact exec_indexFoldPublish_publishes under runs (by simp [folding]) tiles writes whole
  case published => exact ⟨by rw [idxOf_foldCurrent]; rfl, by rw [idxOf_foldCurrent]; rfl, evSet_foldCurrent ..⟩
  case ends =>
    have run := exec_searchComplete_ends flies ready runs kept
    exact ⟨fun tiles whole => exec_to run ((if_neg (by simp [tiles])).trans (if_neg (by simp [whole]))),
      fun win tile => exec_to run (if_pos (by simp [tile]))⟩
  case replies =>
    have reply := exec_shardReply_waited flies asked query waits
    have timeout := exec_shardTimeout_waited flies asked query waits
    refine ⟨fun src st base seq es home heard => ?_, fun src st base seq es stray => exec_to (reply src st base seq es) (if_pos stray),
      fun due => ?_, fun early => exec_to timeout (if_pos early)⟩
    · obtain ⟨y, found, kept, same, idx, ctx⟩ := replyKept_keeps s.dev q sh x ⟨st, base, seq, es⟩
      exact ⟨_, y, exec_to (reply src st base seq es) (if_neg (not_or.2 ⟨not_not_intro home, ne_true_of_eq_false heard⟩)),
        found, kept, same, idx, ctx⟩
    · obtain ⟨y, found, kept, -, idx, ctx⟩ := replyKept_keeps s.dev q sh x ⟨0xFF, 0, 0, []⟩
      exact ⟨_, y, exec_to timeout (if_neg (by omega)), found, kept, idx, ctx⟩
  case serves =>
    rintro j es hj serving whole rfl rfl rfl rfl enabled ready few rfl
    have leaves := leavesIndexes_chunkFaults_nil s.dev index
    obtain ⟨queries, idx, ctx⟩ := queryServed_keeps (chunkFaults s.dev index []) index (shardBeam j beam budget j.dim vector)
    subst hj
    exact ⟨_, exec_shardQuery_serves src query index shard k beam budget test vector runs sound heard rfl
      ⟨serving, whole, enabled, ready, few⟩, queries.trans (by rw [leaves.fls]), idx.trans leaves.idx, ctx.trans leaves.ctx⟩

end Sys2Proof.Machine
end

section
/-!
PROOFS. Register writes that recall loans, set an index state, leave the domain and start a handoff (11 R337; 12 R361, R364; 13 R374,
R378).
-/

namespace Sys2Proof.Machine

/-! ### Recalls (12 R361, R364) -/

theorem exec_lnkRecall {s : State} (hp : s.dev.sys.portUp = true) (n : BitVec 32) :
    exec (.lnkRecall n) s = .next (s.settled (lnkRecall s.dev n.toNat)) := by
  change execLnkRecall n s = _
  exact lift_to (if_pos hp)

theorem lnkRecall_one {n : Nat} (h : n ≠ 0xFFFFFFFF) (d : Dev) : lnkRecall d n = recallLoan d n := if_neg h

theorem lnkRecall_all (d : Dev) : lnkRecall d 0xFFFFFFFF = recallAll d := if_pos rfl

theorem recallLoan_unknown {d : Dev} {n : Nat} (h : look d.lnk.loans n = none) : recallLoan d n = d := by
  rw [recallLoan, h]

theorem recallLoan_again {d : Dev} {n : Nat} {l : Loan} (lent : look d.lnk.loans n = some l) (h : l.recalled ≠ none) :
    recallLoan d n = d := by
  rw [recallLoan, lent]
  exact if_pos (Option.isSome_iff_ne_none.2 h)

theorem recallLoan_starts {d : Dev} {n : Nat} {l : Loan} (lent : look d.lnk.loans n = some l) (h : l.recalled = none) :
    recallLoan d n = loanSend (setLoan d n { l with recalled := some (up d, fget d Fd.LNK_RECALL_DEADLINE_frames) }) l.borrower
      (loanFrame 8 0 0 0 n 0 0 (fget d Fd.LNK_RECALL_DEADLINE_frames) []) := by
  rw [recallLoan, lent]
  exact if_neg (by simp [h])

/-! ### The state of an index (11 R337) -/

theorem exec_flsIdxStateWrite {s : State} (hp : s.dev.sys.portUp = true) (v : BitVec 32) :
    exec (.flsIdxStateWrite v) s = .next (s.settled (idxStateWrite s.dev v.toNat)) := by
  change execFlsIdxStateWrite v s = _
  exact lift_to (if_pos hp)

/-- The device on which the selected index has a state that was written. -/
def idxStateTaken (d : Dev) (st : Nat) : Dev :=
  setIdx (fset d Fd.FLS_IDX_STATE_state st) (fget d Fd.FLS_IDX_SEL_index) { idxOf d (fget d Fd.FLS_IDX_SEL_index) with state := st }

theorem idxStateWrite_takes {d : Dev} {v : Nat} (there : (idxOf d (fget d Fd.FLS_IDX_SEL_index)).state ≠ 0)
    (known : v % 8 ∈ [1, 2, 3]) : idxStateWrite d v = idxStateTaken d (v % 8) := if_pos ⟨by simpa using known, there⟩

theorem idxStateWrite_ignored {d : Dev} {v : Nat} (h : (idxOf d (fget d Fd.FLS_IDX_SEL_index)).state = 0 ∨ v % 8 ∉ [1, 2, 3]) :
    idxStateWrite d v = cfgIgnored d Rg.FLS_IDX_STATE := by
  refine if_neg fun ⟨known, there⟩ => ?_
  rcases h with missing | unknown
  · exact there missing
  · exact unknown (by simpa using known)

theorem idxOf_idxStateTaken (d : Dev) (st m : Nat) : idxOf (idxStateTaken d st) m =
    if m = fget d Fd.FLS_IDX_SEL_index then { idxOf d m with state := st } else idxOf d m := by
  rw [idxStateTaken, idxOf_setIdx]
  split
  · next h => rw [h]
  · rfl

theorem fget_idxStateTaken (d : Dev) {st : Nat} (h : st < 8) : fget (idxStateTaken d st) Fd.FLS_IDX_STATE_state = st := by
  have stored : fget (idxStateTaken d st) Fd.FLS_IDX_STATE_state = fget (fset d Fd.FLS_IDX_STATE_state st) Fd.FLS_IDX_STATE_state :=
    fget_congr (by simp [idxStateTaken]) ..
  rw [stored, fget_fset_same _ _ _ (by decide) (by decide)]
  exact Nat.mod_eq_of_lt h

/-! ### Leaving the domain (13 R374) -/

theorem exec_mapLeave {s : State} (hp : s.dev.sys.portUp = true) : exec .mapLeave s = .next (s.settled (mapLeave s.dev)) := by
  change execMapLeave s = _
  exact lift_to (if_pos hp)

/-- `MAP_CTL.leave` stands beside `enable`, so that a device whose map serves goes on to serve. -/
theorem mapServes_fset_leave (d : Dev) (v : Nat) : mapServes (fset d Fd.MAP_CTL_leave v) = mapServes d := by
  have beside : fget (fset d Fd.MAP_CTL_leave v) Fd.MAP_CTL_enable = fget d Fd.MAP_CTL_enable :=
    fget_fset_apart _ _ _ (by decide) rfl (.inl (by decide))
  simp only [mapServes, inReset, fbit, beside, fset_frame]

/-- The device on which a leave is noted. -/
def leaveNoted (d : Dev) : Dev := { fset d Fd.MAP_CTL_leave 1 with map := { d.map with leaving := true } }

theorem mapLeave_member {d : Dev} (serves : mapServes d = true) (member : d.map.member = true) :
    mapLeave d = leaveTry (recallAll (leaveNoted d)) :=
  if_neg (by simp [mapServes_fset_leave, serves, member])

theorem fbit_leaveNoted (d : Dev) : fbit (leaveNoted d) Fd.MAP_CTL_leave = true :=
  fbit_fset_one d 0 (by decide) (by decide) rfl

/-! ### The start of a handoff (13 R378) -/

theorem exec_mapHoGo {s : State} (hp : s.dev.sys.portUp = true) : exec .mapHoGo s = .next (s.settled (hoGo s.dev)) := by
  change execMapHoGo s = _
  exact lift_to (if_pos hp)

theorem hoGo_ignored {d : Dev} (h : hoOpen (hoOf d (fget d Fd.MAP_HO_SEL_entry)) = true ∨ d.map.isolated = true) :
    hoGo d = cfgIgnored d Rg.MAP_HO_GO := if_pos h

section Start

variable {d : Dev} {e : Nat} (he : e = fget d Fd.MAP_HO_SEL_entry) (closed : hoOpen (hoOf d e) = false)
  (joined : d.map.isolated = false) (serves : mapServes d = true)
include he closed joined serves

/-- What a GO that is not ignored does at a device whose map serves. -/
theorem hoGo_goes : hoGo d =
    if unitInReset d 6 then { d with map := { d.map with goHeld := insertN e d.map.goHeld } } else hoStart d e := by
  subst he
  refine (if_neg (by simp [closed, joined])).trans ?_
  exact if_neg (by simp [serves])

theorem hoGo_held (h : unitInReset d 6 = true) : hoGo d = { d with map := { d.map with goHeld := insertN e d.map.goHeld } } :=
  (hoGo_goes he closed joined serves).trans (if_pos h)

theorem hoGo_starts (h : unitInReset d 6 = false) : hoGo d = hoStart d e :=
  (hoGo_goes he closed joined serves).trans (if_neg (by simp [h]))

end Start

/-- The device on which entry `e` has ended REFUSED for a reason. -/
def hoRefused (d : Dev) (e why : Nat) : Dev := hoEnd (setHo d e { dest := fget d Fd.MAP_HO_REQ_dest e }) e 5 why 0

theorem hoStart_offers {d : Dev} {e : Nat} (h : hoCheck d e = 0) : hoStart d e = hoOffer d e := if_neg (not_not_intro h)

theorem hoStart_refuses {d : Dev} {e : Nat} (h : hoCheck d e ≠ 0) : hoStart d e = hoRefused d e (hoCheck d e) := if_pos h

theorem hoRefused_eq (d : Dev) (e why : Nat) : hoRefused d e why = fbump (raise (setHo (setHo d e { dest := fget d Fd.MAP_HO_REQ_dest e })
    e { hoOf (setHo d e { dest := fget d Fd.MAP_HO_REQ_dest e }) e with state := 5, reason := why, newHandle := 0, reclaiming := false })
    Fd.MAP_EVT_handoff_done) Fd.MAP_HO_FAIL_refused := rfl

theorem evSet_fbump_raise (d : Dev) (ev cnt : Fd) (n b : Nat) : evSet (fbump (raise d ev) cnt n b) ev = true := by
  simpa only [evSet, fbump_frame] using evSet_raise d ev

theorem hoOf_fbump_raise (d : Dev) (ev cnt : Fd) (n : Nat) : hoOf (fbump (raise d ev) cnt) n = hoOf d n := by
  simp only [hoOf, fbump_frame, raise_frame]

theorem hoRefused_keeps (d : Dev) (e why : Nat) : hoOf (hoRefused d e why) e =
      { state := 5, dest := fget d Fd.MAP_HO_REQ_dest e, reason := why } ∧
    evSet (hoRefused d e why) Fd.MAP_EVT_handoff_done = true ∧ (hoRefused d e why).ctx = d.ctx := by
  rw [hoRefused_eq]
  refine ⟨?_, evSet_fbump_raise .., by simp only [fbump_frame, raise_frame, setHo_frame]⟩
  rw [hoOf_fbump_raise, hoOf_setHo, if_pos rfl, hoOf_setHo, if_pos rfl]

/-- Settles O23. That a GO on an open entry or on an isolated device is ignored with a report is log entry 66, and that a GO is held while
unit 6 is in reset log entry 46. -/
theorem loansIndexesHandoffsAndLeave : Obligations.LoansIndexesHandoffsAndLeave := by
  intro s hp
  refine ⟨fun n single => ⟨fun l lent => ⟨fun fresh => ?starts, fun recalled => ?again⟩, fun missing => ?unknown⟩, ?all,
    fun v n hn => ⟨fun there known => ?state, fun h => ?stateIgnored⟩, fun serves member => ?leave, fun e he => ⟨fun h => ?goIgnored,
    fun closed joined serves reset => ?held, fun closed joined serves runs => ⟨fun passes => ?offers, fun fails => ?refused⟩⟩⟩
  case starts => exact exec_to (exec_lnkRecall hp n) ((lnkRecall_one single _).trans (recallLoan_starts lent fresh))
  case again => exact exec_to (exec_lnkRecall hp n) ((lnkRecall_one single _).trans (recallLoan_again lent recalled))
  case unknown => exact exec_to (exec_lnkRecall hp n) ((lnkRecall_one single _).trans (recallLoan_unknown missing))
  case all => exact exec_to (exec_lnkRecall hp _) (lnkRecall_all _)
  case state =>
    subst hn
    exact ⟨_, exec_to (exec_flsIdxStateWrite hp v) (idxStateWrite_takes there known), by rw [idxOf_idxStateTaken, if_pos rfl],
      fun m other => by rw [idxOf_idxStateTaken, if_neg other], fget_idxStateTaken _ (Nat.mod_lt _ (by decide)), rfl⟩
  case stateIgnored =>
    subst hn
    exact exec_to (exec_flsIdxStateWrite hp v) (idxStateWrite_ignored h)
  case leave => exact ⟨_, exec_to (exec_mapLeave hp) (mapLeave_member serves member), rfl, rfl, rfl, fbit_leaveNoted _⟩
  case goIgnored =>
    subst he
    exact exec_to (exec_mapHoGo hp) (hoGo_ignored h)
  case held => exact exec_to (exec_mapHoGo hp) (hoGo_held he closed joined serves reset)
  case offers => exact exec_to (exec_mapHoGo hp) ((hoGo_starts he closed joined serves runs).trans (hoStart_offers passes))
  case refused =>
    exact ⟨_, exec_to (exec_mapHoGo hp) ((hoGo_starts he closed joined serves runs).trans (hoStart_refuses fails)), hoRefused_keeps ..⟩

end Sys2Proof.Machine
end

section
/-!
PROOFS. House timecode (12 R362, R363; 17 R466, R467): edges at a master, exchanges at a follower, holdover.
-/

namespace Sys2Proof.Machine

/-! ### A counter is set, and locked (17 R467, R503) -/

theorem tcLoad_keeps (d : Dev) (t : Tc) : (tcLoad d t).tc.loaded = true ∧ (tcLoad d t).tc.state = 1 ∧ (tcLoad d t).tc.adj = t.adj ∧
    (tcLoad d t).tc.hops = t.hops ∧ (tcLoad d t).ctx = d.ctx ∧ (tcLoad d t).regs = d.regs ∧ (tcLoad d t).lnk = d.lnk := by
  and_intros <;> rfl

theorem stamp_tcLoad (d : Dev) (t : Tc) : stamp (tcLoad d t) = (64 * (t.up : Int) + t.adj).toNat := rfl

/-! ### Edges at a master (17 R466, R467) -/

theorem exec_tcPpsEdge (s : State) (dv : Int) (mk : Bool) : exec (.tcPpsEdge dv mk) s = .next (s.settled (ppsEdge s.dev dv mk)) := rfl

/-- The counter at an edge: its numbers of good and bad edges, and the correction that it slews. -/
def edgeCounted (d : Dev) (dv : Int) (good bad : Nat) : Tc :=
  { d.tc with
    heldFrom := if d.tc.state = 3 ∧ bad = 0 then up d else d.tc.heldFrom
    good := good, bad := bad, lastEdge := up d, slew := -nsUnits dv, ofs := -nsUnits dv }

/-- A minute marker is held against the counter. -/
def markerChecked (d : Dev) (mk : Bool) : Dev := if mk ∧ !onMinute d then raise d Fd.MTR_EVT_minute_mismatch else d

/-- The second good edge in a row locks a counter that is not locked. -/
def edgeLocked (d : Dev) (good : Nat) : Dev := if 2 ≤ good ∧ d.tc.state ≠ 2 then tcLock d 0 else d

section Edge

variable {d : Dev} {dv : Int} {mk : Bool}

theorem ppsEdge_idle (h : tcServes d = false ∨ tcMaster d = false ∨ (timeStage d = false ∧ d.tc.loaded = false)) :
    ppsEdge d dv mk = d := by
  unfold ppsEdge
  by_cases out : (!tcServes d) = true ∨ (!tcMaster d) = true
  · exact if_pos out
  · have unset : timeStage d = false ∧ d.tc.loaded = false := by
      simp only [Bool.not_eq_true', not_or, Bool.not_eq_false] at out
      simpa [out] using h
    rw [if_neg out, if_neg (by simp [unset])]
    exact if_pos (by simp [unset])

variable (serves : tcServes d = true) (master : tcMaster d = true)
include serves master

/-- A master in service heeds its edges. -/
theorem ppsEdge_heeds : ¬ ((!tcServes d) = true ∨ (!tcMaster d) = true) := by rw [serves, master]; decide

theorem ppsEdge_first (stage : timeStage d = true) (unset : d.tc.loaded = false) : ppsEdge d dv mk = tcLoad d { d.tc with
    adj := 64 * 65536 * fget d Fd.MTR_TC_INIT_frame - 64 * d.tc.up, good := 0, bad := 0, lastEdge := up d } :=
  (if_neg (ppsEdge_heeds serves master)).trans (if_pos (by simp [stage, unset]))

theorem ppsEdge_later (set : d.tc.loaded = true) : ∀ good bad, good = (if dv.natAbs ≤ 20 then d.tc.good + 1 else 0) →
    bad = (if 1000 < dv.natAbs then d.tc.bad + 1 else 0) →
    ppsEdge d dv mk = edgeLocked (markerChecked (setTc d (edgeCounted d dv good bad)) mk) good := by
  rintro good bad rfl rfl
  unfold ppsEdge
  rw [if_neg (ppsEdge_heeds serves master), if_neg (by simp [set]), if_neg (by simp [set])]
  by_cases held : d.tc.state = 3 ∧ (if 1000 < dv.natAbs then d.tc.bad + 1 else 0) = 0
  · simp only [edgeCounted, if_pos held]
    rfl
  · simp only [edgeCounted, if_neg held]
    rfl

end Edge

theorem markerChecked_keeps (d : Dev) (mk : Bool) : (markerChecked d mk).tc = d.tc ∧ (markerChecked d mk).ctx = d.ctx ∧
    (mk = true → onMinute d = false → evSet (markerChecked d mk) Fd.MTR_EVT_minute_mismatch = true) := by
  unfold markerChecked
  split
  · simp
  · next h => exact ⟨rfl, rfl, fun marker off => absurd ⟨marker, by simp [off]⟩ h⟩

theorem edgeLocked_keeps (d : Dev) (good : Nat) : (edgeLocked d good).tc =
      (if 2 ≤ good ∧ d.tc.state ≠ 2 then { d.tc with state := 2, acquired := true, hops := 0 } else d.tc) ∧
    (edgeLocked d good).evts = d.evts ∧ (edgeLocked d good).ctx = d.ctx := by
  unfold edgeLocked
  split <;> exact ⟨rfl, rfl, rfl⟩

/-! ### Requests of a follower, and their answers (12 R362) -/

theorem exec_tcExchange (s : State) : exec .tcExchange s = .next (s.settled (tcExchange s.dev)) := rfl

theorem tcExchange_idle {d : Dev} (h : tcServes d = false ∨ tcMaster d = true ∨ (d.tc.state = 0 ∧ d.tc.acquired = false)) :
    tcExchange d = d := if_pos (by simpa using h)

/-- Port `p` is asked at local time `t`, with stamp `x`. -/
def portAsked (t x : Nat) (d : Dev) (p : Nat) : Dev := send (setPort d p { portOf d p with reqAt := some t }) (.tcReq p x)

/-- The ports that a follower asks. -/
def portsToAsk (d : Dev) : List Nat := (List.range 16).filter (fun p => (portOf d p).trained && !(portOf d p).retired)

theorem foldl_portAsked (l : List Nat) : ∀ d : Dev,
    l.foldl (fun d p => portAsked (up d) (stamp d) d p) d = l.foldl (portAsked (up d) (stamp d)) d := by
  induction l with
  | nil => intro d; rfl
  | cons p t ih => intro d; exact ih _

theorem tcExchange_asks {d : Dev} (serves : tcServes d = true) (follower : tcMaster d = false)
    (set : d.tc.state ≠ 0 ∨ d.tc.acquired = true) :
    tcExchange d = (portsToAsk d).foldl (portAsked (up d) (stamp d)) (setTc d { d.tc with exchAt := up d }) := by
  refine (if_neg ?_).trans (foldl_portAsked (portsToAsk d) _)
  simp only [serves, follower, Bool.not_true, Bool.false_eq_true, false_or, not_and_or]
  simpa using set

theorem out_foldl_portAsked (t x : Nat) (l : List Nat) : ∀ d : Dev,
    (l.foldl (portAsked t x) d).out = d.out ++ l.map (fun p => Msg.tcReq p x) := by
  induction l with
  | nil => intro d; exact (List.append_nil _).symm
  | cons p l ih =>
    intro d
    rw [List.foldl_cons, ih]
    exact List.append_assoc d.out [Msg.tcReq p x] _

theorem portsAsked_keeps (t x : Nat) (l : List Nat) (d : Dev) :
    (l.foldl (portAsked t x) d).tc = d.tc ∧ (l.foldl (portAsked t x) d).ctx = d.ctx := by
  have links : OnlyLinks d (l.foldl (portAsked t x) d) := onlyLinks_foldl (portAsked t x) (fun _ _ => rfl) l d
  simp [links.keeps]

theorem portOf_foldl_portAsked (t x : Nat) {l : List Nat} (once : l.Nodup) {q : Nat} (asked : q ∈ l) (d : Dev) :
    portOf (l.foldl (portAsked t x) d) q = { portOf d q with reqAt := some t } :=
  (portOf_foldl (g := portAsked t x) (change := fun q _ => { q with reqAt := some t }) (fun _ _ _ => portOf_setPort ..) once d q).trans
    (if_pos asked)

theorem exec_tcReq (s : State) (p t1 t2 t3 : Nat) : exec (.tcReq p t1 t2 t3) s = .next (s.settled
    (if tcServes s.dev ∧ (portOf s.dev p).trained then send s.dev (.tcResp p t1 t2 t3 (tcAdvert s.dev)) else s.dev)) := rfl

/-! ### Responses (12 R362, R363; 17 R467) -/

theorem exec_tcResp (s : State) (p t1 t2 t3 t4 hops : Nat) :
    exec (.tcResp p t1 t2 t3 t4 hops) s = .next (s.settled (tcResponse s.dev p t1 t2 t3 t4 hops)) := rfl

theorem tcBest_congr {d e : Dev} (h : d.lnk = e.lnk) : tcBest d = tcBest e := by
  rw [tcBest, tcBest, show portOf d = portOf e from funext (portOf_congr h)]

/-- What a response measured is noted at its port. -/
def respNoted (d : Dev) (p hops : Nat) (ofs delay : Int) : Dev :=
  setPort d p { portOf d p with reqAt := none, hops := min hops 15, ofs := ofs, delay := delay }

/-- The counter follows the port `p`, if it is the chosen one. -/
def tcFollow (d : Dev) (p : Nat) (ofs : Int) (own : Nat) : Dev :=
  if tcBest d ≠ some p then d
  else if timeStage d ∧ !d.tc.loaded then tcLoad d { d.tc with adj := d.tc.adj + ofs, ofs := ofs, hops := own }
  else if !d.tc.loaded then d
  else
    let e := if d.tc.state = 3 then setTc d { d.tc with heldFrom := up d } else d
    let e := setTc e { e.tc with slew := ofs, ofs := ofs, hops := own }
    if (ofs.natAbs : Int) ≤ nsUnits 50 then tcLock e own else e

section Response

variable {d : Dev} {p t : Nat} (t1 t2 t3 t4 hops : Nat)

theorem tcResponse_unasked (h : (portOf d p).reqAt = none) : tcResponse d p t1 t2 t3 t4 hops = d := by
  simp only [tcResponse, h]

theorem tcResponse_ignored (asked : (portOf d p).reqAt = some t)
    (h : tcServes d = false ∨ tcMaster d = true ∨ t + 65536 < up d) : tcResponse d p t1 t2 t3 t4 hops = d := by
  simp only [tcResponse, asked]
  exact if_pos (by simpa using h)

theorem tcResponse_idle (h : (portOf d p).reqAt = none ∨ tcServes d = false ∨ tcMaster d = true) :
    tcResponse d p t1 t2 t3 t4 hops = d := by
  cases asked : (portOf d p).reqAt with
  | none => exact tcResponse_unasked _ _ _ _ _ asked
  | some t => exact tcResponse_ignored _ _ _ _ _ asked (by simpa [asked, or_assoc] using Or.inl h)

theorem tcResponse_inTime (asked : (portOf d p).reqAt = some t) (serves : tcServes d = true) (follower : tcMaster d = false)
    (inTime : up d ≤ t + 65536) : ∀ ofs, ofs = tcOffset t1 t2 t3 t4 (signed16 (fget d Fd.LNK_TC_ASYM_asym p)) →
    tcResponse d p t1 t2 t3 t4 hops = tcFollow (respNoted d p hops ofs (tcDelay t1 t2 t3 t4)) p ofs (min 15 (hops + 1)) := by
  rintro ofs rfl
  simp only [tcResponse, asked]
  rw [if_neg (by simp [serves, follower, inTime])]
  rfl

end Response

theorem portOf_respNoted (d : Dev) (p hops : Nat) (ofs delay : Int) (q : Nat) : portOf (respNoted d p hops ofs delay) q =
    if q = p then { portOf d p with reqAt := none, hops := min hops 15, ofs := ofs, delay := delay } else portOf d q :=
  portOf_setPort ..

section Follow

variable {d : Dev} {p : Nat} (ofs : Int) (own : Nat)

theorem tcFollow_keeps : (tcFollow d p ofs own).lnk = d.lnk ∧ (tcFollow d p ofs own).ctx = d.ctx := by
  unfold tcFollow
  split
  · exact ⟨rfl, rfl⟩
  · split
    · exact ⟨rfl, rfl⟩
    · split
      · exact ⟨rfl, rfl⟩
      · dsimp only
        split <;> split <;> exact ⟨rfl, rfl⟩

theorem tcFollow_other (h : tcBest d ≠ some p) : tcFollow d p ofs own = d := if_pos h

theorem tcFollow_first (chosen : tcBest d = some p) (stage : timeStage d = true) (unset : d.tc.loaded = false) :
    tcFollow d p ofs own = tcLoad d { d.tc with adj := d.tc.adj + ofs, ofs := ofs, hops := own } :=
  (if_neg (not_not_intro chosen)).trans (if_pos (by simp [stage, unset]))

theorem tcFollow_later (chosen : tcBest d = some p) (set : d.tc.loaded = true) : (tcFollow d p ofs own).tc.slew = ofs ∧
    (tcFollow d p ofs own).tc.adj = d.tc.adj ∧
    (tcFollow d p ofs own).tc.state = if (ofs.natAbs : Int) ≤ nsUnits 50 then 2 else d.tc.state := by
  unfold tcFollow
  rw [if_neg (not_not_intro chosen), if_neg (by simp [set]), if_neg (by simp [set])]
  dsimp only
  split <;> split <;> exact ⟨rfl, rfl, rfl⟩

end Follow

/-! ### A request that is given up (12 R363) -/

theorem exec_tcRespTimeout (s : State) (p : Nat) : exec (.tcRespTimeout p) s = .next (s.settled (tcGiveUp s.dev p)) := rfl

theorem tcGiveUp_unasked {d : Dev} {p : Nat} (h : (portOf d p).reqAt = none) : tcGiveUp d p = d := by rw [tcGiveUp, h]

theorem tcGiveUp_asked {d : Dev} {p t : Nat} (h : (portOf d p).reqAt = some t) :
    tcGiveUp d p = if t + 65536 ≤ up d then setPort d p { portOf d p with reqAt := none } else d := by rw [tcGiveUp, h]

/-! ### Holdover (17 R467) -/

theorem exec_tcHoldoverEntry (s : State) : exec .tcHoldoverEntry s = .next (s.settled (tcHold s.dev)) := rfl

theorem tcHold_enters {d : Dev} (locked : d.tc.state = 2) (lost : tcLost d = true) : tcHold d =
    raise (setTc d { d.tc with state := 3, heldFrom := up d, slew := 0, good := 0 }) Fd.MTR_EVT_tc_holdover := if_pos ⟨locked, lost⟩

theorem tcHold_stays {d : Dev} (h : d.tc.state ≠ 2 ∨ tcLost d = false) : tcHold d = d :=
  if_neg (by rw [not_and_or, Bool.not_eq_true]; exact h)

theorem exec_tcUnlock (s : State) : exec .tcUnlock s = .next (s.settled (tcFree s.dev)) := rfl

theorem tcFree_unlocks {d : Dev} (holds : d.tc.state = 3) (due : d.tc.heldFrom + fget d Fd.MTR_TC_CFG_holdover * 65536 ≤ up d) :
    tcFree d = raise (setTc d { d.tc with state := 0 }) Fd.MTR_EVT_tc_unlocked := if_pos ⟨holds, due⟩

theorem tcFree_stays {d : Dev} (h : d.tc.state ≠ 3 ∨ up d < d.tc.heldFrom + fget d Fd.MTR_TC_CFG_holdover * 65536) : tcFree d = d :=
  if_neg (by rw [not_and_or, Nat.not_le]; exact h)

/-- Settles O56. That the service acts only while it is enabled is log entry 10, which ports a follower asks and follows log entry 11, and
that a sign of the reference in HOLDOVER starts its time again log entry 83. -/
theorem timecodeLocksAndHolds : Obligations.TimecodeLocksAndHolds := by
  intro s p
  refine ⟨fun dv mk => ⟨fun h => ?edgeIdle, fun serves master =>
      ⟨fun stage unset => ?edgeFirst, fun g b h set hh hg hb => ?edgeLater⟩⟩,
    fun serves follower set => ?asks, fun h => ?asksNot, fun t1 t2 t3 => ⟨fun serves trained => ?answers, fun h => ?answersNot⟩,
    fun t1 t2 t3 t4 hops => ⟨fun h => ?respIdle, fun t ofs asked serves follower hofs =>
      ⟨fun late => ?respLate, fun inTime => ?resp⟩⟩,
    fun t asked => ⟨fun due => ?givesUp, fun early => ?waits⟩, fun unasked => ?noRequest, fun locked lost => ?holds, fun h => ?holdsNot,
    fun t ht => ⟨fun holds due => ?unlocks, fun h => ?unlocksNot⟩⟩
  case edgeIdle => exact exec_to (exec_tcPpsEdge s dv mk) (ppsEdge_idle h)
  case edgeFirst =>
    obtain ⟨loaded, state, -, -, ctx, regs, -⟩ := tcLoad_keeps s.dev { s.dev.tc with
      adj := 64 * 65536 * fget s.dev Fd.MTR_TC_INIT_frame - 64 * s.dev.tc.up, good := 0, bad := 0, lastEdge := up s.dev }
    exact ⟨_, exec_to (exec_tcPpsEdge s dv mk) (ppsEdge_first serves master stage unset),
      by rw [stamp_tcLoad]; dsimp only; omega, loaded, state, ctx, regs⟩
  case edgeLater =>
    subst hh
    obtain ⟨tc, ctx, mismatch⟩ := markerChecked_keeps (setTc s.dev (edgeCounted s.dev dv g b)) mk
    obtain ⟨lockedTc, evts, lockedCtx⟩ := edgeLocked_keeps (markerChecked (setTc s.dev (edgeCounted s.dev dv g b)) mk) g
    rw [tc] at lockedTc
    exact ⟨_, exec_to (exec_tcPpsEdge s dv mk) (ppsEdge_later serves master set g b hg hb), lockedTc,
      fun marker off => by simpa only [evSet, evts] using mismatch marker off, lockedCtx.trans ctx⟩
  case asks =>
    obtain ⟨tc, ctx⟩ := portsAsked_keeps (up s.dev) (stamp s.dev) (portsToAsk s.dev) (setTc s.dev { s.dev.tc with exchAt := up s.dev })
    refine ⟨_, exec_to (exec_tcExchange s) (tcExchange_asks serves follower set), tc, ctx, fun q hq trained kept => ?_⟩
    have asked : q ∈ portsToAsk s.dev := List.mem_filter.2 ⟨List.mem_range.2 hq, by simp [trained, kept]⟩
    refine ⟨portOf_foldl_portAsked _ _ (List.nodup_range.filter _) asked _, ?_⟩
    rw [out_foldl_portAsked]
    exact List.mem_append_right _ (List.mem_map_of_mem asked)
  case asksNot => exact exec_to (exec_tcExchange s) (tcExchange_idle h)
  case answers => exact exec_to (exec_tcReq s p t1 t2 t3) (if_pos ⟨serves, trained⟩)
  case answersNot => exact exec_to (exec_tcReq s p t1 t2 t3) (if_neg (by rcases h with h | h <;> simp [h]))
  case respIdle => exact exec_to (exec_tcResp s p t1 t2 t3 t4 hops) (tcResponse_idle _ _ _ _ _ h)
  case respLate => exact exec_to (exec_tcResp s p t1 t2 t3 t4 hops) (tcResponse_ignored _ _ _ _ _ asked (.inr (.inr late)))
  case resp =>
    have run := exec_to (exec_tcResp s p t1 t2 t3 t4 hops) (tcResponse_inTime t1 t2 t3 t4 hops asked serves follower inTime ofs hofs)
    generalize tcDelay t1 t2 t3 t4 = delay at run ⊢
    have noted := portOf_respNoted s.dev p hops ofs delay
    obtain ⟨lnk, ctx⟩ := tcFollow_keeps (d := respNoted s.dev p hops ofs delay) (p := p) ofs (min 15 (hops + 1))
    refine ⟨_, run, ctx, ?_, fun q other => ?_, fun foreign => ?_, fun chosen stage unset => ?_, fun chosen set => ?_⟩
    · rw [portOf_congr lnk, noted, if_pos rfl]
    · rw [portOf_congr lnk, noted, if_neg other]
    · rw [tcBest_congr lnk] at foreign
      rw [tcFollow_other _ _ foreign]
      rfl
    · rw [tcBest_congr lnk] at chosen
      rw [tcFollow_first ofs _ chosen stage unset]
      exact ⟨rfl, rfl, rfl, by change min 15 (hops + 1) = _; omega⟩
    · rw [tcBest_congr lnk] at chosen
      exact tcFollow_later ofs _ chosen set
  case givesUp =>
    exact ⟨_, exec_to (exec_tcRespTimeout s p) ((tcGiveUp_asked asked).trans (if_pos due)), portOf_setPort_same ..,
      fun q other => by rw [portOf_setPort, if_neg other], rfl⟩
  case waits => exact exec_to (exec_tcRespTimeout s p) ((tcGiveUp_asked asked).trans (if_neg (by omega)))
  case noRequest => exact exec_to (exec_tcRespTimeout s p) (tcGiveUp_unasked unasked)
  case holds => exact ⟨_, exec_to (exec_tcHoldoverEntry s) (tcHold_enters locked lost), by simp, evSet_raise .., by simp⟩
  case holdsNot => exact exec_to (exec_tcHoldoverEntry s) (tcHold_stays h)
  case unlocks =>
    subst ht
    exact ⟨_, exec_to (exec_tcUnlock s) (tcFree_unlocks holds due), by simp, evSet_raise .., by simp⟩
  case unlocksNot =>
    subst ht
    exact exec_to (exec_tcUnlock s) (tcFree_stays h)

end Sys2Proof.Machine
end

section
/-!
PROOFS. The link layer (12 R342 to R356): flits and acknowledgements, NAKs and retraining, frames that are forwarded, policers and gates.
-/

namespace Sys2Proof.Machine

/-! ### Flits that arrive (12 R344 to R346, R351) -/

theorem exec_dataFlitReceived (s : State) (p : Nat) (fl : List Byte) :
    exec (.dataFlitReceived p fl) s = .next (s.settled (dataFlit s.dev p fl)) := rfl

theorem exec_idleFlitReceived (s : State) (p : Nat) (fl : List Byte) :
    exec (.idleFlitReceived p fl) s = .next (s.settled (idleFlit s.dev p fl)) := rfl

theorem exec_nakReceived (s : State) (p n : Nat) : exec (.nakReceived p n) s = .next (s.settled
    (if (portOf s.dev p).up ∧ !(portOf s.dev p).retraining then egress (applyNak s.dev p (n % 4096)) p else s.dev)) := rfl

/-- The device on which a data flit has been taken: it counts, and its payload joins the frame of its class. -/
def flitTaken (d : Dev) (p : Nat) (fl : List Byte) (cls : Nat) (got : List Byte) : Dev :=
  let q := portOf d p
  applyFields (setPort d p { q with
    rxSeq := (q.rxSeq + 1) % 4096, rxSince := q.rxSince + 1, rxAt := if q.rxSince = 0 then up d else q.rxAt
    owed := mset q.owed 0 cls (mget q.owed 0 cls + 1)
    reasm := mset q.reasm [] cls (if bitOf (leAt fl 0 4) 20 then [] else got) }) p (leAt fl 4 2) (leAt fl 6 2)

/-- The 64th flit since the last acknowledgement is acknowledged at once. -/
def ackFull (d : Dev) (p : Nat) : Dev := if 64 ≤ (portOf d p).rxSince then sendAck d p else d

section Flit

variable {d : Dev} {p : Nat} {fl : List Byte}

/-- Flits do not reach a port that is down or retrains. -/
theorem flit_unheard (h : (portOf d p).up = false ∨ (portOf d p).retraining = true) :
    dataFlit d p fl = d ∧ idleFlit d p fl = d ∧ ∀ n, (if (portOf d p).up ∧ !(portOf d p).retraining then
      egress (applyNak d p n) p else d) = d := by
  have shut : (!(portOf d p).up || (portOf d p).retraining) = true := by simpa using h
  exact ⟨if_pos shut, if_pos shut, fun n => if_neg (by simpa [or_iff_not_imp_left] using h)⟩

variable (runs : (portOf d p).up = true) (steady : (portOf d p).retraining = false)
include runs steady

theorem flit_heard : ¬ (!(portOf d p).up || (portOf d p).retraining) = true := by rw [runs, steady]; decide

theorem dataFlit_unfit (h : flitGood fl = false ∨ bitsOf (leAt fl 0 4) 12 4 ≠ 1 ∨ leAt fl 0 4 % 4096 ≠ (portOf d p).rxSeq) :
    dataFlit d p fl = sendNak d p :=
  (if_neg (flit_heard runs steady)).trans (if_pos (by simpa [or_assoc] using h))

theorem dataFlit_takes (good : flitGood fl = true) (kind : bitsOf (leAt fl 0 4) 12 4 = 1)
    (next : leAt fl 0 4 % 4096 = (portOf d p).rxSeq) : ∀ cls got, cls = bitsOf (leAt fl 0 4) 16 3 →
    got = (if bitOf (leAt fl 0 4) 19 then [] else mget (portOf d p).reasm [] cls) ++
      (fl.drop 12).take (bitsOf (leAt fl 0 4) 21 8 + 1) →
    dataFlit d p fl = if bitOf (leAt fl 0 4) 20 then frameArrives (ackFull (flitTaken d p fl cls got) p) p cls got
      else ackFull (flitTaken d p fl cls got) p := by
  rintro cls got rfl rfl
  exact (if_neg (flit_heard runs steady)).trans (if_neg (by simp [good, kind, next]))

theorem idleFlit_bad (bad : flitGood fl = false) : idleFlit d p fl = sendNak d p :=
  (if_neg (flit_heard runs steady)).trans (if_pos (by simp [bad]))

theorem idleFlit_good (good : flitGood fl = true) : idleFlit d p fl =
    if bitsOf (leAt fl 0 4) 12 4 ∈ [0, 2] then applyFields d p (leAt fl 4 2) (leAt fl 6 2) else d := by
  refine (if_neg (flit_heard runs steady)).trans ((if_neg (by simp [good])).trans ?_)
  simp only [List.mem_cons, List.not_mem_nil, or_false]

end Flit

/-! ### NAKs (12 R345) -/

theorem applyNak_again {d : Dev} {p n : Nat} (again : (portOf d p).lastNak = some n) :
    applyNak d p n = startRetrain (setPort d p { portOf d p with lastNak := none }) p := if_pos again

theorem applyNak_first {d : Dev} {p n : Nat} (first : (portOf d p).lastNak ≠ some n) : applyNak d p n =
    fbump (raise (replayAll (applyAck (setPort d p { portOf d p with lastNak := some n }) p ((n + 4095) % 4096)) p) Fd.LNK_EVT_replay)
      Fd.LNK_PORT_CNT_replays 1 p := if_neg first

/-- A port that retrains sends nothing. -/
theorem egress_retraining {d : Dev} {p : Nat} (h : (portOf d p).retraining = true) : egress d p = d := by
  rw [egress]
  cases sumN ((vals (portOf d p).queues).map List.length) with
  | zero => rfl
  | succ n => exact if_pos (by simp [h])

theorem portOf_startRetrain (d : Dev) (p : Nat) (q : Port) (x : Nat) : portOf (startRetrain (setPort d p q) p) x =
    if x = p then { q with retraining := true, resend := [] } else portOf d x := by
  rw [startRetrain, portOf_setPort, portOf_setPort_same, portOf_setPort]
  split <;> rfl

theorem startRetrain_keeps (d : Dev) (p : Nat) (q : Port) : (startRetrain (setPort d p q) p).out = d.out ∧
    (startRetrain (setPort d p q) p).evts = d.evts := ⟨rfl, rfl⟩

/-! ### Acknowledgements (12 R345, R351) -/

theorem exec_ackTimer (s : State) (p : Nat) : exec (.ackTimer p) s = .next (s.settled
    (if (portOf s.dev p).up ∧ 0 < (portOf s.dev p).rxSince then sendAck s.dev p else s.dev)) := rfl

theorem foldl_send {α : Type} (m : α → Msg) (l : List α) : ∀ d : Dev,
    l.foldl (fun d x => send d (m x)) d = { d with out := d.out ++ l.map m } := by
  induction l with
  | nil => intro d; simp
  | cons x t ih => intro d; rw [List.foldl_cons, ih]; simp

/-- The credits that an acknowledgement returns, one class to a flit. -/
def creditsOwed (q : Port) : List Nat := if q.owed = [] then [0] else q.owed.map (fun c => c.1 + c.2 * 8)

theorem sendAck_eq (d : Dev) (p : Nat) : sendAck d p = setPort { d with out := d.out ++ (creditsOwed (portOf d p)).map (fun c =>
      Msg.flit p (flitBytes 0 0 0 false false (((portOf d p).rxSeq + 4095) % 4096 + 2 ^ 12) c [])) } p
    { portOf d p with owed := [], rxSince := 0 } := by
  rw [← foldl_send (fun c => Msg.flit p (flitBytes 0 0 0 false false (((portOf d p).rxSeq + 4095) % 4096 + 2 ^ 12) c []))]
  cases owed : (portOf d p).owed with
  | nil => simp only [sendAck, creditsOwed, owed, if_true]
  | cons c t => simp only [sendAck, creditsOwed, owed, reduceCtorEq, if_false]

/-! ### Lanes that fail, and retraining (12 R342, R343, R345) -/

theorem exec_laneFailure (s : State) (p lane : Nat) : exec (.laneFailure p lane) s = .next (s.settled
    (if (portOf s.dev p).up ∧ bitOf (portOf s.dev p).lanes lane
      then startRetrain (setPort s.dev p { portOf s.dev p with failed := (portOf s.dev p).failed ||| 2 ^ lane }) p else s.dev)) := rfl

/-- What the lanes that did not come back leave: a retrain that is counted, or a report. -/
def retrainNoted (d : Dev) (p : Nat) (whole : Bool) : Dev :=
  if whole then fbump d Fd.LNK_PORT_CNT_retrains 1 p else (report d { cls := clsUnit, unit := 11, action := 2, inst := p }).1

/-- A port that comes back on the lanes `back` to the peer it had. -/
def portBack (d : Dev) (p back : Nat) : Dev :=
  setPort d p { portOf d p with lanes := back, failed := 0, retraining := false, lastNak := none }

/-- What the end of a port's retraining does. -/
def retrainDone (d : Dev) (p lanes peer : Nat) : Dev :=
  let q := portOf d p
  let back := q.lanes &&& lanes
  if !q.retraining then d
  else if back = 0 ∨ peer ≠ q.peer then portFault (setPort d p { q with lanes := back, failed := 0 }) p
  else egress (replayAll (raise (retrainNoted (portBack d p back) p (back = q.lanes)) Fd.LNK_EVT_retrain) p) p

theorem exec_portRetrainDone (s : State) (p : Nat) (lanes : BitVec 4) (peer : Nat) :
    exec (.portRetrainDone p lanes peer) s = .next (s.settled (retrainDone s.dev p lanes.toNat peer)) := by
  change execPortRetrainDone p lanes peer s = _
  refine lift_to ?_
  simp only [retrainDone, retrainNoted, portBack, decide_eq_true_eq]

section Retrain

variable {d : Dev} {p lanes peer back : Nat} (hb : back = (portOf d p).lanes &&& lanes)

theorem retrainDone_idle (h : (portOf d p).retraining = false) : retrainDone d p lanes peer = d := if_pos (by simp [h])

variable (retrains : (portOf d p).retraining = true)
include hb retrains

theorem retrainDone_retires (h : back = 0 ∨ peer ≠ (portOf d p).peer) : retrainDone d p lanes peer =
    portFault (setPort d p { portOf d p with lanes := back, failed := 0 }) p := by
  subst hb
  exact (if_neg (by simp [retrains])).trans (if_pos h)

theorem retrainDone_resumes (left : back ≠ 0) (same : peer = (portOf d p).peer) : retrainDone d p lanes peer =
    egress (replayAll (raise (retrainNoted (portBack d p back) p (back = (portOf d p).lanes)) Fd.LNK_EVT_retrain) p) p := by
  subst hb
  exact (if_neg (by simp [retrains])).trans (if_neg (by simp [left, same]))

end Retrain

/-! ### Frames for other devices (12 R348, R349, R372) -/

theorem setPort_fenced (d : Dev) (p : Nat) (q : Port) : (setPort d p q).lnk.fenced = d.lnk.fenced := rfl

/-- What becomes of a frame for another device. -/
def frameOn (d : Dev) (bs : List Byte) : Dev :=
  if d.lnk.fenced.contains (leAt bs 0 2) ∨ d.lnk.fenced.contains (leAt bs 2 2) then d
  else if leAt bs 6 1 = 0 then raise d Fd.LNK_EVT_hop_expired
  else linkQueue (if bitOf (leAt bs 4 1) 3 then { d with lnk := { d.lnk with yellow := d.lnk.yellow + 1 } } else d)
    ⟨leAt bs 4 1 % 8, leAt bs 0 2, patch bs 6 (leBytes 1 (leAt bs 6 1 - 1))⟩

theorem exec_frameForward_none {s : State} {p : Nat} (h : (portOf s.dev p).forward = []) :
    exec (.frameForward p) s = .next (s.settled s.dev) := by
  change execFrameForward p s = _
  refine lift_to ?_
  simp only [h]

theorem exec_frameForward_oldest {s : State} {p : Nat} {bs : List Byte} {rest : List (List Byte)}
    (h : (portOf s.dev p).forward = bs :: rest) : exec (.frameForward p) s =
    .next (s.settled (frameOn (setPort s.dev p { portOf s.dev p with forward := rest }) bs)) := by
  change execFrameForward p s = _
  refine lift_to ?_
  simp only [h]
  rfl

/-! ### Policers and gates (12 R353, R355, R356) -/

theorem exec_policerRetest (s : State) (p cls : Nat) : exec (.policerRetest p cls) s = .next (s.settled
    (if (mget s.dev.lnk.clientQ [] (p * 8 + cls)).isEmpty then s.dev else policePass s.dev cls)) := rfl

theorem exec_gateEntryChange (s : State) : exec .gateEntryChange s = .next (s.settled (gateChange (precede s.dev 1 1))) := rfl

theorem exec_gateListSwitch (s : State) : exec .gateListSwitch s = .next (s.settled (gateSwitch (precede s.dev 1 0))) := rfl

/-- The device on which the inactive gate list has become the active one. -/
def gateSwitched (d : Dev) : Dev :=
  let e := fset d Fd.LNK_GATE_SWITCH_arm 0
  raise { e with lnk := { e.lnk with gateList := 1 - d.lnk.gateList } } Fd.LNK_EVT_gate_switched

theorem gateSwitch_due {d : Dev} (armed : fbit d Fd.LNK_GATE_SWITCH_arm = true) (due : switchFrame d ≤ frame d) :
    gateSwitch d = gateEnter (gateSwitched d) (gatePos (gateSwitched d)).1 := if_pos (by simp [switchDue, armed, due])

theorem gateSwitch_idle {d : Dev} (h : fbit d Fd.LNK_GATE_SWITCH_arm = false ∨ frame d < switchFrame d) : gateSwitch d = d :=
  if_neg (by simpa [switchDue, or_iff_not_imp_left] using h)

theorem gateSwitched_frame (d : Dev) : (gateSwitched d).lnk = { d.lnk with gateList := 1 - d.lnk.gateList } ∧
    (gateSwitched d).regs = (fset d Fd.LNK_GATE_SWITCH_arm 0).regs ∧ (gateSwitched d).ctx = d.ctx := by
  simp only [gateSwitched, raise_frame, fset_frame, and_self]

theorem fbit_gateSwitched (d : Dev) : fbit (gateSwitched d) Fd.LNK_GATE_SWITCH_arm = false :=
  (fbit_congr (gateSwitched_frame d).2.1 _ _).trans (fbit_fset_zero d 0 (by decide) (by decide))

theorem evSet_gateSwitched (d : Dev) : evSet (gateSwitched d) Fd.LNK_EVT_gate_switched = true := by
  unfold gateSwitched
  exact evSet_raise _ _

/-- Settles O48. That an owed credit goes out at once, and that the 64th flit is acknowledged, is log entry 64. -/
theorem linkLayer : Obligations.LinkLayer := by
  rintro s p fl q rfl
  refine ⟨fun h => ?unheard, fun runs steady => ⟨fun bad => ?bad, fun good h => ?unfit,
      fun cls got d good kind next hcls hgot hd => ?takes, fun good => ⟨fun kind => ?idle, fun kind => ?noIdle⟩,
      fun n => ⟨fun again => ?nakAgain, fun first => ?nak⟩⟩, fun runs waits => ?acks, fun h => ?acksNot,
    fun lane => ⟨fun runs works => ?lane, fun h => ?noLane⟩,
    fun lanes peer back hb => ⟨fun retrains => ⟨fun h => ?retires, fun d left same hd => ?resumes⟩, fun steady => ?steady⟩,
    fun empty => ?noFrame, fun bs rest d oldest hd => ⟨fun fenced => ?fenced, fun dst src => ?forwards⟩, fun cls => ?polices,
    fun d hd => ?gate, fun d hd => ⟨fun armed due => ?switches, fun h => ?stays⟩⟩
  case unheard =>
    obtain ⟨data, idle, nak⟩ := flit_unheard (fl := fl) h
    simp only [List.forall_mem_cons, List.not_mem_nil, false_implies, implies_true, and_true]
    exact ⟨exec_to (exec_dataFlitReceived s p fl) data, exec_to (exec_idleFlitReceived s p fl) idle,
      exec_to (exec_nakReceived s p 0) (nak _)⟩
  case bad =>
    simp only [List.forall_mem_cons, List.not_mem_nil, false_implies, implies_true, and_true]
    exact ⟨exec_to (exec_dataFlitReceived s p fl) (dataFlit_unfit runs steady (.inl bad)),
      exec_to (exec_idleFlitReceived s p fl) (idleFlit_bad runs steady bad)⟩
  case unfit => exact exec_to (exec_dataFlitReceived s p fl) (dataFlit_unfit runs steady (.inr h))
  case takes =>
    subst hd
    exact exec_to (exec_dataFlitReceived s p fl) (dataFlit_takes runs steady good kind next cls got hcls hgot)
  case idle => exact exec_to (exec_idleFlitReceived s p fl) ((idleFlit_good runs steady good).trans (if_pos kind))
  case noIdle => exact exec_to (exec_idleFlitReceived s p fl) ((idleFlit_good runs steady good).trans (if_neg kind))
  case nakAgain =>
    have heeded := exec_to (exec_nakReceived s p n) (if_pos (by simp [runs, steady]))
    rw [applyNak_again again, egress_retraining (by rw [portOf_startRetrain, if_pos rfl])] at heeded
    exact ⟨_, heeded, by rw [portOf_startRetrain, if_pos rfl], fun x other => by rw [portOf_startRetrain, if_neg other],
      (startRetrain_keeps ..).1⟩
  case nak =>
    exact ⟨exec_to (exec_nakReceived s p n) (if_pos (by simp [runs, steady])), by rw [applyNak_first first]; exact evSet_fbump_raise ..⟩
  case acks =>
    have run := exec_to (exec_ackTimer s p) (if_pos ⟨runs, waits⟩)
    rw [sendAck_eq] at run
    exact ⟨_, run, portOf_setPort_same .., rfl, fun x other => by rw [portOf_setPort, if_neg other]; rfl, rfl⟩
  case acksNot => exact exec_to (exec_ackTimer s p) (if_neg (by rcases h with h | h <;> simp [h]))
  case lane =>
    exact ⟨_, exec_to (exec_laneFailure s p lane) (if_pos ⟨runs, works⟩), by rw [portOf_startRetrain, if_pos rfl],
      fun x other => by rw [portOf_startRetrain, if_neg other], (startRetrain_keeps ..).2⟩
  case noLane => exact exec_to (exec_laneFailure s p lane) (if_neg (by rcases h with h | h <;> simp [h]))
  case retires => exact exec_to (exec_portRetrainDone s p lanes peer) (retrainDone_retires hb retrains h)
  case resumes =>
    subst hd
    exact ⟨_, exec_to (exec_portRetrainDone s p lanes peer) (retrainDone_resumes hb retrains left same),
      fun whole => if_pos (by simp [whole]), fun lost => ⟨_, if_neg (by simp [lost]), rfl, rfl, rfl, rfl⟩⟩
  case steady => exact exec_to (exec_portRetrainDone s p lanes peer) (retrainDone_idle steady)
  case noFrame => exact exec_frameForward_none empty
  case fenced =>
    subst hd
    exact exec_to (exec_frameForward_oldest oldest) (if_pos fenced)
  case forwards =>
    subst hd
    exact exec_to (exec_frameForward_oldest oldest) (if_neg (by
      simp only [setPort_fenced, dst, src, Bool.false_eq_true, or_self, not_false_eq_true]))
  case polices => exact exec_policerRetest s p cls
  case gate =>
    subst hd
    exact exec_gateEntryChange s
  case switches =>
    subst hd
    obtain ⟨lnk, -, ctx⟩ := gateSwitched_frame (precede s.dev 1 0)
    exact ⟨_, exec_to (exec_gateListSwitch s) (gateSwitch_due armed due), lnk, fbit_gateSwitched _, evSet_gateSwitched _, ctx⟩
  case stays =>
    subst hd
    exact exec_to (exec_gateListSwitch s) (gateSwitch_idle h)

end Sys2Proof.Machine
end

section
/-!
PROOFS. Check values (18 R480 to R486): the division of a byte string is a self-map of the remainders in which no two collide, and what
the check value units and `CHECK_VALUE` do with it.
-/

namespace Sys2Proof.Machine

/-- Settles O31, by evaluation of the model's own algorithms. -/
theorem checkValuesOfTheAlgorithms : Obligations.CheckValuesOfTheAlgorithms := by
  unfold Obligations.CheckValuesOfTheAlgorithms
  decide +kernel

/-! ### The division of a byte string (18 R480) -/

/-- `f` maps the remainders of `n` bits into themselves, and no two of them to one. -/
def Permutes (n : Nat) (f : Nat → Nat) : Prop := Set.MapsTo f (Set.Iio (2 ^ n)) (Set.Iio (2 ^ n)) ∧ Set.InjOn f (Set.Iio (2 ^ n))

theorem Permutes.comp {n : Nat} {f g : Nat → Nat} (hg : Permutes n g) (hf : Permutes n f) : Permutes n (g ∘ f) :=
  ⟨hg.1.comp hf.1, hg.2.comp hf.2 hf.1⟩

theorem iter_eq_iterate {α : Type} (f : α → α) (k : Nat) (a : α) : iter f k a = f^[k] a := by
  induction k generalizing a with
  | zero => rfl
  | succ k ih => exact ih (f a)

theorem Permutes.iter {n : Nat} {f : Nat → Nat} (hf : Permutes n f) (k : Nat) : Permutes n (iter f k) := by
  rw [show Machine.iter f k = f^[k] from funext (iter_eq_iterate f k)]
  exact ⟨hf.1.iterate k, hf.2.iterate hf.1 k⟩

theorem permutes_xor {n v : Nat} (hv : v < 2 ^ n) : Permutes n (· ^^^ v) :=
  ⟨fun _ hr => Nat.xor_lt_two_pow hr hv, fun _ _ _ _ h => Nat.xor_left_injective h⟩

/-- The top bit of the remainder tells whether the bit divided out was set. -/
theorem testBit_crcBitR {n poly r : Nat} (top : poly.testBit n = true) (hr : r < 2 ^ (n + 1)) :
    (crcBitR poly r).testBit n = decide (r % 2 = 1) := by
  have half : (r / 2).testBit n = false := Nat.testBit_lt_two_pow (by omega)
  by_cases odd : r % 2 = 1 <;> simp [crcBitR, odd, half, top]

theorem permutes_crcBitR {n poly : Nat} (fits : poly < 2 ^ (n + 1)) (top : poly.testBit n = true) :
    Permutes (n + 1) (crcBitR poly) := by
  refine ⟨fun r (hr : r < 2 ^ (n + 1)) => ?_, fun r (hr : r < 2 ^ (n + 1)) s (hs : s < 2 ^ (n + 1)) h => ?_⟩
  · have half : r / 2 < 2 ^ (n + 1) := by omega
    rw [crcBitR]
    split
    · exact Nat.xor_lt_two_pow half fits
    · exact half
  · have parity : r % 2 = 1 ↔ s % 2 = 1 := by
      rw [← decide_eq_decide, ← testBit_crcBitR top hr, ← testBit_crcBitR top hs, h]
    have halves : r / 2 = s / 2 := by
      simp only [crcBitR, parity] at h
      split at h
      · exact Nat.xor_left_inj.1 h
      · exact h
    omega

/-- On a remainder the unreflected division shifts, and takes the bit that leaves at the top off again. -/
theorem crcBitF_eq {n poly w r : Nat} (width : 8 * w = n + 1) (hr : r < 2 ^ (n + 1)) :
    crcBitF poly w r = if 2 ^ n ≤ r then (r * 2 - 2 ^ (n + 1)) ^^^ poly else r * 2 := by
  have quotient : r / 2 ^ n < 2 := Nat.div_lt_of_lt_mul (by omega)
  have set_iff : bitOf r n = true ↔ 2 ^ n ≤ r := by
    rw [← Nat.one_le_div_iff (Nat.two_pow_pos n), bitOf, Nat.mod_eq_of_lt quotient, beq_iff_eq]
    generalize r / 2 ^ n = q at quotient
    omega
  rw [crcBitF, width, Nat.add_sub_cancel]
  simp only [set_iff]
  split
  · rw [Nat.mod_eq_sub_mod (by omega), Nat.mod_eq_of_lt (by omega)]
  · rfl

theorem permutes_crcBitF {n poly w : Nat} (width : 8 * w = n + 1) (fits : poly < 2 ^ (n + 1)) (odd : poly.testBit 0 = true) :
    Permutes (n + 1) (crcBitF poly w) := by
  refine ⟨fun r (hr : r < 2 ^ (n + 1)) => ?_, fun r (hr : r < 2 ^ (n + 1)) s (hs : s < 2 ^ (n + 1)) h => ?_⟩
  · rw [crcBitF_eq width hr]
    split <;> rename_i set
    · exact Nat.xor_lt_two_pow (by omega) fits
    · show r * 2 < 2 ^ (n + 1)
      omega
  · rw [crcBitF_eq width hr, crcBitF_eq width hs] at h
    -- the bottom bit of the remainder tells whether the bit divided out was set
    have bottom (q : Nat) : ((q * 2 - 2 ^ (n + 1)) ^^^ poly).testBit 0 = true := by
      have even : (q * 2 - 2 ^ (n + 1)).testBit 0 = false := by simp; omega
      rw [Nat.testBit_xor, even, odd, Bool.false_xor]
    split at h <;> split at h
    · have := Nat.xor_left_inj.1 h
      omega
    · simpa [h] using bottom r
    · simpa [← h] using bottom s
    · omega

/-! ### The algorithms of R480 -/

/-- Feeding a byte is a self-map of the remainders in which no two collide, two bytes lead from one remainder to two, and the algorithm's
own constants are remainders. -/
structure CrcAlg.Sound (c : CrcAlg) : Prop where
  byte (b : Byte) : Permutes (8 * c.width) (crcByte c · b)
  apart {r : Nat} {a b : Byte} (hr : r < 2 ^ (8 * c.width)) (h : crcByte c r a = crcByte c r b) : a = b
  init : c.init < 2 ^ (8 * c.width)
  xorout : c.xorout < 2 ^ (8 * c.width)

theorem placed_lt (b : Byte) {k n : Nat} (h : 8 + k ≤ n) : b.toNat * 2 ^ k < 2 ^ n :=
  calc b.toNat * 2 ^ k < 2 ^ 8 * 2 ^ k := Nat.mul_lt_mul_of_pos_right b.isLt (Nat.two_pow_pos k)
    _ = 2 ^ (8 + k) := (Nat.pow_add 2 8 k).symm
    _ ≤ 2 ^ n := Nat.pow_le_pow_right (by decide) h

/-- A byte is added at place `k` of the remainder and divided out by `f`. -/
theorem CrcAlg.Sound.of_byte {c : CrcAlg} {f : Nat → Nat} {k : Nat} (byte : ∀ r b, crcByte c r b = f (r ^^^ b.toNat * 2 ^ k))
    (divides : Permutes (8 * c.width) f) (hk : 8 + k ≤ 8 * c.width) (init : c.init < 2 ^ (8 * c.width))
    (xorout : c.xorout < 2 ^ (8 * c.width)) : c.Sound where
  byte b := by
    rw [show (crcByte c · b) = f ∘ (· ^^^ b.toNat * 2 ^ k) from funext fun r => byte r b]
    exact divides.comp (permutes_xor (placed_lt b hk))
  apart {r a b} hr h := by
    rw [byte, byte] at h
    have joined := divides.2 (Nat.xor_lt_two_pow hr (placed_lt a hk)) (Nat.xor_lt_two_pow hr (placed_lt b hk)) h
    exact BitVec.eq_of_toNat_eq (Nat.eq_of_mul_eq_mul_right (Nat.two_pow_pos k) (Nat.xor_right_inj.1 joined))
  init := init
  xorout := xorout

theorem CrcAlg.Sound.of_reflected {c : CrcAlg} {n : Nat} (reflected : c.reflected = true) (width : 8 * c.width = n + 1) (_ : 8 ≤ n + 1)
    (fits : c.poly < 2 ^ (n + 1)) (top : c.poly.testBit n = true) (init : c.init < 2 ^ (n + 1)) (xorout : c.xorout < 2 ^ (n + 1)) :
    c.Sound :=
  .of_byte (f := Machine.iter (crcBitR c.poly) 8) (k := 0) (fun r b => by simp [crcByte, reflected])
    (width ▸ (permutes_crcBitR fits top).iter 8) (by omega) (width ▸ init) (width ▸ xorout)

/-- The algorithms that are not reserved. -/
theorem crcAlg_sound {alg : Nat} {c : CrcAlg} (h : crcAlg alg = some c) : c.Sound := by
  match alg, h with
  | 1, h => cases h; exact .of_reflected (n := 31) rfl rfl (by decide) (by decide) (by decide) (by decide) (by decide)
  | 2, h => cases h; exact .of_reflected (n := 31) rfl rfl (by decide) (by decide) (by decide) (by decide) (by decide)
  | 3, h => cases h; exact .of_reflected (n := 63) rfl rfl (by decide) (by decide) (by decide) (by decide) (by decide)
  | 4, h =>
    cases h
    exact .of_byte (f := Machine.iter (crcBitF 0x1021 2) 8) (k := 8) (fun r b => rfl) ((permutes_crcBitF (n := 15) rfl (by decide) (by decide)).iter 8)
      (by decide) (by decide) (by decide)

theorem CrcAlg.Sound.run {c : CrcAlg} (h : c.Sound) (bs : List Byte) : Permutes (8 * c.width) (crcRun c · bs) := by
  induction bs with
  | nil => exact ⟨fun _ hr => hr, fun _ _ _ _ h => h⟩
  | cons b bs ih => exact ih.comp (h.byte b)

/-- Settles O32: past the byte that differs the remainders differ, and nothing after it brings them together. -/
theorem checkValuesSeeEveryByte : Obligations.CheckValuesSeeEveryByte := by
  intro alg c l m a b hc hab same
  have sound := crcAlg_sound hc
  have before : crcRun c c.init l < 2 ^ (8 * c.width) := (sound.run l).1 sound.init
  simp only [crcOf, hc, Nat.xor_left_inj, crcRun, List.foldl_append, List.foldl_cons] at same
  exact hab (sound.apart before ((sound.run m).2 ((sound.byte a).1 before) ((sound.byte b).1 before) same))

/-! ### The register-fed units (18 R484, R486) -/

theorem crcAlg_eq_none_iff (alg : Nat) : crcAlg alg = none ↔ alg = 0 ∨ 4 < alg := by
  rcases alg with _ | _ | _ | _ | _ | alg <;> simp [crcAlg]

theorem crcAlg_isSome {alg : Nat} (lo : 1 ≤ alg) (hi : alg ≤ 4) : ∃ c, crcAlg alg = some c :=
  Option.ne_none_iff_exists'.1 fun h => by
    have := (crcAlg_eq_none_iff alg).1 h
    omega

theorem exec_cvuFeed {s : State} {c : Instr} {v : Word} {n off : Nat} (hp : s.dev.sys.portUp = true)
    (h : (c, n, off) ∈ [(Instr.cvuFeedB v, 1, Rg.CVU_FEED_B), (.cvuFeedH v, 2, Rg.CVU_FEED_H), (.cvuFeedW v, 4, Rg.CVU_FEED_W)]) :
    exec c s = .next (s.settled (cvuFeed s.dev off n v.toNat)) := by
  have fed : ∀ off n, lift (fun d => if d.sys.portUp then cvuFeed d off n v.toNat else d) s
      = .next (s.settled (cvuFeed s.dev off n v.toNat)) := fun off n => by rw [lift_next, if_pos hp]
  simp only [List.mem_cons, Prod.mk.injEq, List.not_mem_nil, or_false] at h
  rcases h with ⟨rfl, rfl, rfl⟩ | ⟨rfl, rfl, rfl⟩ | ⟨rfl, rfl, rfl⟩ <;> exact fed _ _

theorem exec_cvuInit {s : State} (hp : s.dev.sys.portUp = true) :
    exec .cvuInit s = .next (s.settled (cvuLoadInit s.dev (cvuSel s.dev))) := by
  change execCvuInit s = _
  rw [execCvuInit, lift_next, if_pos hp]

theorem exec_cvuRunWrite {s : State} (v : Word) (hp : s.dev.sys.portUp = true) :
    exec (.cvuRunWrite v) s = .next (s.settled (cvuRunStore s.dev v.toNat)) := by
  change execCvuRunWrite v s = _
  rw [execCvuRunWrite, lift_next, if_pos hp]

theorem exec_cvuUnitCfgWrite {s : State} (v : Word) (hp : s.dev.sys.portUp = true) :
    exec (.cvuUnitCfgWrite v) s = .next (s.settled (cvuCfgWrite s.dev v.toNat)) := by
  change execCvuUnitCfgWrite v s = _
  rw [execCvuUnitCfgWrite, lift_next, if_pos hp]

theorem cvuFeed_ignored {d : Dev} (off n v : Nat)
    (h : (cvuOf d (cvuSel d)).regMode = false ∨ unitInReset d 7 = true) : cvuFeed d off n v = cfgIgnored d off :=
  if_pos (by rcases h with h | h <;> simp [h])

theorem cvuFeed_taken {d : Dev} (off n v : Nat) (mode : (cvuOf d (cvuSel d)).regMode = true) (runs : unitInReset d 7 = false) :
    cvuFeed d off n v = setCvu d (cvuSel d) { cvuOf d (cvuSel d) with
      run := BitVec.ofNat 64 (cvuFeedRun (cvuOf d (cvuSel d)).alg (cvuOf d (cvuSel d)).run.toNat (leBytes n v)),
      bytes := ((cvuOf d (cvuSel d)).bytes + n) % 2 ^ 64 } :=
  if_neg (by simp [mode, runs])

theorem cvuOf_setCvu_other (d : Dev) {u w : Nat} (c : CvuUnit) (h : w ≠ u) : cvuOf (setCvu d u c) w = cvuOf d w :=
  (cvuOf_setCvu ..).trans (if_neg h)

theorem cvuCfgWrite_ignored {d : Dev} {word : Nat} (h : word / 256 % 256 = 0 ∨ 4 < word / 256 % 256 ∨
    (bitOf word 0 ≠ (cvuOf d (cvuSel d)).regMode ∧ cvuBusy d (cvuSel d) = true)) : cvuCfgWrite d word = cfgIgnored d Rg.CVU_UNIT_CFG := by
  refine if_pos ?_
  rcases h with h | h | h
  · exact .inr ((crcAlg_eq_none_iff _).2 (.inl h))
  · exact .inr ((crcAlg_eq_none_iff _).2 (.inr h))
  · exact .inl h

/-- Setting the mode and the algorithm of a unit and loading the init of that algorithm are one store. -/
theorem cvuCfgWrite_taken {d : Dev} {word : Nat} (lo : 1 ≤ word / 256 % 256) (hi : word / 256 % 256 ≤ 4)
    (h : cvuBusy d (cvuSel d) = false ∨ bitOf word 0 = (cvuOf d (cvuSel d)).regMode) :
    cvuCfgWrite d word = cvuLoadInit (setCvu d (cvuSel d) { cvuOf d (cvuSel d) with
      regMode := bitOf word 0, alg := word / 256 % 256 }) (cvuSel d) := by
  refine if_neg ?_
  rintro (⟨mode, busy⟩ | none)
  · rcases h with h | h
    · simp [h] at busy
    · exact mode h
  · have := (crcAlg_eq_none_iff _).1 none
    exact absurd this (by show ¬ (word / 256 % 256 = 0 ∨ 4 < word / 256 % 256); omega)

/-! ### `CHECK_VALUE` (18 R480 to R482) -/

theorem cvuFeedRun_append (alg run : Nat) (a b : List Byte) : cvuFeedRun alg run (a ++ b) = cvuFeedRun alg (cvuFeedRun alg run a) b := by
  unfold cvuFeedRun
  split
  · exact List.foldl_append
  · rfl

theorem ofLe_leBytes (n : Nat) : ∀ v, v < 2 ^ (8 * n) → ofLe (leBytes n v) = v := by
  induction n with
  | zero => intro v h; simp [leBytes, ofLe]; omega
  | succ n ih =>
    intro v h
    have rest := ih (v / 256) (by rw [Nat.mul_add, Nat.pow_add] at h; omega)
    simp only [leBytes, ofLe, BitVec.toNat_ofNat, rest]
    omega

@[simp] theorem length_leBytes (n v : Nat) : (leBytes n v).length = n := by
  induction n generalizing v with
  | zero => rfl
  | succ n ih => simp [leBytes, ih]

theorem atDispatch_notError {d : Dev} {r op : Nat} {f : Flight} (h : atDispatch d r op f) : d.hst.tdisp ≠ .error := by
  obtain ⟨next, -, -⟩ := h
  intro error
  rw [stageThree, if_pos (.inl (by simp [seqHalted, error]))] at next
  cases next

/-- The input as the unit reads it: bytes that the operand does not hold read 0. -/
def checkInput (f : Flight) (input : List Byte) : List Byte :=
  padTo (checkOp f.desc).length (input.take (checkOp f.desc).length)

/-- The unit has posted what the mode produces over `bs` and counted the bytes. -/
def checkPosted (d : Dev) (r : Nat) (f : Flight) (bs : List Byte) : Dev :=
  let e := hostWrite (dispatched d r f.id) r (checkOp f.desc).out (checkResult (checkOp f.desc) bs).1
  setCvu e (dbits f.desc 4 0 4) { cvuOf e (dbits f.desc 4 0 4) with
    bytes := ((cvuOf e (dbits f.desc 4 0 4)).bytes + bs.length) % 2 ^ 64 }

/-- A mismatch of STRIP is recorded (18 R482). -/
def checkNoted (bad : Bool) (d : Dev) : Dev := if bad then raise d Fd.CVU_EVT_strip_mismatch else d

theorem exec_checkValue {s : State} {r : Nat} {f : Flight} (h : atDispatch s.dev r 0x80 f) (input : List Byte) :
    exec (.checkValue r input) s = .next (s.settled (if (cvuOf s.dev (dbits f.desc 4 0 4)).regMode then finish s.dev r f.id stStateConflict 1
      else finish (checkNoted (checkResult (checkOp f.desc) (checkInput f input)).2.2 (checkPosted s.dev r f (checkInput f input))) r f.id stOK
        (checkResult (checkOp f.desc) (checkInput f input)).2.1)) := by
  change execCheckValue r input s = _
  rw [execCheckValue, lift_next, dispatch_atDispatch _ h]
  rfl

@[simp] theorem checkNoted_frame (bad : Bool) (d : Dev) : (checkNoted bad d).posted = d.posted ∧ (checkNoted bad d).cvu = d.cvu ∧
    (checkNoted bad d).ctx = d.ctx := by
  cases bad <;> simp [checkNoted]

theorem checkPosted_posted {d : Dev} (r : Nat) (f : Flight) (bs : List Byte) (h : d.hst.tdisp ≠ .error) :
    (checkPosted d r f bs).posted = d.posted ++ [⟨ringLink d r, (checkOp f.desc).out, (checkResult (checkOp f.desc) bs).1⟩] :=
  hostWrite_posted (dispatched d r f.id) r _ _ h

@[simp] theorem checkPosted_frame (d : Dev) (r : Nat) (f : Flight) (bs : List Byte) : (checkPosted d r f bs).ctx = d.ctx ∧
    (checkPosted d r f bs).evts = d.evts := by
  simp [checkPosted]

theorem cvuOf_congr {d e : Dev} (h : d.cvu = e.cvu) (u : Nat) : cvuOf d u = cvuOf e u := by simp only [cvuOf, h]

theorem checkPosted_cvu (d : Dev) (r : Nat) (f : Flight) (bs : List Byte) : (checkPosted d r f bs).cvu =
    (setCvu d (dbits f.desc 4 0 4) { cvuOf d (dbits f.desc 4 0 4) with
      bytes := ((cvuOf d (dbits f.desc 4 0 4)).bytes + bs.length) % 2 ^ 64 }).cvu := by
  simp [checkPosted, setCvu, cvuOf]

/-! ### What the modes produce (18 R481, R482) -/

/-- The value from which an operation starts. -/
def CheckOp.start (o : CheckOp) : Nat := if o.chain then o.runIn else cvuInit o.alg

theorem checkResult_compute {o : CheckOp} (h : o.mode = 0) (input : List Byte) : checkResult o input =
    if o.part then (leBytes 8 0 ++ leBytes 8 (cvuFeedRun o.alg o.start input), cvuFeedRun o.alg o.start input % 2 ^ 32, false)
    else (leBytes 8 (cvuFeedRun o.alg o.start input ^^^ cvuXor o.alg) ++ leBytes 8 (cvuFeedRun o.alg o.start input),
      (cvuFeedRun o.alg o.start input ^^^ cvuXor o.alg) % 2 ^ 32, false) := by
  simp only [checkResult, h, if_true]
  rfl

theorem checkResult_append {o : CheckOp} (h : o.mode = 1) (input : List Byte) : checkResult o input =
    (input ++ leBytes (cvuWidth o.alg) (cvuFeedRun o.alg o.start input ^^^ cvuXor o.alg),
      (cvuFeedRun o.alg o.start input ^^^ cvuXor o.alg) % 2 ^ 32, false) := by
  simp only [checkResult, h]
  rfl

/-- The check value of an operation fits the width of its algorithm. -/
theorem checkValue_lt {o : CheckOp} (lo : 1 ≤ o.alg) (hi : o.alg ≤ 4) (h : o.chain = false ∨ o.runIn < 2 ^ (8 * cvuWidth o.alg))
    (input : List Byte) : cvuFeedRun o.alg o.start input ^^^ cvuXor o.alg < 2 ^ (8 * cvuWidth o.alg) := by
  obtain ⟨c, hc⟩ := crcAlg_isSome lo hi
  have sound := crcAlg_sound hc
  simp only [cvuWidth, CheckOp.start, cvuFeedRun, cvuXor, cvuInit, hc] at h ⊢
  refine Nat.xor_lt_two_pow ((sound.run input).1 ?_) sound.xorout
  show (if o.chain then o.runIn else c.init) < 2 ^ (8 * c.width)
  split
  · exact h.resolve_left (by simp [*])
  · exact sound.init

/-- STRIP finds the check value that APPEND wrote behind its input. -/
theorem checkResult_strip_append {o : CheckOp} (lo : 1 ≤ o.alg) (hi : o.alg ≤ 4) (h : o.chain = false ∨ o.runIn < 2 ^ (8 * cvuWidth o.alg))
    (input : List Byte) : checkResult { o with mode := 2 } (checkResult { o with mode := 1 } input).1 = (input, 0, false) := by
  have stored := ofLe_leBytes _ _ (checkValue_lt lo hi h input)
  rw [checkResult_append (o := { o with mode := 1 }) rfl]
  unfold CheckOp.start at stored
  simp [checkResult, CheckOp.start, stored, b2n]

/-- Settles O30: a store to one unit leaves the others, feeding goes on over joined inputs, and STRIP undoes APPEND. -/
theorem checkValueUnits : Obligations.CheckValueUnits := by
  refine ⟨fun s v u hp hu => ?_, cvuFeedRun_append, fun s r f input bs u next hu hbs => ?_, fun o input run lo hi hrun => ?_⟩
  · subst hu
    refine ⟨fun c n off h => ⟨fun mode runs => ?_, fun shut => ?_⟩, ?_, ?_, fun bad => ?_, fun least most free => ?_⟩
    · exact ⟨_, exec_to (exec_cvuFeed hp h) (cvuFeed_taken off n v.toNat mode runs), cvuOf_setCvu_same .., fun w => cvuOf_setCvu_other _ _, rfl⟩
    · exact exec_to (exec_cvuFeed hp h) (cvuFeed_ignored off n v.toNat shut)
    · exact ⟨_, exec_cvuInit hp, cvuOf_setCvu_same .., fun w => cvuOf_setCvu_other _ _, rfl⟩
    · exact ⟨_, exec_cvuRunWrite v hp, cvuOf_setCvu_same .., fun w => cvuOf_setCvu_other _ _, rfl⟩
    · exact exec_to (exec_cvuUnitCfgWrite v hp) (cvuCfgWrite_ignored bad)
    · refine ⟨_, exec_to (exec_cvuUnitCfgWrite v hp) (cvuCfgWrite_taken least most free), ?_, fun w other => ?_, rfl⟩
      · simp [cvuLoadInit]
      · rw [cvuLoadInit, cvuOf_setCvu_other _ _ other, cvuOf_setCvu_other _ _ other]
  · subst hu hbs
    refine ⟨fun mode => exec_to (exec_checkValue next input) (if_pos mode), fun mode => ⟨_, exec_to (exec_checkValue next input)
      (if_neg (by simp [mode])), ?_, ?_, fun w other => ?_, fun bad => ?_, fun good => ?_, ?_⟩⟩
    · rw [(checkNoted_frame ..).1, checkPosted_posted _ _ _ (atDispatch_notError next)]
      rfl
    · rw [cvuOf_congr (checkNoted_frame ..).2.1, cvuOf_congr (checkPosted_cvu ..), cvuOf_setCvu_same]
      rfl
    · rw [cvuOf_congr (checkNoted_frame ..).2.1, cvuOf_congr (checkPosted_cvu ..), cvuOf_setCvu_other _ _ other]
    · exact (congrArg (evSet · _) (if_pos bad)).trans (evSet_raise ..)
    · exact (congrArg Dev.evts (if_neg (Bool.eq_false_iff.1 good))).trans (checkPosted_frame ..).2
    · simp
  · subst hrun
    exact ⟨fun h => checkResult_compute h input, fun h => checkResult_append h input, fun h => checkResult_strip_append lo hi h input⟩

end Sys2Proof.Machine
end

section
/-!
PROOFS. The passing of a subframe (17 R503, log entry 2), the gate of stage LINKS (16 R432), compositions of slices (13 R366 to R368), and
the registrar of homes (13 R375 to R377).
-/

namespace Sys2Proof.Machine

/-! ### One subframe (17 R503; 12 R363) -/

theorem subframe_still {d : Dev} (h : d.tc.slew = 0 ∨ d.tc.slewAge + 1 < 157) :
    subframe d = setTc d { d.tc with up := d.tc.up + 1, slewAge := d.tc.slewAge + 1 } :=
  congrArg (setTc d) (if_pos h)

theorem subframe_slews {d : Dev} (left : d.tc.slew ≠ 0) (due : 157 ≤ d.tc.slewAge + 1) :
    subframe d = setTc d { d.tc with
      up := d.tc.up + 1, adj := d.tc.adj + d.tc.slew.sign, slew := d.tc.slew - d.tc.slew.sign, slewAge := 0 } :=
  congrArg (setTc d) (if_neg (not_or.2 ⟨left, Nat.not_lt.2 due⟩))

theorem subframe_up (d : Dev) : (subframe d).tc.up = d.tc.up + 1 := by
  by_cases still : d.tc.slew = 0 ∨ d.tc.slewAge + 1 < 157
  · rw [subframe_still still]; rfl
  · rw [not_or, Nat.not_lt] at still
    rw [subframe_slews still.1 still.2]; rfl

/-- Settles O2: the idle step is a tick, and its subframe is a store of the timecode state. -/
theorem idleStepPassesOneSubframe : Obligations.IdleStepPassesOneSubframe := by
  refine fun s idle => ⟨step_idle s idle, fun low => if_pos low, fun runs => if_neg (by simp [runs]), fun d => ⟨rfl, subframe_up d, fun still => ?_,
    fun left due => ?_⟩⟩
  · rw [subframe_still still]
    exact ⟨rfl, rfl⟩
  · rw [subframe_slews left due]
    exact ⟨rfl, rfl, rfl⟩

/-! ### Stage LINKS and the identity statement (16 R432) -/

/-- Settles O14: the write is the one that `bootCmd_ignored` speaks of, refused for want of the statement. -/
theorem stageLinksNeedsTheStatement : Obligations.StageLinksNeedsTheStatement := by
  intro s up idle missing
  have ignored : bootLinks s.dev = cfgIgnored (fset s.dev Fd.GLB_BOOT_CMD_target 7) Rg.GLB_BOOT_CMD :=
    bootCmd_ignored 7 6 _ _ up idle (.inr (by simp [missing]))
  exact ⟨_, exec_to (d := bootLinks s.dev) rfl ignored, evSet_cfgIgnored .., by simp, by simp, by simp, by simp⟩

/-! ### Compositions of slices (13 R366 to R368) -/

theorem exec_mapSliceApply {s : State} (hp : s.dev.sys.portUp = true) :
    exec .mapSliceApply s = .next (s.settled (sliceApply s.dev)) := by
  change execMapSliceApply s = _
  rw [execMapSliceApply, lift_next, if_pos hp]

theorem sliceApply_applying {d : Dev} (h : (sliceOf d (fget d Fd.MAP_SLICE_SEL_slice)).next ≠ none) :
    sliceApply d = cfgIgnored d Rg.MAP_SLICE_APPLY := if_pos (Option.isSome_iff_ne_none.2 h)

theorem sliceApply_result {d : Dev} {n r : Nat} (hn : n = fget d Fd.MAP_SLICE_SEL_slice) (idle : (sliceOf d n).next = none)
    (hr : r = applyResult d n (stagedArrays d n) (stagedBanks d n)) : sliceApply d = setSlice d n
      (if r = 0 then { sliceOf d n with next := some (stagedArrays d n, stagedBanks d n), result := 0 }
        else { sliceOf d n with result := r }) := by
  subst hn hr
  rw [sliceApply, if_neg (by simp [idle])]
  by_cases ok : applyResult d (fget d Fd.MAP_SLICE_SEL_slice) (stagedArrays d (fget d Fd.MAP_SLICE_SEL_slice))
    (stagedBanks d (fget d Fd.MAP_SLICE_SEL_slice)) = 0
  · rw [if_pos ok]; exact if_neg (not_not.2 ok)
  · rw [if_neg ok]; exact if_pos ok

theorem exec_sliceApplyDone {s : State} (n : Nat) (runs : s.dev.sys.resetLow = false) :
    exec (.sliceApplyDone n) s = .next (s.settled (sliceApplied s.dev n)) := by
  change execSliceApplyDone n s = _
  rw [execSliceApplyDone, lift_next, if_neg (by simp [inReset, runs])]

/-- The banks that slice `n` gives up for the composition with these ones. -/
def banksOut (d : Dev) (n : Nat) (banks : List Nat) : List Nat := (sliceOf d n).banks.filter (fun b => !banks.contains b)

section Applying

variable {d : Dev} {n : Nat} {arrays banks : List Nat} (pending : (sliceOf d n).next = some (arrays, banks))
include pending

theorem sliceApplied_running {t : Team} {a : Nat} (ht : t ∈ d.fab.teams) (ha : a ∈ t.arrays) (held : a ∈ (sliceOf d n).arrays)
    (gone : a ∉ arrays) : sliceApplied d n = d := by
  simp only [sliceApplied, pending]
  refine if_pos (List.any_eq_true.2 ⟨t, ht, List.any_eq_true.2 ⟨a, ha, ?_⟩⟩)
  simp [held, gone]

/-- With no entry on a removed array, the pages of the removed banks move out. -/
theorem sliceApplied_quiet (quiet : ∀ t ∈ d.fab.teams, ∀ a ∈ t.arrays, a ∈ (sliceOf d n).arrays → a ∈ arrays) :
    sliceApplied d n = match vacate d (banksOut d n banks) with
      | none => d
      | some e => if bankHeld (publishMoved e) (banksOut d n banks) then publishMoved e
          else strandCheck (setSlice (publishMoved e) n { sliceOf d n with arrays := arrays, banks := banks, next := none }) := by
  simp only [sliceApplied, pending]
  rw [if_neg]
  · unfold banksOut
    cases vacate d ((sliceOf d n).banks.filter (fun b => !banks.contains b)) <;> rfl
  intro running
  obtain ⟨t, ht, running⟩ := List.any_eq_true.1 running
  obtain ⟨a, ha, running⟩ := List.any_eq_true.1 running
  simp only [List.contains_eq_mem, List.mem_filter, decide_eq_true_eq, Bool.not_eq_eq_eq_not, Bool.not_true, decide_eq_false_iff_not] at running
  exact running.2 (quiet t ht a ha running.1)

end Applying

/-- Settles O22: until the removed arrays are quiet and the removed banks empty an apply stays pending. -/
theorem sliceCompositionsAreApplied : Obligations.SliceCompositionsAreApplied := by
  rintro s n x rfl
  refine ⟨fun hp hn idle r hr => exec_to (exec_mapSliceApply hp) (sliceApply_result hn idle hr), fun hp hn busy => ?_, fun y => ?_,
    fun arrays banks out runs pending hout => ⟨fun t a ht ha held gone => ?_, fun quiet => ?_⟩⟩
  · exact exec_to (exec_mapSliceApply hp) (sliceApply_applying (hn ▸ busy))
  · exact ⟨(sliceOf_setSlice ..).trans (if_pos rfl), fun m other => (sliceOf_setSlice ..).trans (if_neg other)⟩
  · exact exec_to (exec_sliceApplyDone n runs) (sliceApplied_running pending ht ha held gone)
  · have run := exec_to (exec_sliceApplyDone n runs) (sliceApplied_quiet pending quiet)
    rw [banksOut, ← hout] at run
    refine ⟨fun full => ?_, fun d room => ⟨fun held => ?_, fun clear => ?_⟩⟩
    · rw [run, full]
    · rw [run, room]
      simp [held]
    · rw [run, room]
      simp [clear]

/-! ### What is heard (13 R372) -/

theorem mapOff_of_deaf {d : Dev} {src : Nat} (h : mapServes d = false ∨ d.lnk.fenced.contains src = true) :
    (!mapServes d) = true ∨ d.lnk.fenced.contains src = true := h.imp_left fun off => by simp [off]

theorem not_mapOff_of_hears {d : Dev} {src : Nat} (h : hears d src) : ¬ ((!mapServes d) = true ∨ d.lnk.fenced.contains src = true) := by
  obtain ⟨serves, heard⟩ := h
  rw [serves, heard]
  decide

/-- Noting the digest of a message touches what is known of its sender, the mark and count of R385, events and messages. -/
@[simp] theorem noteDigest_frame (d : Dev) (src compat epoch digest : Nat) :
    (noteDigest d src compat epoch digest).sys = d.sys ∧ (noteDigest d src compat epoch digest).lnk = d.lnk ∧
      (noteDigest d src compat epoch digest).ctx = d.ctx ∧ (noteDigest d src compat epoch digest).tc = d.tc ∧
      (noteDigest d src compat epoch digest).map = { d.map with
        peers := (noteDigest d src compat epoch digest).map.peers
        lastDiverged := (noteDigest d src compat epoch digest).map.lastDiverged } := by
  simp only [noteDigest]
  repeat' split
  all_goals simp [setPeer]

/-! ### The registrar (13 R375 to R377) -/

/-- The registrar's entry of a name is what a message says. -/
def entered (d : Dev) (m : MapMsg) : Dev := { d with map := { d.map with reg := put d.map.reg m.name { home := m.device, epoch := m.epoch } } }

theorem exec_publish {s : State} {m : MapMsg} (h : hears s.dev m.src) : exec (.publish m) s = .next (s.settled
    (if regWaits (noteMsg s.dev m) ∧ (mapEntry (noteMsg s.dev m) m.name).isNone then
      if (noteMsg s.dev m).map.regHeld.contains (m.src, m.name, m.device, m.epoch) then noteMsg s.dev m
      else { noteMsg s.dev m with map := { (noteMsg s.dev m).map with
        regHeld := (noteMsg s.dev m).map.regHeld ++ [(m.src, m.name, m.device, m.epoch)] } }
    else registrarTakes (noteMsg s.dev m) m.src m.name m.device m.epoch)) := by
  change execPublish m s = _
  exact lift_to (if_neg (not_mapOff_of_hears h))

/-- A PUBLISH for a name whose REGISTER may still come is held once. -/
theorem exec_publish_held {s : State} {m : MapMsg} {d : Dev} (hd : d = noteMsg s.dev m) (h : hears s.dev m.src) (waits : regWaits d = true)
    (unknown : mapEntry d m.name = none) : exec (.publish m) s = .next (s.settled
      (if d.map.regHeld.contains (m.src, m.name, m.device, m.epoch) then d
      else { d with map := { d.map with regHeld := d.map.regHeld ++ [(m.src, m.name, m.device, m.epoch)] } })) := by
  subst hd
  exact exec_to (exec_publish h) (if_pos ⟨waits, by simp [unknown]⟩)

theorem exec_publish_taken {s : State} {m : MapMsg} {d : Dev} (hd : d = noteMsg s.dev m) (h : hears s.dev m.src)
    (known : regWaits d = false ∨ mapEntry d m.name ≠ none) :
    exec (.publish m) s = .next (s.settled (registrarTakes d m.src m.name m.device m.epoch)) := by
  subst hd
  refine exec_to (exec_publish h) (if_neg fun ⟨waits, unknown⟩ => ?_)
  rcases known with known | known
  · simp [known] at waits
  · exact known (Option.isNone_iff_eq_none.1 unknown)

theorem exec_register {s : State} {m : MapMsg} (h : hears s.dev m.src) : exec (.register m) s = .next (s.settled (applyHeld
    (if (match mapEntry (noteMsg s.dev m) m.name with | some e => decide (e.epoch < m.epoch) | none => true) then entered (noteMsg s.dev m) m
      else noteMsg s.dev m) m.name)) := by
  change execRegister m s = _
  exact lift_to (if_neg (not_mapOff_of_hears h))

theorem exec_register_newer {s : State} {m : MapMsg} {d : Dev} (hd : d = noteMsg s.dev m) (h : hears s.dev m.src)
    (newer : ∀ e, mapEntry d m.name = some e → e.epoch < m.epoch) :
    exec (.register m) s = .next (s.settled (applyHeld (entered d m) m.name)) := by
  subst hd
  refine exec_to (exec_register h) (congrArg (applyHeld · _) (if_pos ?_))
  split
  · next e entry => exact decide_eq_true (newer e entry)
  · rfl

theorem exec_register_known {s : State} {m : MapMsg} {d : Dev} {e : RegEnt} (hd : d = noteMsg s.dev m) (h : hears s.dev m.src)
    (entry : mapEntry d m.name = some e) (known : m.epoch ≤ e.epoch) :
    exec (.register m) s = .next (s.settled (applyHeld d m.name)) := by
  subst hd
  refine exec_to (exec_register h) (congrArg (applyHeld · _) (if_neg ?_))
  rw [entry]
  simpa using known

theorem applyHeld_none {d : Dev} {n : Nat} (h : ∀ x ∈ d.map.regHeld, x.2.1 ≠ n) : applyHeld d n = d := by
  have mine : d.map.regHeld.filter (fun x => x.2.1 == n) = [] := by simpa using h
  have kept : d.map.regHeld.filter (fun x => x.2.1 != n) = d.map.regHeld := by simpa using h
  simp only [applyHeld, mine, kept, List.foldl_nil]

theorem confirmTo_entry {d : Dev} {name : Nat} {e : RegEnt} (dst : Nat) (entry : mapEntry d name = some e) :
    confirmTo d dst name false = mapSend d dst (mapBytes d 0x11 0 0 name e.epoch e.home 0 0 0 0 0) := by
  rw [confirmTo, entry]
  rfl

theorem publishAgain_due {d : Dev} {name : Nat} {c : Claim} (claim : look d.map.claims name = some c) (serves : mapServes d = true)
    (due : c.sentAt + 4 * 65536 ≤ up d) : publishAgain d name = publishClaim d name c := by
  rw [publishAgain, claim]
  exact if_pos ⟨serves, due⟩

theorem publishAgain_early {d : Dev} {name : Nat} {c : Claim} (claim : look d.map.claims name = some c)
    (early : up d < c.sentAt + 4 * 65536) : publishAgain d name = d := by
  rw [publishAgain, claim]
  exact if_neg fun ⟨_, due⟩ => Nat.not_le.2 early due

theorem publishAgain_idle {d : Dev} {name : Nat} (h : look d.map.claims name = none ∨ mapServes d = false) : publishAgain d name = d := by
  unfold publishAgain
  split
  · rfl
  · next claim => exact if_neg fun ⟨serves, _⟩ => by simp [claim, serves] at h

/-- The device to which a claim goes out is told the claim, which now dates from the present. -/
theorem look_publishClaim (d : Dev) (name : Nat) (c : Claim) :
    look (publishClaim d name c).map.claims name = some { c with sentAt := up d } := by
  simp only [publishClaim, mapSend_frame, look_put_same]

/-- Settles O53. That a registrar without an entry takes the PUBLISH is log entry 65. -/
theorem registrarOrdersHomes : Obligations.RegistrarOrdersHomes := by
  intro s m d x hd hx
  refine ⟨fun deaf c hc => ?_, fun heard => ⟨fun e entry => ⟨fun next => ?_, fun gap => ?_, fun old => ?_, fun newer => ?_⟩,
    fun unknown => ⟨?_, fun ended => ?_, fun waits => ?_⟩⟩, fun e n none => applyHeld_none none, fun e dst n en entry => confirmTo_entry dst entry,
    fun serves ended => ?_, fun h => ?_, fun c claim serves => ⟨fun due => ⟨?_, look_publishClaim ..⟩, fun early => ?_⟩, fun h => ?_⟩
  · simp only [List.mem_cons, List.not_mem_nil, or_false] at hc
    rcases hc with rfl | rfl
    · change execPublish m s = _
      exact lift_to (if_pos (mapOff_of_deaf deaf))
    · change execRegister m s = _
      exact lift_to (if_pos (mapOff_of_deaf deaf))
  · refine exec_to (exec_publish_taken hd heard (.inr (by simp [entry]))) ?_
    rw [registrarTakes, entry, hx]
    exact if_pos next
  · refine exec_to (exec_publish_taken hd heard (.inr (by simp [entry]))) ?_
    rw [registrarTakes, entry]
    exact if_neg gap
  · exact exec_register_known hd heard entry old
  · subst hx
    refine exec_register_newer hd heard fun e2 entry2 => ?_
    cases entry.symm.trans entry2
    exact newer
  · subst hx
    exact exec_register_newer hd heard fun e entry => by simp [unknown] at entry
  · refine exec_to (exec_publish_taken hd heard (.inl ended)) ?_
    rw [registrarTakes, unknown, hx]
  · refine ⟨_, exec_publish_held hd heard waits unknown, ?_⟩
    have kept : d.ctx = s.dev.ctx := hd ▸ (noteDigest_frame ..).2.2.1
    split <;> exact ⟨rfl, kept⟩
  · change execRegisterWaitExpire m.name s = _
    exact lift_to (if_neg (by simp [ended, serves]))
  · change execRegisterWaitExpire m.name s = _
    exact lift_to (if_pos (by rcases h with h | h <;> simp [h]))
  · change execPublishRepeat m.name s = _
    exact lift_to (publishAgain_due claim serves due)
  · change execPublishRepeat m.name s = _
    exact lift_to (publishAgain_early claim early)
  · change execPublishRepeat m.name s = _
    exact lift_to (publishAgain_idle h)

end Sys2Proof.Machine
end

section
/-!
PROOFS. Changes of membership, heartbeats, isolation and eviction (13 R369 to R374, 16 R433).
-/

namespace Sys2Proof.Machine

theorem mem_insertN_iff {x n : Nat} {l : List Nat} : x ∈ insertN n l ↔ x = n ∨ x ∈ l := by
  induction l with
  | nil => simp [insertN]
  | cons a t ih =>
    simp only [insertN]
    split_ifs with below same
    · simp
    · simp [same]
    · simp [ih]
      tauto

theorem mem_foldl_insertN {x : Nat} (ns : List Nat) : ∀ l, x ∈ ns.foldl (fun l n => insertN n l) l ↔ x ∈ ns ∨ x ∈ l := by
  induction ns with
  | nil => simp
  | cons n ns ih =>
    intro l
    simp only [List.foldl_cons, ih, mem_insertN_iff, List.mem_cons]
    tauto

/-! ### Fencing (13 R372) -/

theorem purge_fenced (d : Dev) (dev : Nat) : (purge d dev).lnk.fenced = d.lnk.fenced ∧ (purge d dev).ctx = d.ctx := by
  have ports (change : Dev → Nat → Port) (l : List Nat) : ∀ e : Dev,
      (l.foldl (fun e p => setPort e p (change e p)) e).lnk.fenced = e.lnk.fenced ∧
      (l.foldl (fun e p => setPort e p (change e p)) e).ctx = e.ctx := by
    induction l with
    | nil => exact fun e => ⟨rfl, rfl⟩
    | cons p l ih => exact fun e => ih _
  exact ports _ _ _

theorem fence_fenced (d : Dev) (dev : Nat) : (fence d dev).lnk.fenced.contains dev = true ∧
    (∀ n, n ≠ dev → (fence d dev).lnk.fenced.contains n = d.lnk.fenced.contains n) ∧ (fence d dev).ctx = d.ctx := by
  unfold fence
  split
  · next already => exact ⟨already, fun _ _ => rfl, rfl⟩
  · rw [(purge_fenced ..).1, (purge_fenced ..).2]
    exact ⟨by simp, fun n other => by simp [other], rfl⟩

/-! ### Changes of membership (13 R369, R370) -/

theorem memberChange_joined (x : Dev) (n e : Nat) (f : Bool) : (memberChange x n e true f).map.domEpoch = e ∧
    (memberChange x n e true f).map.members = insertN n x.map.members ∧ (memberChange x n e true f).lnk.fenced.contains n = false ∧
    (memberChange x n e true f).ctx = x.ctx := by
  simp only [memberChange, if_true]
  split <;> simp [setPeer, redigest]

theorem foldl_mapSend_frame {α : Type} (dst : Dev → α → Nat) (bytes : Dev → α → List Byte) (l : List α) (d : Dev) :
    (l.foldl (fun d a => mapSend d (dst d a) (bytes d a)) d).map = d.map ∧ (l.foldl (fun d a => mapSend d (dst d a) (bytes d a)) d).ctx = d.ctx ∧
      (l.foldl (fun d a => mapSend d (dst d a) (bytes d a)) d).regs = d.regs := by
  have sent := (onlyLinks_foldl (fun d a => mapSend d (dst d a) (bytes d a)) (fun d a => onlyLinks_mapSend d _ _) l d).keeps
  simp [sent]

theorem ownDevice_congr {d e : Dev} (h : d.regs = e.regs) : ownDevice d = ownDevice e := fget_congr h ..

/-- A device that leaves takes its place in the domain with it; what is said of its names goes to the new registrars. -/
theorem memberChange_left (x : Dev) {n : Nat} (e : Nat) (other : n ≠ ownDevice x) : (memberChange x n e false false).map.domEpoch = e ∧
    (memberChange x n e false false).map.members = x.map.members.filter (fun k => k != n) ∧
    (memberChange x n e false false).ctx = x.ctx := by
  simp only [memberChange, Bool.false_eq_true, if_false]
  split
  · next own =>
    refine absurd (own.trans (ownDevice_congr ?_)) other
    rw [(foldl_mapSend_frame ..).2.2]
    simp [redigest]
  · rw [(foldl_mapSend_frame ..).1, (foldl_mapSend_frame ..).2.1]
    simp [redigest]

/-! ### Messages about members (13 R369 to R372) -/

section Member

variable {s : State} {m : MapMsg} {d : Dev}

/-- A device that is no member, or whose map is off, heeds none of the messages about members. -/
theorem exec_memberMessage_outside (h : mapServes s.dev = false ∨ s.dev.map.member = false) (src dev dom : Nat) (j f p : Bool) :
    ∀ c ∈ [Instr.join src dev dom, .leave m, .member m j f p, .suspect m, .fence m, .heartbeatMiss dev],
      exec c s = .next (s.settled s.dev) := by
  have off : (!mapServes s.dev) = true ∨ (!s.dev.map.member) = true := by rcases h with h | h <;> simp [h]
  have out : ¬ (mapServes s.dev = true ∧ s.dev.map.member = true) := fun ⟨serves, member⟩ => by simp [serves, member] at h
  simp only [List.mem_cons, List.not_mem_nil, or_false, forall_eq_or_imp, forall_eq]
  refine ⟨?_, ?_, ?_, ?_, ?_, ?_⟩
  · change execJoin src dev dom s = _
    exact lift_to (if_pos (off.imp_right .inl))
  · change execLeave m s = _
    refine lift_to (if_neg fun ⟨serves, steward, _⟩ => out ⟨serves, ?_⟩)
    rw [isSteward, Bool.and_eq_true] at steward
    exact steward.1
  · change execMember m j f p s = _
    exact lift_to (if_pos (off.imp_right .inl))
  · change execSuspect m s = _
    exact lift_to (if_neg fun ⟨serves, member, _⟩ => out ⟨serves, member⟩)
  · change execFence m s = _
    exact lift_to (if_neg fun ⟨serves, member, _⟩ => out ⟨serves, member⟩)
  · change execHeartbeatMiss dev s = _
    exact lift_to (if_pos (off.imp_right .inl))

/-- Nothing that a fenced device says of members is heeded (13 R372). -/
theorem exec_memberMessage_fenced (h : s.dev.lnk.fenced.contains m.src = true) (j f p : Bool) :
    ∀ c ∈ [Instr.leave m, .member m j f p, .suspect m, .fence m], exec c s = .next (s.settled s.dev) := by
  have deaf : ¬ (!s.dev.lnk.fenced.contains m.src) = true := by
    rw [h]
    decide
  simp only [List.mem_cons, List.not_mem_nil, or_false, forall_eq_or_imp, forall_eq]
  refine ⟨?_, ?_, ?_, ?_⟩
  · change execLeave m s = _
    exact lift_to (if_neg fun ⟨_, _, _, heard⟩ => deaf heard)
  · change execMember m j f p s = _
    exact lift_to (if_pos (.inr (.inr (.inl h))))
  · change execSuspect m s = _
    exact lift_to (if_neg fun ⟨_, _, _, heard⟩ => deaf heard)
  · change execFence m s = _
    exact lift_to (if_neg fun ⟨_, _, _, heard⟩ => deaf heard)

section Inside

variable (serves : mapServes s.dev = true) (member : s.dev.map.member = true)
include serves member

theorem exec_join {dom : Nat} (same : dom = fget s.dev Fd.MAP_DOM_domain) (src dev : Nat) : exec (.join src dev dom) s = .next (s.settled
    (if isSteward s.dev then stewardJoin s.dev dev else mapSend s.dev (stewardFor s.dev none) (mapNote s.dev 0x20 dev ++ leBytes 8 dom))) := by
  change execJoin src dev dom s = _
  exact lift_to (if_neg (by simp [serves, member, same]))

theorem exec_member {j f p : Bool} (heard : s.dev.lnk.fenced.contains m.src = false) (tells : (j || f || p) = true)
    (later : s.dev.map.domEpoch < m.domainEpoch) :
    exec (.member m j f p) s = .next (s.settled (memberChange s.dev m.device m.domainEpoch j f)) := by
  change execMember m j f p s = _
  exact lift_to (if_neg (by simp only [serves, member, heard, tells]; simpa using later))

theorem exec_suspect (heard : s.dev.lnk.fenced.contains m.src = false) (mine : stewardFor s.dev (some m.device) = ownDevice s.dev) :
    exec (.suspect m) s = .next (s.settled (suspected (noteMsg s.dev m) m.src m.device)) := by
  change execSuspect m s = _
  exact lift_to (if_pos ⟨serves, member, mine, by simp only [heard, Bool.not_false]⟩)

theorem exec_fence (heard : s.dev.lnk.fenced.contains m.src = false) (other : m.device ≠ ownDevice s.dev) :
    exec (.fence m) s = .next (s.settled (fence (noteMsg s.dev m) m.device)) := by
  change execFence m s = _
  exact lift_to (if_pos ⟨serves, member, other, by simp only [heard, Bool.not_false]⟩)

/-- A member that has been silent for `miss` periods is suspected (13 R371, R372). -/
theorem missed_suspects {dev t : Nat} {x : Dev} (last : (peerOf s.dev dev).heard = some t) (due : t + missSpan s.dev ≤ up s.dev)
    (once : (peerOf s.dev dev).suspected = false) (knows : s.dev.map.members.contains dev = true) (other : dev ≠ ownDevice s.dev)
    (hx : x = setPeer s.dev dev { peerOf s.dev dev with suspected := true }) : missed s.dev dev =
      if stewardFor x (some dev) = ownDevice x then suspected x (ownDevice x) dev
      else mapSend x (stewardFor x (some dev)) (mapNote x 0x24 dev) := by
  subst hx
  simp only [missed, last]
  exact if_neg (by simp only [serves, member, knows, once, due]; simpa using other)

end Inside

theorem missed_not {x : Dev} {dev t : Nat} (last : (peerOf x dev).heard = some t) (h : up x < t + missSpan x ∨
    (peerOf x dev).suspected = true ∨ x.map.members.contains dev = false ∨ dev = ownDevice x) : missed x dev = x := by
  simp only [missed, last]
  refine if_pos ?_
  rcases h with early | again | stranger | own
  · simp [early]
  · simp [again]
  · simp only [stranger]
    simp
  · simp [own]

/-! ### The steward's waits (13 R372) -/

theorem stewardWait_due {x : Dev} {dev t : Nat} {who : List Nat} (first : look x.map.suspects dev = some (t, who)) (serves : mapServes x = true)
    (due : t + fget x Fd.MAP_HB_fail_wait * 65536 ≤ up x) : stewardWait x dev = stewardFence x dev := by
  rw [stewardWait, first]
  exact if_pos ⟨serves, due⟩

theorem stewardWait_not {x : Dev} {dev : Nat} (h : ∀ t who, look x.map.suspects dev = some (t, who) →
    mapServes x = false ∨ up x < t + fget x Fd.MAP_HB_fail_wait * 65536) : stewardWait x dev = x := by
  unfold stewardWait
  split
  · rfl
  · next t who first =>
    refine if_neg fun ⟨serves, due⟩ => ?_
    rcases h t who first with off | early
    · simp [off] at serves
    · omega

theorem memberFail_due {x : Dev} {dev t : Nat} (fenced : look x.map.fencedAt dev = some t) (serves : mapServes x = true)
    (knows : x.map.members.contains dev = true) (due : t + missSpan x + 65536 ≤ up x) :
    memberFail x dev = stewardChange x dev false true := by
  rw [memberFail, fenced]
  exact if_pos ⟨serves, knows, due⟩

theorem memberFail_not {x : Dev} {dev : Nat} (h : ∀ t, look x.map.fencedAt dev = some t → mapServes x = false ∨
    x.map.members.contains dev = false ∨ up x < t + missSpan x + 65536) : memberFail x dev = x := by
  unfold memberFail
  split
  · rfl
  · next t fenced =>
    refine if_neg fun ⟨serves, knows, due⟩ => ?_
    rcases h t fenced with off | stranger | early
    · simp [off] at serves
    · rw [stranger] at knows
      cases knows
    · omega

end Member


theorem exec_keyAnnouncement {s : State} {src : Nat} (runs : s.dev.sys.resetLow = false) (heard : s.dev.lnk.fenced.contains src = false)
    (dev : Nat) (st att cert key : List Byte) : exec (.keyAnnouncement src dev st att cert key) s = .next (s.settled
      (if dev = src ∧ announcementOk src st att cert key then
        { s.dev with sec := { s.dev.sec with peers := put s.dev.sec.peers src { kem := key } } }
      else raise s.dev Fd.SEC_EVT_peer_rejected)) := by
  change execKeyAnnouncement src dev st att cert key s = _
  exact lift_to (if_neg (by simp only [inReset, runs, heard]; decide))

/-! ### Joining and heartbeats (13 R370, R371) -/

/-- The device that a JOIN_ACK has made a member, before it announces its key. -/
def joined (d : Dev) (m : MapMsg) (ms : List Nat) : Dev :=
  ((ownDevice d :: ms).foldl (fun l x => insertN x l) []).foldl
    (fun d x => if x = ownDevice d then d else setPeer d x { heard := some (up d) })
    (redigest { d with map := { d.map with
      member := true, members := (ownDevice d :: ms).foldl (fun l x => insertN x l) [], domEpoch := m.domainEpoch, anyAt := up d } })

theorem joined_frame (d : Dev) (m : MapMsg) (ms : List Nat) : (joined d m ms).map.member = true ∧ (joined d m ms).map.domEpoch = m.domainEpoch ∧
    (joined d m ms).map.anyAt = up d ∧ (∀ x, x ∈ (joined d m ms).map.members ↔ x = ownDevice d ∨ x ∈ ms) ∧ (joined d m ms).ctx = d.ctx := by
  have heard (l : List Nat) : ∀ e : Dev, ∃ ps, l.foldl (fun d x => if x = ownDevice d then d else setPeer d x { heard := some (up d) }) e
      = { e with map := { e.map with peers := ps } } := by
    induction l with
    | nil => exact fun e => ⟨_, rfl⟩
    | cons x l ih =>
      intro e
      rw [List.foldl_cons]
      split
      · exact ih e
      · obtain ⟨ps, eq⟩ := ih (setPeer e x { heard := some (up e) })
        exact ⟨ps, eq⟩
  obtain ⟨ps, eq⟩ := heard _ _
  rw [joined, eq]
  refine ⟨rfl, rfl, rfl, fun x => ?_, rfl⟩
  show x ∈ (ownDevice d :: ms).foldl (fun l x => insertN x l) [] ↔ _
  simp only [mem_foldl_insertN, List.mem_cons, List.not_mem_nil, or_false]

theorem exec_joinAck {s : State} (serves : mapServes s.dev = true) (outside : s.dev.map.member = false) (joins : s.dev.sys.stageCmd = some 7)
    (finds : fbit s.dev Fd.MAP_CFG_found = false) (m : MapMsg) (ms : List Nat) :
    exec (.joinAck m ms) s = .next (s.settled (announceKey (joined s.dev m ms))) := by
  change execJoinAck m ms s = _
  exact lift_to (if_neg (by simp [serves, outside, joins, finds]))

theorem beat_due {d : Dev} (serves : mapServes d = true) (member : d.map.member = true)
    (due : d.map.sentAt + fget d Fd.MAP_HB_period * 65536 ≤ up d) : beat d =
      (servingPorts { d with map := { d.map with sentAt := up d } }).foldl (fun x p => sendOnPort x p 0x02 (heartbeatBytes d))
        { d with map := { d.map with sentAt := up d } } :=
  if_neg (by simpa [serves, member] using due)

theorem beat_not {d : Dev} (h : mapServes d = false ∨ d.map.member = false ∨ up d < d.map.sentAt + fget d Fd.MAP_HB_period * 65536) :
    beat d = d :=
  if_pos (by rcases h with h | h | h <;> simp [h])

/-- What the digest in a message says of its sender leaves what its heartbeat said. -/
theorem noteDigest_peer (d : Dev) (src compat epoch digest : Nat) : ∃ dg dv,
    peerOf (noteDigest d src compat epoch digest) src = { peerOf d src with digest := dg, diverged := dv } := by
  have stored (e : Dev) (p : MapPeer) : peerOf (setPeer e src p) src = p := by simp [peerOf_setPeer]
  have raised (e : Dev) (g : Fd) : peerOf (raise e g) src = peerOf e src := by simp [peerOf]
  have counted (e : Dev) (f : Fd) (n : Nat) : peerOf (fbump { e with map := { e.map with lastDiverged := n } } f) src = peerOf e src := rfl
  simp only [noteDigest, stored]
  split
  · exact ⟨_, _, stored ..⟩
  · split
    · split
      · exact ⟨_, _, (raised ..).trans (stored ..)⟩
      · exact ⟨_, _, stored ..⟩
    · split
      · exact ⟨_, _, stored ..⟩
      · exact ⟨_, _, (raised ..).trans ((counted ..).trans (stored ..))⟩

/-- The device that has heard a heartbeat of its domain, before it looks at the digest in it. -/
def heardFrom (d : Dev) (src : Nat) (p : MapPeer) : Dev :=
  let e := { d with map := { d.map with anyAt := up d } }
  if e.map.members.contains src then setPeer e src p else e

/-- A heartbeat of the device's own domain epoch ends its isolation (13 R373). -/
def rejoined (ep : Nat) (d : Dev) : Dev :=
  if d.map.isolated ∧ ep = d.map.domEpoch then { d with map := { d.map with isolated := false } } else d

section Heartbeat

variable {s : State} {src compat ep dom dig hops : Nat} {iso : Bool} {peers : List Nat}

theorem exec_heartbeat_foreign (h : mapServes s.dev = false ∨ s.dev.map.member = false ∨ dom ≠ fget s.dev Fd.MAP_DOM_domain) :
    exec (.heartbeat src compat ep dom dig hops iso peers) s = .next (s.settled s.dev) := by
  change execHeartbeat src compat ep dom dig hops iso peers s = _
  exact lift_to (if_pos (by rcases h with h | h | h <;> simp [h]))

variable (serves : mapServes s.dev = true) (member : s.dev.map.member = true) (same : dom = fget s.dev Fd.MAP_DOM_domain)
include serves member same

theorem exec_heartbeat_fenced (fenced : s.dev.lnk.fenced.contains src = true) :
    exec (.heartbeat src compat ep dom dig hops iso peers) s = .next (s.settled
      (if s.dev.map.members.contains src then s.dev else sendEvict s.dev src)) := by
  change execHeartbeat src compat ep dom dig hops iso peers s = _
  exact lift_to ((if_neg (by simp [serves, member, same])).trans (if_pos fenced))

theorem exec_heartbeat_heard (heard : s.dev.lnk.fenced.contains src = false) :
    exec (.heartbeat src compat ep dom dig hops iso peers) s = .next (s.settled (rejoined ep (noteDigest (heardFrom s.dev src
      { peerOf s.dev src with
        heard := some (up s.dev), epoch := ep, compat := compat, hops := hops, isolated := iso, peers := peers, suspected := false })
      src compat ep dig))) := by
  change execHeartbeat src compat ep dom dig hops iso peers s = _
  exact lift_to ((if_neg (by simp [serves, member, same])).trans (if_neg (Bool.eq_false_iff.1 heard)))

end Heartbeat

theorem rejoined_frame (ep : Nat) (d : Dev) : (rejoined ep d).map = { d.map with isolated := d.map.isolated && ep != d.map.domEpoch } ∧
    (rejoined ep d).ctx = d.ctx := by
  unfold rejoined
  split
  · next h => simp [h]
  · next h =>
    have still : (d.map.isolated && ep != d.map.domEpoch) = d.map.isolated := by
      cases known : d.map.isolated
      · rfl
      · simpa [known] using h
    rw [still]
    exact ⟨rfl, rfl⟩

theorem heardFrom_frame (d : Dev) (src : Nat) (p : MapPeer) : (heardFrom d src p).map =
      { d.map with anyAt := up d, peers := (heardFrom d src p).map.peers } ∧ (heardFrom d src p).ctx = d.ctx := by
  simp only [heardFrom]
  split <;> exact ⟨rfl, rfl⟩

theorem peerOf_heardFrom {d : Dev} {src : Nat} (h : d.map.members.contains src = true) (p : MapPeer) :
    peerOf (heardFrom d src p) src = p := by
  simp only [heardFrom]
  rw [if_pos h, peerOf_setPeer, if_pos rfl]

theorem heartbeat_frame (d : Dev) (src compat ep dig : Nat) (p : MapPeer) :
    (rejoined ep (noteDigest (heardFrom d src p) src compat ep dig)).map.anyAt = up d ∧
    (rejoined ep (noteDigest (heardFrom d src p) src compat ep dig)).map.isolated = (d.map.isolated && ep != d.map.domEpoch) ∧
    (rejoined ep (noteDigest (heardFrom d src p) src compat ep dig)).ctx = d.ctx := by
  obtain ⟨map, ctx⟩ := rejoined_frame ep (noteDigest (heardFrom d src p) src compat ep dig)
  obtain ⟨-, -, ctx2, -, map2⟩ := noteDigest_frame (heardFrom d src p) src compat ep dig
  obtain ⟨map3, ctx3⟩ := heardFrom_frame d src p
  exact ⟨by rw [map, map2, map3], by rw [map, map2, map3], ctx.trans (ctx2.trans ctx3)⟩

theorem heartbeat_peer {d : Dev} {src : Nat} (knows : d.map.members.contains src = true) (compat ep dig : Nat) (p : MapPeer) :
    ∃ dg dv, peerOf (rejoined ep (noteDigest (heardFrom d src p) src compat ep dig)) src = { p with digest := dg, diverged := dv } := by
  obtain ⟨dg, dv, noted⟩ := noteDigest_peer (heardFrom d src p) src compat ep dig
  rw [peerOf_heardFrom knows p] at noted
  refine ⟨dg, dv, Eq.trans ?_ noted⟩
  rw [peerOf, peerOf, (rejoined_frame ..).1]

/-! ### Isolation and eviction (13 R373) -/

/-- The device that finds itself isolated, before what is dispatched ends. -/
def isolated (d : Dev) : Dev := raise { d with map := { d.map with isolated := true } } Fd.MAP_EVT_isolated

theorem isolate_due {d : Dev} (serves : mapServes d = true) (member : d.map.member = true) (first : d.map.isolated = false)
    (others : 2 ≤ d.map.members.length) (silent : d.map.anyAt + missSpan d ≤ up d) : isolate d =
      endFlights (cutAll (isolated d) stBusyRetry (fget d Fd.MAP_HB_period * fget d Fd.MAP_HB_miss)) gatedGroup stBusyRetry
        (fget d Fd.MAP_HB_period * fget d Fd.MAP_HB_miss) :=
  if_neg (by simp only [serves, member, first, Nat.not_lt.2 others, Nat.not_lt.2 silent]; decide)

theorem isolate_not {d : Dev} (h : mapServes d = false ∨ d.map.member = false ∨ d.map.isolated = true ∨ d.map.members.length < 2 ∨
    up d < d.map.anyAt + missSpan d) : isolate d = d :=
  if_pos (by rcases h with h | h | h | h | h <;> simp [h])

/-- The device is out of its domain for good. -/
def evicted (d : Dev) : Dev := { d with map := { d.map with evicted := true, leaving := false } }

@[simp] theorem evicted_frame (d : Dev) : (evicted d).regs = d.regs ∧ (evicted d).map.evicted = true := ⟨rfl, rfl⟩

theorem evicted_closed (e : Dev) : (∀ n, n < 512 → sqOpenBit (evicted (closeRings e)) n = false ∧ cqOpenBit (evicted (closeRings e)) n = false) ∧
    ∀ n, n < 4096 → strOpenBit (evicted (closeRings e)) n = false := by
  obtain ⟨rings, streams, -⟩ := closeRings_closes e
  have regs := (evicted_frame (closeRings e)).1
  refine ⟨fun n hn => ?_, fun n hn => ?_⟩
  · rw [sqOpenBit, cqOpenBit, fbit_congr regs, fbit_congr regs]
    exact rings n hn
  · rw [strOpenBit, fbit_congr regs]
    exact streams n hn

theorem exec_evict {s : State} {m : MapMsg} (serves : mapServes s.dev = true) (member : s.dev.map.member = true)
    (own : m.device = ownDevice s.dev) : ∃ e, exec (.evict m) s = .next (s.settled (evicted (closeRings e))) := by
  change ∃ e, execEvict m s = _
  exact ⟨_, lift_to (if_neg (by simp [serves, member, own]))⟩

/-- Settles O54: each message or wait by the lemma that says when it acts. What a member that is not the steward passes on is log entry 71,
the steward's waits and the answer to a fenced sender log entry 65. -/
theorem membershipHeartbeatsAndIsolation : Obligations.MembershipHeartbeatsAndIsolation := by
  refine ⟨fun s m d dev hd => ⟨fun h src dom j f p => exec_memberMessage_outside h src dev dom j f p, fun serves member => ?_,
    fun x n e f => ?_, fun t who first => ⟨fun serves due => ?_, fun h => ?_⟩, fun none => ?_,
    fun t fenced => ⟨fun serves knows due => ?_, fun h => ?_⟩, fun none => ?_,
    fun src st att cert key runs heard => ⟨fun own ok => ?_, fun h => ?_⟩, fun src st att cert key h => ?_⟩, fun s m => ⟨?_, fun serves => ?_⟩⟩
  · subst hd
    refine ⟨fun src dom same => ⟨fun steward => ?_, fun other => ?_⟩, fun src dom foreign => ?_,
      fun fenced j f p => exec_memberMessage_fenced fenced j f p, fun heard => ⟨fun steward knows => ?_, fun h => ?_,
        fun j f p tells later => exec_member serves member heard tells later, fun j f p h => ?_,
        fun mine => exec_suspect serves member heard mine, fun other => ?_, fun other => ?_, fun own => ?_⟩,
      fun t x last hx => ⟨fun due once knows other => ?_, fun h => ?_⟩⟩
    · exact exec_to (exec_join serves member same src dev) (if_pos steward)
    · exact exec_to (exec_join serves member same src dev) (if_neg (by simp [other]))
    · change execJoin src dev dom s = _
      exact lift_to (if_pos (.inr (.inr foreign)))
    · change execLeave m s = _
      exact lift_to (if_pos ⟨serves, steward, knows, by simp only [heard, Bool.not_false]⟩)
    · change execLeave m s = _
      refine lift_to (if_neg fun ⟨_, steward, knows, _⟩ => ?_)
      rcases h with h | h
      · exact Bool.eq_false_iff.1 h steward
      · exact Bool.eq_false_iff.1 h knows
    · change execMember m j f p s = _
      exact lift_to (if_pos (.inr (.inr (.inr (h.imp_left fun none => by rw [none]; rfl)))))
    · change execSuspect m s = _
      exact lift_to (if_neg fun ⟨_, _, mine, _⟩ => other mine)
    · refine ⟨_, exec_fence serves member heard other, ?_⟩
      obtain ⟨within, others, ctx⟩ := fence_fenced (noteMsg s.dev m) m.device
      obtain ⟨-, lnk, kept, -⟩ := noteDigest_frame s.dev m.src m.compat m.domainEpoch m.digest
      exact ⟨within, fun n hn => (others n hn).trans (congrArg (fun l : Lnk => l.fenced.contains n) lnk), ctx.trans kept⟩
    · change execFence m s = _
      exact lift_to (if_neg fun ⟨_, _, other, _⟩ => other own)
    · exact lift_to (f := (missed · dev)) (missed_suspects serves member last due once knows other hx)
    · exact lift_to (f := (missed · dev)) (missed_not last h)
  · obtain ⟨epoch, members, fenced, ctx⟩ := memberChange_joined x n e f
    exact ⟨epoch, members, fenced, ctx, memberChange_left x e⟩
  · exact lift_to (f := (stewardWait · dev)) (stewardWait_due first serves due)
  · refine lift_to (f := (stewardWait · dev)) (stewardWait_not fun t2 who2 first2 => ?_)
    cases first.symm.trans first2
    exact h
  · exact lift_to (f := (stewardWait · dev)) (stewardWait_not fun t who first => by simp [none] at first)
  · exact lift_to (f := (memberFail · dev)) (memberFail_due fenced serves knows due)
  · refine lift_to (f := (memberFail · dev)) (memberFail_not fun t2 fenced2 => ?_)
    cases fenced.symm.trans fenced2
    exact h
  · exact lift_to (f := (memberFail · dev)) (memberFail_not fun t fenced => by simp [none] at fenced)
  · exact ⟨_, exec_to (exec_keyAnnouncement runs heard dev st att cert key) (if_pos ⟨own, ok⟩), rfl, rfl, rfl⟩
  · refine exec_to (exec_keyAnnouncement runs heard dev st att cert key) (if_neg fun ⟨own, ok⟩ => ?_)
    rcases h with h | h
    · exact h own
    · exact Bool.eq_false_iff.1 h ok
  · change execKeyAnnouncement src dev st att cert key s = _
    exact lift_to (if_pos h)
  · intro off ms src c e dom g h b ps
    have shut : (!mapServes s.dev) = true := by simp [off]
    simp only [List.mem_cons, List.not_mem_nil, or_false, forall_eq_or_imp, forall_eq]
    refine ⟨?_, lift_to (f := beat) (beat_not (.inl off)), exec_heartbeat_foreign (.inl off), lift_to (f := isolate) (isolate_not (.inl off)), ?_⟩
    · change execJoinAck m ms s = _
      exact lift_to (if_pos (.inl shut))
    · change execEvict m s = _
      exact lift_to (if_pos (.inl shut))
  · refine ⟨fun ms outside joins finds => ?_, fun ms h => ?_, fun member due => ⟨_, lift_to (f := beat) (beat_due serves member due), rfl⟩,
      fun h => lift_to (f := beat) (beat_not (.inr h)), fun src compat ep dom dig hops iso peers => ⟨fun h => exec_heartbeat_foreign (.inr h),
        fun member same => ⟨fun fenced => exec_heartbeat_fenced serves member same fenced, fun heard => ?_⟩⟩,
      fun member first others silent => ⟨_, lift_to (f := isolate) (isolate_due serves member first others silent), ?_⟩,
      fun h => lift_to (f := isolate) (isolate_not (.inr h)), fun member own => ?_, fun h => ?_⟩
    · obtain ⟨inside, epoch, anyAt, members, ctx⟩ := joined_frame s.dev m ms
      exact ⟨_, exec_joinAck serves outside joins finds m ms, inside, epoch, anyAt, members, ctx⟩
    · change execJoinAck m ms s = _
      exact lift_to (if_pos (.inr h))
    · refine ⟨_, exec_heartbeat_heard serves member same heard, ?_⟩
      obtain ⟨anyAt, isolated, ctx⟩ := heartbeat_frame s.dev src compat ep dig _
      refine ⟨anyAt, isolated, ctx, fun knows => ?_⟩
      obtain ⟨dg, dv, peer⟩ := heartbeat_peer knows compat ep dig _
      rw [peer]
      exact ⟨rfl, rfl, rfl, rfl⟩
    · simp [isolated]
    · obtain ⟨e, run⟩ := exec_evict serves member own
      exact ⟨_, run, (evicted_frame _).2, evicted_closed e⟩
    · have spared : (!mapServes s.dev) = true ∨ m.device ≠ ownDevice s.dev ∨ (!s.dev.map.member) = true :=
        .inr (h.symm.imp_right fun outside => by rw [outside]; rfl)
      change execEvict m s = _
      exact lift_to (if_pos spared)

end Sys2Proof.Machine
end

section
/-!
PROOFS. Fault windows (18 R473 to R478): what a record leaves of them, which of them a close takes, and what a report does while the
window of its class and unit is open.
-/

namespace Sys2Proof.Machine

/-! ### A record leaves the windows (18 R477) -/

theorem fltWrite_windows (d : Dev) (g : Nat) (r : Report) (b : Bool) : (fltWrite d g r b).1.flt.wins = d.flt.wins ∧
    (fltWrite d g r b).1.flt.cwins = d.flt.cwins := by
  dsimp only [fltWrite]
  split
  · split
    · simp
    · dsimp only
      split <;> simp
  · exact ⟨rfl, rfl⟩

/-- A record takes the next sequence of its ring, written or not. -/
theorem fltWrite_sequence (d : Dev) (g : Nat) (r : Report) (b : Bool) :
    (fltWrite d g r b).2 = ((mget d.flt.rings {} g).seq + 1) % 2 ^ 32 := by
  dsimp only [fltWrite]
  split
  · split <;> rfl
  · rfl

theorem fltOperator_windows (d : Dev) (r : Report) (b : Bool) : (fltOperator d r b).flt.wins = d.flt.wins ∧
    (fltOperator d r b).flt.cwins = d.flt.cwins := by
  dsimp only [fltOperator]
  split <;> simp [fltWrite_windows]

/-! ### Windows close (18 R475, R476) -/

theorem fltCloseOp_windows (d : Dev) (k : Nat) : look (fltCloseOp d k).flt.wins k = none ∧ (fltCloseOp d k).flt.cwins = d.flt.cwins := by
  unfold fltCloseOp
  split
  · next closed => exact ⟨closed, rfl⟩
  · split
    · simp [fltOperator_windows]
    · simp

theorem fltCloseOp_single {d : Dev} {k : Nat} {w : FWin} (opened : look d.flt.wins k = some w) (once : w.count = 1) :
    fltCloseOp d k = { d with flt := { d.flt with wins := del d.flt.wins k } } := by
  rw [fltCloseOp, opened]
  exact if_neg (by omega)

theorem fltCloseOp_summary {d : Dev} {k : Nat} {w : FWin} (opened : look d.flt.wins k = some w) (more : 1 < w.count) :
    fltCloseOp d k = fltOperator { d with flt := { d.flt with wins := del d.flt.wins k } } { w.first with count := w.count } true := by
  rw [fltCloseOp, opened]
  exact if_pos more

theorem fltDueOp_early {d : Dev} {k : Nat} (h : ∀ w, look d.flt.wins k = some w → up d < w.due) : fltDueOp d k = d := by
  unfold fltDueOp
  split
  · next w opened => exact if_neg (by simpa [winDue] using h w opened)
  · rfl

theorem fltDueOp_due {d : Dev} {k : Nat} {w : FWin} (opened : look d.flt.wins k = some w) (due : w.due ≤ up d) :
    fltDueOp d k = fltCloseOp d k := by
  rw [fltDueOp, opened]
  exact if_pos (by simpa [winDue] using due)

theorem up_of_onlyReports {d e : Dev} (h : OnlyReports d e) : up e = up d := by
  have tc : e.tc = d.tc := by rw [h]
  simp only [up, now, stamp, tc]

theorem onlyReports_fltWindowClose (d : Dev) (u c : Nat) : OnlyReports d (fltWindowClose d u c) :=
  (onlyReports_fltDueOp d _).trans (onlyReports_foldl _ onlyReports_fltCloseClient _ _)

/-- A client window that closes takes those of its client, class, unit and object with it, and leaves the operator's. -/
theorem fltCloseClient_windows (d : Dev) (p : Nat × FWin) : (fltCloseClient d p).flt.wins = d.flt.wins ∧
    (fltCloseClient d p).flt.cwins = d.flt.cwins.filter (fun q => !cwinFor p.1 p.2.first q) := by
  dsimp only [fltCloseClient]
  split
  · simp [fltWrite_windows]
  · exact ⟨rfl, rfl⟩

theorem foldl_fltCloseClient_windows (l : List (Nat × FWin)) : ∀ d : Dev, (l.foldl fltCloseClient d).flt.wins = d.flt.wins ∧
    ∀ q ∈ (l.foldl fltCloseClient d).flt.cwins, q ∈ d.flt.cwins ∧ q ∉ l := by
  induction l with
  | nil => exact fun d => ⟨rfl, fun q hq => ⟨hq, List.not_mem_nil⟩⟩
  | cons p l ih =>
    intro d
    obtain ⟨wins, cwins⟩ := ih (fltCloseClient d p)
    obtain ⟨wins1, cwins1⟩ := fltCloseClient_windows d p
    refine ⟨wins.trans wins1, fun q hq => ?_⟩
    obtain ⟨stays, later⟩ := cwins q hq
    rw [cwins1, List.mem_filter] at stays
    refine ⟨stays.1, fun among => ?_⟩
    rcases List.mem_cons.1 among with rfl | among
    · simp [cwinFor] at stays
    · exact later among

/-- The client windows of a class and unit that are due. -/
def dueClients (d : Dev) (u c : Nat) : List (Nat × FWin) :=
  d.flt.cwins.filter (fun p => p.2.first.unit == u && p.2.first.cls == c && winDue d p.2)

theorem mem_dueClients {d : Dev} {u c : Nat} {p : Nat × FWin} :
    p ∈ dueClients d u c ↔ p ∈ d.flt.cwins ∧ p.2.first.unit = u ∧ p.2.first.cls = c ∧ p.2.due ≤ up d := by
  simp [dueClients, winDue, and_assoc]

theorem fltWindowClose_eq (d : Dev) (u c : Nat) : fltWindowClose d u c =
    (dueClients (fltDueOp d (u * 256 + c)) u c).foldl fltCloseClient (fltDueOp d (u * 256 + c)) := rfl

theorem fltWindowClose_early {d : Dev} {u c : Nat} (op : ∀ w, look d.flt.wins (u * 256 + c) = some w → up d < w.due)
    (clients : ∀ p ∈ d.flt.cwins, p.2.first.unit = u → p.2.first.cls = c → up d < p.2.due) : fltWindowClose d u c = d := by
  have none : dueClients d u c = [] := by
    refine List.eq_nil_iff_forall_not_mem.2 fun p hp => ?_
    obtain ⟨opened, unit, cls, due⟩ := mem_dueClients.1 hp
    exact Nat.not_lt.2 due (clients p opened unit cls)
  rw [fltWindowClose_eq, fltDueOp_early op, none, List.foldl_nil]

theorem fltWindowClose_closes_operator {d : Dev} {u c : Nat} {w : FWin} (opened : look d.flt.wins (u * 256 + c) = some w)
    (due : w.due ≤ up d) : look (fltWindowClose d u c).flt.wins (u * 256 + c) = none := by
  rw [fltWindowClose_eq, (foldl_fltCloseClient_windows _ _).1, fltDueOp_due opened due]
  exact (fltCloseOp_windows d _).1

theorem fltWindowClose_closes_clients {d : Dev} {u c : Nat} {p : Nat × FWin} (stays : p ∈ (fltWindowClose d u c).flt.cwins)
    (unit : p.2.first.unit = u) (cls : p.2.first.cls = c) : up d < p.2.due := by
  rw [fltWindowClose_eq] at stays
  obtain ⟨before, spared⟩ := (foldl_fltCloseClient_windows _ _).2 p stays
  by_contra due
  exact spared (mem_dueClients.2 ⟨before, unit, cls, by rw [up_of_onlyReports (onlyReports_fltDueOp ..)]; omega⟩)

/-! ### Reports (18 R473 to R476) -/

/-- A report of a class and unit whose operator window is open is counted there. -/
theorem fltOpView_counts {d : Dev} {r : Report} {w : FWin} (opened : look d.flt.wins (fltKey r) = some w) (early : up d < w.due) :
    fltOpView d r = { d with flt := { d.flt with wins := put d.flt.wins (fltKey r) { w with count := w.count + r.count } } } := by
  have same : fltDueOp d (fltKey r) = d := fltDueOp_early fun v hv => by
    cases opened.symm.trans hv
    exact early
  simp only [fltOpView, same, opened]

/-- The device that has counted a report in an open operator window. -/
def reportCounted (d : Dev) (r : Report) (w : FWin) : Dev :=
  { fbump d Fd.FLT_CNT_reports with flt := { d.flt with wins := put d.flt.wins (fltKey r) { w with count := w.count + r.count } } }

theorem fltDueClient_wins (d : Dev) (c : Nat) (r : Report) : (fltDueClient d c r).flt.wins = d.flt.wins := by
  unfold fltDueClient
  split
  · split
    · exact (fltCloseClient_windows ..).1
    · rfl
  · rfl

theorem fltClientView_wins (d : Dev) (c : Nat) (r : Report) : (fltClientView d c r).1.flt.wins = d.flt.wins := by
  dsimp only [fltClientView]
  split
  · exact fltDueClient_wins ..
  · simp [fltWrite_windows, fltDueClient_wins]

/-- A report that opens a client's window, which answers the sequence of the record written. -/
theorem fltClientView_opens {d : Dev} {c : Nat} {r : Report} (first : d.flt.cwins.find? (cwinFor c r) = none) :
    (∃ due, (fltClientView d c r).1.flt.cwins = d.flt.cwins ++ [(c, ⟨{ r with count := 1 }, 1, due, (fltClientView d c r).2⟩)]) ∧
    (fltClientView d c r).2 = ((mget d.flt.rings {} c).seq + 1) % 2 ^ 32 ∧
    (mget (fltClientView d c r).1.seq.acct {} c).faults = (mget d.seq.acct {} c).faults + 1 := by
  have same : fltDueClient d c r = d := by rw [fltDueClient, first]
  simp only [fltClientView, same, first]
  refine ⟨⟨_, congrArg (· ++ _) (fltWrite_windows ..).2⟩, fltWrite_sequence .., ?_⟩
  simp [updAcct, fltWrite_seq]

/-- The report as the fault unit takes it (18 R473). -/
def stampedReport (d : Dev) (r : Report) : Report := { r with tc := now d, origin := ownDevice d }

theorem report_eq (d : Dev) (r : Report) : report d r = match r.client with
    | none => (fltOpView (fbump d Fd.FLT_CNT_reports) (stampedReport d r), 0)
    | some c => fltClientView (fltOpView (fbump d Fd.FLT_CNT_reports) (stampedReport d r)) c (stampedReport d r) := rfl

section Open

variable {d : Dev} {r : Report} {w : FWin} (opened : look d.flt.wins (fltKey r) = some w) (early : up d < w.due)
include opened early

theorem fltOpView_stamped : fltOpView (fbump d Fd.FLT_CNT_reports) (stampedReport d r) = reportCounted d r w :=
  fltOpView_counts opened early

theorem report_unnamed (nobody : r.client = none) : report d r = (reportCounted d r w, 0) := by
  rw [report_eq, nobody, fltOpView_stamped opened early]

theorem report_named {c : Nat} (named : r.client = some c) :
    report d r = fltClientView (reportCounted d r w) c (stampedReport d r) := by
  rw [report_eq, named, fltOpView_stamped opened early]

/-- The report is counted in the operator window, and every other one stays. -/
theorem report_wins : (report d r).1.flt.wins = put d.flt.wins (fltKey r) { w with count := w.count + r.count } := by
  cases client : r.client with
  | none => rw [report_unnamed opened early client]; rfl
  | some c => rw [report_named opened early client, fltClientView_wins]; rfl

end Open

/-- Settles O55: a close takes the windows of its key that are due, and a report counts in the window that is open. -/
theorem faultReportsCoalesce : Obligations.FaultReportsCoalesce := by
  refine ⟨fun s u c => ⟨rfl, fun x => ⟨fltWindowClose_early, fun w => fltWindowClose_closes_operator, fun p hp => fltWindowClose_closes_clients hp,
    fun k w opened => ⟨fltCloseOp_single opened, fltCloseOp_summary opened⟩, fun rcd => ⟨_, rfl, rfl, rfl, rfl, rfl⟩⟩, fun src rcd =>
      ⟨fun runs heard => ?_, fun deaf => ?_⟩⟩, fun d r w opened early => ?_⟩
  · change execFaultRecordForward src rcd s = _
    exact lift_to (if_neg (by rw [runs, heard]; decide))
  · change execFaultRecordForward src rcd s = _
    exact lift_to (if_pos deaf)
  · refine ⟨?_, fun k other => ?_, (report_frame d r).2.2.2.2.2.1, fun nobody => ?_, fun c named first => ?_⟩
    · rw [report_wins opened early, look_put_same]
    · rw [report_wins opened early, look_put_other _ _ other]
    · rw [report_unnamed opened early nobody]
      exact ⟨rfl, rfl, rfl⟩
    · rw [report_named opened early named]
      obtain ⟨⟨due, cwins⟩, sequence, faults⟩ := fltClientView_opens (d := reportCounted d r w) (c := c) (r := stampedReport d r) first
      exact ⟨_, cwins, rfl, rfl, rfl, sequence, faults⟩

end Sys2Proof.Machine
end

section
/-!
PROOFS. Zeroisation and the debug gate (16 R446, R447): what a `SEC_ZEROISE` write marks, that erased session keys leave no record alive
and no slate, and what the observation pins wait for.
-/

namespace Sys2Proof.Machine

/-! ### A zeroisation begins and is complete (16 R446) -/

/-- A matched `SEC_ZEROISE` of one group from stage FW_RUN on. -/
theorem secZeroise_group {d : Dev} (stage : 2 ≤ d.sys.stage) :
    secZeroise d 1 = zeroSessions (zeroMark (unguard d Rg.SEC_ZEROISE_A) 1) ∧
    secZeroise d 2 = zeroWeights (zeroMark (unguard d Rg.SEC_ZEROISE_A) 2) ∧
    secZeroise d 4 = zeroStorage (zeroMark (unguard d Rg.SEC_ZEROISE_A) 4) ∧
    secZeroise d 8 = zeroLinks (zeroMark (unguard d Rg.SEC_ZEROISE_A) 8) := by
  have runs : ¬ d.sys.stage < 2 := Nat.not_lt.2 stage
  simp [secZeroise, unguard_guards, runs, bitOf]

theorem secZeroise_early {d : Dev} (g : Nat) (early : d.sys.stage < 2) :
    secZeroise d g = cfgIgnored (unguard d Rg.SEC_ZEROISE_A) Rg.SEC_ZEROISE_A := if_pos (Or.inr early)

/-- What a zeroisation of a group marks: the group, the time, the counter and the last mask. -/
theorem zeroMark_keeps {d : Dev} {g : Nat} (hg : g < 16) :
    (zeroMark d g).sec = { d.sec with zeroing := some (d.sec.zeroing.getD 0 ||| g), zeroAt := up d } ∧
    fget (zeroMark d g) Fd.SEC_ZERO_STAT_count = min (fget d Fd.SEC_ZERO_STAT_count + 1) (2 ^ Fd.SEC_ZERO_STAT_count.width - 1) ∧
    fget (zeroMark d g) Fd.SEC_ZERO_STAT_last = g ∧ (zeroMark d g).ctx = d.ctx := by
  have regs : (zeroMark d g).regs = (fset (fbump d Fd.SEC_ZERO_STAT_count) Fd.SEC_ZERO_STAT_last g).regs := rfl
  refine ⟨rfl, ?_, ?_, rfl⟩
  · rw [fget_congr regs, fget_fset_apart (f := Fd.SEC_ZERO_STAT_last) (g := Fd.SEC_ZERO_STAT_count) _ _ _ (by decide) rfl (by decide), fbump,
      fget_fset_same _ _ _ (by decide) (by decide)]
    exact Nat.mod_eq_of_lt (Nat.lt_of_le_of_lt (Nat.min_le_right _ _) (by decide))
  · rw [fget_congr regs, fget_fset_same _ _ _ (by decide) (by decide)]
    exact Nat.mod_eq_of_lt hg

theorem exec_zeroise {s : State} {c : Instr} {g : Nat} (port : s.dev.sys.portUp = true) (named : (c, g) ∈ [(Instr.zeroiseSessionKeys, 1),
    (.zeroiseWeightKeys, 2), (.zeroiseStorageKeys, 4), (.zeroiseLinkKeys, 8)]) :
    exec c s = .next (s.settled (secZeroise s.dev g)) := by
  simp only [List.mem_cons, Prod.mk.injEq, List.not_mem_nil, or_false] at named
  rcases named with ⟨rfl, rfl⟩ | ⟨rfl, rfl⟩ | ⟨rfl, rfl⟩ | ⟨rfl, rfl⟩ <;> exact lift_to (if_pos port)

theorem exec_zeroiseDone {s : State} (runs : s.dev.sec.zeroing ≠ none) : exec .zeroiseDone s = .next (s.settled (raise { s.dev with
    sec := { s.dev.sec with zeroing := none, obsPending := false },
    sys := { s.dev.sys with obsLive := s.dev.sys.obsLive || s.dev.sec.obsPending } } Fd.SEC_EVT_zeroised)) :=
  lift_to (f := zeroDone) (if_neg (by simpa using runs))

/-! ### Slates (14 R409) -/

theorem discardSlate_frame (d : Dev) (n : Nat) : (discardSlate d n).ckp.openSlate = d.ckp.openSlate := by
  simp [discardSlate, sweepCopies]

/-- Discarding slates one after another leaves the others, and sessions as they are. -/
theorem foldl_discardSlate_keeps (ns : List Nat) : ∀ d : Dev,
    (ns.foldl discardSlate d).ckp.kept = d.ckp.kept.filter (fun x => !ns.contains x.num) ∧
    (ns.foldl discardSlate d).ckp.openSlate = d.ckp.openSlate ∧ (ns.foldl discardSlate d).ctx = d.ctx := by
  induction ns with
  | nil => intro d; exact ⟨(List.filter_eq_self.2 (by simp)).symm, rfl, rfl⟩
  | cons n ns ih =>
    intro d
    obtain ⟨kept, opened, ctx⟩ := ih (discardSlate d n)
    obtain ⟨one, same, -⟩ := discardSlate_keeps d n
    refine ⟨kept.trans ?_, opened.trans (discardSlate_frame d n), ctx.trans same⟩
    rw [one, List.filter_filter]
    congr 1
    funext x
    by_cases hx : x.num = n <;> simp [hx]

theorem discardAll_keeps (d : Dev) : (discardAll d).ckp.kept = [] ∧ (discardAll d).ckp.openSlate = d.ckp.openSlate ∧
    (discardAll d).ctx = d.ctx := by
  obtain ⟨kept, rest⟩ := foldl_discardSlate_keeps (d.ckp.kept.map fun x => x.num) d
  refine ⟨kept.trans (List.filter_eq_nil_iff.2 fun x hx => ?_), rest⟩
  simpa using ⟨x, hx, rfl⟩

theorem abandonSlate_keeps (d : Dev) : (abandonSlate d false).ckp.openSlate = none ∧ (abandonSlate d false).ctx = d.ctx := by
  unfold abandonSlate
  split
  case h_1 none => exact ⟨none, rfl⟩
  case h_2 => simp [sweepCopies]

/-! ### What ends a session's waiting work leaves of the records -/

theorem onlyRings_foldl {α : Type} (f : Dev → α → Dev) (hf : ∀ d a, OnlyRings d (f d a)) (l : List α) : ∀ d, OnlyRings d (l.foldl f d) := by
  induction l with
  | nil => intro d; rfl
  | cons a t ih => intro d; exact (hf d a).trans (ih _)

theorem onlyRings_endHeld (d : Dev) (r id st res : Nat) : OnlyRings d (endHeld d r id st res) :=
  onlyRings_ite (onlyRings_updFlight d r id _) (onlyRings_finish d r id st res)

theorem onlyRings_batchEnd (d : Dev) (r id : Nat) : OnlyRings d (batchEnd d r id) := by
  unfold batchEnd
  split
  · rfl
  · refine onlyRings_ite (OnlyRings.rfl' d) ?_
    dsimp only
    split <;> exact (onlyReports_hostWrite d _ _ _).rings.trans (onlyRings_finish _ _ _ _ _)

theorem onlyRings_entryEnd (d : Dev) (r id k st res fl by_ len seq : Nat) : OnlyRings d (entryEnd d r id k st res fl by_ len seq) :=
  (onlyRings_updFlight d r id _).trans (onlyRings_batchEnd _ r id)

theorem onlyRings_endStopped (d : Dev) (i st res : Nat) (cs : List (Nat × Nat × Option Nat)) : OnlyRings d (endStopped d i st res cs) := by
  refine onlyRings_foldl _ (fun d c => ?_) cs d
  split
  · exact onlyRings_entryEnd d _ _ _ _ _ _ _ _ _
  · exact onlyRings_endHeld d _ _ _ _

/-- Device `e` has the sessions of `d` but what record `i` holds, whose slot and state stay. -/
def RecordKept (d e : Dev) (i : Nat) : Prop :=
  (recOf e i).slot = (recOf d i).slot ∧ (recOf e i).state = (recOf d i).state ∧ ∀ j, j ≠ i → recOf e j = recOf d j

namespace RecordKept

variable {c d e : Dev} {i : Nat}

theorem of_ctx (h : e.ctx = d.ctx) : RecordKept d e i :=
  ⟨by rw [recOf_congr h], by rw [recOf_congr h], fun j _ => recOf_congr h j⟩

theorem of_rings (h : OnlyRings d e) : RecordKept d e i := by
  obtain ⟨-, -, -, -, ctx, -⟩ := h.keeps
  exact of_ctx ctx

theorem trans (h : RecordKept c d i) (k : RecordKept d e i) : RecordKept c e i := by
  obtain ⟨slot, state, others⟩ := h
  obtain ⟨slot', state', others'⟩ := k
  exact ⟨slot'.trans slot, state'.trans state, fun j other => (others' j other).trans (others j other)⟩

theorem endWaiters (d : Dev) (i st res : Nat) : RecordKept d (endWaiters d i st res) i := by
  have dropped : RecordKept d (dropPending d i) i := by
    unfold RecordKept
    simp only [dropPending, recOf_congr (foldl_dropGroup_ctx _ _), recOf_updRec, if_true]
    exact ⟨trivial, trivial, fun j other => if_neg other⟩
  exact dropped.trans (of_rings (onlyRings_foldl _ (fun d (c : Nat × Nat) => onlyRings_endHeld d c.1 c.2 st res) _ _))

theorem dropRestore (d : Dev) (i : Nat) : RecordKept d (dropRestore d i) i := of_ctx (foldl_dropGroup_ctx _ d)

end RecordKept

/-! ### A record whose key is erased (16 R446) -/

/-- A record that lost its key: its client is told, and its waiting work and its restore end. -/
theorem zeroRecord_eq {d : Dev} {i : Nat} (live : (recOf d i).state ≠ .closed) (unplaced : (recOf d i).slot = none) :
    ∃ e, RecordKept d e i ∧ zeroRecord d i = updRec (if (recOf d i).state = .expired then e else
      fbump (expireRec e i false) Fd.CTX_CNT_expired) i (fun r => { r with key := 0, restoring := false, group := none }) := by
  unfold zeroRecord
  simp only [if_neg live, unplaced]
  refine ⟨_, ?_, rfl⟩
  generalize hp : report d _ = p
  have told : RecordKept d p.1 i := .of_rings (hp ▸ onlyReports_report d _).rings
  refine (told.trans (RecordKept.endWaiters p.1 i stUnitFailed p.2)).trans ?_
  split
  case h_1 x _ =>
    refine ((RecordKept.dropRestore _ i).trans (.of_rings (onlyRings_endStopped _ i stUnitFailed p.2 x.ends))).trans ?_
    split
    · exact .of_rings (onlyRings_finish _ _ _ _ _)
    · exact .of_ctx rfl
  case h_2 => exact .of_ctx rfl

theorem recOf_fbump (d : Dev) (f : Fd) (n b i : Nat) : recOf (fbump d f n b) i = recOf d i := rfl

/-- After it the record is EXPIRED with its key erased, in no slot, and the other records are as they were. -/
theorem zeroRecord_expires {d : Dev} {i : Nat} (live : (recOf d i).state ≠ .closed) (unplaced : (recOf d i).slot = none) :
    (recOf (zeroRecord d i) i).state = .expired ∧ (recOf (zeroRecord d i) i).key = 0 ∧ (recOf (zeroRecord d i) i).slot = none ∧
    ∀ j, j ≠ i → recOf (zeroRecord d i) j = recOf d j := by
  obtain ⟨e, ⟨slot, state, others⟩, run⟩ := zeroRecord_eq live unplaced
  rw [unplaced] at slot
  rw [run]
  split
  case isTrue expired =>
    simp only [recOf_updRec, if_true]
    exact ⟨state.trans expired, trivial, slot, fun j other => (if_neg other).trans (others j other)⟩
  case isFalse =>
    simp only [recOf_updRec, recOf_fbump, recOf_expireRec, recOf_freeObjects, releaseSlot_unplaced slot, if_true]
    exact ⟨trivial, trivial, slot, fun j other => by simp only [if_neg other, others j other]⟩

theorem zeroRecord_closed {d : Dev} {i : Nat} (closed : (recOf d i).state = .closed) : zeroRecord d i = d := if_pos closed

/-- A record that is EXPIRED with its key erased. -/
def Erased (d : Dev) (i : Nat) : Prop := (recOf d i).state = .expired ∧ (recOf d i).key = 0

theorem foldl_zeroRecord_erases (is : List Nat) : ∀ d : Dev, (∀ i, (recOf d i).slot = none) →
    ∀ j, (recOf d j).state ≠ .closed → (j ∈ is ∨ Erased d j) → Erased (is.foldl zeroRecord d) j := by
  induction is with
  | nil => exact fun d _ j _ h => h.resolve_left (List.not_mem_nil)
  | cons i is ih =>
    intro d unplaced j live h
    rw [List.foldl_cons]
    by_cases closed : (recOf d i).state = .closed
    · rw [zeroRecord_closed closed]
      refine ih d unplaced j live (h.imp_left fun hj => (List.mem_cons.1 hj).resolve_left ?_)
      rintro rfl
      exact live closed
    · obtain ⟨state, key, slot, others⟩ := zeroRecord_expires closed (unplaced i)
      have free : ∀ k, (recOf (zeroRecord d i) k).slot = none := fun k => by
        by_cases hk : k = i
        · exact hk ▸ slot
        · rw [others k hk, unplaced k]
      by_cases hj : j = i
      · subst hj
        exact ih _ free j (by rw [state]; exact nofun) (.inr ⟨state, key⟩)
      · rw [Erased, ← others j hj] at h
        rw [← others j hj] at live
        exact ih _ free j live (h.imp_left fun m => (List.mem_cons.1 m).resolve_left hj)

theorem mem_keys_of_look {α : Type} {m : NMap α} {k : Nat} (h : look m k ≠ none) : k ∈ keys m := by
  induction m with
  | nil => exact absurd rfl h
  | cons e m ih =>
    by_cases hk : e.1 = k
    · exact List.mem_cons.2 (.inl hk.symm)
    · exact List.mem_cons_of_mem _ (ih (by rwa [look, if_neg hk] at h))

/-- A record that is not CLOSED is listed. -/
theorem mem_keys_of_live {d : Dev} {i : Nat} (live : (recOf d i).state ≠ .closed) : i ∈ keys d.ctx.recs :=
  mem_keys_of_look fun unlisted => live (by rw [recOf, mget, unlisted]; rfl)

theorem failDevRestore_ctx (d : Dev) (cls unit : Nat) : (failDevRestore d cls unit).ctx = d.ctx := by
  unfold failDevRestore
  split
  · dsimp only
    generalize hp : report _ _ = p
    obtain ⟨-, -, -, -, told, -⟩ := (hp ▸ onlyReports_report _ _ : OnlyReports _ p.1).rings.keeps
    obtain ⟨-, -, -, -, ended, -⟩ := (onlyRings_finish p.1 _ _ stUnitFailed p.2).keeps
    exact ended.trans told
  · rfl

theorem zeroSessions_keeps (d : Dev) : (zeroSessions d).ckp.kept = [] ∧ (zeroSessions d).ckp.openSlate = none ∧
    (zeroSessions d).ctx = ((keys d.ctx.recs).foldl zeroRecord d).ctx := by
  obtain ⟨kept, opened, ctx⟩ := discardAll_keeps (abandonSlate { failDevRestore ((keys d.ctx.recs).foldl zeroRecord d) clsKeys 14 with
    map := { (failDevRestore ((keys d.ctx.recs).foldl zeroRecord d) clsKeys 14).map with inb := [] } } false)
  obtain ⟨none, same⟩ := abandonSlate_keeps { failDevRestore ((keys d.ctx.recs).foldl zeroRecord d) clsKeys 14 with
    map := { (failDevRestore ((keys d.ctx.recs).foldl zeroRecord d) clsKeys 14).map with inb := [] } }
  exact ⟨kept, opened.trans none, ctx.trans (same.trans (failDevRestore_ctx _ _ _))⟩

/-! ### The debug gate (16 R447) -/

/-- The device that the debug gate exposes. -/
def exposed (d : Dev) : Dev :=
  setSys (unguard d Rg.DBG_OBS_EN_A) { (unguard d Rg.DBG_OBS_EN_A).sys with debugExposed := true }

/-- Groups 0 and 1 erased, after the entry into ERROR where the interface was not there yet. -/
def exposedErased (d : Dev) : Dev :=
  if d.hst.tdisp = .error then zeroWeights (zeroSessions (zeroMark d 3)) else enterError d

theorem obsEnable_eq (d : Dev) : obsEnable d =
    { eraseBuffer (raise (exposedErased (exposed d)) Fd.SEC_EVT_debug_enabled) with
      sec := { (raise (exposedErased (exposed d)) Fd.SEC_EVT_debug_enabled).sec with obsPending := true } } := rfl

theorem exposedErased_running {d : Dev} (h : d.hst.tdisp ≠ .error) :
    exposedErased d = zeroWeights (zeroSessions (zeroMark (errorEntry d) 3)) := by
  rw [exposedErased, if_neg h, enterError, if_neg h]

theorem exposedErased_error {d : Dev} (h : d.hst.tdisp = .error) : exposedErased d = zeroWeights (zeroSessions (zeroMark d 3)) :=
  if_pos h

/-- Settles O17: (1) by what `zeroMark` sets; (2) because erasing a record's key expires it and leaves the others, and every record that
is not CLOSED is listed; (3) by the equation of `OBS_ENABLE`. -/
theorem zeroisationAndDebug : Obligations.ZeroisationAndDebug := by
  refine ⟨fun s port => ⟨fun c g zero named one two four eight => ⟨fun stage => ?_, fun early => ?_⟩, fun runs => ?_⟩, fun d => ?_,
    fun s port => ⟨?_, ?_⟩⟩
  · have run := exec_zeroise port named
    obtain ⟨is1, is2, is4, is8⟩ := secZeroise_group stage
    have erase : secZeroise s.dev g = zero (zeroMark (unguard s.dev Rg.SEC_ZEROISE_A) g) ∧ g < 16 := by
      simp only [List.mem_cons, Prod.mk.injEq, List.not_mem_nil, or_false] at named
      rcases named with ⟨-, rfl⟩ | ⟨-, rfl⟩ | ⟨-, rfl⟩ | ⟨-, rfl⟩
      · exact ⟨one rfl ▸ is1, by decide⟩
      · exact ⟨two rfl ▸ is2, by decide⟩
      · exact ⟨four rfl ▸ is4, by decide⟩
      · exact ⟨eight rfl ▸ is8, by decide⟩
    exact ⟨_, exec_to run erase.1, rfl, zeroMark_keeps (d := unguard s.dev Rg.SEC_ZEROISE_A) erase.2⟩
  · exact exec_to (exec_zeroise port named) (secZeroise_early g early)
  · refine ⟨_, exec_zeroiseDone runs, ?_⟩
    simp only [raise_frame, evSet_raise, and_self]
  · obtain ⟨kept, opened, ctx⟩ := zeroSessions_keeps d
    refine ⟨kept, opened, fun unplaced i live => ?_⟩
    rw [recOf_congr ctx]
    exact foldl_zeroRecord_erases _ d unplaced i live (.inl (mem_keys_of_live live))
  · refine ⟨exposed s.dev, raise (exposedErased (exposed s.dev)) Fd.SEC_EVT_debug_enabled, _,
      lift_to (f := fun d => if d.sys.portUp then obsEnable d else d) ((if_pos port).trans (obsEnable_eq s.dev)), rfl,
      fun h => by rw [exposedErased_running (d := exposed s.dev) h], fun h => by rw [exposedErased_error (d := exposed s.dev) h], rfl, rfl, rfl, ?_⟩
    exact evSet_raise (exposedErased (exposed s.dev)) Fd.SEC_EVT_debug_enabled
  · exact ⟨_, lift_to (f := fun d => if d.sys.portUp then obsDisable d else d) (if_pos port), rfl, rfl, rfl, rfl, rfl, rfl, rfl⟩

end Sys2Proof.Machine
end

section
/-!
PROOFS. SPDM requests (02 R42; 16 R431 to R437) and the leaves of the attestation key (16 R429).
-/

namespace Sys2Proof.Machine

/-! ### Requests (16 R434, R435) -/

theorem spdm_answered {d : Dev} (port : d.sys.portUp = true) (runs : unitInReset d 6 = false) (f : Dev → Dev) : spdm d f = f d := by
  simp [spdm, port, runs]

/-- While the security unit is in reset, what is asked for does not matter. -/
theorem spdm_inReset {d : Dev} (port : d.sys.portUp = true) (reset : unitInReset d 6 = true) (f : Dev → Dev) :
    spdm d f = spdmError { d with fresh := d.fresh + 1 } 0xFF (fields [(0x60, 1), (Config.free d.fresh % 2 ^ 16, 2)]) := by
  simp only [spdm, port, reset, freshBelow, Bool.not_true, Bool.false_eq_true, if_false, if_true]

section Requests

variable {s : State}

theorem exec_spdm {nonce key : BitVec 256} {stmt : List Byte} {i slot link : Nat} {c : Instr}
    (h : c ∈ [Instr.getReport nonce, .getKeyCerts, .getMeasurements i, .getCertificate slot, .challenge nonce, .keyExchange key,
      .ideKmKeyProg link, .setIdStatement stmt]) : ∃ f, exec c s = lift (fun d => spdm d f) s := by
  simp only [List.mem_cons, List.not_mem_nil, or_false] at h
  rcases h with rfl | rfl | rfl | rfl | rfl | rfl | rfl | rfl <;> exact ⟨_, rfl⟩

theorem exec_spdm_inReset (port : s.dev.sys.portUp = true) (reset : unitInReset s.dev 6 = true) {c : Instr}
    (h : ∃ f, exec c s = lift (fun d => spdm d f) s) : exec c s = .next (s.settled (spdmError { s.dev with fresh := s.dev.fresh + 1 } 0xFF
      (fields [(0x60, 1), (Config.free s.dev.fresh % 2 ^ 16, 2)]))) := by
  obtain ⟨f, run⟩ := h
  exact run.trans (lift_to (spdm_inReset port reset f))

variable (port : s.dev.sys.portUp = true) (runs : unitInReset s.dev 6 = false)
include port runs

theorem lift_spdm {f : Dev → Dev} {e : Dev} (h : f s.dev = e) : lift (fun d => spdm d f) s = .next (s.settled e) :=
  lift_to ((spdm_answered port runs f).trans h)

/-- A session key exchange: the session is up before its answer is signed. -/
theorem exec_keyExchange (key : BitVec 256) : exec (.keyExchange key) s = .next (s.settled (spdmSigned
    { s.dev with sec := { s.dev.sec with session := true }, fresh := s.dev.fresh + 1 } 0x64
    (exactly 1568 (Config.layout 0x64 s.dev.fresh [key.toNat])))) := lift_spdm port runs rfl

theorem exec_ideKmKeyProg (link : Nat) : exec (.ideKmKeyProg link) s = .next (s.settled (
    if !s.dev.sec.session ∨ 2 ≤ link then s.dev
    else relink { s.dev with sec := { s.dev.sec with ideLinks := put s.dev.sec.ideLinks link true } })) := lift_spdm port runs rfl

theorem exec_setIdStatement (stmt : List Byte) : exec (.setIdStatement stmt) s = .next (s.settled (spdmSend
    (if statementOk s.dev stmt then { s.dev with sec := { s.dev.sec with stmtLoaded := true, statement := stmt } }
      else raise s.dev Fd.SEC_EVT_stmt_rejected) 0x7E [])) := lift_spdm port runs rfl

theorem exec_getMeasurements_one {i : Nat} (one : i ≠ 0xFF) {b : List Byte} (h : measurement s.dev i = some b) :
    exec (.getMeasurements i) s = .next (s.settled (spdmSigned s.dev 0x60 b)) :=
  lift_spdm port runs (by simp [one, h])

theorem exec_getMeasurements_none {i : Nat} (one : i ≠ 0xFF) (h : measurement s.dev i = none) :
    exec (.getMeasurements i) s = .next (s.settled (spdmError s.dev 1 [])) :=
  lift_spdm port runs (by simp [one, h])

theorem exec_getMeasurements_all : exec (.getMeasurements 0xFF) s = .next (s.settled (spdmSigned s.dev 0x60
    ([1, 2, 3, 4, 5, 6, 7, 0xF0].flatMap (fun i => (measurement s.dev i).getD [])))) := lift_spdm port runs (by simp [measurement])

theorem exec_challenge (nonce : BitVec 256) : exec (.challenge nonce) s = .next (s.settled (spdmSend
    (attSign s.dev (b256 nonce ++ certSlot s.dev)).2 0x03 (attSign s.dev (b256 nonce ++ certSlot s.dev)).1)) := by
  refine lift_spdm port runs ?_
  dsimp only

end Requests

theorem length_exactly (n : Nat) (bs : List Byte) : (exactly n bs).length = n := by
  simp only [exactly, padTo, List.length_take, List.length_append, List.length_replicate]
  omega

/-! ### Keys of a link (02 R42) -/

/-- IDE is active once every link that is up has its keys, and one is up. -/
theorem relink_ideActive (d : Dev) : (relink d).hst.ideActive =
    ((List.range 2).any (linkUp (relink d)) && (List.range 2).all (fun l => !linkUp (relink d) l || mget (relink d).sec.ideLinks false l)) := by
  change (!((List.range 2).filter (linkUp (relink d))).isEmpty && ((List.range 2).filter (linkUp (relink d))).all (mget d.sec.ideLinks false))
    = _
  have some_up : (!((List.range 2).filter (linkUp (relink d))).isEmpty) = (List.range 2).any (linkUp (relink d)) := by
    rw [Bool.eq_iff_iff]
    simp
  rw [List.all_filter, some_up]
  rfl

/-! ### Leaves of the attestation key (16 R429) -/

theorem zero_ne_leaves : 0 ≠ leaves := by decide

/-- The attestation key of the successor, of which no leaf is used. -/
def rolled (d : Dev) (k : BitVec 256) (c : List Byte) : Dev :=
  raise { d with sec := { d.sec with attKey := k, attCert := c, attUsed := 0, attSucc := d.sec.attSucc + 1, attNext := none } }
    Fd.SEC_EVT_att_key_rolled

/-- A leaf is used; with 1,024 leaves left a successor is formed. -/
theorem attSign_leaf {d : Dev} (msg : List Byte) (left : d.sec.attUsed ≠ leaves) :
    (attSign d msg).1 = exactly 4963 (Config.xmssSign d.sec.attKey.toNat d.sec.attUsed msg) ∧
    (attSign d msg).2.sec.attUsed = d.sec.attUsed + 1 ∧ (attSign d msg).2.sec.attKey = d.sec.attKey ∧
    (attSign d msg).2.sec.attCert = d.sec.attCert ∧ (attSign d msg).2.sec.attSucc = d.sec.attSucc ∧
    (d.sec.attUsed + 1 + 1024 = leaves → (attSign d msg).2.sec.attNext.isSome = true) := by
  simp only [attSign, if_neg left]
  split
  · exact ⟨rfl, rfl, rfl, rfl, rfl, fun _ => rfl⟩
  case isFalse early => exact ⟨rfl, rfl, rfl, rfl, rfl, fun h => absurd h early⟩

/-- After the last leaf the successor signs as a key of which no leaf is used. -/
theorem attSign_last {d : Dev} (msg : List Byte) (last : d.sec.attUsed = leaves) {k : BitVec 256} {c : List Byte}
    (next : d.sec.attNext = some (k, c)) : attSign d msg = attSign (rolled d k c) msg := by
  have fresh : (rolled d k c).sec.attUsed ≠ leaves := by
    simp only [rolled, raise_frame]
    exact zero_ne_leaves
  rw [attSign, attSign, if_pos last, next, if_neg fresh]
  rfl

theorem rolled_sec (d : Dev) (k : BitVec 256) (c : List Byte) : (rolled d k c).sec =
    { d.sec with attKey := k, attCert := c, attUsed := 0, attSucc := d.sec.attSucc + 1, attNext := none } := by
  simp only [rolled, raise_frame]

/-- Settles O18: (1) the answer to each request, or the ERROR to all; (2) `attSign` takes the leaf of the key in use, which after the last
leaf is the successor. -/
theorem spdmAndSigningLeaves : Obligations.SpdmAndSigningLeaves := by
  refine ⟨fun s stmt nonce key port => ⟨fun runs => ?_, fun reset i slot link c hc =>
    ⟨_, Nat.mod_lt _ (by decide), exec_spdm_inReset port reset (exec_spdm hc)⟩⟩, fun d msg => ⟨fun left => ?_, fun k c last next => ?_⟩⟩
  · refine ⟨lift_spdm port runs rfl, lift_spdm port runs rfl, fun i b h one => exec_getMeasurements_one port runs one h,
      fun i h one => exec_getMeasurements_none port runs one h, exec_getMeasurements_all port runs, lift_spdm port runs rfl,
      fun slot other => lift_spdm port runs (if_neg other), exec_challenge port runs nonce,
      ⟨_, _, exec_keyExchange port runs key, length_exactly 1568 _, rfl, rfl, rfl⟩,
      fun link => ⟨fun hl up => ?_, fun refuse => ?_⟩, ⟨_, exec_setIdStatement port runs stmt, fun ok => if_pos ok, fun bad => ?_⟩⟩
    · have taken : ¬ ((!s.dev.sec.session) = true ∨ 2 ≤ link) := by simp [up, hl]
      exact ⟨_, exec_to (exec_ideKmKeyProg port runs link) (if_neg taken), rfl, relink_ideActive _, rfl, rfl⟩
    · exact exec_to (exec_ideKmKeyProg port runs link) (if_pos (refuse.symm.imp_left fun h => by simp [h]))
    · exact if_neg (by simp [bad])
  · obtain ⟨signed, used, same, -, -, formed⟩ := attSign_leaf msg left.ne
    exact ⟨signed, used, same, formed⟩
  · have fresh : (rolled d k c).sec.attUsed ≠ leaves := by rw [rolled_sec]; exact zero_ne_leaves
    have sign := attSign_leaf msg fresh
    rw [rolled_sec, ← attSign_last msg last next] at sign
    obtain ⟨signed, used, key, cert, succ, -⟩ := sign
    exact ⟨signed, used, key, cert, succ⟩

end Sys2Proof.Machine
end

section
/-!
PROOFS. The throttle rule, the envelope's minute boundary, rail samples, supply notices and the meter feed (14 R408; 17 R458 to R465).
-/

namespace Sys2Proof.Machine

/-! ### The throttle rule (17 R464) -/

section Throttle

variable {l m c before : Nat} {new : Bool}

theorem throttleRule_above (above : c < m) : throttleRule l m c before new =
    if new ∧ c < before then min 14 (l + ceilDiv (16 * (m - c)) m) else min 14 (l + 1) := by
  simp only [throttleRule, above, and_true, if_true]

theorem throttleRule_within (within : m ≤ c) : throttleRule l m c before new = if m * 100 < 97 * c then l - 1 else l := by
  have notAbove : ¬ c < m := Nat.not_lt.2 within
  simp only [throttleRule, notAbove, and_false, if_false]
  by_cases low : m * 100 < 97 * c
  · by_cases zero : 0 < l
    · simp [low, zero]
    · simp [low, Nat.eq_zero_of_not_pos zero]
  · simp [low]

theorem throttleRule_bounds (hl : l ≤ 14) : throttleRule l m c before new ≤ 14 ∧ (c < m → l ≤ throttleRule l m c before new) ∧
    (c < m → (new = false ∨ before ≤ c) → throttleRule l m c before new = min 14 (l + 1)) ∧
    (m * 100 < 97 * c → throttleRule l m c before new = l - 1) ∧
    (m ≤ c → 97 * c ≤ m * 100 → throttleRule l m c before new = l) := by
  refine ⟨?_, fun above => ?_, fun above same => ?_, fun low => ?_, fun within high => ?_⟩
  · rcases Nat.lt_or_ge c m with above | within
    · rw [throttleRule_above above]
      split <;> exact Nat.min_le_left _ _
    · rw [throttleRule_within within]
      split <;> omega
  · rw [throttleRule_above above]
    split <;> omega
  · rw [throttleRule_above above, if_neg]
    rintro ⟨isNew, drop⟩
    rcases same with old | same
    · exact Bool.false_ne_true (old.symm.trans isNew)
    · omega
  · rw [throttleRule_within (by omega), if_pos low]
  · rw [throttleRule_within within, if_neg (Nat.not_lt.2 high)]

end Throttle

/-! ### A minute boundary of the envelope (17 R462) -/

/-- Device `e` differs from `d` in registers and in the envelope's minute and the cap before it. -/
def OnlyEnvelope (d e : Dev) : Prop :=
  e = { d with regs := e.regs, mtr := { d.mtr with capBefore := e.mtr.capBefore, envMinute := e.mtr.envMinute } }

theorem OnlyEnvelope.trans {c d e : Dev} (h : OnlyEnvelope c d) (k : OnlyEnvelope d e) : OnlyEnvelope c e := by
  unfold OnlyEnvelope at *
  rw [k, h]

theorem OnlyEnvelope.keeps {d e : Dev} (h : OnlyEnvelope d e) : e.mtr.throttle = d.mtr.throttle ∧ e.mtr.warning = d.mtr.warning ∧
    e.sys = d.sys ∧ e.ctx = d.ctx ∧ e.seq = d.seq ∧ e.tc = d.tc := by
  unfold OnlyEnvelope at h
  rw [h]
  exact ⟨rfl, rfl, rfl, rfl, rfl, rfl⟩

/-- A valid entry of a minute before that of the entry in force is cleared. -/
def clearEarlier (mi : Nat) (d : Dev) (e : Nat) : Dev :=
  if fbit d Fd.MTR_ENV_ENT_valid e ∧ fget d Fd.MTR_ENV_ENT_minute e < mi then fset d Fd.MTR_ENV_ENT_valid 0 e else d

/-- The minute that ended gives its cap. -/
def minuteEnded (d : Dev) : Dev := setMtr d { d.mtr with capBefore := capOf d (minuteOf d - 1), envMinute := minuteOf d }

theorem envEntry_congr {d e : Dev} (h : d.regs = e.regs) (m : Nat) : envEntry d m = envEntry e m := by
  simp only [envEntry, fget_congr h, fbit_congr h]

theorem envMinute_due {d : Dev} (due : minuteDue d = true) : envMinute d = (envEntry d (minuteOf d)).elim (minuteEnded d)
    (fun i => (List.range 64).foldl (clearEarlier (fget d Fd.MTR_ENV_ENT_minute i)) (minuteEnded d)) := by
  have same : envEntry (minuteEnded d) (minuteOf d) = envEntry d (minuteOf d) := envEntry_congr rfl _
  unfold envMinute
  rw [if_neg (by simp [due]), ← same]
  unfold minuteEnded
  dsimp only
  split
  case h_1 none => rw [none, Option.elim_none]
  case h_2 i found => rw [found, Option.elim_some]; rfl

theorem envMinute_early {d : Dev} (early : minuteDue d = false) : envMinute d = d := if_pos (by simp [early])

theorem minuteDue_iff {d : Dev} : minuteDue d = true ↔ mtrServes d = true ∧ minuteOf d ≠ d.mtr.envMinute := by simp [minuteDue]

theorem clearEarlier_fields (mi : Nat) (d : Dev) (a e : Nat) :
    fget (clearEarlier mi d a) Fd.MTR_ENV_ENT_minute e = fget d Fd.MTR_ENV_ENT_minute e ∧
    fbit (clearEarlier mi d a) Fd.MTR_ENV_ENT_valid e =
      (fbit d Fd.MTR_ENV_ENT_valid e && !decide (e = a ∧ fget d Fd.MTR_ENV_ENT_minute e < mi)) := by
  unfold clearEarlier
  by_cases he : e = a
  · subst he
    split
    case isTrue h =>
      refine ⟨fget_fset_apart (f := Fd.MTR_ENV_ENT_valid) (g := Fd.MTR_ENV_ENT_minute) _ _ _ (by decide) rfl (by decide), ?_⟩
      rw [fbit_fset_zero _ _ (by decide) (by decide)]
      simp [h.2]
    case isFalse h =>
      refine ⟨rfl, ?_⟩
      by_cases valid : fbit d Fd.MTR_ENV_ENT_valid e = true
      · simp [valid, (not_and.1 h valid)]
      · simp [Bool.eq_false_of_not_eq_true valid]
  · have apart : regKey Rg.MTR_ENV_ENT e ≠ regKey Rg.MTR_ENV_ENT a := fun h => he (Nat.add_left_cancel h)
    have field : ∀ g : Fd, g.off = Rg.MTR_ENV_ENT → fget (fset d Fd.MTR_ENV_ENT_valid 0 a) g e = fget d g e :=
      fun g hg => fget_fset_elsewhere d 0 (hg ▸ apart)
    split <;> simp [he, fbit, field Fd.MTR_ENV_ENT_valid rfl, field Fd.MTR_ENV_ENT_minute rfl]

theorem foldl_clearEarlier (mi : Nat) (es : List Nat) : ∀ d : Dev, ∀ e,
    fget (es.foldl (clearEarlier mi) d) Fd.MTR_ENV_ENT_minute e = fget d Fd.MTR_ENV_ENT_minute e ∧
    fbit (es.foldl (clearEarlier mi) d) Fd.MTR_ENV_ENT_valid e =
      (fbit d Fd.MTR_ENV_ENT_valid e && !decide (e ∈ es ∧ fget d Fd.MTR_ENV_ENT_minute e < mi)) := by
  induction es with
  | nil => intro d e; simp
  | cons a es ih =>
    intro d e
    obtain ⟨minute, valid⟩ := ih (clearEarlier mi d a) e
    obtain ⟨one, cleared⟩ := clearEarlier_fields mi d a e
    refine ⟨minute.trans one, valid.trans ?_⟩
    rw [one, cleared, Bool.and_assoc]
    congr 1
    rw [Bool.eq_iff_iff]
    simp only [List.mem_cons, Bool.and_eq_true, Bool.not_eq_true', decide_eq_false_iff_not]
    tauto

theorem onlyEnvelope_foldl_clearEarlier (mi : Nat) (es : List Nat) : ∀ d : Dev,
    es.foldl (clearEarlier mi) d = { d with regs := (es.foldl (clearEarlier mi) d).regs } := by
  induction es with
  | nil => intro d; rfl
  | cons a es ih =>
    intro d
    have one : clearEarlier mi d a = { d with regs := (clearEarlier mi d a).regs } := by unfold clearEarlier; split <;> rfl
    rw [List.foldl_cons, ih, one]

/-- At a minute boundary: the cap that ended is kept, and the valid entries before that in force are cleared. -/
theorem envMinute_boundary {d : Dev} (due : minuteDue d = true) :
    envMinute d = { d with
      regs := (envMinute d).regs
      mtr := { d.mtr with capBefore := capOf d (minuteOf d - 1), envMinute := minuteOf d } } ∧
    ∀ e, e < 64 → fbit (envMinute d) Fd.MTR_ENV_ENT_valid e = (fbit d Fd.MTR_ENV_ENT_valid e && !(envEntry d (minuteOf d)).any (fun i =>
      decide (fget d Fd.MTR_ENV_ENT_minute e < fget d Fd.MTR_ENV_ENT_minute i))) := by
  rw [envMinute_due due]
  cases envEntry d (minuteOf d) with
  | none => exact ⟨rfl, fun e _ => by simp only [Option.elim_none, Option.any_none, Bool.not_false, Bool.and_true]; rfl⟩
  | some i =>
    refine ⟨onlyEnvelope_foldl_clearEarlier _ _ _, fun e he => ?_⟩
    obtain ⟨-, valid⟩ := foldl_clearEarlier (fget d Fd.MTR_ENV_ENT_minute i) (List.range 64) (minuteEnded d) e
    refine valid.trans ?_
    simp only [List.mem_range, he, true_and, Option.any_some]
    rfl

theorem onlyEnvelope_envMinute (d : Dev) : OnlyEnvelope d (envMinute d) := by
  by_cases due : minuteDue d = true
  · obtain ⟨h, -⟩ := envMinute_boundary due
    unfold OnlyEnvelope
    generalize envMinute d = e at h ⊢
    rw [h]
  · rw [envMinute_early (by simpa using due)]
    rfl

theorem exec_envelopeMinuteBoundary (s : State) : exec .envelopeMinuteBoundary s = .next (s.settled (envMinute s.dev)) := rfl

end Sys2Proof.Machine
end

section
/-!
PROOFS. Throttle steps, rail samples, supply notices and the meter feed (14 R408; 17 R458 to R465).
-/

namespace Sys2Proof.Machine

/-! ### A throttle step (17 R464) -/

/-- The level that a throttle step sets. -/
def stepLevel (x : Dev) (w : Nat) : Nat :=
  if x.mtr.warning ∨ x.sys.alert then 14
  else throttleRule x.mtr.throttle w (capNow x) x.mtr.capBefore (frame x % 60000 == 0)

/-- The steps in a row at level 14 with the mean above the cap. -/
def hotSteps (x : Dev) (w : Nat) : Nat := if capNow x < w ∧ stepLevel x w = 14 then x.mtr.overSteps + 1 else 0

/-- Is the cap not met? -/
def capUnmet (x : Dev) (w : Nat) : Bool := if w ≤ capNow x then false else x.mtr.unmet || decide (16 ≤ hotSteps x w)

def throttled (x : Dev) (w : Nat) : Dev :=
  setMtr x { x.mtr with throttle := stepLevel x w, stepAt := some (frame x), overSteps := hotSteps x w, unmet := capUnmet x w }

section Step

variable {s : State} {w : Nat}

theorem exec_throttleStep_elsewhere (h : mtrServes s.dev = false ∨ frame s.dev % 4 ≠ 0 ∨ s.dev.mtr.stepAt = some (frame s.dev)) :
    exec (.throttleStep w) s = .next (s.settled s.dev) := by
  have off : (!mtrServes s.dev) = true ∨ frame s.dev % 4 ≠ 0 ∨ s.dev.mtr.stepAt = some (frame s.dev) := h.imp_left fun h => by simp [h]
  change execThrottleStep w s = _
  refine lift_to ?_
  exact if_pos off

theorem exec_throttleStep_due (serves : mtrServes s.dev = true) (fourth : frame s.dev % 4 = 0) (once : s.dev.mtr.stepAt ≠ some (frame s.dev)) :
    ∃ d, exec (.throttleStep w) s = .next (s.settled d) ∧
      (d = raise (throttled (envMinute s.dev) w) Fd.MTR_EVT_env_unmet ∨ d = throttled (envMinute s.dev) w) := by
  have on : ¬ ((!mtrServes s.dev) = true ∨ frame s.dev % 4 ≠ 0 ∨ s.dev.mtr.stepAt = some (frame s.dev)) := by
    simp [serves, fourth, once]
  refine ⟨_, ?_, ite_eq_or_eq (capUnmet (envMinute s.dev) w = true ∧ (!(envMinute s.dev).mtr.unmet) = true) _ _⟩
  change execThrottleStep w s = _
  refine lift_to ?_
  exact (if_neg on).trans rfl

end Step

theorem stepLevel_envMinute (d : Dev) (w : Nat) : stepLevel (envMinute d) w = if d.mtr.warning = true ∨ d.sys.alert = true then 14
    else throttleRule d.mtr.throttle w (capNow (envMinute d)) (envMinute d).mtr.capBefore (frame d % 60000 == 0) := by
  obtain ⟨throttle, warning, sys, -, -, tc⟩ := (onlyEnvelope_envMinute d).keeps
  rw [stepLevel, throttle, warning, sys, frame_congr tc]

/-- What both ends of a step leave. -/
theorem throttled_keeps {d x : Dev} {w : Nat} (h : d = raise (throttled x w) Fd.MTR_EVT_env_unmet ∨ d = throttled x w) :
    d.mtr.stepAt = some (frame x) ∧ d.mtr.throttle = stepLevel x w ∧ d.ctx = x.ctx ∧ d.seq = x.seq ∧ d.regs = x.regs := by
  rcases h with rfl | rfl
  · simp only [raise_frame]
    exact ⟨rfl, rfl, rfl, rfl, rfl⟩
  · exact ⟨rfl, rfl, rfl, rfl, rfl⟩

/-! ### Rail samples (17 R465) -/

/-- The first sample of a frame settles the frame before it. -/
def sampleFrame (d : Dev) : Mtr :=
  if d.mtr.smpFrame = frame d then d.mtr
  else { d.mtr with
    frameMean := quot d.mtr.smpSum (max 1 d.mtr.smpCount), framePeak := d.mtr.smpPeak, smpFrame := frame d, smpCount := 0,
    smpSum := 0, smpPeak := 0 }

/-- The samples in a row above 650 W, with this one. -/
def hotSamples (d : Dev) (w : Nat) : Nat := if 650 < w then (sampleFrame d).over650 + 1 else 0

/-- The sample counted. -/
def sampled (d : Dev) (w : Nat) : Mtr := { sampleFrame d with
  smpCount := (sampleFrame d).smpCount + 1, smpSum := (sampleFrame d).smpSum + w, smpPeak := max (sampleFrame d).smpPeak w,
  over650 := if hotSamples d w = 10 then 0 else hotSamples d w }

theorem sampleFrame_keeps (d : Dev) : (sampleFrame d).over650 = d.mtr.over650 ∧ (sampleFrame d).throttle = d.mtr.throttle := by
  unfold sampleFrame
  split <;> exact ⟨rfl, rfl⟩

theorem hotSamples_eq (d : Dev) (w : Nat) : hotSamples d w = if 650 < w then d.mtr.over650 + 1 else 0 := by
  rw [hotSamples, (sampleFrame_keeps d).1]

theorem exec_railSample {s : State} (w : Nat) (serves : mtrServes s.dev = true) : exec (.railSample w) s = .next (s.settled (
    if hotSamples s.dev w = 10 then raise (setMtr s.dev { sampled s.dev w with throttle := 14 }) Fd.MTR_EVT_fast_limit
    else setMtr s.dev (sampled s.dev w))) := by
  have on : ¬ (!mtrServes s.dev) = true := by simp [serves]
  change execRailSample w s = _
  refine lift_to ?_
  exact (if_neg on).trans rfl

/-! ### Supply notices (14 R408; 17 R460, R461) -/

/-- A notice that an event of a class is in progress. -/
def noticed (d : Dev) (cls : Nat) : Dev :=
  setMtr d { d.mtr with feedAt := up d, lost := false, active := supplyActive d.mtr.active cls }

/-- With the event and the counter where the event is new. -/
def eventBegun (d : Dev) (cls : Nat) : Dev :=
  if d.mtr.active.contains cls then noticed d cls else supplyStart (noticed d cls) cls

section Notice

variable {s : State} {w cls : Nat}

theorem exec_meterNotice_ignored (b : Bool) (h : mtrServes s.dev = false ∨ cls = 0 ∨ 3 < cls) :
    exec (.meterNotice cls b w) s = .next (s.settled s.dev) := by
  have off : (!mtrServes s.dev) = true ∨ cls = 0 ∨ 3 < cls := h.imp_left fun h => by simp [h]
  change execMeterNotice cls b w s = _
  refine lift_to ?_
  exact if_pos off

variable (serves : mtrServes s.dev = true) (lo : 1 ≤ cls) (hi : cls ≤ 3)
include serves lo hi

theorem not_ignored : ¬ ((!mtrServes s.dev) = true ∨ cls = 0 ∨ 3 < cls) := by
  rw [serves]
  rintro (h | h | h)
  · exact absurd h (by decide)
  · omega
  · omega

theorem exec_meterNotice_start : exec (.meterNotice cls true w) s = .next (s.settled (
    if warns (eventBegun s.dev cls) cls w then supplyWarn (eventBegun s.dev cls) else eventBegun s.dev cls)) := by
  change execMeterNotice cls true w s = _
  refine lift_to ?_
  exact (if_neg (not_ignored serves lo hi)).trans rfl

theorem exec_meterNotice_end : exec (.meterNotice cls false w) s = .next (s.settled (setMtr s.dev { s.dev.mtr with
    feedAt := up s.dev, lost := false, active := s.dev.mtr.active.filter (fun c => c != cls)
    quietFrom := if s.dev.mtr.active.filter (fun c => c != cls) = [] ∧ s.dev.mtr.active ≠ [] then up s.dev else s.dev.mtr.quietFrom })) := by
  change execMeterNotice cls false w s = _
  refine lift_to ?_
  exact (if_neg (not_ignored serves lo hi)).trans rfl

end Notice

/-- Counting and recording an event changes neither the meter's side nor other registers. -/
theorem raise_fbump_keeps (d : Dev) (cnt ev : Fd) : (raise (fbump d cnt) ev).mtr = d.mtr ∧ (raise (fbump d cnt) ev).ctx = d.ctx ∧
    (raise (fbump d cnt) ev).ckp = d.ckp ∧ ∀ g : Fd, regKey g.off 0 ≠ regKey cnt.off 0 → fget (raise (fbump d cnt) ev) g = fget d g := by
  have regs : (raise (fbump d cnt) ev).regs = (fbump d cnt).regs := by simp only [raise_frame]
  simp only [raise_frame]
  exact ⟨rfl, rfl, rfl, fun g hg => (fget_congr regs g 0).trans (fget_fset_elsewhere d _ hg)⟩

/-- The registers that the supply rules read. -/
def SupplyRegs (g : Fd) : Prop := g.off = Fd.MTR_SUPPLY_CFG_sag_cycles.off ∨ g.off = Fd.CKP_CTL_enable.off

theorem supplyStart_keeps (d : Dev) (cls : Nat) : (supplyStart d cls).mtr = d.mtr ∧ (supplyStart d cls).ctx = d.ctx ∧
    (supplyStart d cls).ckp = d.ckp ∧ ∀ g : Fd, SupplyRegs g → fget (supplyStart d cls) g = fget d g := by
  have apart : ∀ cnt ∈ [Fd.MTR_CNT_sags, Fd.MTR_CNT_swells, Fd.MTR_CNT_interruptions], ∀ g : Fd, SupplyRegs g →
      regKey g.off 0 ≠ regKey cnt.off 0 := by
    rintro cnt hc g (h | h) <;> rw [h] <;> revert cnt <;> decide
  have counted : ∀ cnt ∈ [Fd.MTR_CNT_sags, Fd.MTR_CNT_swells, Fd.MTR_CNT_interruptions], ∀ ev, (raise (fbump d cnt) ev).mtr = d.mtr ∧
      (raise (fbump d cnt) ev).ctx = d.ctx ∧ (raise (fbump d cnt) ev).ckp = d.ckp ∧
      ∀ g : Fd, SupplyRegs g → fget (raise (fbump d cnt) ev) g = fget d g := fun cnt hc ev => by
    obtain ⟨mtr, ctx, ckp, regs⟩ := raise_fbump_keeps d cnt ev
    exact ⟨mtr, ctx, ckp, fun g hg => regs g (apart cnt hc g hg)⟩
  unfold supplyStart
  split
  · exact counted _ (by simp) _
  · exact counted _ (by simp) _
  · exact counted _ (by simp) _
  · exact ⟨rfl, rfl, rfl, fun _ _ => rfl⟩

theorem eventBegun_keeps (d : Dev) (cls : Nat) : (eventBegun d cls).mtr = (noticed d cls).mtr ∧ (eventBegun d cls).ctx = d.ctx ∧
    (eventBegun d cls).ckp = d.ckp ∧ ∀ g : Fd, SupplyRegs g → fget (eventBegun d cls) g = fget d g := by
  unfold eventBegun
  split
  · exact ⟨rfl, rfl, rfl, fun _ _ => rfl⟩
  · obtain ⟨mtr, ctx, ckp, regs⟩ := supplyStart_keeps (noticed d cls) cls
    exact ⟨mtr, ctx, ckp, regs⟩

theorem warns_eventBegun (d : Dev) (cls n : Nat) : warns (eventBegun d cls) cls n = warns d cls n := by
  obtain ⟨-, -, -, regs⟩ := eventBegun_keeps d cls
  simp only [warns, fbit, regs Fd.MTR_SUPPLY_CFG_sag_cycles (.inl rfl), regs Fd.MTR_SUPPLY_CFG_warn_on_swell (.inl rfl)]

theorem emergencySlate_keeps (d : Dev) : (emergencySlate d).mtr = d.mtr ∧ (emergencySlate d).ctx = d.ctx ∧
    (∀ ev, evSet d ev = true → evSet (emergencySlate d) ev = true) ∧
    (fbit d Fd.CKP_CTL_enable = true → (emergencySlate d).ckp.emergency = true) := by
  unfold emergencySlate
  split
  case isTrue h =>
    refine ⟨rfl, rfl, fun _ h => h, fun on => ?_⟩
    simpa [on] using h
  case isFalse => simp only [raise_frame, implies_true, and_true, true_and]; exact fun ev h => evSet_raise_kept _ h

/-- The device that a supply warning leaves, before it asks for an emergency slate. -/
def warned (d : Dev) : Dev :=
  fbump (raise (setMtr d { d.mtr with warning := true, throttle := 14 }) Fd.MTR_EVT_supply_warning) Fd.MTR_CNT_warnings

theorem warned_keeps (d : Dev) : (warned d).mtr = { d.mtr with warning := true, throttle := 14 } ∧ (warned d).ctx = d.ctx ∧
    evSet (warned d) Fd.MTR_EVT_supply_warning = true ∧ fbit (warned d) Fd.CKP_CTL_enable = fbit d Fd.CKP_CTL_enable := by
  have field : fget (warned d) Fd.CKP_CTL_enable = fget (raise (setMtr d { d.mtr with warning := true, throttle := 14 })
      Fd.MTR_EVT_supply_warning) Fd.CKP_CTL_enable := fget_fset_elsewhere _ _ (by decide)
  have regs : (raise (setMtr d { d.mtr with warning := true, throttle := 14 }) Fd.MTR_EVT_supply_warning).regs = d.regs := by
    simp only [raise_frame]; rfl
  refine ⟨?_, ?_, evSet_fbump_raise _ _ _ _ _, by rw [fbit, field, fget_congr regs, fbit]⟩
  · simp only [warned, fbump_frame, raise_frame, setMtr_mtr]
  · simp only [warned, fbump_frame, raise_frame, setMtr_frame]

theorem supplyWarn_again {d : Dev} (h : d.mtr.warning = true) : supplyWarn d = d := if_pos h

theorem supplyWarn_first {d : Dev} (h : d.mtr.warning = false) : supplyWarn d = emergencySlate (warned d) := if_neg (by simp [h])

/-! ### The feed (17 R458, R459) -/

/-- A record of the feed is noted; one of a minute with its energy. -/
def recordNoted (d : Dev) (r : List Byte) (l : Nat) : Dev :=
  if leAt r 6 1 = 1 then
    { setMtr d { d.mtr with feedAt := up d, lost := false, recMin := l % 2 ^ 32, recSeq := leAt r 24 4, recE := leAt r 48 8 } with
      seq := { d.seq with minuteE := put d.seq.minuteE l (leAt r 48 8) } }
  else setMtr d { d.mtr with feedAt := up d, lost := false }

theorem takeRecord_eq (d : Dev) (r : List Byte) (l : Nat) : takeRecord d r l = logRing (recordNoted d r l) r l := by
  unfold takeRecord recordNoted
  split <;> rfl

/-- What is noted of any record, and of one of a minute. -/
theorem recordNoted_keeps (d : Dev) (r : List Byte) (l : Nat) : (recordNoted d r l).mtr.feedAt = up d ∧
    (recordNoted d r l).meter = d.meter ∧ (recordNoted d r l).mtr.lost = false ∧ (recordNoted d r l).regs = d.regs ∧
    (recordNoted d r l).ctx = d.ctx ∧ (leAt r 6 1 ≠ 1 → (recordNoted d r l).seq = d.seq) ∧
    (leAt r 6 1 = 1 → (recordNoted d r l).seq = { d.seq with minuteE := put d.seq.minuteE l (leAt r 48 8) } ∧
      (recordNoted d r l).mtr.recSeq = leAt r 24 4 ∧ (recordNoted d r l).mtr.recMin = l % 2 ^ 32) := by
  unfold recordNoted
  split
  case isTrue minute => exact ⟨rfl, rfl, rfl, rfl, rfl, fun other => absurd minute other, fun _ => ⟨rfl, rfl, rfl⟩⟩
  case isFalse other => exact ⟨rfl, rfl, rfl, rfl, rfl, fun _ => rfl, fun minute => absurd minute other⟩

section Feed

variable {s : State} {r : List Byte}

theorem exec_meterRecordReceived_other (h : s.dev.meter.feed = [] ∨ ∃ x m rest, s.dev.meter.feed = (x, m) :: rest ∧ x ≠ r) :
    exec (.meterRecordReceived r) s = .next (s.settled s.dev) := by
  change execMeterRecordReceived r s = _
  refine lift_to ?_
  rcases h with none | ⟨x, m, rest, feed, other⟩
  · simp only [none]
  · simp only [feed, ne_eq, other, not_false_eq_true, if_true]

theorem exec_meterRecordReceived_first {m : Option Nat} {rest : List (List Byte × Option Nat)} (feed : s.dev.meter.feed = (r, m) :: rest) :
    exec (.meterRecordReceived r) s = .next (s.settled (if mtrServes s.dev then
      takeRecord (setMeter s.dev { s.dev.meter with feed := rest }) r (m.getD (minuteOf s.dev - 1))
      else setMeter s.dev { s.dev.meter with feed := rest })) := by
  change execMeterRecordReceived r s = _
  refine lift_to ?_
  simp only [feed, ne_eq, not_true_eq_false, if_false]
  rfl

end Feed

theorem logRing_off {d : Dev} (r : List Byte) (l : Nat) (off : fbit d Fd.MTR_LOG_BASE_log_en = false) : logRing d r l = d :=
  if_pos (by simp [off])

theorem logRing_on {d : Dev} (r : List Byte) (l : Nat) (on : fbit d Fd.MTR_LOG_BASE_log_en = true) (runs : d.hst.tdisp ≠ .error) :
    (logRing d r l).mtr.written = d.mtr.written + 1 ∧ (logRing d r l).posted = d.posted ++ [⟨ringLink d 0,
      fget d Fd.MTR_LOG_BASE_base * 4096 + 8192 * (d.mtr.written % 2 ^ fget d Fd.MTR_LOG_CFG_size_log2),
      exactly 8192 (r ++ leBytes 5 l)⟩] := by
  unfold logRing
  rw [if_neg (by simp [on])]
  exact ⟨rfl, hostWrite_posted d 0 _ _ runs⟩

theorem feedSilent_lost {d : Dev} (serves : mtrServes d = true) (heard : d.mtr.lost = false) (late : d.mtr.feedAt + 120000 * 65536 ≤ up d) :
    feedSilent d = raise (setMtr d { d.mtr with lost := true }) Fd.MTR_EVT_meter_lost := if_pos (by simp [serves, heard, late])

theorem feedSilent_else {d : Dev} (h : mtrServes d = false ∨ d.mtr.lost = true ∨ up d < d.mtr.feedAt + 120000 * 65536) :
    feedSilent d = d := by
  refine if_neg ?_
  rintro ⟨serves, heard, late⟩
  rcases h with h | h | h
  · exact Bool.false_ne_true (h.symm.trans serves)
  · simp [h] at heard
  · omega

theorem supplyClear_clears {d : Dev} (warn : d.mtr.warning = true) (quiet : d.mtr.active = [])
    (due : d.mtr.quietFrom + fget d Fd.MTR_SUPPLY_CFG_clear_frames * 65536 ≤ up d) :
    supplyClear d = raise (setMtr d { d.mtr with warning := false }) Fd.MTR_EVT_supply_clear := if_pos ⟨warn, quiet, due⟩

theorem supplyClear_else {d : Dev} (h : d.mtr.warning = false ∨ d.mtr.active ≠ [] ∨
    up d < d.mtr.quietFrom + fget d Fd.MTR_SUPPLY_CFG_clear_frames * 65536) : supplyClear d = d := by
  refine if_neg ?_
  rintro ⟨warn, quiet, due⟩
  rcases h with h | h | h
  · exact Bool.false_ne_true (h.symm.trans warn)
  · exact h quiet
  · omega

end Sys2Proof.Machine
end

section
/-!
PROOFS. Energy and the records of a period (15 R421, R424): the shares of a minute and the rest add up to its energy.
-/

namespace Sys2Proof.Machine

/-! ### The energy of a minute (15 R421) -/

theorem sum_map_range (n : Nat) (f : Nat → Nat) : ((List.range n).map f).sum = ∑ b ∈ Finset.range n, f b := rfl

theorem sumN_eq_sum (l : List Nat) : sumN l = l.sum := (List.sum_eq_foldl ..).symm

/-- An account's share of a minute's energy. -/
def energyShare (d : Dev) (m e a : Nat) : Nat :=
  if sumN ((List.range 257).map (activityOf d m)) + fget d Fd.SEQ_ENERGY_BASE_base = 0 then 0
  else e * activityOf d m a / (sumN ((List.range 257).map (activityOf d m)) + fget d Fd.SEQ_ENERGY_BASE_base)

/-- Energy credited to an account. -/
def credit (d : Dev) (a x : Nat) : Dev := updAcct d a (fun c => { c with energy := c.energy + x })

/-- The clients' shares credited, and the rest. -/
def credited (d : Dev) (m e : Nat) : Dev :=
  credit (clients.foldl (fun s a => credit s a (energyShare d m e a)) d) unattributed (e - sumN (clients.map (energyShare d m e)))

/-- A minute is done with. -/
def minuteForgotten (d : Dev) (m : Nat) : Dev := { d with seq := { d.seq with
  minutes := d.seq.minutes.filter (fun (p : Nat × MinUse) => p.1 / 512 != m), minuteE := del d.seq.minuteE m
  settled := m :: d.seq.settled.filter (fun k => decide (minuteOf d < k + 16)) } }

section

variable {d : Dev} {m : Nat}

theorem apportion_settled (h : minuteSettled d m = true) :
    apportion d m = { d with seq := { d.seq with minuteE := del d.seq.minuteE m } } := by
  unfold apportion
  exact if_pos h

theorem apportion_recorded {e : Nat} (h : minuteSettled d m = false) (recorded : look d.seq.minuteE m = some e) :
    apportion d m = minuteForgotten (credited d m e) m := by
  unfold apportion
  simp only [h, recorded, Bool.false_eq_true, if_false]
  unfold minuteForgotten credited credit energyShare
  rfl

theorem apportion_gap (h : minuteSettled d m = false) (unrecorded : look d.seq.minuteE m = none) : apportion d m =
    if gapDue d m then { minuteForgotten d m with seq := { (minuteForgotten d m).seq with energyGap := true } } else d := by
  unfold apportion
  simp only [h, unrecorded, Bool.false_eq_true, if_false]
  rfl

theorem gapDue_iff (h : minuteSettled d m = false) :
    gapDue d m = true ↔ m + 3 ≤ minuteOf d ∧ ∃ f, d.seq.energyFrom = some f ∧ f ≤ m := by
  simp [gapDue, h, Option.any_eq_true]

end

/-- Shares rounded down do not exceed the whole. -/
theorem sum_shares_le (f : Nat → Nat) (e t : Nat) (l : List Nat) : (l.map (fun a => e * f a / t)).sum * t ≤ e * (l.map f).sum := by
  induction l with
  | nil => simp
  | cons a l ih =>
    simp only [List.map_cons, List.sum_cons, Nat.add_mul, Nat.mul_add]
    exact Nat.add_le_add (Nat.div_mul_le_self _ _) ih

theorem sum_energyShare_le (d : Dev) (m e : Nat) : sumN (clients.map (energyShare d m e)) ≤ e := by
  set t := sumN ((List.range 257).map (activityOf d m)) + fget d Fd.SEQ_ENERGY_BASE_base with ht
  rw [sumN_eq_sum]
  by_cases zero : t = 0
  · have none : energyShare d m e = fun _ => 0 := funext fun a => if_pos (ht ▸ zero)
    simp [none]
  · have part : energyShare d m e = fun a => e * activityOf d m a / t := funext fun a => if_neg (ht ▸ zero)
    have whole : (clients.map (activityOf d m)).sum ≤ t := by
      rw [ht, sumN_eq_sum, List.range_succ, List.map_append, List.sum_append]
      exact Nat.le_add_right_of_le (Nat.le_add_right _ _)
    rw [part]
    exact Nat.le_of_mul_le_mul_right ((sum_shares_le _ _ _ _).trans (Nat.mul_le_mul_left e whole)) (Nat.pos_of_ne_zero zero)

/-- The energy of all accounts. -/
def energyTotal (d : Dev) : Nat := sumN ((List.range 257).map (fun a => (mget d.seq.acct {} a).energy))

theorem energyTotal_eq (d : Dev) : energyTotal d = ∑ a ∈ Finset.range 257, (mget d.seq.acct {} a).energy :=
  (sumN_eq_sum _).trans (sum_map_range 257 _)

theorem energy_credit (d : Dev) (a x b : Nat) :
    (mget (credit d a x).seq.acct {} b).energy = (mget d.seq.acct {} b).energy + if b = a then x else 0 := by
  have got : mget (credit d a x).seq.acct {} b = if b = a then { mget d.seq.acct {} a with
    energy := (mget d.seq.acct {} a).energy + x } else mget d.seq.acct {} b := mget_mset ..
  rw [got]
  split
  case isTrue h => rw [h]
  case isFalse => rfl

/-- One account's credit is the growth of the total. -/
theorem energyTotal_credit (d : Dev) {a : Nat} (x : Nat) (ha : a < 257) : energyTotal (credit d a x) = energyTotal d + x := by
  simp only [energyTotal_eq, energy_credit]
  rw [Finset.sum_add_distrib, Finset.sum_ite_eq' (Finset.range 257) a, if_pos (Finset.mem_range.2 ha)]

theorem energyTotal_foldl_credit (f : Nat → Nat) (as : List Nat) (h : ∀ a ∈ as, a < 257) : ∀ d : Dev,
    energyTotal (as.foldl (fun s a => credit s a (f a)) d) = energyTotal d + sumN (as.map f) := by
  induction as with
  | nil => exact fun d => (Nat.add_zero (energyTotal d)).symm
  | cons a as ih =>
    intro d
    rw [List.foldl_cons, ih (fun b hb => h b (List.mem_cons_of_mem a hb)), energyTotal_credit d _ (h a List.mem_cons_self),
      sumN_eq_sum, sumN_eq_sum, List.map_cons, List.sum_cons, Nat.add_assoc]

/-- What is credited for a minute is its energy. -/
theorem energyTotal_credited (d : Dev) (m e : Nat) : energyTotal (credited d m e) = energyTotal d + e := by
  have shares := energyTotal_foldl_credit (energyShare d m e) clients (fun a ha => by
    have := List.mem_range.1 ha
    omega) d
  rw [credited, energyTotal_credit _ _ (by decide), shares, Nat.add_assoc, Nat.add_sub_cancel' (sum_energyShare_le d m e)]

theorem energyTotal_congr {d e : Dev} (h : d.seq.acct = e.seq.acct) : energyTotal d = energyTotal e := by
  simp only [energyTotal, h]

theorem energyTotal_minuteForgotten (d : Dev) (m : Nat) : energyTotal (minuteForgotten d m) = energyTotal d := energyTotal_congr rfl

theorem credit_ctx (d : Dev) (a x : Nat) : (credit d a x).ctx = d.ctx := rfl

theorem foldl_credit_ctx (f : Nat → Nat) (as : List Nat) : ∀ d : Dev, (as.foldl (fun s a => credit s a (f a)) d).ctx = d.ctx := by
  induction as with
  | nil => intro d; rfl
  | cons a as ih => intro d; exact ih (credit d a (f a))

theorem credited_ctx (d : Dev) (m e : Nat) : (credited d m e).ctx = d.ctx := by
  rw [credited, credit_ctx, foldl_credit_ctx]

theorem minuteForgotten_ctx (d : Dev) (m : Nat) : (minuteForgotten d m).ctx = d.ctx := rfl

/-- The energy of a recorded minute is apportioned without loss. -/
theorem apportion_exact {d : Dev} {m e : Nat} (h : minuteSettled d m = false) (recorded : look d.seq.minuteE m = some e) :
    energyTotal (apportion d m) = energyTotal d + e ∧ look (apportion d m).seq.minuteE m = none ∧ (apportion d m).ctx = d.ctx := by
  rw [apportion_recorded h recorded]
  exact ⟨(energyTotal_minuteForgotten _ m).trans (energyTotal_credited d m e), look_del_same _ m,
    (minuteForgotten_ctx _ m).trans (credited_ctx d m e)⟩

theorem exec_energyApportion (s : State) (m : Nat) : exec (.energyApportion m) s = .next (s.settled (apportion s.dev m)) := rfl

/-! ### The records of a period (15 R424) -/

/-- The write of a client's record. -/
def tenantEntry (d : Dev) (n z c : Nat) : Posted :=
  ⟨ringLink d 0, fget d Fd.SEQ_CLIENT_ACCT_acct_addr c * 64, tenantRecord d c n z⟩

def writeTenant (n z : Nat) (d : Dev) (c : Nat) : Dev :=
  if fbit d Fd.SEQ_CLIENT_ACCT_acct_en c then hostWrite d 0 (fget d Fd.SEQ_CLIENT_ACCT_acct_addr c * 64) (tenantRecord d c n z) else d

/-- Records are written one after another, and nothing else changes. -/
theorem foldl_writeTenant (d : Dev) (n z : Nat) (cs : List Nat) : ∀ ps, ∃ qs,
    cs.foldl (writeTenant n z) { d with posted := ps } = { d with posted := ps ++ qs } ∧
    (d.hst.tdisp ≠ .error → ∀ c ∈ cs, fbit d Fd.SEQ_CLIENT_ACCT_acct_en c = true → tenantEntry d n z c ∈ qs) := by
  induction cs with
  | nil => intro ps; exact ⟨[], by rw [List.append_nil]; rfl, fun _ c hc => absurd hc List.not_mem_nil⟩
  | cons a cs ih =>
    intro ps
    have one : ∃ q, writeTenant n z { d with posted := ps } a = { d with posted := ps ++ q } ∧
        (d.hst.tdisp ≠ .error → fbit d Fd.SEQ_CLIENT_ACCT_acct_en a = true → tenantEntry d n z a ∈ q) := by
      unfold writeTenant
      split
      case isFalse off => exact ⟨[], by rw [List.append_nil], fun _ on => absurd on off⟩
      case isTrue on =>
        by_cases err : d.hst.tdisp = .error
        · exact ⟨[], (if_pos err).trans (by rw [List.append_nil]), fun runs => absurd err runs⟩
        · exact ⟨[tenantEntry d n z a], if_neg err, fun _ _ => List.mem_singleton_self _⟩
    obtain ⟨q, run, entry⟩ := one
    obtain ⟨qs, rest, entries⟩ := ih (ps ++ q)
    refine ⟨q ++ qs, by rw [List.foldl_cons, run, rest, List.append_assoc], fun runs c hc on => ?_⟩
    rcases List.mem_cons.1 hc with rfl | hc
    · exact List.mem_append_left _ (entry runs on)
    · exact List.mem_append_right _ (entries runs c hc on)

/-- The length of a period, in minutes. -/
def periodMinutes (d : Dev) : Nat := max 1 (fget d Fd.SEQ_SCHED_CFG_acct_minutes)

theorem tenantRecords_early {d : Dev} (h : d.sys.resetLow = true ∨ d.tc.acquired = false ∨
    ∃ p, d.seq.periodFrom = some p ∧ minuteOf d / periodMinutes d * periodMinutes d ≤ p) : tenantRecords d = d := by
  refine if_pos ?_
  rcases h with h | h | ⟨p, begun, h⟩
  · simp [inReset, h]
  · simp [h]
  · have h : minuteOf d / max 1 (fget d Fd.SEQ_SCHED_CFG_acct_minutes) * max 1 (fget d Fd.SEQ_SCHED_CFG_acct_minutes) ≤ p := h
    simp [begun, h]

theorem tenantRecords_due {d : Dev} {z n : Nat} {x : Dev} (runs : d.sys.resetLow = false) (acquired : d.tc.acquired = true)
    (hz : z = minuteOf d / periodMinutes d * periodMinutes d) (due : ∀ p, d.seq.periodFrom = some p → p < z)
    (hx : x = fbump d Fd.SEQ_SCHED_STAT_period) (hn : n = fget x Fd.SEQ_SCHED_STAT_period) :
    tenantRecords d = { clients.foldl (writeTenant n (z * 60000)) x with
      seq := { (clients.foldl (writeTenant n (z * 60000)) x).seq with periodFrom := some z, energyGap := false } } := by
  subst hx hn hz
  refine if_neg ?_
  unfold periodMinutes at due
  cases begun : d.seq.periodFrom with
  | none => simp [inReset, runs, acquired]
  | some p =>
    have := due p begun
    simp only [inReset, runs, acquired, Option.map_some, Option.getD_some, Bool.not_true, Bool.or_self, Bool.false_or, decide_eq_true_eq]
    omega

/-- At the end of a period: the records of the accounted clients are written. -/
theorem tenantRecords_writes {d : Dev} {z : Nat} (runs : d.sys.resetLow = false) (acquired : d.tc.acquired = true)
    (hz : z = minuteOf d / periodMinutes d * periodMinutes d) (due : ∀ p, d.seq.periodFrom = some p → p < z) :
    (tenantRecords d).seq = { d.seq with periodFrom := some z, energyGap := false } ∧ (tenantRecords d).ctx = d.ctx ∧
    (d.hst.tdisp ≠ .error → ∀ c, c < 256 → fbit d Fd.SEQ_CLIENT_ACCT_acct_en c = true →
      tenantEntry d (fget (tenantRecords d) Fd.SEQ_SCHED_STAT_period) (z * 60000) c ∈ (tenantRecords d).posted) := by
  have all := tenantRecords_due runs acquired hz due rfl rfl
  generalize hx : fbump d Fd.SEQ_SCHED_STAT_period = x at all
  obtain ⟨qs, run, entries⟩ := foldl_writeTenant x (fget x Fd.SEQ_SCHED_STAT_period) (z * 60000) clients x.posted
  rw [show clients.foldl (writeTenant (fget x Fd.SEQ_SCHED_STAT_period) (z * 60000)) x = _ from run] at all
  rw [all]
  subst hx
  refine ⟨rfl, rfl, fun ok c hc on => List.mem_append_right _ ?_⟩
  have elsewhere : ∀ g : Fd, g.off = Fd.SEQ_CLIENT_ACCT_acct_en.off → fget (fbump d Fd.SEQ_SCHED_STAT_period) g c = fget d g c :=
    fun g hg => fget_fset_elsewhere d _ (hg ▸ regKey_ne (by omega) (by decide) (.inl (by decide)))
  have entry := entries ok c (List.mem_range.2 hc) ((congrArg (· == 1) (elsewhere Fd.SEQ_CLIENT_ACCT_acct_en rfl)).trans on)
  rw [tenantEntry, elsewhere Fd.SEQ_CLIENT_ACCT_acct_addr rfl] at entry
  exact entry

end Sys2Proof.Machine
end

section
/-!
PROOFS. The meter domain's side of the S-die (14 R408; 15 R421, R424; 17 R458 to R465), assembled.
-/

namespace Sys2Proof.Machine

section Assembled

variable {s : State} {w : Nat}

theorem exec_feed_outOfService (off : mtrServes s.dev = false) (b : Bool) {c : Instr} (h : c ∈ [Instr.envelopeMinuteBoundary,
    .throttleStep w, .railSample w, .meterNotice w b w, .meterFeedSilent]) : exec c s = .next (s.settled s.dev) := by
  simp only [List.mem_cons, List.not_mem_nil, or_false] at h
  rcases h with rfl | rfl | rfl | rfl | rfl
  · exact exec_to (exec_envelopeMinuteBoundary s) (envMinute_early (by simp [minuteDue, off]))
  · exact exec_throttleStep_elsewhere (.inl off)
  · change execRailSample w s = _
    exact lift_to (if_pos (by simp [off]))
  · exact exec_meterNotice_ignored b (.inl off)
  · change execMeterFeedSilent s = _
    exact lift_to (feedSilent_else (.inl off))

/-- A rail sample throttles just if it is the tenth in a row above 650 W. -/
theorem railSample_outcome (serves : mtrServes s.dev = true) : ∃ d, exec (.railSample w) s = .next (s.settled d) ∧ d.ctx = s.dev.ctx ∧
    d.regs = s.dev.regs ∧
    (650 < w → s.dev.mtr.over650 = 9 → d.mtr.throttle = 14 ∧ d.mtr.over650 = 0 ∧ evSet d Fd.MTR_EVT_fast_limit = true) ∧
    (w ≤ 650 ∨ s.dev.mtr.over650 ≠ 9 → d.mtr.throttle = s.dev.mtr.throttle ∧ d.evts = s.dev.evts ∧
      d.mtr.over650 = if 650 < w then s.dev.mtr.over650 + 1 else 0) := by
  have run := exec_railSample w serves
  have hot := hotSamples_eq s.dev w
  by_cases tenth : 650 < w ∧ s.dev.mtr.over650 = 9
  · obtain ⟨above, ninth⟩ := tenth
    rw [if_pos above, ninth] at hot
    rw [if_pos hot] at run
    refine ⟨_, run, ?_⟩
    simp only [raise_frame, evSet_raise, setMtr_frame, setMtr_mtr, sampled, hot, if_true]
    exact ⟨trivial, trivial, fun _ _ => ⟨trivial, trivial, trivial⟩, fun h => by omega⟩
  · have other : hotSamples s.dev w ≠ 10 := by
      rw [hot]
      split <;> omega
    rw [if_neg other] at run
    refine ⟨_, run, rfl, rfl, fun above ninth => absurd ⟨above, ninth⟩ tenth, fun _ => ⟨(sampleFrame_keeps s.dev).2, rfl, ?_⟩⟩
    exact (if_neg other).trans hot

/-- A notice of an event in progress. -/
theorem meterNotice_start_outcome {cls : Nat} {m : Mtr} (serves : mtrServes s.dev = true) (lo : 1 ≤ cls) (hi : cls ≤ 3)
    (hm : m = { s.dev.mtr with feedAt := up s.dev, lost := false }) :
    ∃ d, exec (.meterNotice cls true w) s = .next (s.settled d) ∧ d.ctx = s.dev.ctx ∧ d.mtr.active = supplyActive s.dev.mtr.active cls ∧
      (warns s.dev cls w = false ∨ s.dev.mtr.warning = true → d.mtr = { m with active := supplyActive s.dev.mtr.active cls }) ∧
      (warns s.dev cls w = true → s.dev.mtr.warning = false → d.mtr.warning = true ∧ d.mtr.throttle = 14 ∧
        evSet d Fd.MTR_EVT_supply_warning = true ∧ (fbit s.dev Fd.CKP_CTL_enable = true → d.ckp.emergency = true)) := by
  subst hm
  have run := exec_meterNotice_start (w := w) serves lo hi
  obtain ⟨mtr, ctx, -, regs⟩ := eventBegun_keeps s.dev cls
  rw [warns_eventBegun] at run
  generalize eventBegun s.dev cls = b at run mtr ctx regs
  by_cases warn : warns s.dev cls w = true
  · rw [if_pos warn] at run
    have kept : b.mtr.warning = s.dev.mtr.warning := by rw [mtr]; rfl
    by_cases again : s.dev.mtr.warning = true
    · rw [supplyWarn_again (kept.trans again)] at run
      refine ⟨b, run, ctx, by rw [mtr]; rfl, fun _ => mtr, fun _ first => ?_⟩
      exact absurd (again.symm.trans first) (by decide)
    · have first : s.dev.mtr.warning = false := Bool.eq_false_of_not_eq_true again
      rw [supplyWarn_first (kept.trans first)] at run
      obtain ⟨wmtr, wctx, wset, wfield⟩ := warned_keeps b
      obtain ⟨emtr, ectx, eset, eon⟩ := emergencySlate_keeps (warned b)
      have enabled : fbit (warned b) Fd.CKP_CTL_enable = fbit s.dev Fd.CKP_CTL_enable :=
        wfield.trans (congrArg (· == 1) (regs Fd.CKP_CTL_enable (.inr rfl)))
      refine ⟨_, run, ectx.trans (wctx.trans ctx), by rw [emtr, wmtr, mtr]; rfl, fun h => ?_, fun _ _ =>
        ⟨by rw [emtr, wmtr], by rw [emtr, wmtr], eset _ wset, fun on => eon (enabled.trans on)⟩⟩
      exact absurd h (by simp [warn, first])
  · rw [if_neg warn] at run
    exact ⟨b, run, ctx, by rw [mtr]; rfl, fun _ => mtr, fun yes => absurd yes warn⟩

end Assembled

theorem exec_meterFeedSilent (s : State) : exec .meterFeedSilent s = .next (s.settled (feedSilent s.dev)) := rfl

theorem exec_supplyClear (s : State) : exec .supplyClear s = .next (s.settled (supplyClear s.dev)) := rfl

theorem exec_tenantRecordWrite (s : State) : exec .tenantRecordWrite s = .next (s.settled (tenantRecords s.dev)) := rfl

/-- Settles O57: (1) by the two cases of the rule; (2) each clause by the equation of its instruction; (3) because a credit adds to the
total what it credits, and the shares do not exceed the energy. -/
theorem powerThrottleAndEnergy : Obligations.PowerThrottleAndEnergy := by
  refine ⟨fun l m c before new hl => throttleRule_bounds hl, fun s w => ⟨fun off b c hc => exec_feed_outOfService off b hc,
    fun r other => exec_meterRecordReceived_other other, fun r m rest feed off => ?_, fun same => ?_, fun serves changed => ?_,
    fun serves => ⟨fun h => exec_throttleStep_elsewhere (.inr h), fun x fourth once hx => ?_, railSample_outcome serves,
      fun cls out b => exec_meterNotice_ignored b (.inr out), fun cls m lo hi hm => ⟨meterNotice_start_outcome serves lo hi hm, ?_⟩,
      fun r m rest l feed hl => ?_, fun heard late => ?_, fun h => ?_⟩, fun x r l n hn => ⟨fun off => logRing_off r l off,
      fun on runs => hn ▸ logRing_on r l on runs⟩, fun t ht => ⟨fun warn quiet due => ?_, fun h => ?_⟩, fun e _ => exec_energyApportion s w,
    fun settled => ?_, fun none open_ => ⟨fun m begun le late => ?_, fun h => ?_⟩,
    fun m z hm hz => ⟨fun runs acquired due => ?_, fun h => ?_⟩⟩, fun d m e recorded open_ => ?_⟩
  · exact exec_to (exec_meterRecordReceived_first feed) (if_neg (by simp [off]))
  · exact exec_to (exec_envelopeMinuteBoundary s) (envMinute_early (by simp [minuteDue, same]))
  · obtain ⟨shape, cleared⟩ := envMinute_boundary (minuteDue_iff.2 ⟨serves, changed⟩)
    exact ⟨_, exec_envelopeMinuteBoundary s, by rw [shape], cleared, by rw [shape]⟩
  · obtain ⟨-, -, -, ctx, seq, tc⟩ := (onlyEnvelope_envMinute s.dev).keeps
    obtain ⟨d, run, hd⟩ := exec_throttleStep_due (w := w) serves fourth once
    obtain ⟨at_, level, kctx, kseq, kregs⟩ := throttled_keeps hd
    refine ⟨d, run, at_.trans (by rw [frame_congr tc]), ?_, kctx.trans ctx, kseq.trans seq, hx ▸ kregs⟩
    rw [level, hx, stepLevel_envMinute]
  · subst hm
    exact exec_meterNotice_end serves lo hi
  · obtain ⟨feedAt, meter, lost, regs, ctx, other, minute⟩ := recordNoted_keeps (setMeter s.dev { s.dev.meter with feed := rest }) r l
    refine ⟨_, exec_to (exec_meterRecordReceived_first feed) ?_, feedAt, by rw [meter]; rfl, lost, regs, ctx, other, minute⟩
    rw [if_pos serves, takeRecord_eq, hl]
  · refine ⟨_, exec_to (exec_meterFeedSilent s) (feedSilent_lost serves heard late), ?_⟩
    simp only [raise_frame, evSet_raise, setMtr_mtr, setMtr_frame, and_self]
  · exact exec_to (exec_meterFeedSilent s) (feedSilent_else (.inr h))
  · refine ⟨_, exec_to (exec_supplyClear s) (supplyClear_clears warn quiet (ht ▸ due)), ?_⟩
    simp only [raise_frame, evSet_raise, setMtr_mtr, setMtr_frame, and_self]
  · exact exec_to (exec_supplyClear s) (supplyClear_else (ht ▸ h))
  · exact ⟨_, exec_to (exec_energyApportion s w) (apportion_settled settled), rfl, rfl⟩
  · have gap := (gapDue_iff open_).2 ⟨late, m, begun, le⟩
    exact ⟨_, exec_to (exec_energyApportion s w) ((apportion_gap open_ none).trans (if_pos gap)), rfl, rfl, rfl⟩
  · refine exec_to (exec_energyApportion s w) ((apportion_gap open_ none).trans (if_neg fun gap => ?_))
    obtain ⟨late, m, begun, le⟩ := (gapDue_iff open_).1 gap
    rcases h with early | never | ⟨f, from_, later⟩
    · omega
    · exact absurd (begun.symm.trans never) (by simp)
    · have := Option.some.inj (begun.symm.trans from_)
      omega
  · subst hm
    obtain ⟨seq, ctx, entries⟩ := tenantRecords_writes runs acquired hz due
    exact ⟨_, exec_tenantRecordWrite s, seq, ctx, entries⟩
  · subst hm hz
    exact exec_to (exec_tenantRecordWrite s) (tenantRecords_early h)
  · exact apportion_exact open_ recorded

end Sys2Proof.Machine
end

section
/-!
PROOFS. Messages and timeouts of a handoff between two devices (13 R378 to R383; 16 R435).
-/

namespace Sys2Proof.Machine

/-! ### Messages that are not heard (13 R372) -/

/-- An offer with no condition of R381 opens, as the last of those is that its key does not. -/
theorem hoUnwrap_of_offerReason {d : Dev} {m : MapMsg} {k : List Byte} (fits : offerReason d m k = 0) :
    ∃ key, hoUnwrap d m.handoff m.name k = some key := by
  refine Option.isSome_iff_exists.1 (by_contra fun closed => ?_)
  have closed : (hoUnwrap d m.handoff m.name k).isNone = true := by simpa using closed
  unfold offerReason at fits
  simp only [closed, if_true] at fits
  split_ifs at fits

section Messages

variable {s : State} {m : MapMsg} {k : List Byte}

theorem exec_handoff_deaf (deaf : mapServes s.dev = false ∨ s.dev.lnk.fenced.contains m.src = true) {c : Instr}
    (h : c ∈ [Instr.offer m k, .accept m, .handoffRefuse m, .commit m, .abort m, .confirm m, .handoffRelease m]) :
    exec c s = .next (s.settled s.dev) := by
  have off := mapOff_of_deaf deaf
  simp only [List.mem_cons, List.not_mem_nil, or_false] at h
  rcases h with rfl | rfl | rfl | rfl | rfl | rfl | rfl
  · change execOffer m k s = _
    refine lift_to (if_pos ?_)
    rcases off with off | fenced
    · exact .inl off
    · exact .inr (.inr (.inl fenced))
  · change execAccept m s = _
    exact lift_to (if_pos off)
  · change execHandoffRefuse m s = _
    exact lift_to (if_pos off)
  · change execCommit m s = _
    exact lift_to (if_pos off)
  · change execAbort m s = _
    exact lift_to (if_pos off)
  · change execConfirm m s = _
    exact lift_to (if_pos off)
  · change execHandoffRelease m s = _
    exact lift_to (if_pos off)

variable (heard : hears s.dev m.src)
include heard

/-! ### An offer (13 R379, R381; 16 R435) -/

theorem offer_considered (member : s.dev.map.members.contains m.src = true) (new : inFor s.dev m.src m.handoff = none) :
    exec (.offer m k) s = .next (s.settled (
      if unitInReset s.dev 6 then { s.dev with map := { s.dev.map with offersHeld := s.dev.map.offersHeld ++ [(m, k)] } }
      else if offerReason (noteMsg s.dev m) m k ≠ 0 then
        hoRefuse (noteMsg s.dev m) m.src m.handoff m.name m.epoch (offerReason (noteMsg s.dev m) m k)
      else (hoUnwrap (noteMsg s.dev m) m.handoff m.name k).elim (noteMsg s.dev m) (fun key =>
        { noteMsg s.dev m with map := { (noteMsg s.dev m).map with inb := (noteMsg s.dev m).map.inb ++ [{
          src := m.src, id := m.handoff, name := m.name, epoch := m.epoch, client := m.client, recipeId := m.recipeId,
          version := m.recipeVersion, pages := m.pages, key := key }] } }))) := by
  obtain ⟨serves, open_⟩ := heard
  have unknown : s.dev.map.inb.any (fun h => h.src == m.src && h.id == m.handoff) = false := by
    rw [List.any_eq_false]
    exact List.find?_eq_none.1 new
  change execOffer m k s = _
  refine lift_to ((if_neg ?_).trans ?_)
  · rw [serves, open_, member, unknown]
    decide
  · dsimp only
    cases hoUnwrap (noteMsg s.dev m) m.handoff m.name k <;> rfl

theorem exec_offer_held (member : s.dev.map.members.contains m.src = true) (new : inFor s.dev m.src m.handoff = none)
    (reset : unitInReset s.dev 6 = true) : exec (.offer m k) s = .next (s.settled { s.dev with map := { s.dev.map with
      offersHeld := s.dev.map.offersHeld ++ [(m, k)] } }) := exec_to (offer_considered heard member new) (if_pos reset)

section

variable (member : s.dev.map.members.contains m.src = true) (new : inFor s.dev m.src m.handoff = none)
  (runs : unitInReset s.dev 6 = false)
include member new runs

theorem exec_offer_refused (why : offerReason (noteMsg s.dev m) m k ≠ 0) : exec (.offer m k) s = .next (s.settled
    (hoRefuse (noteMsg s.dev m) m.src m.handoff m.name m.epoch (offerReason (noteMsg s.dev m) m k))) :=
  exec_to (offer_considered heard member new) ((if_neg (by simp [runs])).trans (if_pos why))

theorem exec_offer_taken (fits : offerReason (noteMsg s.dev m) m k = 0) {key : BitVec 256}
    (opens : hoUnwrap (noteMsg s.dev m) m.handoff m.name k = some key) : exec (.offer m k) s = .next (s.settled
      { noteMsg s.dev m with map := { (noteMsg s.dev m).map with inb := (noteMsg s.dev m).map.inb ++ [{
          src := m.src, id := m.handoff, name := m.name, epoch := m.epoch, client := m.client, recipeId := m.recipeId,
          version := m.recipeVersion, pages := m.pages, key := key }] } }) := by
  refine exec_to (offer_considered heard member new) ?_
  rw [if_neg (by simp [runs]), if_neg (by simp [fits]), opens, Option.elim_some]

end

/-! ### Answers to the sender (13 R382, R383) -/

/-- The sender aborts a handoff that it does not hold open. -/
def abortTo (d : Dev) (m : MapMsg) : Dev := mapSend d m.src (mapBytes d 6 0 m.handoff m.name m.epoch 0 0 0 0 0 0)

theorem exec_accept_unknown (unknown : hoFor (noteMsg s.dev m) m.src m.handoff = none) :
    exec (.accept m) s = .next (s.settled (abortTo (noteMsg s.dev m) m)) := by
  change execAccept m s = _
  refine lift_to ((if_neg (not_mapOff_of_hears heard)).trans ?_)
  simp only [unknown, abortTo]

theorem exec_handoffRefuse_unknown (unknown : hoFor (noteMsg s.dev m) m.src m.handoff = none) :
    exec (.handoffRefuse m) s = .next (s.settled (noteMsg s.dev m)) := by
  change execHandoffRefuse m s = _
  refine lift_to ((if_neg (not_mapOff_of_hears heard)).trans ?_)
  simp only [unknown]

theorem exec_handoffRelease_unknown (unknown : hoFor (noteMsg s.dev m) m.src m.handoff = none) :
    exec (.handoffRelease m) s = .next (s.settled (noteMsg s.dev m)) := by
  change execHandoffRelease m s = _
  refine lift_to ((if_neg (not_mapOff_of_hears heard)).trans ?_)
  simp only [unknown]

section

variable {e : Nat} (known : hoFor (noteMsg s.dev m) m.src m.handoff = some e)
include known

/-- The entry is committed by an ACCEPT. -/
def accepted (d : Dev) (m : MapMsg) (e : Nat) : Dev := setHo d e { hoOf d e with state := 3, newHandle := m.handle, since := up d }

theorem exec_accept_known : exec (.accept m) s = .next (s.settled (
    if (hoOf (noteMsg s.dev m) e).state ≠ 1 then noteMsg s.dev m
    else if !hoHolds (noteMsg s.dev m) (hoOf (noteMsg s.dev m) e) then hoEnd (abortTo (noteMsg s.dev m) m) e 6 0 0
    else mapSend (accepted (noteMsg s.dev m) m e) m.src (mapBytes (accepted (noteMsg s.dev m) m e) 4 0 (hoOf (noteMsg s.dev m) e).id
      (hoOf (noteMsg s.dev m) e).name ((hoOf (noteMsg s.dev m) e).epoch + 1) (hoOf (noteMsg s.dev m) e).dest 0 0 0 0 0))) := by
  change execAccept m s = _
  refine lift_to ((if_neg (not_mapOff_of_hears heard)).trans ?_)
  simp only [known]
  rfl

theorem exec_handoffRefuse_known : exec (.handoffRefuse m) s = .next (s.settled (if (hoOf (noteMsg s.dev m) e).state = 1 then
    hoEnd (hoBack (noteMsg s.dev m) (hoOf (noteMsg s.dev m) e) (hoOf (noteMsg s.dev m) e).epoch) e 5 m.reason 0 else noteMsg s.dev m)) := by
  change execHandoffRefuse m s = _
  refine lift_to ((if_neg (not_mapOff_of_hears heard)).trans ?_)
  simp only [known]

theorem exec_handoffRelease_known : exec (.handoffRelease m) s = .next (s.settled (if (hoOf (noteMsg s.dev m) e).state = 3 then
    hoDone (noteMsg s.dev m) e (hoOf (noteMsg s.dev m) e).newHandle else noteMsg s.dev m)) := by
  change execHandoffRelease m s = _
  refine lift_to ((if_neg (not_mapOff_of_hears heard)).trans ?_)
  simp only [known]

end

/-! ### Messages to the receiver -/

theorem exec_commit_placed {h : HoIn} (known : inFor (noteMsg s.dev m) m.src m.handoff = some h) (placed : h.rcd.isSome = true) :
    exec (.commit m) s = .next (s.settled (publishClaim
      (updIn (noteMsg s.dev m) m.src m.handoff (fun x => { x with published := true })) h.name
      { epoch := m.epoch, sentAt := up (noteMsg s.dev m), why := .inbound m.src m.handoff })) := by
  change execCommit m s = _
  refine lift_to ((if_neg (not_mapOff_of_hears heard)).trans ?_)
  simp only [known, placed, if_true]

/-- A message of a handoff that is not held is refused, for a free reason. -/
def refuseUnheld (d : Dev) (m : MapMsg) : Dev :=
  hoRefuse (freshBelow d 256).2 m.src m.handoff m.name m.epoch (freshBelow d 256).1

theorem exec_commit_unknown (unknown : inFor (noteMsg s.dev m) m.src m.handoff = none) :
    exec (.commit m) s = .next (s.settled (refuseUnheld (noteMsg s.dev m) m)) := by
  change execCommit m s = _
  refine lift_to ((if_neg (not_mapOff_of_hears heard)).trans ?_)
  simp only [unknown]
  rfl

theorem exec_abort_known {h : HoIn} (known : inFor (noteMsg s.dev m) m.src m.handoff = some h) : exec (.abort m) s =
    .next (s.settled (if h.published then noteMsg s.dev m else hoDrop (noteMsg s.dev m) h)) := by
  change execAbort m s = _
  refine lift_to ((if_neg (not_mapOff_of_hears heard)).trans ?_)
  simp only [known]

theorem exec_abort_unknown (unknown : inFor (noteMsg s.dev m) m.src m.handoff = none) :
    exec (.abort m) s = .next (s.settled (refuseUnheld (noteMsg s.dev m) m)) := by
  change execAbort m s = _
  refine lift_to ((if_neg (not_mapOff_of_hears heard)).trans ?_)
  simp only [unknown]
  rfl

/-! ### The registrar's answer (13 R382) -/

/-- The claim on a name is answered. -/
def unclaimed (d : Dev) (name : Nat) : Dev := { d with map := { d.map with claims := del d.map.claims name } }

theorem exec_confirm_unclaimed (unclaimed : look (noteMsg s.dev m).map.claims m.name = none) :
    exec (.confirm m) s = .next (s.settled (noteMsg s.dev m)) := by
  change execConfirm m s = _
  refine lift_to ((if_neg (not_mapOff_of_hears heard)).trans ?_)
  simp only [unclaimed]

section

variable {c : Claim} (claimed : look (noteMsg s.dev m).map.claims m.name = some c)
include claimed

theorem exec_confirm_inbound {src id : Nat} {h : HoIn} (why : c.why = .inbound src id)
    (known : inFor (unclaimed (noteMsg s.dev m) m.name) src id = some h) :
    exec (.confirm m) s = .next (s.settled (if m.device = ownDevice (unclaimed (noteMsg s.dev m) m.name) then
      hoArrive (unclaimed (noteMsg s.dev m) m.name) h m.epoch else hoDrop (unclaimed (noteMsg s.dev m) m.name) h)) := by
  unfold unclaimed at known ⊢
  change execConfirm m s = _
  refine lift_to ((if_neg (not_mapOff_of_hears heard)).trans ?_)
  simp only [claimed, why, known]

theorem exec_confirm_reclaim {e : Nat} (why : c.why = .reclaim e) :
    exec (.confirm m) s = .next (s.settled (if m.device = ownDevice (unclaimed (noteMsg s.dev m) m.name) then
      hoEnd (hoBack (unclaimed (noteMsg s.dev m) m.name) (hoOf (unclaimed (noteMsg s.dev m) m.name) e) m.epoch) e 7 0 0
      else hoDone (unclaimed (noteMsg s.dev m) m.name) e (hoOf (unclaimed (noteMsg s.dev m) m.name) e).newHandle)) := by
  unfold unclaimed
  change execConfirm m s = _
  refine lift_to ((if_neg (not_mapOff_of_hears heard)).trans ?_)
  simp only [claimed, why]

theorem exec_confirm_restore (why : c.why = .restore) : exec (.confirm m) s = .next (s.settled
    (devConfirm (unclaimed (noteMsg s.dev m) m.name) m.name m.device m.epoch)) := by
  unfold unclaimed
  change execConfirm m s = _
  refine lift_to ((if_neg (not_mapOff_of_hears heard)).trans ?_)
  simp only [claimed, why]

end

end Messages

/-! ### Pages received (13 R380, R381) -/

section Transfer

variable {s : State} {src id : Nat} {image : SessImage} {inc : List Incident} {h : HoIn} {e : Dev}

/-- The record of a session received. -/
def inboundRec (d : Dev) (h : HoIn) (image : SessImage) (i n : Nat) (pages : NMap Loc) : Rec :=
  { recOfImage { image with client := h.client, key := h.key } (recOf d i).gen (rcpHandle n (rcpOf d n)) h.epoch pages with
    state := .moving, inbound := true }

/-- What a session received costs its client. -/
def imageCharged (d : Dev) (c : Nat) (pages : NMap Loc) : Dev :=
  pages.foldl (fun d (p : Nat × Loc) => chargeTier d c p.2.tier pageSize) d

/-- The session received is placed. -/
def imagePlaced (d : Dev) (src id : Nat) (h : HoIn) (image : SessImage) (i n : Nat) (pages : NMap Loc) : Dev :=
  let r := recOfImage { image with client := h.client, key := h.key } (recOf d i).gen (rcpHandle n (rcpOf d n)) h.epoch pages
  let d := imageCharged d h.client pages
  let d := syncTable (setRec d i { r with state := .moving, inbound := true }) i r.ptGen
  let d := programAt d (.session i) (keys pages)
  updIn d src id (fun h => { h with
    rcd := some i, since := up d, target := if image.wasPaused then .paused else .parked, ttlLeft := image.ttlLeft })

theorem imageCharged_ctx (c : Nat) (pages : NMap Loc) : ∀ d : Dev, (imageCharged d c pages).ctx = d.ctx := by
  induction pages with
  | nil => intro d; rfl
  | cons p pages ih => intro d; exact ih (chargeTier d c p.2.tier pageSize)

/-- The record received is that of the image but for its page table, and no other record changes. -/
theorem recOf_imagePlaced (d : Dev) (src id : Nat) (h : HoIn) (image : SessImage) (i n : Nat) (pages : NMap Loc) :
    (∃ t, recOf (imagePlaced d src id h image i n pages) i = { inboundRec d h image i n pages with table := t }) ∧
    ∀ j, j ≠ i → recOf (imagePlaced d src id h image i n pages) j = recOf d j := by
  have ctx : (imagePlaced d src id h image i n pages).ctx =
      (syncTable (setRec (imageCharged d h.client pages) i (inboundRec d h image i n pages)) i (inboundRec d h image i n pages).ptGen).ctx :=
    (onlyLinks_programAt _ (.session i) (keys pages)).ctx_eq
  simp only [recOf_congr ctx, syncTable, recOf_updRec, recOf_setRec, if_true]
  exact ⟨⟨_, rfl⟩, fun j other => by rw [if_neg other, if_neg other, recOf_congr (imageCharged_ctx _ _ _)]⟩

/-- A handoff is refused, and dropped. -/
def transferRefused (d : Dev) (src id : Nat) (h : HoIn) (why : Nat) : Dev := hoRefuse (dropIn d src id) src id h.name h.epoch why

theorem transfer_goes_on (unplaced : h.rcd = none) (named : image.name = h.name) (heard : hears s.dev src) :
    ¬ ((!mapServes s.dev) = true ∨ h.rcd.isSome = true ∨ image.name ≠ h.name ∨ s.dev.lnk.fenced.contains src = true) := by
  obtain ⟨serves, open_⟩ := heard
  rw [serves, open_, unplaced, named]
  simp

variable (found : inFor s.dev src id = some h) (unplaced : h.rcd = none) (named : image.name = h.name) (heard : hears s.dev src)
  (he : e = countChecks s.dev inc Fd.DLY_CHECK_CNT_transient Fd.DLY_CHECK_CNT_lasting Fd.DLY_EVT_check_transient Fd.DLY_EVT_check_lasting)
include found unplaced named heard he

/-- Pages that came for a session whose recipe is not loaded. -/
theorem exec_objectTransfer_noRecipe (recipe : loadedRecipe e h.recipeId h.version = none) :
    exec (.objectTransfer src id image inc) s = .next (s.settled (transferRefused e src id h 3)) := by
  change execObjectTransfer src id image inc s = _
  refine lift_to ?_
  simp only [found, if_neg (transfer_goes_on unplaced named heard), ← he, recipe]
  rfl

section

variable {n : Nat} (recipe : loadedRecipe e h.recipeId h.version = some n)
include recipe

theorem exec_objectTransfer_noQuota (quota : recordQuota e h.client = false) :
    exec (.objectTransfer src id image inc) s = .next (s.settled (transferRefused e src id h 4)) := by
  change execObjectTransfer src id image inc s = _
  refine lift_to ?_
  simp only [found, if_neg (transfer_goes_on unplaced named heard), ← he, recipe, quota]
  rfl

variable (quota : recordQuota e h.client = true)
include quota

theorem exec_objectTransfer_noRecord (full : freeRecord e = none) :
    exec (.objectTransfer src id image inc) s = .next (s.settled (transferRefused e src id h 5)) := by
  change execObjectTransfer src id image inc s = _
  refine lift_to ?_
  simp only [found, if_neg (transfer_goes_on unplaced named heard), ← he, recipe, quota, full]
  rfl

variable {i : Nat} {d1 : Dev} (free : freeRecord e = some (i, d1))
include free

theorem exec_objectTransfer_noRoom {why : Nat} (room : hoPlace d1 h.client image.pages = some (.error why)) :
    exec (.objectTransfer src id image inc) s = .next (s.settled (transferRefused e src id h why)) := by
  change execObjectTransfer src id image inc s = _
  refine lift_to ?_
  simp only [found, if_neg (transfer_goes_on unplaced named heard), ← he, recipe, quota, free, room]
  rfl

variable {pages : NMap Loc} {d2 : Dev} (room : hoPlace d1 h.client image.pages = some (.ok (pages, d2)))
include room

theorem exec_objectTransfer_damaged (damaged : (lastingTile inc).isSome = true) :
    exec (.objectTransfer src id image inc) s = .next (s.settled (transferRefused e src id h 8)) := by
  change execObjectTransfer src id image inc s = _
  refine lift_to ?_
  simp only [found, if_neg (transfer_goes_on unplaced named heard), ← he, recipe, quota, free, room, damaged, if_true]
  rfl

theorem exec_objectTransfer_placed (sound : lastingTile inc = none) :
    exec (.objectTransfer src id image inc) s = .next (s.settled (
      mapSend (imagePlaced d2 src id h image i n pages) src (mapBytes (imagePlaced d2 src id h image i n pages) 2 0 id h.name h.epoch 0 0 0 0 0
        (handleOf (imagePlaced d2 src id h image i n pages) i)))) := by
  change execObjectTransfer src id image inc s = _
  refine lift_to ?_
  simp only [found, if_neg (transfer_goes_on unplaced named heard), ← he, recipe, quota, free, room, sound, Option.isSome_none,
    Bool.false_eq_true, if_false, imagePlaced, imageCharged]

end

end Transfer

/-! ### Timeouts (13 R383) -/

section Timeouts

variable (s : State) (e : Nat)

theorem exec_handoffAcceptTimeout : exec (.handoffAcceptTimeout e) s =
    .next (s.settled (acceptOver (precede s.dev 2 (hoOf s.dev e).name) e)) := rfl

theorem exec_handoffReleaseTimeout : exec (.handoffReleaseTimeout e) s =
    .next (s.settled (releaseOver (precede s.dev 2 (hoOf s.dev e).name) e)) := rfl

theorem exec_handoffCommitTimeout_none {src id : Nat} (none : inFor s.dev src id = none) :
    exec (.handoffCommitTimeout src id) s = .next (s.settled s.dev) := by
  change execHandoffCommitTimeout src id s = _
  refine lift_to ?_
  simp only [none]

theorem exec_handoffCommitTimeout_some {src id : Nat} {h h2 : HoIn} (found : inFor s.dev src id = some h)
    (still : inFor (precede s.dev 2 h.name) src id = some h2) : exec (.handoffCommitTimeout src id) s = .next (s.settled (
      if commitDue (precede s.dev 2 h.name) h2 then hoDrop (precede s.dev 2 h.name) h2 else precede s.dev 2 h.name)) := by
  change execHandoffCommitTimeout src id s = _
  refine lift_to ?_
  simp only [found, commitOver, still]

end Timeouts

/-- A refusal of pages received, by its reason (13 R381). -/
theorem exec_objectTransfer_refused {s : State} {src id : Nat} {image : SessImage} {inc : List Incident} {h : HoIn} {e : Dev}
    (found : inFor s.dev src id = some h) (unplaced : h.rcd = none) (named : image.name = h.name) (heard : hears s.dev src)
    (he : e = countChecks s.dev inc Fd.DLY_CHECK_CNT_transient Fd.DLY_CHECK_CNT_lasting Fd.DLY_EVT_check_transient Fd.DLY_EVT_check_lasting)
    {why : Nat} (reason : (why = 3 ∧ loadedRecipe e h.recipeId h.version = none) ∨
      ((loadedRecipe e h.recipeId h.version).isSome = true ∧ ((why = 4 ∧ recordQuota e h.client = false) ∨
        (recordQuota e h.client = true ∧ ((why = 5 ∧ freeRecord e = none) ∨ ∃ i d1, freeRecord e = some (i, d1) ∧
          (hoPlace d1 h.client image.pages = some (.error why) ∨
            (why = 8 ∧ (lastingTile inc).isSome = true ∧ ∃ x, hoPlace d1 h.client image.pages = some (.ok x)))))))) :
    exec (.objectTransfer src id image inc) s = .next (s.settled (transferRefused e src id h why)) := by
  rcases reason with ⟨rfl, recipe⟩ | ⟨loaded, reason⟩
  · exact exec_objectTransfer_noRecipe found unplaced named heard he recipe
  obtain ⟨n, recipe⟩ := Option.isSome_iff_exists.1 loaded
  rcases reason with ⟨rfl, quota⟩ | ⟨quota, ⟨rfl, full⟩ | ⟨i, d1, free, room | ⟨rfl, damaged, ⟨pages, d2⟩, room⟩⟩⟩
  · exact exec_objectTransfer_noQuota found unplaced named heard he recipe quota
  · exact exec_objectTransfer_noRecord found unplaced named heard he recipe quota full
  · exact exec_objectTransfer_noRoom found unplaced named heard he recipe quota free room
  · exact exec_objectTransfer_damaged found unplaced named heard he recipe quota free room damaged

/-- Settles O52, each clause by the equation of its message, transfer or timeout. -/
theorem handoffMessages : Obligations.HandoffMessages := by
  rintro s m d rfl
  have kept : (noteMsg s.dev m).ctx = s.dev.ctx := by
    obtain ⟨-, -, ctx, -⟩ := noteDigest_frame s.dev m.src m.compat m.domainEpoch m.digest
    exact ctx
  refine ⟨fun deaf k c hc => exec_handoff_deaf deaf hc, fun heard => ⟨fun k reset member new => exec_offer_held heard member new reset,
    fun k runs member new => ⟨exec_offer_refused heard member new runs, fun fits => ?_⟩, fun unknown => ⟨exec_accept_unknown heard unknown,
      fun c hc => ?_⟩, fun e known => ⟨fun opened holds => ?_, fun opened lost => ?_, fun closed c hc => ?_, fun opened => ?_,
      exec_handoffRelease_known heard known⟩, fun h known => ⟨exec_commit_placed heard known, exec_abort_known heard known⟩,
    fun unknown c hc => ?_, exec_confirm_unclaimed heard, fun c x claimed hx => ?_⟩,
    fun src id image inc h e found unplaced named heard he => ⟨fun why => exec_objectTransfer_refused found unplaced named heard he,
      fun n i d1 pages d2 sound recipe quota free room => ?_⟩, fun e x h hx hh => ⟨fun due => ?_, fun early => ?_, fun due => ?_,
      fun early => ?_⟩, fun src id => ⟨exec_handoffCommitTimeout_none s, fun h h2 x found hx still => ?_⟩⟩
  · obtain ⟨key, opens⟩ := hoUnwrap_of_offerReason fits
    exact ⟨_, _, exec_offer_taken heard member new runs fits opens, rfl, rfl, rfl, rfl, opens, rfl, rfl, kept⟩
  · simp only [List.mem_cons, List.not_mem_nil, or_false] at hc
    rcases hc with rfl | rfl
    · exact exec_handoffRefuse_unknown heard unknown
    · exact exec_handoffRelease_unknown heard unknown
  · refine ⟨accepted (noteMsg s.dev m) m e, exec_to (exec_accept_known heard known) ?_, ?_, kept⟩
    · rw [if_neg (not_not_intro opened), if_neg (by simp [holds])]
    · exact (hoOf_setHo _ e e _).trans (if_pos rfl)
  · refine exec_to (exec_accept_known heard known) ?_
    rw [if_neg (not_not_intro opened), if_pos (by simp [lost]), abortTo]
  · simp only [List.mem_cons, List.not_mem_nil, or_false] at hc
    rcases hc with rfl | rfl
    · exact exec_to (exec_accept_known heard known) (if_pos closed)
    · exact exec_to (exec_handoffRefuse_known heard known) (if_neg closed)
  · exact exec_to (exec_handoffRefuse_known heard known) (if_pos opened)
  · simp only [List.mem_cons, List.not_mem_nil, or_false] at hc
    rcases hc with rfl | rfl
    · exact exec_commit_unknown heard unknown
    · exact exec_abort_unknown heard unknown
  · subst hx
    exact ⟨fun src id h why known => exec_confirm_inbound heard claimed why known, fun e why => exec_confirm_reclaim heard claimed why,
      fun why => exec_confirm_restore heard claimed why⟩
  · obtain ⟨⟨t, record⟩, others⟩ := recOf_imagePlaced d2 src id h image i n pages
    refine ⟨_, exec_objectTransfer_placed found unplaced named heard he recipe quota free room sound, ?_⟩
    rw [record]
    exact ⟨rfl, rfl, rfl, rfl, rfl, rfl, others⟩
  · subst hx hh
    exact exec_to (exec_handoffAcceptTimeout s e) (if_pos due)
  · subst hx hh
    exact exec_to (exec_handoffAcceptTimeout s e) (if_neg (by simp [early]))
  · subst hx hh
    exact exec_to (exec_handoffReleaseTimeout s e) (if_pos due)
  · subst hx hh
    exact exec_to (exec_handoffReleaseTimeout s e) (if_neg (by simp [early]))
  · subst hx
    exact exec_handoffCommitTimeout_some s found still

end Sys2Proof.Machine
end

section
/-!
PROOFS. Pages that are taken, read, programmed and charged touch memory, flash, accounts and messages only (10 R289 to R291, R298; 11 R315 to
R318; 14 R402).
-/

namespace Sys2Proof.Machine

/-- Only memory, flash, accounts, messages and the count of free values differ. -/
def OnlyStorage (d e : Dev) : Prop := e = { d with mem := e.mem, fls := e.fls, seq := e.seq, out := e.out, fresh := e.fresh }

namespace OnlyStorage

variable {a b c d e : Dev}

theorem refl (d : Dev) : OnlyStorage d d := rfl

theorem trans (h : OnlyStorage a b) (k : OnlyStorage b c) : OnlyStorage a c := by
  unfold OnlyStorage at *; rw [k, h]

/-- After a change of these only. -/
theorem after (h : OnlyStorage b c) (first : OnlyStorage a b := by exact rfl) : OnlyStorage a c := first.trans h

theorem keeps (h : OnlyStorage d e) : e.ckp = d.ckp ∧ e.ctx = d.ctx ∧ e.lnk = d.lnk ∧ e.regs = d.regs := by
  unfold OnlyStorage at h
  rw [h]
  exact ⟨rfl, rfl, rfl, rfl⟩

theorem foldl {α : Type} {f : Dev → α → Dev} (each : ∀ d a, OnlyStorage d (f d a)) (l : List α) (d : Dev) : OnlyStorage d (l.foldl f d) :=
  List.foldlRecOn l f (refl d) fun e h a _ => h.trans (each e a)

end OnlyStorage

theorem onlyStorage_takeFar (n : Nat) : ∀ (used : List Nat) (d : Dev), OnlyStorage d (takeFar n used d).2 := by
  induction n with
  | zero => exact fun _ d => .refl d
  | succ n ih =>
    intro used d
    dsimp only [takeFar]
    split
    · exact .refl d
    · exact (ih _ _).after

theorem onlyStorage_flsNext {d e : Dev} {taken : List Nat} {p f : Nat} (h : flsNext d taken p = (f, e)) : OnlyStorage d e := by
  obtain rfl : (flsNext d taken p).2 = e := by rw [h]
  dsimp only [flsNext]
  split <;> split <;> exact rfl

theorem onlyStorage_flsTake {d e : Dev} {taken : List Nat} {f : Nat} (h : flsTake d taken = some (f, e)) : OnlyStorage d e := by
  dsimp only [flsTake] at h
  split at h
  · cases h
  · split at h
    · cases h
    · exact (onlyStorage_flsNext (Option.some.inj h)).after

theorem onlyStorage_flsTakes (n : Nat) : ∀ {taken fs : List Nat} {d e : Dev}, flsTakes n taken d = some (fs, e) → OnlyStorage d e := by
  induction n with
  | zero => intro taken fs d e h; cases h; exact .refl d
  | succ n ih =>
    intro taken fs d e h
    dsimp only [flsTakes] at h
    split at h
    · cases h
    · next took =>
      obtain ⟨⟨gs, e'⟩, rest, same⟩ := Option.map_eq_some_iff.1 h
      cases same
      exact (onlyStorage_flsTake took).trans (ih rest)

theorem onlyStorage_sealed (d : Dev) (t : Nat) : OnlyStorage d (sealed d t).2 := by
  dsimp only [sealed]
  split <;> exact rfl

theorem onlyStorage_sealSlots (fs : List Nat) : ∀ {extra : List Nat} {d e : Dev}, sealSlots fs extra d = some e → OnlyStorage d e := by
  induction fs with
  | nil => intro extra d e h; cases h; exact .refl d
  | cons f fs ih =>
    intro extra d e h
    dsimp only [sealSlots] at h
    split at h
    · exact (ih h).after
    · split at h
      · cases h
      · split at h
        · cases h
        · have rest := ih h
          exact (onlyStorage_takeFar 1 (usedFrames d 2 ++ extra) d).trans ((onlyStorage_sealed _ 2).trans rest.after)

theorem onlyStorage_takeT4 {n : Nat} {d e : Dev} {fs : List Nat} (h : takeT4 n d = some (fs, e)) : OnlyStorage d e := by
  dsimp only [takeT4] at h
  split at h
  · cases h
  · next took =>
    obtain ⟨e', slots, same⟩ := Option.map_eq_some_iff.1 h
    cases same
    exact ((onlyStorage_flsTakes n took).trans (onlyStorage_sealSlots _ slots)).after

theorem onlyStorage_locsAt (d : Dev) (t : Nat) (fs : List Nat) : OnlyStorage d (locsAt d t fs).2 :=
  List.foldlRecOn (motive := fun x : List Loc × Dev => OnlyStorage d x.2) fs _ (.refl d)
    fun x h _ _ => h.trans (onlyStorage_sealed x.2 t)

/-- Pages of the snapshot tier are taken (14 R394). -/
theorem onlyStorage_slateFrames {d e : Dev} {n : Nat} {ls : List Loc} (h : slateFrames d n = some (ls, e)) : OnlyStorage d e := by
  dsimp only [slateFrames] at h
  obtain ⟨⟨fs, x⟩, got, rest⟩ := Option.bind_eq_some_iff.1 h
  have taken : OnlyStorage d x := by
    split at got
    · exact onlyStorage_takeT4 got
    · split at got
      · cases got
      · have same : (takeFar n (usedFrames d 2) d).2 = x := congrArg Prod.snd (Option.some.inj got)
        exact same ▸ onlyStorage_takeFar n _ d
  split at rest
  · cases rest
  · have last : (locsAt x (fget d Fd.CKP_CFG_tier) fs).2 = e := congrArg Prod.snd (Option.some.inj rest)
    exact last ▸ taken.trans (onlyStorage_locsAt _ _ _)

theorem onlyStorage_chargeTier (d : Dev) (a t n : Nat) : OnlyStorage d (chargeTier d a t n) := rfl

theorem onlyStorage_flsRead (d : Dev) (l : Loc) (n : Nat) : OnlyStorage d (flsRead d l n) := by
  unfold flsRead
  split <;> exact rfl

theorem onlyStorage_nandProgram (d : Dev) (l : Loc) (tiles : List (List Byte)) : OnlyStorage d (nandProgram d l tiles) := by
  unfold nandProgram
  split <;> exact rfl

end Sys2Proof.Machine
end

section
/-!
PROOFS. What a buddy holds for other devices, and restores of sessions and devices (07 R227; 14 R401 to R406).
-/

namespace Sys2Proof.Machine

/-! ### Items held for other devices (14 R401, R402) -/

/-- An item is written, and charged to no client. -/
def itemWritten (d : Dev) (tiles : List Byte) (ls : List Loc) : Dev := ls.zipIdx.foldl (fun d l =>
  chargeTier (nandProgram d l.1 (((pieces 4120 tiles).drop (8 * l.2)).take 8)) unattributed l.1.tier tiles.length) d

theorem onlyStorage_itemWritten (d : Dev) (tiles : List Byte) (ls : List Loc) : OnlyStorage d (itemWritten d tiles ls) :=
  .foldl (fun d _ => (onlyStorage_nandProgram d _ _).trans (onlyStorage_chargeTier _ _ _ _)) _ d

/-- An item is read, and charged to no client. -/
def itemRead (d : Dev) (h : Held) : Dev := h.locs.foldl (fun d l => chargeTier (flsRead d l 1) unattributed l.tier h.data.length) d

theorem onlyStorage_itemRead (d : Dev) (h : Held) : OnlyStorage d (itemRead d h) :=
  .foldl (fun d _ => (onlyStorage_flsRead d _ _).trans (onlyStorage_chargeTier _ _ _ _)) _ d

section Buddy

variable {s : State} {src o slate name copy : Nat} {tiles : List Byte}

theorem exec_buddy_deaf (deaf : ckpServes s.dev = false ∨ s.dev.lnk.fenced.contains src = true) {c : Instr}
    (h : c ∈ [Instr.buddyPut src slate name copy tiles, .buddyRelease src o slate, .buddyFetch src o slate name copy,
      .buddyData src o slate name copy false true .page]) : exec c s = .next (s.settled s.dev) := by
  have off : (!ckpServes s.dev) = true ∨ s.dev.lnk.fenced.contains src = true := deaf.imp_left fun off => by simp [off]
  simp only [List.mem_cons, List.not_mem_nil, or_false] at h
  rcases h with rfl | rfl | rfl | rfl
  · change execBuddyPut src slate name copy tiles s = _
    exact lift_to (if_pos off)
  · change execBuddyRelease src o slate s = _
    exact lift_to (if_pos off)
  · change execBuddyFetch src o slate name copy s = _
    exact lift_to (if_pos off)
  · change execBuddyData src o slate name copy false true .page s = _
    exact lift_to (if_pos off)

variable (serves : ckpServes s.dev = true) (heard : s.dev.lnk.fenced.contains src = false)
include serves heard

theorem buddy_heeds : ¬ ((!ckpServes s.dev) = true ∨ s.dev.lnk.fenced.contains src = true) := by
  rw [serves, heard]
  decide

/-- What was held under a name makes room. -/
def displaced (d : Dev) (src slate name copy : Nat) : Dev := { d with ckp := { d.ckp with held := d.ckp.held.filter (fun h =>
  !(h.origin == src && h.slate == slate && h.name == name && h.copy == copy)) } }

/-- The pages of an item. -/
def itemPages (tiles : List Byte) : Nat := max 1 (ceilDiv (tiles.length / 4120 * 4096) pageSize)

/-- The answer to a put. -/
def putAnswer (d : Dev) (src slate name copy st : Nat) : Dev :=
  sendFrame d 4 0x40 src none (buddyBytes 2 st slate src name copy 0 [])

theorem exec_buddyPut_refused (full : fget s.dev Fd.CKP_BUDDY_LIM_mib * 2 ^ 20 <
      heldBytes (displaced s.dev src slate name copy) + pageSize * itemPages tiles ∨
      slateFrames (displaced s.dev src slate name copy) (itemPages tiles) = none) :
    exec (.buddyPut src slate name copy tiles) s = .next (s.settled (putAnswer s.dev src slate name copy 1)) := by
  change execBuddyPut src slate name copy tiles s = _
  refine lift_to ((if_neg (buddy_heeds serves heard)).trans ?_)
  dsimp only
  split
  · rfl
  · next fits =>
    have none := full.resolve_left fits
    unfold displaced itemPages at none
    simp only [none, putAnswer]

theorem exec_buddyPut_taken {ls : List Loc} {d2 : Dev} (fits : heldBytes (displaced s.dev src slate name copy) + pageSize * itemPages tiles
      ≤ fget s.dev Fd.CKP_BUDDY_LIM_mib * 2 ^ 20) (room : slateFrames (displaced s.dev src slate name copy) (itemPages tiles) = some (ls, d2))
    (item : tiles.length ≠ 64) : exec (.buddyPut src slate name copy tiles) s = .next (s.settled (putAnswer
      { itemWritten d2 tiles ls with ckp := { (itemWritten d2 tiles ls).ckp with held := (itemWritten d2 tiles ls).ckp.held ++
        [{ origin := src, slate := slate, name := name, copy := copy, data := tiles, locs := ls }] } } src slate name copy 0)) := by
  change execBuddyPut src slate name copy tiles s = _
  refine lift_to ((if_neg (buddy_heeds serves heard)).trans ?_)
  unfold displaced itemPages at fits room
  simp only [Nat.not_lt.2 fits, if_false, room, item, and_false, putAnswer, itemWritten]

theorem exec_buddyRelease_own : exec (.buddyRelease src src slate) s = .next (s.settled (forgetHeld s.dev src slate)) := by
  change execBuddyRelease src src slate s = _
  exact lift_to ((if_neg (buddy_heeds serves heard)).trans (if_pos rfl))

theorem exec_buddyRelease_other (other : o ≠ src) : exec (.buddyRelease src o slate) s = .next (s.settled (
    if s.dev.map.members.contains o then s.dev
    else { s.dev with ckp := { s.dev.ckp with
      held := s.dev.ckp.held.filter (fun h => h.origin != o), heldDone := s.dev.ckp.heldDone.filter (fun e => e.1 != o) } })) := by
  change execBuddyRelease src o slate s = _
  exact lift_to ((if_neg (buddy_heeds serves heard)).trans (if_neg other))

/-- The slate that a fetch names: 0 stands for the newest that is committed. -/
def fetchedSlate (d : Dev) (o slate : Nat) : Nat :=
  if slate = 0 then ((d.ckp.heldDone.filter (fun e => e.1 == o)).map Prod.snd).foldl max 0 else slate

theorem exec_buddyFetch_gone (gone : s.dev.ckp.held.find? (fun h => h.origin == o && h.slate == fetchedSlate s.dev o slate &&
      h.name == name && h.copy == copy) = none) : exec (.buddyFetch src o slate name copy) s = .next (s.settled
    (sendFrame s.dev 4 0x40 src none (buddyBytes 5 2 (fetchedSlate s.dev o slate) o name copy 0 []))) := by
  change execBuddyFetch src o slate name copy s = _
  refine lift_to ((if_neg (buddy_heeds serves heard)).trans ?_)
  unfold fetchedSlate at gone ⊢
  simp only [gone]

theorem exec_buddyFetch_held {h : Held} (found : s.dev.ckp.held.find? (fun h => h.origin == o && h.slate == fetchedSlate s.dev o slate &&
      h.name == name && h.copy == copy) = some h) : exec (.buddyFetch src o slate name copy) s = .next (s.settled
    (sendFrame (itemRead s.dev h) 4 0x40 src none
      (buddyBytes 5 0 (fetchedSlate s.dev o slate) o name copy (2 ^ (h.data.length / 4120) - 1) h.data))) := by
  change execBuddyFetch src o slate name copy s = _
  refine lift_to ((if_neg (buddy_heeds serves heard)).trans ?_)
  unfold fetchedSlate at found ⊢
  simp only [found, itemRead]

/-- A copy of one of this device's slates (14 R404). -/
theorem exec_buddyData_own (item : BuddyItem) (gone ver : Bool) (own : o = ownDevice s.dev) :
    exec (.buddyData src o slate name copy gone ver item) s = .next (s.settled (if src = ownBuddy s.dev then
      copyArrives s.dev slate name copy (!gone && ver && (match item with | .page => true | _ => false)) else s.dev)) := by
  change execBuddyData src o slate name copy gone ver item s = _
  refine lift_to ((if_neg (buddy_heeds serves heard)).trans ((if_pos own).trans ?_))
  cases item <;> rfl

end Buddy

/-! ### `RESTORE` of a session (07 R227; 14 R403 to R405) -/

theorem deviceMode_atDispatch {d : Dev} {r op : Nat} {f : Flight} (h : atDispatch d r op f) :
    deviceMode d r = bitOf (db f.desc 28 1) 0 := by
  obtain ⟨next, -⟩ := h
  simp only [deviceMode, next]

section Restore

variable {s : State} {r i : Nat} {f : Flight}

theorem exec_restore_named (gate : pastGate s.dev r 0x51 f) (session : bitOf (db f.desc 28 1) 0 = false) (names : namesSession s.dev f i)
    (live : (recOf s.dev i).state ∈ [RecState.active, .paused, .parked]) (still : ctxStateOf s.dev i ≠ .running)
    (kept : ctxStateOf s.dev i ≠ .saved) : exec (.restore r) s = .next (s.settled (restoreSession s.dev r f i)) := by
  obtain ⟨record, unwound⟩ := names
  have mode := (deviceMode_atDispatch gate.1).trans session
  change execRestore r s = _
  refine lift_to ((if_neg (by simp [mode])).trans ((dispatchGated_pastGate _ gate).trans ?_))
  refine withSess_names record live (fun rewound => absurd (unwound.symm.trans rewound) (by decide)) ?_ r _
  have live : (recOf s.dev i).state = .active ∨ (recOf s.dev i).state = .paused ∨ (recOf s.dev i).state = .parked := by simpa using live
  rcases live with h | h | h <;> simp [h, still, kept]

end Restore

/-- A session whose restore is under way. -/
def restoring (d : Dev) (i : Nat) (x : Restore) : Dev :=
  setRestore (updRec d i (fun r => { r with state := .moving, restoring := true })) i x

theorem restoring_keeps (d : Dev) (i : Nat) (x : Restore) :
    recOf (restoring d i x) i = { recOf d i with state := .moving, restoring := true } ∧
    (∀ j, j ≠ i → recOf (restoring d i x) j = recOf d j) ∧ look (restoring d i x).ckp.restores i = some x := by
  have same : ∀ j, recOf (restoring d i x) j = recOf (updRec d i (fun r => { r with state := .moving, restoring := true })) j :=
    fun j => recOf_congr rfl j
  simp only [same, recOf_updRec, if_true]
  exact ⟨trivial, fun j other => if_neg other, look_put_same _ i x⟩

/-- What is noted of a restore by command. -/
def restoreBegun (d : Dev) (ring : Nat) (f : Flight) (i : Nat) (sl : Slate) (fetching : Bool) : Restore :=
  { slate := sl.num, name := (recOf d i).name, only := db f.desc 24 4, ring := ring, flight := f.id, answers := true, fetching := fetching,
    before := (recOf d i).state }

section RestoreSession

variable {d : Dev} {r i : Nat} {f : Flight}

theorem restoreSession_waits (moving : sessGroups d i ≠ []) : restoreSession d r f i = d := if_pos (by simpa using moving)

variable (unmoved : sessGroups d i = [])
include unmoved

theorem restoreSession_none (none : bestSlate d (recOf d i).name (db f.desc 24 4) = none) :
    restoreSession d r f i = finish d r f.id stRestoreIncomplete 0 := by
  refine (if_neg (by simp [unmoved])).trans ?_
  simp only [none]

variable {sl : Slate} {sh : Shard} {cap : Rec} (session : sh.sess = some cap)
include session

theorem restoreSession_here {pages : NMap Loc} {d1 : Dev} (best : bestSlate d (recOf d i).name (db f.desc 24 4) = some (sl, sh, true))
    (room : placeT2T4 d (recOf d i).client (restorePages d i cap) = .ok pages d1) : restoreSession d r f i =
      restoring (dispatched d1 r f.id) i { restoreBegun d r f i sl false with reserved := true, pages := pages } := by
  refine (if_neg (by simp [unmoved])).trans ?_
  simp only [best, session, room, if_true]
  rfl

theorem restoreSession_away (best : bestSlate d (recOf d i).name (db f.desc 24 4) = some (sl, sh, false)) : restoreSession d r f i =
      restoring (fetchCopies (dispatched d r f.id) (recOf d i).name (missingCopies d sl sh)) i
        { restoreBegun d r f i sl true with await := missingCopies d sl sh } := by
  refine (if_neg (by simp [unmoved])).trans ?_
  simp only [best, session, Bool.false_eq_true, if_false]
  rfl

end RestoreSession

theorem onlyLinks_fetchCopies (name : Nat) (l : List (Nat × Nat)) (d : Dev) : OnlyLinks d (fetchCopies d name l) :=
  onlyLinks_foldl _ (fun _ _ => onlyLinks_sendFrame _ _ _ _ _ _) l d

/-! ### `RESTORE` of a device (14 R406) -/

theorem exec_restoreDevice_gated {s : State} {r : Nat} {f : Flight} (gate : pastGate s.dev r 0x51 f)
    (device : bitOf (db f.desc 28 1) 0 = true) : exec (.restoreDevice r) s = .next (s.settled (restoreDevice s.dev r f)) := by
  have mode := (deviceMode_atDispatch gate.1).trans device
  change execRestoreDevice r s = _
  exact lift_to ((if_pos mode).trans (dispatchGated_pastGate (restoreDevice · r ·) gate))

section RestoreDevice

variable {d : Dev} {r : Nat} {f : Flight}

theorem restoreDevice_foreign (other : sqClient d r ≠ fget d Fd.CKP_CFG_client) : restoreDevice d r f = finish d r f.id stSecurity 0 :=
  if_pos other

variable (own : sqClient d r = fget d Fd.CKP_CFG_client)
include own

theorem restoreDevice_conflict (h : db f.desc 30 2 ∈ d.map.members ∨ 1 < ckpState d) :
    restoreDevice d r f = finish d r f.id stStateConflict 0 := by
  refine (if_neg (not_not_intro own)).trans (if_pos ?_)
  refine h.imp List.contains_iff_mem.2 fun busy => ?_
  have : ¬ (ckpState d = 0 ∨ ckpState d = 1) := by omega
  simp [this]

/-- The restore of a device begins. -/
def deviceRestore (r : Nat) (f : Flight) : DevRestore :=
  { ring := r, flight := f.id, failed := db f.desc 30 2, buddy := db f.desc 32 2, want := db f.desc 24 4 }

theorem restoreDevice_asks (gone : db f.desc 30 2 ∉ d.map.members) (calm : ckpState d ≤ 1) : restoreDevice d r f =
    sendFrame (setDev (dispatched d r f.id) (some (deviceRestore r f))) 4 0x40 (db f.desc 32 2) none
      (buddyBytes 4 0 (db f.desc 24 4) (db f.desc 30 2) 0 0 0 []) := by
  refine (if_neg (not_not_intro own)).trans (if_neg ?_)
  rintro (member | busy)
  · exact gone (List.contains_iff_mem.1 member)
  · have : ckpState d = 0 ∨ ckpState d = 1 := by omega
    simp [this] at busy

end RestoreDevice

/-! ### `RESTORE_COMPLETE` (07 R227; 14 R404, R405) -/

section Complete

variable {s : State} {h : BitVec 32} {i : Nat}

theorem exec_restoreComplete_none (hi : i = h.toNat % 2 ^ 24) (none : look s.dev.ckp.restores i = none) (xs : List Incident) :
    exec (.restoreComplete h xs) s = .next (s.settled s.dev) := by
  subst hi
  change execRestoreComplete h xs s = _
  refine lift_to ?_
  simp only [none]

variable {x : Restore} (hi : i = h.toNat % 2 ^ 24) (under : look s.dev.ckp.restores i = some x)
include hi under

theorem exec_restoreComplete_other (other : handleOf s.dev i ≠ h.toNat ∨ ckpServes s.dev = false) (xs : List Incident) :
    exec (.restoreComplete h xs) s = .next (s.settled s.dev) := by
  subst hi
  have off : handleOf s.dev (h.toNat % 2 ^ 24) ≠ h.toNat ∨ (!ckpServes s.dev) = true := other.imp_right fun off => by simp [off]
  change execRestoreComplete h xs s = _
  refine lift_to ?_
  simp only [under]
  exact if_pos off

variable (handle : handleOf s.dev i = h.toNat) (serves : ckpServes s.dev = true)
include handle serves

omit hi under in
theorem restoreComplete_heeds : ¬ (handleOf s.dev i ≠ h.toNat ∨ (!ckpServes s.dev) = true) := by
  rw [serves, handle]
  simp

theorem exec_restoreComplete_fetching (fetching : x.fetching = true) (xs : List Incident) : exec (.restoreComplete h xs) s =
    .next (s.settled (if x.await.isEmpty then restoreGo s.dev i x
      else if (restoreShard s.dev x).any (fun p => buddyHelps s.dev p.1) then s.dev else restoreOlder s.dev i x)) := by
  have heeds := restoreComplete_heeds handle serves
  subst hi
  change execRestoreComplete h xs s = _
  refine lift_to ?_
  simp only [under]
  exact (if_neg heeds).trans (if_pos fetching)

variable {sl : Slate} {sh : Shard} {cap : Rec} (fetched : x.fetching = false) (shard : restoreShard s.dev x = some (sl, sh))
  (session : sh.sess = some cap) (reserved : x.reserved = true)
include fetched shard session reserved

/-- A restore whose pages have room: what it goes on with. -/
theorem exec_restoreComplete_reserved (xs : List Incident) : exec (.restoreComplete h xs) s = .next (s.settled (
    if x.answers then restoreRead s.dev i xs
    else if x.copied then restoreEnd s.dev i x cap sh.folded x.pages
    else if s.dev.dly.groups.any (fun g => g.obj == .restore i) then s.dev
    else restoreQueue s.dev i x x.pages)) := by
  have heeds := restoreComplete_heeds handle serves
  subst hi
  obtain ⟨⟩ := sh
  subst session
  change execRestoreComplete h xs s = _
  refine lift_to ?_
  simp only [under]
  refine (if_neg heeds).trans ?_
  simp only [fetched, shard, reserved, Bool.false_eq_true, if_false, true_and, if_true]

end Complete

section Read

variable {d : Dev} {i : Nat} {x : Restore} {sl : Slate} {sh : Shard} (under : look d.ckp.restores i = some x)
  (shard : restoreShard d x = some (sl, sh))
include under shard

theorem restoreRead_clean {cap : Rec} (session : sh.sess = some cap) : restoreRead d i [] = restoreEnd d i x cap sh.folded x.pages := by
  have clean : lastingTile [] = none := rfl
  simp only [restoreRead, suffer, List.foldl_nil, under, shard, clean, Option.bind_none, Option.filter_none, session]

theorem restoreRead_damaged {k : Nat} {c : Nat × Nat} (named : (shardCopies sl sh)[k]? = some c)
    (here : (look d.ckp.copies (c.1 * 2 ^ 32 + c.2)).isSome = true) : restoreRead d i [.tileLasting k] = copyFails d i x c := by
  have lasting : lastingTile [.tileLasting k] = some k := rfl
  have suffered : suffer d [.tileLasting k] = d := rfl
  simp only [restoreRead, suffered, under, shard, lasting, Option.bind_some, named, Option.filter_some, here, if_true]

end Read

/-- Settles O51: (1) each clause by the equation of its message or command; (2) by the record that a restore leaves. -/
theorem buddiesAndRestores : Obligations.BuddiesAndRestores := by
  refine ⟨fun s src o slate name copy tiles => ⟨fun deaf c hc => exec_buddy_deaf deaf hc, fun serves heard => ⟨?_,
    exec_buddyRelease_own serves heard, fun other member => ?_, fun other gone => ⟨_, exec_to (exec_buddyRelease_other serves heard other)
      (if_neg (by simpa using gone)), rfl, rfl⟩, ?_, fun item gone ver own => ⟨fun buddy => ?_, fun other => ?_⟩⟩,
    fun r f i gate session names live still kept => ⟨fun moving => ?_, fun unmoved => ⟨fun none => ?_, ?_, ?_⟩⟩,
    fun r f gate device => ⟨fun other => ?_, fun own => ⟨fun conflict => ?_, fun gone calm => ?_⟩⟩, fun h i hi => ⟨fun off xs => ?_,
      fun x under handle serves => ⟨exec_restoreComplete_fetching hi under handle serves, ?_⟩⟩⟩, fun d r cap slate folded pages => ?_⟩
  · rintro d1 n rfl rfl
    refine ⟨exec_buddyPut_refused serves heard, fun ls d2 fits room item => ⟨_, exec_buddyPut_taken serves heard fits room item, ?_⟩⟩
    obtain ⟨ckp, ctx, -⟩ := ((onlyStorage_slateFrames room).trans (onlyStorage_itemWritten d2 tiles ls)).keeps
    dsimp only
    rw [ckp, ctx]
    exact ⟨rfl, rfl, rfl⟩
  · exact exec_to (exec_buddyRelease_other serves heard other) (if_pos (by simpa using member))
  · rintro n rfl
    refine ⟨exec_buddyFetch_gone serves heard, fun held found => ⟨_, exec_buddyFetch_held serves heard found, ?_⟩⟩
    obtain ⟨ckp, ctx, -⟩ := (onlyStorage_itemRead s.dev held).keeps
    exact ⟨ckp, ctx⟩
  · refine exec_to (exec_buddyData_own serves heard item gone ver own) ((if_pos buddy).trans ?_)
    cases item <;> rfl
  · exact exec_to (exec_buddyData_own serves heard item gone ver own) (if_neg other)
  · exact exec_to (exec_restore_named gate session names live still kept) (restoreSession_waits moving)
  · exact exec_to (exec_restore_named gate session names live still kept) (restoreSession_none unmoved none)
  · intro sl sh cap pages d1 best sess room
    have run := exec_to (exec_restore_named gate session names live still kept) (restoreSession_here unmoved sess best room)
    obtain ⟨record, others, noted⟩ := restoring_keeps (dispatched d1 r f.id) i
      { restoreBegun s.dev r f i sl false with reserved := true, pages := pages }
    exact ⟨_, _, run, record, others, noted, rfl, rfl, rfl, rfl, rfl, rfl, rfl, rfl, rfl⟩
  · intro sl sh cap best sess
    have run := exec_to (exec_restore_named gate session names live still kept) (restoreSession_away unmoved sess best)
    obtain ⟨record, others, noted⟩ := restoring_keeps (fetchCopies (dispatched s.dev r f.id) (recOf s.dev i).name (missingCopies s.dev sl sh)) i
      { restoreBegun s.dev r f i sl true with await := missingCopies s.dev sl sh }
    have ctx := (onlyLinks_fetchCopies (recOf s.dev i).name (missingCopies s.dev sl sh) (dispatched s.dev r f.id)).ctx_eq
    simp only [recOf_congr ctx] at record others
    exact ⟨_, _, run, record, others, noted, rfl, rfl, rfl⟩
  · exact exec_to (exec_restoreDevice_gated gate device) (restoreDevice_foreign other)
  · exact exec_to (exec_restoreDevice_gated gate device) (restoreDevice_conflict own conflict)
  · exact ⟨_, exec_to (exec_restoreDevice_gated gate device) (restoreDevice_asks own gone calm), rfl, rfl⟩
  · cases under : look s.dev.ckp.restores i with
    | none => exact exec_restoreComplete_none hi under xs
    | some x => exact exec_restoreComplete_other hi under (off.resolve_left (by simp [under])) xs
  · rintro ⟨sl, sh⟩ cap fetched shard session reserved
    have run := exec_restoreComplete_reserved hi under handle serves fetched shard session reserved
    refine ⟨fun ends => ?_, fun k c answers named here => ?_, fun unanswered uncopied idle xs => ?_⟩
    · refine exec_to (run []) ?_
      by_cases answers : x.answers = true
      · rw [if_pos answers, restoreRead_clean under shard session]
      · rw [if_neg answers, if_pos (ends.resolve_left answers)]
    · refine exec_to (run _) ?_
      rw [if_pos answers, restoreRead_damaged under shard named here]
    · refine exec_to (run xs) ?_
      rw [if_neg (by simp [unanswered]), if_neg (by simp [uncopied]), if_neg]
      simpa using idle
  · exact ⟨rfl, rfl, rfl, rfl, rfl, rfl, rfl, rfl, rfl⟩

end Sys2Proof.Machine
end
